-- ==== Sys2Proof/Word.lean ====
section
/-!
DEFINITION. The word types of the model: registers are 32 bits wide and little-endian (chapter 00, Registers and
notation).
-/
namespace Sys2Proof

/-- A register word (R100). -/
abbrev Word := BitVec 32

/-- A byte of a frame or of a record. -/
abbrev Byte := BitVec 8

end Sys2Proof
end

