-- ==== Sys2Proof/Syntax.lean ====
section
/-!
DEFINITION. The commands of the block: one constructor per row of spec/opcode_table.json, with what the outside world
supplies as operands (frame bytes, readings, image contents, elapsed PTP time inside the epoch in quarter
nanoseconds, `dt`). The rows give no bits, so no word spells a command.
-/
namespace Sys2Proof

/-- What a tick carries besides its own time: what the world measured of the epoch just ended. Bytes of link time each
port lost, with the cause (0 PAUSE, 1 LINK, 2 CAPACITY; R55, R467), cycles in which a half's spilled queue stood with an
empty head (R426), core cycles lost to stretching and switching (R55, R511), words each Tansy engine retired and how
many of them were must-work (R514, R566), words of must-work each left unfinished (R54), update batches a half did not
receive intact, by engine and half (R312), and units whose copy of EPOCH went wrong, with the copy (R47). -/
structure TickIn where
  lostLink : List (Fin 1024 × Fin 3 × Nat) := []
  starved : Nat × Nat := (0, 0)
  lostCycles : Nat := 0
  words : Nat × Nat := (1, 1)
  owed : Nat × Nat := (0, 0)
  gzLost : List (Fin 2 × Fin 2) := []
  copies : List (Nat × BitVec 64) := []
  deriving DecidableEq, Repr

/-- One routine of a Tansy engine (R548): its entry address, whether its event kind is must-work (R548) and late work
(R545), the event's data, the words of its share that other work has taken in this epoch (R556), after how many words a tick came, if one did, with whether
must or late work was then pending (R545, R553), whether the event is a PEER_SIGNAL, and how many single-bit errors of
patch RAM and journal were corrected (R570). -/
structure TRoutine where
  entry : BitVec 16
  must : Bool := true
  late : Bool := false
  ev : List Word := []
  spent : Nat := 0
  tick : Option (Nat × Bool) := none
  signal : Bool := false
  corr : Nat := 0
  dt : Nat := 0
  deriving DecidableEq, Repr

/-- What an access to the BPM finds in its tags (R387): errors corrected, and buffers (pool, index) whose tag is
uncorrectable. -/
structure TagErrors where
  corr : Nat := 0
  bad : List (Fin 8 × BitVec 22) := []
  deriving DecidableEq, Repr

/-- Who issues a register access (R74, R88): PF0 is non-secure, PF1 and the out-of-band path are secure. -/
inductive Src where
  | pf0 | pf1 | oob
  deriving DecidableEq, Repr

/-- The shape of a bus request (R100, R521): one aligned or unaligned DW with all bytes enabled, two DWs, any other
size or partial byte enables, or a zero-length read. -/
inductive Shape where
  | dword | qword | odd | zeroLen
  deriving DecidableEq, Repr

/-- The posted-write domains of R108. -/
inductive PwDomain where
  | lane (l : Fin 1024)
  | mem (h : Fin 2) (d : Fin 6)
  | avs
  | ptp
  deriving DecidableEq, Repr

/-- One item of an image section, as the boot ROM loads it (R125, R666): a register write by BAR0 address (bank-relative
items name bank A's window), a mailbox write (address of the block's mailbox, index, value; a patch's header, match
entries and words are mailbox items of HK), or a reservation as SCH's mailbox stages it (R474). -/
inductive Item where
  | reg (addr : BitVec 27) (v : Word)
  | mbx (base : BitVec 27) (idx : Word) (v : BitVec 128)
  | resv (v : BitVec 128)
  deriving DecidableEq, Repr

/-- What the content of one section of an image body says (R125), which the spec lays out in no bytes (log entry 143): its
TYPE, its loadable items, and whether its content parses. -/
structure Section where
  type : Nat
  parses : Bool
  items : List Item
  deriving DecidableEq, Repr

/-- An image slot as the boot ROM reads it (R123): the bytes of its header, 0x000 to 0x22F, those of its body, and what its
sections say. `readable` is false where the flash, or host memory, fails to give them. -/
structure Image where
  readable : Bool
  header : List Byte
  body : List Byte
  sections : List Section
  deriving DecidableEq, Repr

/-- What reaches a slice's MAC of one frame (R197, R198, R223): a whole frame, the first bytes of a longer one, or the
rest of the frame whose first bytes came before. `fcsOk` and `errBlock` are known with the last byte; `rateExceeded`
says the MAC's buffers were full (R34); `dt` is the time of the message timestamp point; `total` is, with the first bytes,
the length in bytes that the frame comes to, FCS included (R232). -/
inductive RxPart where
  | whole | head | tail
  deriving DecidableEq, Repr

/-- What auto-negotiation resolves (R163): the technology's lanes and lane rate, the FEC by PT_CFG.FEC's codes. -/
structure AnResult where
  lanes : Nat
  rate : Fin 4
  fec : Fin 4
  deriving DecidableEq, Repr

/-- What a lane measures in a 64 us window (R174, R177, R188, R218): the SNR in 1/64 dB, the transition density, and since the
last window the bits its checker found wrong and its port's FEC blocks corrected, blocks not correctable, symbols corrected. -/
structure LaneWindow where
  snrQ : Nat
  td : BitVec 8
  errs : Nat := 0
  fecCorr : Nat := 0
  fecUncorr : Nat := 0
  fecSym : Nat := 0
  deriving DecidableEq, Repr

/-- One FRAME_RX event: `dt` is the time of its message timestamp point, for a tail of its last byte. -/
structure RxFrame where
  port : Fin 1024
  part : RxPart
  bytes : List Byte
  fcsOk : Bool
  errBlock : Bool
  rateExceeded : Bool
  dt : Nat
  total : Nat := 0
  deriving DecidableEq, Repr

/-- A table word that a packet reads in its stages (R291): the program entry of a stage, word w of the key build
descriptor of a lookup, the k-th action word run, the group entry, the i-th member entry, the mirror session. -/
inductive TblPlace where
  | prog (g : Fin 28)
  | kbd (g : Fin 28) (l : Fin 3) (w : Fin 6)
  | word (g : Fin 28) (k : Fin 4)
  | group
  | member (i : Fin 64)
  | session
  deriving DecidableEq, Repr

/-- What a read of a table word finds (R246, R668): a single-bit error, an error that the shadow mends, or both copies
bad. -/
inductive TblErr where
  | corr | restored | bad
  deriving DecidableEq, Repr

/-- What a mailbox read finds in the entry (R668): no error, a single-bit error, an error that the shadow mends, or both
copies bad, with the working copy as it is stored. -/
inductive ReadErr where
  | none | corr | restored
  | bad (stored : BitVec 128)
  deriving DecidableEq, Repr

/-- A place of a Gazetteer lookup: a candidate bucket, from 2 on of the target partition (R323), or an overflow entry. -/
inductive GzPlace where
  | cand (c : Fin 4)
  | ovf (i : Fin 16384)
  deriving DecidableEq, Repr

/-- What befell a cell before it is read (R401, R438): its place, the bytes changed in it, with the bits that changed, and the bits
that changed in its stored detection code. -/
structure CellErr where
  place : Nat
  bytes : List (Fin 256 × Byte) := []
  code : BitVec 16 := 0
  deriving DecidableEq, Repr

/-- What befalls one packet in the parser and the stages beside its program: parity errors of the header vector or
descriptor (R287, R288: at a stage, in its key builds (0) or as its k-th microword reads; stage 28 is the deparser);
parser entries corrected, restored, or bad in both copies by table and entry number (R246, R668); table words of the
stages (R291); Gazetteer places found bad, by stage and lookup A or B (R326); ASE result words corrected or restored
(R363), and ternary cells flipped by now: bank, row, bits of value and of mask (R364); stateful words corrected or lost
(R270); an error of a record or frame cell, by place in the copy (R438); the slips and held issue cycles its searches met and the
stages whose search the throttle held (R357, R369). -/
structure Upsets where
  parity : List (Fin 29 × Fin 5) := []
  ttCorr : Nat := 0
  ttUncorr : List (Fin 3 × Nat) := []
  ttBad : List (Fin 3 × Nat) := []
  tbl : List (TblPlace × TblErr) := []
  gzParity : List (Fin 28 × Fin 2 × GzPlace) := []
  aseCorr : List (Fin 28) := []
  aseUncorr : List (Fin 28) := []
  aseFlips : List (Fin 16 × Fin 2048 × BitVec 80 × BitVec 80) := []
  suCorr : List (Fin 28) := []
  suUncorr : List (Fin 28 × Fin 2) := []
  badCell : Option CellErr := none
  slips : Nat := 0
  holds : Nat := 0
  throttled : List (Fin 28) := []
  deriving DecidableEq, Repr

/-- The commands and events of the OX1024, in the order of the table. -/
inductive Instr where
  /-- TICK (R49). -/
  | tick (x : TickIn)
  /-- LATE_LIMIT (R58). -/
  | lateLimit (c : Fin 3)
  /-- JUMP_TICK (R41). -/
  | jumpTick (x : TickIn)
  /-- JUMP_REQ (R41). -/
  | jumpReq (dt : Nat)
  /-- GSYNC_WORD_RX (R61). -/
  | gsyncWordRx (word : BitVec 128) (dt : Nat)
  /-- GSYNC_HOLDOVER (R66). -/
  | gsyncHoldover
  /-- TIME_STEP (R72). -/
  | timeStep (src : Src) (v : BitVec 128) (dt : Nat)
  /-- TIME_OFFSET (R71). -/
  | timeOffset (src : Src) (v : BitVec 64) (dt : Nat)
  /-- TIME_FREQ_WRITE (R72). -/
  | timeFreqWrite (src : Src) (v : Word)
  /-- PPS_IN_EDGE (R70). -/
  | ppsInEdge (dt : Nat)
  /-- PPS_IN_LOST (R70). -/
  | ppsInLost
  /-- PPS_OUT_PULSE (R650). -/
  | ppsOutPulse (dt : Nat) (rise : Bool)
  /-- REGISTER_WRITE (R100). -/
  | registerWrite (src : Src) (bar : Fin 3) (off : BitVec 27) (shape : Shape) (v : Word) (dt : Nat)
  /-- READ_TIMEOUT (R77). -/
  | readTimeout (src : Src) (off : BitVec 27)
  /-- STATUS_ACK (R107). -/
  | statusAck (src : Src) (off : BitVec 27) (v : Word)
  /-- MAILBOX_READ (R105); `err` is what the read finds in the entry (R668). -/
  | mailboxRead (src : Src) (base : BitVec 27) (dt : Nat) (err : ReadErr)
  /-- MAILBOX_WRITE (R105). -/
  | mailboxWrite (src : Src) (base : BitVec 27) (dt : Nat)
  /-- MAILBOX_COMPLETE (R104). -/
  | mailboxComplete (base : BitVec 27)
  /-- POSTED_WRITE (R108). -/
  | postedWrite (src : Src) (off : BitVec 27) (v : Word)
  /-- POSTED_WRITE_APPLY (R108). -/
  | postedWriteApply (dom : PwDomain) (dt : Nat)
  /-- WLD_LOCK_SET (R99). -/
  | wldLockSet (src : Src) (v : Word)
  /-- FLR (R75). -/
  | flr (pf : Fin 2)
  /-- PCIE_LINK_DOWN (R76). -/
  | pcieLinkDown
  /-- PCIE_LINK_UP (R112). -/
  | pcieLinkUp (speed : Fin 7) (width : BitVec 8) (flit : Bool)
  /-- PERST_N_ASSERT (R649). -/
  | perstAssert
  /-- DOORBELL_WRITE (R81). -/
  | doorbellWrite (src : Src) (off : BitVec 27) (shape : Shape) (v : Word)
  /-- PUNT_DELIVER (R83); `desc` are the 16 bytes of the descriptor at HEAD, little-endian. -/
  | puntDeliver (n : Fin 64) (desc : BitVec 128)
  /-- INJECT_FRAME (R389). -/
  | injectFrame (n : Fin 64) (desc : BitVec 128) (bytes : List Byte) (dt : Nat)
  /-- OOB_READ32 (R91): the target address, the offset; the read does not complete in 100 us; the controller acknowledges
  the last byte and clocks a further one. -/
  | oobRead32 (addr : BitVec 7) (off : Word) (timeout more : Bool)
  /-- OOB_WRITE32 (R91): `pec` is the byte after D3, if one comes. -/
  | oobWrite32 (addr : BitVec 7) (off : Word) (v : Word) (pec : Option Byte) (dt : Nat)
  /-- OOB_BAD_COMMAND (R90). -/
  | oobBadCommand (addr : BitVec 7) (cmd : Byte)
  /-- OOB_STOP_EARLY (R90). -/
  | oobStopEarly
  /-- OOB_SCL_TIMEOUT (R90). -/
  | oobSclTimeout
  /-- PORST_N_ASSERT (R115). -/
  | porstAssert
  /-- PORST_N_RELEASE (R38), with STRAP_ADDR and STRAP_TST (R640). -/
  | porstRelease (strap : BitVec 2) (tst : Bool)
  /-- SYSRST_PULSE (R116). -/
  | sysrstPulse (longEnough : Bool)
  /-- BOOT_IMAGE_SELECT (R132); `sfdp` is log2 of the flash's size in bytes from its SFDP tables, none without a valid SFDP
  signature (R121). -/
  | bootImageSelect (sfdp : Option (BitVec 8)) (a b : Image)
  /-- BOOT_RUNNING (R135). -/
  | bootRunning (ms : Nat)
  /-- VERIFY (R140). -/
  | verify (img : Image) (slot : Fin 2)
  /-- APPLY (R141). -/
  | apply (img : Image) (slot : Fin 2)
  /-- LOAD_HOST (R137). -/
  | loadHost (img : Image)
  /-- ADVANCE_ROLLBACK (R142). -/
  | advanceRollback
  /-- REBOOT (R116). -/
  | reboot
  /-- BOOT_CMD_COMPLETE (R153). -/
  | bootCmdComplete
  /-- READ_PAGE (R138). -/
  | readPage
  /-- PROGRAM_PAGE (R139). -/
  | programPage
  /-- ERASE_4K (R139). -/
  | erase4k
  /-- ERASE_64K (R139). -/
  | erase64k
  /-- FLASH_CMD_DONE (R138). -/
  | flashCmdDone (ok : Bool) (page : List Byte)
  /-- BANK_SEAL (R145). -/
  | bankSeal (bank : Fin 2) (seq : BitVec 16)
  /-- BANK_SWAP_ARM (R145). -/
  | bankSwapArm
  /-- BANK_UNSEAL (R145). -/
  | bankUnseal
  /-- BANK_DRAIN_END (R145). -/
  | bankDrainEnd
  /-- BANK_DRAIN_EXPIRE (R151). -/
  | bankDrainExpire
  /-- LANE_DETECT_START (R159). -/
  | laneDetectStart (p : Fin 1024)
  /-- ENTER_TEST (R159). -/
  | enterTest (l : Fin 1024)
  /-- LEAVE_TEST (R159). -/
  | leaveTest (l : Fin 1024)
  /-- SIGNAL_DETECTED (R159). -/
  | signalDetected (l : Fin 1024)
  /-- TERMINATION_SENSE (R163). -/
  | terminationSense (l : Fin 1024) (present : Bool)
  /-- AN_COMPLETE (R163). -/
  | anComplete (p : Fin 1024) (r : AnResult)
  /-- AN_RESTART (R159). -/
  | anRestart (p : Fin 1024)
  /-- RECEIVER_READY (R159). -/
  | receiverReady (l : Fin 1024) (partner precodeTx precodeRx : Bool) (loss : BitVec 8)
  /-- TRAIN_TIMEOUT (R159). -/
  | trainTimeout (l : Fin 1024)
  /-- TRAIN_SIGNAL_LOST (R159). -/
  | trainSignalLost (l : Fin 1024)
  /-- LOCK_HELD (R159). -/
  | lockHeld (p : Fin 1024) (skew : Nat)
  /-- LOCK_TIMEOUT (R159). -/
  | lockTimeout (l : Fin 1024)
  /-- SURVEY_TX (R167). -/
  | surveyTx (p : Fin 1024)
  /-- SURVEY_RX (R172): an LLDPDU without its FCS, which is good. -/
  | surveyRx (p : Fin 1024) (frame : List Byte)
  /-- EXCH_TIMEOUT (R168). -/
  | exchTimeout (p : Fin 1024)
  /-- LOSS_OF_LOCK (R181). -/
  | lossOfLock (l : Fin 1024)
  /-- FEC_ALIGN_LOSS (R206). -/
  | fecAlignLoss (p : Fin 1024)
  /-- FAULT_ORDERED_SET_RX (R206). -/
  | faultOrderedSetRx (p : Fin 1024) (remote : Bool)
  /-- RETRAIN (R159). -/
  | retrain (l : Fin 1024)
  /-- PARTNER_RETRAIN (R159): lane l of the port sees the partner's retrain. -/
  | partnerRetrain (l : Fin 1024)
  /-- LANE_RESET (R159). -/
  | laneReset (l : Fin 1024)
  /-- REFCLK_LOSS (R183). -/
  | refclkLoss (die : Fin 16)
  /-- REFCLK_RETURN (R183). -/
  | refclkReturn (die : Fin 16)
  /-- FOM_WINDOW (R174). -/
  | fomWindow (l : Fin 1024) (w : LaneWindow)
  /-- FOM_REBASE (R178). -/
  | fomRebase (l : Fin 1024)
  /-- RETRAIN_REQ (R179). -/
  | retrainReq (l : Fin 1024)
  /-- EYE_START (R187). -/
  | eyeStart (l : Fin 1024)
  /-- EYE_SCAN_DONE (R187). -/
  | eyeScanDone (l : Fin 1024) (points : List (BitVec 16))
  /-- BITSLIP (R189). -/
  | bitslip (l : Fin 1024)
  /-- CHK_CLEAR (R188). -/
  | chkClear (l : Fin 1024)
  /-- OCTET_MODE_CHANGE (R195). -/
  | octetModeChange (s : Fin 32) (k : Fin 4) (mode : Fin 16)
  /-- CLEAR_STATS (R195). -/
  | clearStats (s : Fin 32)
  /-- FRAME_RX (R198). -/
  | frameRx (r : RxFrame)
  /-- MAC_CONTROL_RX (R211): a good frame of 64 bytes, its last byte `dt` after the last tick. -/
  | macControlRx (p : Fin 1024) (opcode : BitVec 16) (vec : BitVec 8) (quanta : List (BitVec 16)) (dt : Nat)
  /-- PAUSE_EXPIRE (R212). -/
  | pauseExpire (p : Fin 1024) (prio : Fin 8) (dt : Nat)
  /-- PAUSE_REFRESH (R213). -/
  | pauseRefresh (p : Fin 1024) (prio : Fin 8)
  /-- PFC_WATCHDOG (R215). -/
  | pfcWatchdog (p : Fin 1024) (prio : Fin 8)
  /-- PFC_WATCHDOG_END (R215). -/
  | pfcWatchdogEnd (p : Fin 1024) (prio : Fin 8)
  /-- LIVE_SET (R208). -/
  | liveSet (p : Fin 1024)
  /-- TS_FIFO_POP (R220). -/
  | tsFifoPop (src : Src) (p : Fin 1024)
  /-- PARSE_START (R229). -/
  | parseStart (s : Fin 32) (dt : Nat) (up : Upsets)
  /-- LATE_MALFORMED (R237). -/
  | lateMalformed (fid : Nat)
  /-- ADMISSION (R406). -/
  | admission (s : Fin 32) (dt : Nat)
  /-- CHARGE_CORRECT (R408). -/
  | chargeCorrect (fid : Nat)
  /-- REPLICATE (R416). -/
  | replicate (h : Fin 2)
  /-- FABRIC_CRC_ERROR (R625). -/
  | fabricCrcError (h : Fin 2) (lane : Fin 32) (retries : Nat) (s : Fin 32)
  /-- FABRIC_LANE_SPARE (R625). -/
  | fabricLaneSpare (h : Fin 2) (lane : Fin 32)
  /-- SCHEDULER_DECISION (R445). -/
  | schedulerDecision (p : Fin 1024) (dt : Nat) (up : Upsets)
  /-- TX_COMPLETE (R150). -/
  | txComplete (p : Fin 1024) (dt : Nat)
  /-- RECIRC_DEQUEUE (R280). -/
  | recircDequeue (s : Fin 32) (dt : Nat) (up : Upsets)
  /-- WHEEL_SLOT_RELEASE (R453). -/
  | wheelSlotRelease (s : Fin 32) (dt : Nat)
  /-- WHEEL_COARSE_MOVE (R453). -/
  | wheelCoarseMove (s : Fin 32) (dt : Nat)
  /-- WRITE_DOWN_START (R422). -/
  | writeDownStart (h : Fin 2) (badCells : List CellErr)
  /-- WRITE_DOWN_DONE (R422). -/
  | writeDownDone (h : Fin 2) (d : Fin 6) (crcErrors : Fin 5)
  /-- READ_UP_REQUEST (R423). -/
  | readUpRequest (h : Fin 2)
  /-- READ_UP_ARRIVE (R423). -/
  | readUpArrive (h : Fin 2) (buf : Nat) (crcErrors : Fin 5) (eccCorr eccUncorr : Bool) (badCells : List CellErr)
  /-- DEVICE_EXCLUDE (R436). -/
  | deviceExclude (h : Fin 2) (d : Fin 6)
  /-- EXCLUDE (R436). -/
  | exclude (h : Fin 2) (d : Fin 6)
  /-- RESTORE (R436). -/
  | restore (h : Fin 2) (d : Fin 6) (trained : Bool)
  /-- MEM_RETRAIN (R437). -/
  | memRetrain (h : Fin 2) (d : Fin 6)
  /-- DATA_RATE_CHANGE (R437). -/
  | dataRateChange (h : Fin 2) (d : Fin 6)
  /-- DEVICE_RETRAIN_DONE (R437). -/
  | deviceRetrainDone (h : Fin 2) (d : Fin 6) (trained : Bool) (density : Fin 3)
  /-- DRIFT_COMPENSATION (R433). -/
  | driftCompensation (h : Fin 2) (d : Fin 6)
  /-- ADD (R461). -/
  | add
  /-- REMOVE (R459). -/
  | remove
  /-- SET_PORT (R461). -/
  | setPort
  /-- SCH_CMD_DONE (R459). -/
  | schCmdDone
  /-- RESERVATION_RECHECK (R462). -/
  | reservationRecheck (p : Fin 1024)
  /-- INSERT (R318). -/
  | insert (src : Src) (h : Fin 2) (cmd : Word)
  /-- DELETE (R314). -/
  | delete (src : Src) (h : Fin 2) (cmd : Word)
  /-- SEARCH (R316). -/
  | search (src : Src) (h : Fin 2) (cmd : Word)
  /-- NEXT (R317). -/
  | next (src : Src) (h : Fin 2) (cmd : Word)
  /-- FLUSH_BY_PORT (R314). -/
  | flushByPort (src : Src) (h : Fin 2) (cmd : Word)
  /-- AGE (R314). -/
  | age (src : Src) (h : Fin 2) (cmd : Word)
  /-- GZ_BAD_OP (R340). -/
  | gzBadOp (src : Src) (h : Fin 2) (cmd : Word)
  /-- GZ_CMD_DONE (R315); `bad` are the overflow entries (true) and buckets its reads find with bad parity (R326). -/
  | gzCmdDone (p : Fin 3) (bad : List (Bool × Nat))
  /-- GZ_BATCH_ARM (R311). -/
  | gzBatchArm (e : Fin 2)
  /-- GZ_PIN_EXPIRE (R311). -/
  | gzPinExpire (h : Fin 2)
  /-- VERSION_RECORD_RETIRE (R310). -/
  | versionRecordRetire
  /-- BUCKET_RESTORE_DONE (R327); `otherBad` says that the read of the other replica meets bad parity (R328). -/
  | bucketRestoreDone (h : Fin 2) (ovf : Bool) (index : Nat) (otherBad : Bool)
  /-- REHASH_START (R322). -/
  | rehashStart (h : Fin 2) (cmd : Word)
  /-- REHASH_SWITCH (R323). -/
  | rehashSwitch (t : Fin 16) (bad : List (Fin 2 × Bool × Nat))
  /-- REHASH_DONE (R323). -/
  | rehashDone (t : Fin 16)
  /-- REHASH_FAIL (R323). -/
  | rehashFail (t : Fin 16)
  /-- LEARN_EVENT_ARRIVE (R332). -/
  | learnEventArrive (s : Fin 32) (bad : List (Fin 2 × Bool × Nat))
  /-- SETTLE_WINDOW_CLOSE (R332). -/
  | settleWindowClose (bad : List (Fin 2 × Bool × Nat))
  /-- FLAP_HOLD_END (R334). -/
  | flapHoldEnd
  /-- AGE_STEP_DUE (R336). -/
  | ageStepDue (t : Fin 16)
  /-- AGE_STEP (R336). -/
  | ageStep (t : Fin 16) (bad : List (Fin 2 × Bool × Nat))
  /-- OVERFLOW_MOVE_BACK (R320). -/
  | overflowMoveBack (t : Fin 16) (i : Nat) (bad : List (Fin 2 × Bool × Nat))
  /-- ASE_UPDATE (R361). -/
  | aseUpdate (s : Fin 32) (cmd : Word)
  /-- ASE_UPDATE_COMMIT (R360). -/
  | aseUpdateCommit (s : Fin 32)
  /-- ASE_SCRUB_ROW (R364). -/
  | aseScrubRow (s : Fin 32) (wrong bad : List (Fin 16))
  /-- BPM_ALLOC (R394). -/
  | bpmAlloc (src : Src) (cmd : Word) (tags : TagErrors)
  /-- BPM_FREE (R385). -/
  | bpmFree (src : Src) (tags : TagErrors)
  /-- BPM_RECLAIM (R395). -/
  | bpmReclaim (cmd : Word) (tags : TagErrors)
  /-- FLOW_IDLE_EXPIRE (R486): the sweep comes to entry n (set * 4 + way); `bad`: it is uncorrectable (R487). -/
  | flowIdleExpire (h : Fin 2) (n : Nat) (bad : Bool)
  /-- FLOW_ACTIVE_EXPIRE (R486). -/
  | flowActiveExpire (h : Fin 2) (n : Nat) (bad : Bool)
  /-- FLOW_FLUSH (R487); `bad` are the uncorrectable entries. -/
  | flowFlush (h : Fin 2) (bad : List (Fin 262144))
  /-- TEMPLATE_SEND (R499). -/
  | templateSend (r : Fin 16)
  /-- MESSAGE_FLUSH_TIMEOUT (R499). -/
  | messageFlushTimeout (r : Fin 16)
  /-- EXPORT_MESSAGE_SEND (R503). -/
  | exportMessageSend (r : Fin 16) (dt : Nat)
  /-- ARCHIVE_COPY (R502). -/
  | archiveCopy (cmd : Word)
  /-- ARCH_DONE (R502). -/
  | archDone
  /-- SNAPSHOT_COMPLETE (R518). -/
  | snapshotComplete (us : Nat)
  /-- SWEEP_DONE (R527). -/
  | sweepDone
  /-- SWEEP_OVERRUN (R528). -/
  | sweepOverrun
  /-- START (R515). -/
  | start
  /-- STOP (R515). -/
  | stop
  /-- CLEAR (R515). -/
  | clear
  /-- PMU_CMD_CLEAR (R534). -/
  | pmuCmdClear (m : Fin 35)
  /-- CLEAR_CYCLE (R534). -/
  | clearCycle (m : Fin 35)
  /-- SLICE_SAMPLE (R529). -/
  | sliceSample (s : Fin 32)
  /-- TANSY_SAMPLE (R532). -/
  | tansySample (e : Fin 2) (entry word : BitVec 16) (cycles : Nat) (must late committed : Bool)
  /-- SAMPLE_POP (R531). -/
  | samplePop (m : Fin 35) (e : Fin 2)
  /-- TANSY_ROUTINE (R548). -/
  | tansyRoutine (e : Fin 2) (x : TRoutine)
  /-- ENGINE_FAILURE (R567). -/
  | engineFailure (e : Fin 2) (code : Fin 10) (uaddr : BitVec 16) (post : Bool)
  /-- PEER_SILENT (R566). -/
  | peerSilent (e : Fin 2)
  /-- HEARTBEAT_FAIL (R566). -/
  | heartbeatFail (e : Fin 2)
  /-- PATCH_RELOAD_DONE (R568). -/
  | patchReloadDone (e : Fin 2) (bad : List Nat)
  /-- ENGINE_RUNNING (R568). -/
  | engineRunning (e : Fin 2)
  /-- RESTART_WINDOW_CLOSE (R571). -/
  | restartWindowClose (e : Fin 2)
  /-- HK_STOP (R577). -/
  | hkStop (e : Fin 4)
  /-- HK_START (R577). -/
  | hkStart (e : Fin 4)
  /-- HK_RESTART (R571). -/
  | hkRestart (e : Fin 4)
  /-- PATCH_SWAP (R574). -/
  | patchSwap (e : Fin 4)
  /-- COMMAND_FETCH (R562). -/
  | commandFetch (entry : List Byte)
  /-- NOP (R559). -/
  | nop
  /-- GZ (R560). -/
  | gz
  /-- SCH (R560). -/
  | sch
  /-- FENCE (R560). -/
  | fence
  /-- RESPONSE_WRITE (R561). -/
  | responseWrite
  /-- HOST_EVENT_POST (R564). -/
  | hostEventPost
  /-- CONTROL_STEP (R592). -/
  | controlStep
  /-- CLOCK_SWITCH_SHALLOWER (R580). -/
  | clockSwitchShallower
  /-- AVS_READ_POLL (R581). -/
  | avsReadPoll (rd : Option ((Nat × Nat) × (Nat × Nat)))
  /-- DROOP_DETECT (R586). -/
  | droopDetect (dom : Fin 34)
  /-- DROOP_RECOVER (R586). -/
  | droopRecover (dom : Fin 34)
  /-- SENSOR_READ (R588). -/
  | sensorRead (sensor : Fin 112) (tj : BitVec 8)
  /-- PACE_SAMPLE (R598). -/
  | paceSample (low : BitVec 3)
  /-- STEP_STALE (R589). -/
  | stepStale
  /-- FAULT_EVENT (R611). -/
  | faultEvent (dt : Nat)
  /-- PATH_FAILED (R608). -/
  | pathFailed (src : BitVec 12)
  /-- FAULT_WINDOW_CLOSE (R611). -/
  | faultWindowClose (src : BitVec 12)
  /-- SLICE_REJOIN (R616). -/
  | sliceRejoin (s : Fin 32)
  /-- RESET_SHADOW_END (R622). -/
  | resetShadowEnd (kind : Fin 5) (n : Nat)
  /-- FATAL_RESET (R618). -/
  | fatalReset
  /-- FAULT_N_RELEASE (R621). -/
  | faultNRelease
  /-- INJECT (R631). -/
  | inject (cmd : Word) (dt : Nat)
  /-- UNFENCE (R617). -/
  | unfence (s : Fin 32)
  /-- LEAVE_SAFE (R628). -/
  | leaveSafe
  /-- RELEASE (R621). -/
  | release
  /-- SAFE_ENTER (R628). -/
  | safeEnter
  /-- WARDEN_STALL (R629). -/
  | wardenStall (back : Bool)
  /-- COLLECTOR_STALL (R629). -/
  | collectorStall
  /-- LOG_POP (R633). -/
  | logPop
  /-- RAIL_MONITOR_TRIP (R645). -/
  | railMonitorTrip
  /-- RAIL_MONITOR_RELEASE (R645). -/
  | railMonitorRelease (strap : BitVec 2) (tst : Bool)
  /-- CORE_REF_LOSS (R648). -/
  | coreRefLoss
  /-- CORE_REF_RETURN (R648). -/
  | coreRefReturn
  /-- REGISTER_READ (R101). -/
  | registerRead (src : Src) (bar : Fin 3) (off : BitVec 27) (shape : Shape) (dt : Nat)
  /-- SYSRST_N_RELEASE (R116). -/
  | sysrstRelease
  /-- PERST_N_RELEASE (R649). -/
  | perstRelease
  /-- RELOCK (R182). -/
  | relock (p : Fin 1024)
  /-- FEC_ALIGN_REGAINED (R205). -/
  | fecAlignRegained (p : Fin 1024)
  /-- LINK_FAULT_CLEARED (R206). -/
  | linkFaultCleared (p : Fin 1024)
  /-- CHECKER_SELF_ALIGNED (R189). -/
  | checkerSelfAligned (l : Fin 1024)
  deriving DecidableEq, Repr

end Sys2Proof
end

