-- ==== Sys2Proof/Decode.lean ====
section
/-!
DEFINITION. The table of commands gives no row any bits: no word spells a command.
-/
namespace Sys2Proof

/-- The command a word spells by the table's bits: none, since no row has bits. -/
def decodeTableWord (_nbits _w : Nat) : Option Instr := none

end Sys2Proof
end

