-- ==== Sys2Proof/Config.lean ====
section
/-!
DEFINITION. What the spec fixes for no OX1024, or leaves open: free values. A free value is a constant without a body,
applied to a counter of State (log entry 1), so that no proof can see which value it is.
-/
namespace Sys2Proof

/-- The n-th free value the machine draws: random numbers, values the spec says are undefined or does not state (log
entry 1). -/
opaque Config.freeWord : Nat → BitVec 64

/-- Microword n of Tansy's mask ROM: the spec gives the routines' effects, not the words (chapter 16). -/
opaque Config.tansyRom : Nat → BitVec 144

/-- How many failures of a memory row are "repeatedly" (R32). -/
opaque Config.rowLimit : Nat

/-- The spare rows of the memory whose faults a source reports (R32). -/
opaque Config.spareRows : Nat → Nat

end Sys2Proof
end

