-- ==== Sys2Proof/Machine/RegMap.lean ====
section
/-!
DEFINITION. The register map: for every block, the registers its chapter of spec/ tables (R2, R68, R70, R86,
R104, R111-R113, R153, R192, R219, R248, R293, R295, R340, R373, R397, R442, R444, R473, R475, R505, R507,
R534-R537, R577, R603, R632): offset, instance counts and strides, and each field's bits, access code and
reset value. Read from the spec's tables by script. The mailboxes of DMA and of the PMUs, which the spec places in
prose (R86, R535), are laid out as R104 lays out every mailbox.
-/
namespace Sys2Proof.Machine

/-- Access codes of a register field (chapter 00, Registers and notation). -/
inductive Acc where
  | ro | rw | wo | sq | pw | w1
  deriving DecidableEq, Repr

/-- One field of a register: its bits, its access code, its reset value. -/
structure RField where
  hi : Nat
  lo : Nat
  acc : Acc
  reset : Nat
  deriving DecidableEq, Repr

/-- One row of a block's register map: offset in the block, the instance dimensions (count, stride) from the
widest stride to the narrowest, and the fields; `each` gives the whole reset word per instance of the last
dimension where the instances differ. -/
structure RRow where
  off : Nat
  dims : List (Nat × Nat)
  fields : List RField
  each : List Nat := []
  deriving DecidableEq, Repr

/-- Register map of block kind `id`. -/
def map_id : List RRow :=
  [{ off := 0x10, dims := [], fields := [⟨11, 8, .ro, 2⟩, ⟨7, 4, .ro, 8⟩, ⟨3, 3, .ro, 1⟩, ⟨2, 2, .ro, 1⟩, ⟨1, 0, .ro, 0⟩] }, -- ID_CAP (R2)
   { off := 0x0, dims := [], fields := [⟨31, 16, .ro, 0x1024⟩, ⟨15, 8, .ro, 0x4F⟩, ⟨7, 0, .ro, 0xD7⟩] }, -- ID_IDENT (R111)
   { off := 0x4, dims := [], fields := [⟨15, 8, .ro, 0⟩, ⟨7, 0, .ro, 0⟩] }, -- ID_SILICON (R111)
   { off := 0x8, dims := [], fields := [⟨31, 16, .ro, 0xB25⟩, ⟨15, 0, .ro, 0xB24⟩] }, -- ID_PCIE (R111)
   { off := 0xC, dims := [], fields := [⟨31, 0, .ro, 0⟩] }, -- ID_BOOTROM (R111)
   { off := 0x80, dims := [], fields := [⟨31, 0, .rw, 0⟩] }, -- ID_MBX_ADDR (R111)
   { off := 0x84, dims := [(4, 0x4)], fields := [⟨31, 0, .rw, 0⟩] }, -- ID_MBX_DATA0-3 (R111)
   { off := 0x94, dims := [], fields := [⟨15, 12, .ro, 0⟩, ⟨8, 8, .wo, 0⟩, ⟨1, 1, .rw, 0⟩, ⟨0, 0, .ro, 0⟩] } -- ID_MBX_CTL (R111)
  ]

/-- Register map of block kind `hif`. -/
def map_hif : List RRow :=
  [{ off := 0x0, dims := [], fields := [⟨12, 12, .ro, 0⟩, ⟨11, 4, .ro, 0⟩, ⟨3, 0, .ro, 0⟩] }, -- HIF_LINK (R112)
   { off := 0x4, dims := [], fields := [⟨31, 24, .sq, 0⟩, ⟨3, 3, .sq, 0⟩, ⟨2, 2, .sq, 0⟩, ⟨1, 1, .sq, 0⟩, ⟨0, 0, .sq, 0⟩] }, -- HIF_STATUS (R112)
   { off := 0x8, dims := [], fields := [⟨31, 24, .wo, 0⟩] }, -- HIF_STATUS_ACK (R112)
   { off := 0x10, dims := [], fields := [⟨31, 24, .sq, 0⟩, ⟨19, 18, .ro, 0⟩, ⟨16, 16, .ro, 0⟩, ⟨8, 8, .sq, 0⟩, ⟨3, 0, .ro, 0⟩] }, -- HIF_BUSERR (R112)
   { off := 0x14, dims := [], fields := [⟨31, 30, .ro, 0⟩, ⟨26, 0, .ro, 0⟩] }, -- HIF_BUSERR_ADDR (R112)
   { off := 0x18, dims := [], fields := [⟨31, 24, .wo, 0⟩] }, -- HIF_BUSERR_ACK (R112)
   { off := 0x1C, dims := [], fields := [⟨31, 0, .ro, 0⟩] }, -- HIF_BUSERR_CNT (R112)
   { off := 0x20, dims := [], fields := [⟨5, 4, .ro, 0⟩, ⟨0, 0, .rw, 0⟩] }, -- HIF_OOB_CTL (R112)
   { off := 0x24, dims := [], fields := [⟨31, 16, .ro, 0⟩, ⟨15, 0, .ro, 0⟩] }, -- HIF_OOB_STAT (R112)
   { off := 0x30, dims := [(4, 0x4)], fields := [⟨31, 0, .rw, 0⟩] } -- HIF_SCRATCH0-3 (R112)
  ]

/-- Register map of block kind `wld`. -/
def map_wld : List RRow :=
  [{ off := 0x0, dims := [], fields := [⟨13, 4, .rw, 0⟩, ⟨3, 0, .ro, 0xC⟩] }, -- WLD_DEV (R113)
   { off := 0x4, dims := [], fields := [⟨7, 0, .rw, 0⟩] }, -- WLD_HALF (R113)
   { off := 0x8, dims := [], fields := [⟨15, 0, .rw, 0⟩] }, -- WLD_GZ_TABLE (R113)
   { off := 0xC, dims := [], fields := [⟨7, 0, .rw, 0⟩] }, -- WLD_BPM_POOL (R113)
   { off := 0x10, dims := [], fields := [⟨15, 0, .rw, 0⟩] }, -- WLD_TEL_RING (R113)
   { off := 0x14, dims := [], fields := [⟨31, 0, .rw, 0⟩] }, -- WLD_DMA_PUNT_LO (R113)
   { off := 0x18, dims := [], fields := [⟨31, 0, .rw, 0⟩] }, -- WLD_DMA_PUNT_HI (R113)
   { off := 0x1C, dims := [], fields := [⟨31, 0, .rw, 0⟩] }, -- WLD_DMA_INJ_LO (R113)
   { off := 0x20, dims := [], fields := [⟨31, 0, .rw, 0⟩] }, -- WLD_DMA_INJ_HI (R113)
   { off := 0x100, dims := [(32, 0x4)], fields := [⟨9, 0, .rw, 0⟩] }, -- WLD_SLICEs (R113)
   { off := 0x200, dims := [], fields := [⟨0, 0, .w1, 0⟩] }, -- WLD_LOCK (R113)
   { off := 0x204, dims := [], fields := [⟨1, 1, .ro, 0⟩, ⟨0, 0, .ro, 0⟩] } -- WLD_STATE (R113)
  ]

/-- Register map of block kind `boot`. -/
def map_boot : List RRow :=
  [{ off := 0x0, dims := [], fields := [⟨11, 10, .ro, 3⟩, ⟨7, 4, .ro, 0⟩, ⟨3, 0, .ro, 0⟩] }, -- BOOT_STATE (R153)
   { off := 0x4, dims := [], fields := [⟨31, 0, .ro, 0⟩] }, -- BOOT_RUN_SEQ (R153)
   { off := 0x8, dims := [], fields := [⟨15, 8, .ro, 9⟩, ⟨7, 0, .ro, 9⟩] }, -- BOOT_SLOT_RESULT (R153)
   { off := 0xC, dims := [], fields := [⟨31, 0, .ro, 0⟩] }, -- BOOT_SLOT_SEQ_A (R153)
   { off := 0x10, dims := [], fields := [⟨31, 0, .ro, 0⟩] }, -- BOOT_SLOT_SEQ_B (R153)
   { off := 0x14, dims := [], fields := [⟨14, 8, .ro, 0⟩, ⟨6, 0, .ro, 0⟩] }, -- BOOT_ROLLBACK (R153)
   { off := 0x18, dims := [], fields := [⟨15, 0, .ro, 0⟩] }, -- BOOT_TIME (R153)
   { off := 0x20, dims := [], fields := [⟨31, 24, .sq, 0⟩, ⟨5, 5, .sq, 0⟩, ⟨4, 4, .sq, 0⟩, ⟨3, 3, .sq, 0⟩, ⟨2, 2, .sq, 0⟩, ⟨1, 1, .sq, 0⟩, ⟨0, 0, .sq, 0⟩] }, -- BOOT_STATUS (R153)
   { off := 0x24, dims := [], fields := [⟨31, 24, .wo, 0⟩] }, -- BOOT_STATUS_ACK (R153)
   { off := 0x30, dims := [], fields := [⟨4, 4, .wo, 0⟩, ⟨3, 0, .wo, 0⟩] }, -- BOOT_CMD (R153)
   { off := 0x34, dims := [], fields := [⟨31, 0, .rw, 0⟩] }, -- BOOT_CMD_SEQ (R153)
   { off := 0x38, dims := [], fields := [⟨31, 31, .ro, 0⟩, ⟨7, 0, .ro, 0⟩] }, -- BOOT_CMD_RESULT (R153)
   { off := 0x3C, dims := [], fields := [⟨15, 0, .ro, 0⟩] }, -- BOOT_APPLY_SKIP (R153)
   { off := 0x40, dims := [], fields := [⟨15, 12, .ro, 0⟩, ⟨8, 8, .ro, 0⟩, ⟨6, 4, .ro, 0⟩, ⟨2, 0, .ro, 0⟩] }, -- BOOT_BANK_STATE (R153)
   { off := 0x44, dims := [], fields := [⟨31, 16, .ro, 0⟩, ⟨15, 0, .ro, 0⟩] }, -- BOOT_BANK_SEQ (R153)
   { off := 0x48, dims := [], fields := [⟨16, 16, .wo, 0⟩, ⟨15, 0, .wo, 0⟩] }, -- BOOT_BANK_SEAL (R153)
   { off := 0x4C, dims := [], fields := [⟨1, 1, .wo, 0⟩, ⟨0, 0, .wo, 0⟩] }, -- BOOT_BANK_CMD (R153)
   { off := 0x50, dims := [], fields := [⟨15, 0, .rw, 0x400⟩] }, -- BOOT_BANK_CTL (R153)
   { off := 0x54, dims := [], fields := [⟨31, 0, .ro, 0⟩] }, -- BOOT_BANK_TARGET (R153)
   { off := 0x58, dims := [], fields := [⟨31, 0, .ro, 0⟩] }, -- BOOT_BANK_SWAPS (R153)
   { off := 0x5C, dims := [], fields := [⟨31, 0, .ro, 0⟩] }, -- BOOT_BANK_EXPIRED (R153)
   { off := 0x80, dims := [], fields := [⟨31, 0, .rw, 0⟩] }, -- BOOT_MBX_ADDR (R153)
   { off := 0x84, dims := [(4, 0x4)], fields := [⟨31, 0, .rw, 0⟩] }, -- BOOT_MBX_DATA0-3 (R153)
   { off := 0x94, dims := [], fields := [⟨15, 12, .ro, 0⟩, ⟨8, 8, .wo, 0⟩, ⟨1, 1, .rw, 0⟩, ⟨0, 0, .ro, 0⟩] }, -- BOOT_MBX_CTL (R153)
   { off := 0x100, dims := [(32, 0x4)], fields := [⟨31, 16, .ro, 0⟩, ⟨15, 0, .ro, 0⟩] }, -- BOOT_INFLIGHTs (R153)
   { off := 0x200, dims := [], fields := [⟨31, 0, .rw, 0⟩] }, -- BOOT_FL_ADDR (R153)
   { off := 0x204, dims := [], fields := [⟨2, 0, .wo, 0⟩] }, -- BOOT_FL_CMD (R153)
   { off := 0x208, dims := [], fields := [⟨31, 24, .sq, 0⟩, ⟨3, 3, .sq, 0⟩, ⟨2, 2, .sq, 0⟩, ⟨1, 1, .sq, 0⟩, ⟨0, 0, .ro, 0⟩] }, -- BOOT_FL_STAT (R153)
   { off := 0x20C, dims := [], fields := [⟨31, 24, .wo, 0⟩] }, -- BOOT_FL_STAT_ACK (R153)
   { off := 0x210, dims := [], fields := [⟨15, 8, .ro, 0⟩, ⟨0, 0, .rw, 1⟩] }, -- BOOT_FL_CFG (R153)
   { off := 0x400, dims := [(64, 0x4)], fields := [⟨31, 0, .rw, 0⟩] } -- BOOT_FL_BUFi (R153)
  ]

/-- Register map of block kind `grt`. -/
def map_grt : List RRow :=
  [{ off := 0x0, dims := [], fields := [⟨11, 8, .rw, 8⟩, ⟨2, 2, .rw, 1⟩, ⟨1, 1, .rw, 1⟩, ⟨0, 0, .rw, 1⟩] }, -- GRT_EPOCH_CTL (R68)
   { off := 0x4, dims := [], fields := [⟨31, 24, .sq, 0⟩, ⟨4, 4, .sq, 0⟩, ⟨3, 3, .sq, 0⟩, ⟨2, 2, .sq, 0⟩, ⟨1, 1, .sq, 0⟩, ⟨0, 0, .sq, 0⟩] }, -- GRT_STATUS (R68)
   { off := 0x8, dims := [], fields := [⟨31, 24, .wo, 0⟩] }, -- GRT_STATUS_ACK (R68)
   { off := 0xC, dims := [], fields := [⟨31, 0, .ro, 0⟩] }, -- GRT_EPOCH_LO (R68)
   { off := 0x10, dims := [], fields := [⟨9, 0, .ro, 0⟩] }, -- GRT_FRAME_POS (R68)
   { off := 0x14, dims := [], fields := [⟨2, 0, .ro, 1⟩] }, -- GRT_STATE (R68)
   { off := 0x18, dims := [], fields := [⟨31, 0, .ro, 0⟩] }, -- GRT_PHASE_ERR (R68)
   { off := 0x1C, dims := [], fields := [⟨0, 0, .wo, 0⟩] }, -- GRT_JUMP (R68)
   { off := 0x20, dims := [(3, 0x10)], fields := [⟨15, 8, .rw, 0x10⟩, ⟨3, 0, .rw, 8⟩] }, -- GRT_LATE_CFGc (R68)
   { off := 0x24, dims := [(3, 0x10)], fields := [⟨31, 0, .ro, 0⟩] }, -- GRT_LATE_CNTc (R68)
   { off := 0x28, dims := [(3, 0x10)], fields := [⟨31, 0, .ro, 0⟩] }, -- GRT_CATCHUP_CNTc (R68)
   { off := 0x2C, dims := [(3, 0x10)], fields := [⟨31, 16, .ro, 0⟩, ⟨15, 0, .ro, 0⟩] }, -- GRT_LATE_RUNc (R68)
   { off := 0x60, dims := [], fields := [⟨7, 4, .rw, 0⟩, ⟨1, 0, .rw, 0⟩] }, -- GRT_GSYNC_CTL (R68)
   { off := 0x64, dims := [], fields := [⟨11, 0, .rw, 0⟩] }, -- GRT_GSYNC_TRACE (R68)
   { off := 0x68, dims := [], fields := [⟨31, 24, .sq, 0⟩, ⟨23, 20, .ro, 0⟩, ⟨19, 16, .ro, 0⟩, ⟨2, 2, .sq, 0⟩, ⟨1, 1, .sq, 0⟩, ⟨0, 0, .ro, 0⟩] }, -- GRT_GSYNC_STATUS (R68)
   { off := 0x6C, dims := [], fields := [⟨31, 24, .wo, 0⟩] }, -- GRT_GSYNC_STATUS_ACK (R68)
   { off := 0x70, dims := [], fields := [⟨31, 0, .ro, 0⟩] }, -- GRT_GSYNC_RTT (R68)
   { off := 0x80, dims := [], fields := [⟨31, 0, .rw, 0⟩] }, -- GRT_MBX_ADDR (R68)
   { off := 0x84, dims := [(4, 0x4)], fields := [⟨31, 0, .rw, 0⟩] }, -- GRT_MBX_DATA0-3 (R68)
   { off := 0x94, dims := [], fields := [⟨15, 12, .ro, 0⟩, ⟨8, 8, .wo, 0⟩, ⟨1, 1, .rw, 0⟩, ⟨0, 0, .ro, 0⟩] } -- GRT_MBX_CTL (R68)
  ]

/-- Register map of block kind `pwr`. -/
def map_pwr : List RRow :=
  [{ off := 0x0, dims := [], fields := [⟨31, 24, .sq, 0⟩, ⟨7, 7, .sq, 0⟩, ⟨6, 6, .sq, 0⟩, ⟨5, 5, .sq, 0⟩, ⟨4, 4, .sq, 0⟩, ⟨3, 3, .sq, 0⟩, ⟨2, 2, .sq, 0⟩, ⟨1, 1, .sq, 0⟩, ⟨0, 0, .sq, 0⟩] }, -- PWR_STATUS (R603)
   { off := 0x4, dims := [], fields := [⟨31, 24, .wo, 0⟩] }, -- PWR_STATUS_ACK (R603)
   { off := 0x8, dims := [], fields := [⟨31, 24, .sq, 0⟩, ⟨1, 1, .sq, 0⟩, ⟨0, 0, .ro, 0⟩] }, -- PWR_PW_STATUS (R603)
   { off := 0xC, dims := [], fields := [⟨31, 24, .wo, 0⟩] }, -- PWR_PW_STATUS_ACK (R603)
   { off := 0x10, dims := [], fields := [⟨30, 24, .ro, 0⟩, ⟨23, 23, .ro, 0⟩, ⟨22, 21, .ro, 0⟩, ⟨20, 19, .ro, 0⟩, ⟨18, 17, .ro, 0⟩, ⟨16, 15, .ro, 0⟩, ⟨14, 13, .ro, 0⟩, ⟨12, 12, .ro, 0⟩, ⟨11, 9, .ro, 5⟩, ⟨8, 6, .ro, 5⟩, ⟨2, 0, .ro, 5⟩] }, -- PWR_STATE (R603)
   { off := 0x14, dims := [], fields := [⟨31, 16, .ro, 0⟩, ⟨15, 0, .ro, 0⟩] }, -- PWR_POWER (R603)
   { off := 0x18, dims := [], fields := [⟨15, 8, .ro, 0⟩, ⟨7, 0, .ro, 0⟩] }, -- PWR_TEMP (R603)
   { off := 0x1C, dims := [], fields := [⟨31, 16, .ro, 0⟩, ⟨15, 0, .ro, 0⟩] }, -- PWR_IOUT (R603)
   { off := 0x20, dims := [], fields := [⟨8, 0, .ro, 0x100⟩] }, -- PWR_PACE_BE (R603)
   { off := 0x24, dims := [], fields := [⟨31, 16, .ro, 0⟩] }, -- PWR_PACE_STAT (R603)
   { off := 0x30, dims := [], fields := [⟨10, 0, .rw, 0x5DC⟩] }, -- PWR_CAP (R603)
   { off := 0x34, dims := [], fields := [⟨21, 20, .rw, 2⟩, ⟨19, 18, .rw, 0⟩, ⟨17, 16, .rw, 1⟩, ⟨15, 8, .rw, 0x14⟩, ⟨7, 4, .rw, 4⟩, ⟨3, 0, .rw, 1⟩] }, -- PWR_CAP_CFG (R603)
   { off := 0x38, dims := [], fields := [⟨11, 11, .rw, 0⟩, ⟨10, 8, .rw, 1⟩, ⟨3, 3, .rw, 1⟩, ⟨2, 0, .rw, 0⟩] }, -- PWR_POINT_LIM (R603)
   { off := 0x3C, dims := [], fields := [⟨23, 16, .rw, 0x55⟩, ⟨15, 8, .rw, 0x67⟩, ⟨7, 0, .rw, 0x5F⟩] }, -- PWR_THERM (R603)
   { off := 0x40, dims := [], fields := [⟨11, 0, .rw, 0x334⟩] }, -- PWR_ICC (R603)
   { off := 0x44, dims := [], fields := [⟨15, 8, .rw, 0x20⟩, ⟨7, 0, .rw, 0x28⟩] }, -- PWR_DROOP (R603)
   { off := 0x48, dims := [], fields := [⟨2, 0, .rw, 0⟩] }, -- PWR_HOST (R603)
   { off := 0x4C, dims := [], fields := [⟨23, 16, .rw, 2⟩, ⟨14, 12, .rw, 5⟩, ⟨10, 8, .rw, 3⟩, ⟨6, 4, .rw, 2⟩, ⟨0, 0, .rw, 0⟩] }, -- PWR_PACE_CFG (R603)
   { off := 0x50, dims := [], fields := [⟨31, 31, .rw, 0⟩, ⟨15, 0, .rw, 0⟩] }, -- PWR_EXT (R603)
   { off := 0x54, dims := [], fields := [⟨15, 0, .rw, 0x190⟩] }, -- PWR_IDLE (R603)
   { off := 0x60, dims := [(7, 0x4)], fields := [⟨31, 0, .ro, 0⟩] }, -- PWR_CNT_STEPS_DOWN (R603)
   { off := 0x80, dims := [], fields := [⟨31, 0, .rw, 0⟩] }, -- PWR_MBX_ADDR (R603)
   { off := 0x84, dims := [(4, 0x4)], fields := [⟨31, 0, .rw, 0⟩] }, -- PWR_MBX_DATA0-3 (R603)
   { off := 0x94, dims := [], fields := [⟨15, 12, .ro, 0⟩, ⟨8, 8, .wo, 0⟩, ⟨1, 1, .rw, 0⟩, ⟨0, 0, .ro, 0⟩] }, -- PWR_MBX_CTL (R603)
   { off := 0x100, dims := [(6, 0x4)], fields := [⟨25, 16, .pw, 0⟩, ⟨9, 0, .pw, 0⟩],
     each := [0x3520334, 0x334030C, 0x32002EE, 0x30C02D0, 0x2F802BC, 0x2EE02A8] }, -- PWR_VIDp (R603)
   { off := 0x200, dims := [(16, 0x4)], fields := [⟨19, 0, .rw, 0⟩] } -- PWR_COEFk (R603)
  ]

/-- Register map of block kind `flt`. -/
def map_flt : List RRow :=
  [{ off := 0x0, dims := [], fields := [⟨31, 24, .sq, 0⟩, ⟨5, 5, .sq, 0⟩, ⟨4, 4, .sq, 0⟩, ⟨3, 3, .sq, 0⟩, ⟨2, 2, .sq, 0⟩, ⟨1, 1, .sq, 0⟩, ⟨0, 0, .sq, 0⟩] }, -- FLT_STATUS (R632)
   { off := 0x4, dims := [], fields := [⟨31, 24, .wo, 0⟩] }, -- FLT_STATUS_ACK (R632)
   { off := 0x8, dims := [], fields := [⟨31, 24, .sq, 0⟩, ⟨23, 18, .ro, 0⟩, ⟨17, 15, .ro, 0⟩, ⟨12, 12, .sq, 0⟩, ⟨11, 0, .ro, 0⟩] }, -- FLT_SEV_STATUS (R632)
   { off := 0xC, dims := [], fields := [⟨31, 24, .wo, 0⟩] }, -- FLT_SEV_STATUS_ACK (R632)
   { off := 0x10, dims := [], fields := [⟨31, 24, .sq, 0⟩, ⟨23, 23, .sq, 0⟩, ⟨22, 22, .sq, 0⟩, ⟨17, 12, .ro, 0⟩, ⟨11, 0, .ro, 0⟩] }, -- FLT_FIRST (R632)
   { off := 0x14, dims := [], fields := [⟨31, 0, .ro, 0⟩] }, -- FLT_FIRST_DETAIL (R632)
   { off := 0x18, dims := [], fields := [⟨31, 0, .ro, 0⟩] }, -- FLT_FIRST_OVF_CNT (R632)
   { off := 0x1C, dims := [], fields := [⟨31, 24, .wo, 0⟩] }, -- FLT_FIRST_ACK (R632)
   { off := 0x20, dims := [], fields := [⟨27, 24, .rw, 3⟩, ⟨23, 16, .rw, 0xA⟩, ⟨15, 8, .rw, 5⟩, ⟨0, 0, .rw, 1⟩] }, -- FLT_CTL (R632)
   { off := 0x24, dims := [], fields := [⟨27, 16, .wo, 0⟩, ⟨12, 8, .wo, 0⟩, ⟨3, 3, .wo, 0⟩, ⟨2, 2, .wo, 0⟩, ⟨1, 1, .wo, 0⟩, ⟨0, 0, .wo, 0⟩] }, -- FLT_CMD (R632)
   { off := 0x28, dims := [], fields := [⟨3, 3, .ro, 1⟩, ⟨2, 2, .ro, 0⟩, ⟨1, 1, .ro, 0⟩, ⟨0, 0, .ro, 0⟩] }, -- FLT_STATE (R632)
   { off := 0x2C, dims := [], fields := [⟨31, 0, .ro, 0⟩] }, -- FLT_FENCED (R632)
   { off := 0x30, dims := [], fields := [⟨31, 0, .ro, 0⟩] }, -- FLT_SHADOW (R632)
   { off := 0x34, dims := [], fields := [⟨8, 0, .ro, 0⟩] }, -- FLT_LOG_STAT (R632)
   { off := 0x38, dims := [], fields := [⟨7, 4, .ro, 0⟩, ⟨3, 0, .ro, 0⟩] }, -- FLT_FABRIC (R632)
   { off := 0x40, dims := [(12, 0x4)], fields := [⟨31, 0, .ro, 0⟩] }, -- FLT_CNT_EVENTS (R632)
   { off := 0x80, dims := [], fields := [⟨31, 0, .rw, 0⟩] }, -- FLT_MBX_ADDR (R632)
   { off := 0x84, dims := [(4, 0x4)], fields := [⟨31, 0, .rw, 0⟩] }, -- FLT_MBX_DATA0-3 (R632)
   { off := 0x94, dims := [], fields := [⟨15, 12, .ro, 0⟩, ⟨8, 8, .wo, 0⟩, ⟨1, 1, .rw, 0⟩, ⟨0, 0, .ro, 0⟩] }, -- FLT_MBX_CTL (R632)
   { off := 0x100, dims := [(32, 0x4)], fields := [⟨31, 24, .rw, 0⟩, ⟨23, 21, .rw, 0⟩, ⟨20, 20, .rw, 0⟩, ⟨15, 0, .rw, 0⟩], each := [0x0, 0x1100001, 0x2600010, 0x10100400, 0x3100400, 0x1000001, 0x40100001, 0x10100040, 0x1100001, 0x8100010, 0x4100040, 0x8200001, 0x4400001, 0x1500001, 0x0, 0x0, 0x0, 0x0, 0x0, 0x0, 0x0, 0x0, 0x0, 0x0, 0x0, 0x0, 0x0, 0x0, 0x0, 0x0, 0x0, 0x1100001] } -- FLT_CLASSc (R632)
  ]

/-- Register map of block kind `hk`. -/
def map_hk : List RRow :=
  [{ off := 0x0, dims := [], fields := [⟨31, 0, .ro, 0⟩] }, -- HK_ROM_VERSION (R577)
   { off := 0x4, dims := [], fields := [⟨31, 24, .sq, 0⟩, ⟨7, 7, .sq, 0⟩, ⟨6, 6, .sq, 0⟩, ⟨5, 5, .sq, 0⟩, ⟨4, 4, .sq, 0⟩, ⟨3, 3, .sq, 0⟩, ⟨2, 2, .sq, 0⟩, ⟨1, 1, .sq, 0⟩, ⟨0, 0, .sq, 0⟩] }, -- HK_STATUS (R577)
   { off := 0x8, dims := [], fields := [⟨31, 24, .wo, 0⟩] }, -- HK_STATUS_ACK (R577)
   { off := 0xC, dims := [], fields := [⟨15, 12, .rw, 2⟩, ⟨11, 8, .rw, 3⟩, ⟨0, 0, .rw, 1⟩] }, -- HK_CTL (R577)
   { off := 0x10, dims := [(2, 0x10)], fields := [⟨31, 0, .ro, 0⟩] }, -- HK_PATCH_VERSIONe (R577)
   { off := 0x14, dims := [(2, 0x10)], fields := [⟨31, 24, .ro, 0⟩, ⟨8, 8, .ro, 0⟩, ⟨2, 0, .ro, 5⟩] }, -- HK_ENGINEe (R577)
   { off := 0x18, dims := [(2, 0x10)], fields := [⟨31, 16, .ro, 0⟩, ⟨11, 11, .ro, 0⟩, ⟨7, 0, .ro, 0⟩] }, -- HK_FAULTe (R577)
   { off := 0x1C, dims := [(2, 0x10)], fields := [⟨31, 0, .ro, 0⟩] }, -- HK_WORDSe (R577)
   { off := 0x30, dims := [], fields := [⟨5, 4, .wo, 0⟩, ⟨2, 0, .wo, 0⟩] }, -- HK_CMD (R577)
   { off := 0x34, dims := [], fields := [⟨31, 31, .ro, 0⟩, ⟨3, 0, .ro, 0⟩] }, -- HK_CMD_STAT (R577)
   { off := 0x40, dims := [], fields := [⟨31, 31, .rw, 0⟩, ⟨11, 8, .rw, 6⟩, ⟨3, 0, .rw, 6⟩] }, -- HK_RING_CFG (R577)
   { off := 0x44, dims := [], fields := [⟨15, 0, .rw, 0⟩] }, -- HK_CMD_PROD (R577)
   { off := 0x48, dims := [], fields := [⟨15, 0, .ro, 0⟩] }, -- HK_CMD_CONS (R577)
   { off := 0x4C, dims := [], fields := [⟨15, 0, .ro, 0⟩] }, -- HK_RSP_PROD (R577)
   { off := 0x50, dims := [], fields := [⟨15, 0, .rw, 0⟩] }, -- HK_RSP_CONS (R577)
   { off := 0x54, dims := [], fields := [⟨31, 24, .sq, 0⟩, ⟨3, 3, .sq, 0⟩, ⟨2, 2, .sq, 0⟩, ⟨1, 1, .sq, 0⟩, ⟨0, 0, .sq, 0⟩] }, -- HK_RING_STATUS (R577)
   { off := 0x58, dims := [], fields := [⟨31, 24, .wo, 0⟩] }, -- HK_RING_STATUS_ACK (R577)
   { off := 0x5C, dims := [], fields := [⟨6, 0, .ro, 0⟩] }, -- HK_EVT_HELD (R577)
   { off := 0x80, dims := [], fields := [⟨31, 0, .rw, 0⟩] }, -- HK_MBX_ADDR (R577)
   { off := 0x84, dims := [(4, 0x4)], fields := [⟨31, 0, .rw, 0⟩] }, -- HK_MBX_DATA0-3 (R577)
   { off := 0x94, dims := [], fields := [⟨15, 12, .ro, 0⟩, ⟨8, 8, .wo, 0⟩, ⟨1, 1, .rw, 0⟩, ⟨0, 0, .ro, 0⟩] }, -- HK_MBX_CTL (R577)
   { off := 0x100, dims := [(10, 0x4)], fields := [⟨31, 0, .ro, 0⟩] }, -- HK_CNT_RESTART0 (R577)
   { off := 0x200, dims := [(2, 0x80), (32, 0x4)], fields := [⟨31, 31, .ro, 0⟩, ⟨25, 11, .ro, 0⟩, ⟨10, 0, .ro, 0⟩] } -- HK_MATCHe_m (R577)
  ]

/-- Register map of block kind `dma`. -/
def map_dma : List RRow :=
  [{ off := 0x0, dims := [(128, 0x40)], fields := [⟨9, 9, .rw, 0⟩, ⟨8, 8, .rw, 0⟩, ⟨3, 0, .rw, 6⟩] }, -- DMA_RING_CTL (R86)
   { off := 0x4, dims := [(128, 0x40)], fields := [⟨15, 0, .ro, 0⟩] }, -- DMA_RING_HEAD (R86)
   { off := 0x8, dims := [(128, 0x40)], fields := [⟨31, 24, .sq, 0⟩, ⟨2, 2, .sq, 0⟩, ⟨1, 1, .sq, 0⟩, ⟨0, 0, .sq, 0⟩] }, -- DMA_RING_STATUS (R86)
   { off := 0xC, dims := [(128, 0x40)], fields := [⟨31, 24, .wo, 0⟩] }, -- DMA_RING_STATUS_ACK (R86)
   { off := 0x10, dims := [(128, 0x40)], fields := [⟨31, 0, .ro, 0⟩] }, -- DMA_RING_DROP (R86)
   { off := 0x2000, dims := [], fields := [⟨31, 0, .rw, 0⟩] }, -- DMA_MBX_ADDR (R86)
   { off := 0x2004, dims := [(4, 0x4)], fields := [⟨31, 0, .rw, 0⟩] }, -- DMA_MBX_DATA0-3 (R86)
   { off := 0x2014, dims := [], fields := [⟨15, 12, .ro, 0⟩, ⟨8, 8, .wo, 0⟩, ⟨1, 1, .rw, 0⟩, ⟨0, 0, .ro, 0⟩] } -- DMA_MBX_CTL (R86)
  ]

/-- Register map of block kind `bpm`. -/
def map_bpm : List RRow :=
  [{ off := 0x0, dims := [], fields := [⟨31, 24, .sq, 0⟩, ⟨4, 4, .sq, 0⟩, ⟨3, 3, .sq, 0⟩, ⟨2, 2, .sq, 0⟩, ⟨1, 1, .sq, 0⟩, ⟨0, 0, .sq, 0⟩] }, -- BPM_STATUS (R397)
   { off := 0x4, dims := [], fields := [⟨31, 24, .wo, 0⟩] }, -- BPM_STATUS_ACK (R397)
   { off := 0x8, dims := [], fields := [⟨31, 28, .ro, 0⟩, ⟨27, 24, .ro, 0⟩, ⟨23, 20, .ro, 0⟩, ⟨19, 19, .ro, 0⟩, ⟨18, 16, .ro, 0⟩] }, -- BPM_ERR (R397)
   { off := 0xC, dims := [], fields := [⟨21, 0, .ro, 0⟩] }, -- BPM_ERR_INDEX (R397)
   { off := 0x10, dims := [], fields := [⟨31, 31, .wo, 0⟩, ⟨20, 20, .wo, 0⟩, ⟨19, 17, .wo, 0⟩, ⟨16, 0, .wo, 0⟩] }, -- BPM_ALLOC (R397)
   { off := 0x14, dims := [], fields := [⟨31, 31, .ro, 0⟩, ⟨30, 28, .ro, 0⟩, ⟨25, 22, .ro, 0⟩, ⟨21, 0, .ro, 0⟩] }, -- BPM_ALLOC_STAT (R397)
   { off := 0x18, dims := [], fields := [⟨31, 31, .wo, 0⟩] }, -- BPM_FREE (R397)
   { off := 0x1C, dims := [], fields := [⟨31, 31, .ro, 0⟩, ⟨3, 0, .ro, 0⟩] }, -- BPM_FREE_STAT (R397)
   { off := 0x20, dims := [], fields := [⟨31, 31, .wo, 0⟩, ⟨7, 4, .wo, 0⟩, ⟨2, 0, .wo, 0⟩] }, -- BPM_RECLAIM (R397)
   { off := 0x80, dims := [], fields := [⟨31, 0, .rw, 0⟩] }, -- BPM_MBX_ADDR (R397)
   { off := 0x84, dims := [(4, 0x4)], fields := [⟨31, 0, .rw, 0⟩] }, -- BPM_MBX_DATA0-3 (R397)
   { off := 0x94, dims := [], fields := [⟨15, 12, .ro, 0⟩, ⟨8, 8, .wo, 0⟩, ⟨1, 1, .rw, 0⟩, ⟨0, 0, .ro, 0⟩] }, -- BPM_MBX_CTL (R397)
   { off := 0x100, dims := [(8, 0x20)], fields := [⟨31, 31, .rw, 0⟩, ⟨30, 29, .rw, 0⟩, ⟨27, 24, .rw, 0⟩, ⟨21, 0, .rw, 0⟩] }, -- BPM_POOL_CFGp (R397)
   { off := 0x104, dims := [(8, 0x20)], fields := [⟨31, 0, .rw, 0⟩] }, -- BPM_POOL_BASEp (R397)
   { off := 0x108, dims := [(8, 0x20)], fields := [⟨21, 0, .rw, 0⟩] }, -- BPM_POOL_MARKp (R397)
   { off := 0x10C, dims := [(8, 0x20)], fields := [⟨21, 0, .ro, 0⟩] }, -- BPM_POOL_FREEp (R397)
   { off := 0x200, dims := [(9, 0x20), (8, 0x4)], fields := [⟨21, 0, .rw, 0⟩] }, -- BPM_QUOTAr_p (R397)
   { off := 0x400, dims := [(9, 0x20), (8, 0x4)], fields := [⟨21, 0, .ro, 0⟩] }, -- BPM_HELDr_p (R397)
   { off := 0x600, dims := [(9, 0x4)], fields := [⟨0, 0, .rw, 0⟩] }, -- BPM_REQ_CFGr (R397)
   { off := 0x680, dims := [(9, 0x4)], fields := [⟨31, 0, .ro, 0⟩] }, -- BPM_CNT_REJECTr (R397)
   { off := 0x700, dims := [(8, 0x4)], fields := [⟨31, 0, .ro, 0⟩] } -- BPM_CNT_ALLOCS (R397)
  ]

/-- Register map of block kind `tel`. -/
def map_tel : List RRow :=
  [{ off := 0x0, dims := [], fields := [⟨31, 24, .sq, 0⟩, ⟨3, 3, .sq, 0⟩, ⟨2, 2, .sq, 0⟩, ⟨1, 1, .sq, 0⟩, ⟨0, 0, .sq, 0⟩] }, -- TEL_STATUS (R505)
   { off := 0x4, dims := [], fields := [⟨31, 24, .wo, 0⟩] }, -- TEL_STATUS_ACK (R505)
   { off := 0x10, dims := [], fields := [⟨31, 0, .rw, 0⟩] }, -- TEL_IPFIX_PEN (R505)
   { off := 0x14, dims := [], fields := [⟨31, 24, .rw, 0x40⟩, ⟨23, 16, .rw, 0x64⟩, ⟨15, 0, .rw, 0x578⟩] }, -- TEL_IPFIX_CFG (R505)
   { off := 0x18, dims := [], fields := [⟨31, 31, .wo, 0⟩, ⟨23, 20, .wo, 0⟩, ⟨19, 16, .wo, 0⟩, ⟨15, 0, .wo, 0⟩] }, -- TEL_ARCH_CMD (R505)
   { off := 0x1C, dims := [], fields := [⟨31, 0, .rw, 0⟩] }, -- TEL_ARCH_START (R505)
   { off := 0x20, dims := [(2, 0x20), (5, 0x4)], fields := [⟨4, 4, .rw, 0⟩, ⟨3, 0, .rw, 0⟩] }, -- TEL_ROUTEh_k (R505)
   { off := 0x60, dims := [(2, 0x20)], fields := [⟨0, 0, .rw, 0⟩] }, -- TEL_FLOW_CTLh (R505)
   { off := 0x64, dims := [(2, 0x20)], fields := [⟨31, 16, .rw, 0x3D1⟩, ⟨15, 0, .rw, 0x10⟩] }, -- TEL_FLOW_CFGh (R505)
   { off := 0x68, dims := [(2, 0x20)], fields := [⟨31, 0, .rw, 0⟩] }, -- TEL_FLOW_SEEDh (R505)
   { off := 0x6C, dims := [(2, 0x20)], fields := [⟨0, 0, .wo, 0⟩] }, -- TEL_FLOW_CMDh (R505)
   { off := 0x70, dims := [(2, 0x20)], fields := [⟨31, 0, .rw, 0⟩] }, -- TEL_HH_CFGh (R505)
   { off := 0x74, dims := [(2, 0x20)], fields := [⟨31, 0, .rw, 0⟩] }, -- TEL_HH_SEEDh (R505)
   { off := 0xC0, dims := [(8, 0x4)], fields := [⟨31, 0, .ro, 0⟩] }, -- TEL_CNT_FLOWS_CREATED (R505)
   { off := 0x400, dims := [(2, 0x100), (64, 0x4)], fields := [⟨31, 16, .rw, 0x100⟩, ⟨7, 0, .rw, 4⟩] }, -- TEL_DRLIMh_c (R505)
   { off := 0x1000, dims := [(16, 0x40)], fields := [⟨31, 31, .rw, 0⟩, ⟨30, 29, .rw, 0⟩, ⟨28, 28, .rw, 0⟩, ⟨27, 18, .rw, 0⟩, ⟨17, 15, .rw, 0⟩, ⟨14, 8, .rw, 0⟩, ⟨7, 7, .rw, 1⟩, ⟨6, 1, .rw, 0⟩, ⟨0, 0, .rw, 0⟩] }, -- TEL_RINGr_CFG (R505)
   { off := 0x1004, dims := [(16, 0x40)], fields := [⟨31, 0, .rw, 0⟩] }, -- TEL_RINGr_RATE (R505)
   { off := 0x1008, dims := [(16, 0x40)], fields := [⟨31, 0, .rw, 0⟩] }, -- TEL_RINGr_ODID (R505)
   { off := 0x100C, dims := [(16, 0x40)], fields := [⟨31, 0, .ro, 0⟩] }, -- TEL_RINGr_PROD (R505)
   { off := 0x1010, dims := [(16, 0x40)], fields := [⟨31, 0, .rw, 0⟩] }, -- TEL_RINGr_CONS (R505)
   { off := 0x1014, dims := [(16, 0x40)], fields := [⟨4, 0, .rw, 0x10⟩] }, -- TEL_RINGr_SIZE (R505)
   { off := 0x1018, dims := [(16, 0x40)], fields := [⟨31, 29, .rw, 0⟩, ⟨21, 0, .rw, 0⟩] }, -- TEL_RINGr_ARCH (R505)
   { off := 0x1020, dims := [(16, 0x40)], fields := [⟨31, 0, .ro, 0⟩] }, -- TEL_RINGr_DROP (R505)
   { off := 0x1024, dims := [(16, 0x40)], fields := [⟨31, 0, .ro, 0⟩] }, -- TEL_RINGr_SENT (R505)
   { off := 0xF80, dims := [], fields := [⟨31, 0, .rw, 0⟩] }, -- TEL_MBX_ADDR (R505)
   { off := 0xF84, dims := [(4, 0x4)], fields := [⟨31, 0, .rw, 0⟩] }, -- TEL_MBX_DATA0-3 (R505)
   { off := 0xF94, dims := [], fields := [⟨15, 12, .ro, 0⟩, ⟨8, 8, .wo, 0⟩, ⟨1, 1, .rw, 0⟩, ⟨0, 0, .ro, 0⟩] } -- TEL_MBX_CTL (R505)
  ]

/-- Register map of block kind `pmu`. -/
def map_pmu : List RRow :=
  [{ off := 0x0, dims := [], fields := [⟨2, 2, .rw, 0⟩, ⟨0, 0, .rw, 0⟩] }, -- PMU_CTL (R534)
   { off := 0x4, dims := [], fields := [⟨31, 24, .sq, 0⟩, ⟨7, 0, .sq, 0⟩] }, -- PMU_STATUS (R534)
   { off := 0x8, dims := [], fields := [⟨31, 24, .wo, 0⟩] }, -- PMU_STATUS_ACK (R534)
   { off := 0xC, dims := [], fields := [⟨1, 1, .wo, 0⟩, ⟨0, 0, .wo, 0⟩] }, -- PMU_CMD (R534)
   { off := 0x20, dims := [(8, 0x8)], fields := [⟨31, 31, .rw, 0⟩, ⟨30, 30, .rw, 0⟩, ⟨29, 28, .rw, 0⟩, ⟨27, 27, .rw, 0⟩, ⟨25, 16, .rw, 0⟩, ⟨7, 0, .rw, 0⟩] }, -- PMU_EVTi (R534)
   { off := 0x24, dims := [(8, 0x8)], fields := [⟨19, 0, .rw, 0⟩] }, -- PMU_THRi (R534)
   { off := 0x100, dims := [], fields := [⟨31, 0, .ro, 0⟩] }, -- PMU_SNAP_SEQ (R536)
   { off := 0x104, dims := [], fields := [⟨15, 0, .ro, 0⟩] }, -- PMU_SNAP_LAT (R536)
   { off := 0x110, dims := [], fields := [⟨2, 2, .wo, 0⟩, ⟨1, 1, .wo, 0⟩, ⟨0, 0, .wo, 0⟩] }, -- PMU_SYNC (R536)
   { off := 0x120, dims := [], fields := [⟨31, 31, .rw, 0⟩, ⟨19, 16, .rw, 1⟩, ⟨11, 8, .rw, 0⟩, ⟨7, 0, .rw, 1⟩] }, -- PMU_SWEEP_CFG (R536)
   { off := 0x124, dims := [], fields := [⟨31, 0, .rw, 0⟩] }, -- PMU_SWEEP_SLICES (R536)
   { off := 0x128, dims := [], fields := [⟨7, 0, .ro, 0⟩] }, -- PMU_SWEEP_PROD (R536)
   { off := 0x12C, dims := [], fields := [⟨7, 0, .rw, 0⟩] }, -- PMU_SWEEP_CONS (R536)
   { off := 0x140, dims := [], fields := [⟨31, 24, .sq, 0⟩, ⟨4, 4, .sq, 0⟩, ⟨3, 3, .sq, 0⟩, ⟨2, 2, .sq, 0⟩, ⟨1, 1, .sq, 0⟩, ⟨0, 0, .sq, 0⟩] }, -- PMU_DEV_STATUS (R536)
   { off := 0x144, dims := [], fields := [⟨31, 24, .wo, 0⟩] }, -- PMU_DEV_STATUS_ACK (R536)
   { off := 0x150, dims := [(5, 0x4)], fields := [⟨31, 0, .ro, 0⟩] }, -- PMU_CNT_SWEEPS (R536)
   { off := 0x180, dims := [], fields := [⟨9, 0, .rw, 0⟩] }, -- PMU_BAR2_OPEN_DEV (R536)
   { off := 0x184, dims := [], fields := [⟨9, 0, .rw, 0⟩] }, -- PMU_BAR2_OPEN_HALF (R536)
   { off := 0x1C0, dims := [(11, 0x4)], fields := [⟨31, 0, .rw, 0⟩] }, -- PMU_BAR2_OPEN_SLp (R536)
   { off := 0x200, dims := [(2, 0x8)], fields := [⟨31, 31, .rw, 0⟩, ⟨30, 30, .rw, 0⟩, ⟨23, 0, .rw, 0x10000⟩] }, -- PMU_TS_CFGe (R536)
   { off := 0x204, dims := [(2, 0x8)], fields := [⟨8, 0, .ro, 0⟩] }, -- PMU_TS_STATe (R536)
   { off := 0x80, dims := [], fields := [⟨31, 0, .rw, 0⟩] }, -- PMU_MBX_ADDR (R535)
   { off := 0x84, dims := [(4, 0x4)], fields := [⟨31, 0, .rw, 0⟩] }, -- PMU_MBX_DATA0-3 (R535)
   { off := 0x94, dims := [], fields := [⟨15, 12, .ro, 0⟩, ⟨8, 8, .wo, 0⟩, ⟨1, 1, .rw, 0⟩, ⟨0, 0, .ro, 0⟩] } -- PMU_MBX_CTL (R535)
  ]

/-- Register map of block kind `time`. -/
def map_time : List RRow :=
  [{ off := 0x0, dims := [], fields := [⟨1, 1, .pw, 0⟩, ⟨0, 0, .pw, 0⟩] }, -- TIME_CTL (R70)
   { off := 0x4, dims := [], fields := [⟨31, 0, .pw, 0⟩] }, -- TIME_FREQ (R70)
   { off := 0x8, dims := [], fields := [⟨31, 24, .sq, 0⟩, ⟨1, 1, .sq, 0⟩, ⟨0, 0, .ro, 0⟩] }, -- TIME_PW_STATUS (R70)
   { off := 0xC, dims := [], fields := [⟨31, 24, .wo, 0⟩] }, -- TIME_PW_STATUS_ACK (R70)
   { off := 0x10, dims := [], fields := [⟨31, 24, .sq, 0⟩, ⟨2, 2, .sq, 0⟩, ⟨1, 1, .sq, 0⟩, ⟨0, 0, .sq, 0⟩] }, -- TIME_STATUS (R70)
   { off := 0x14, dims := [], fields := [⟨31, 24, .wo, 0⟩] }, -- TIME_STATUS_ACK (R70)
   { off := 0x20, dims := [(3, 0x4)], fields := [⟨31, 0, .ro, 0⟩] }, -- TIME_CNT_STEPS (R70)
   { off := 0x80, dims := [], fields := [⟨31, 0, .rw, 0⟩] }, -- TIME_MBX_ADDR (R70)
   { off := 0x84, dims := [(4, 0x4)], fields := [⟨31, 0, .rw, 0⟩] }, -- TIME_MBX_DATA0-3 (R70)
   { off := 0x94, dims := [], fields := [⟨15, 12, .ro, 0⟩, ⟨8, 8, .wo, 0⟩, ⟨1, 1, .rw, 0⟩, ⟨0, 0, .ro, 0⟩] } -- TIME_MBX_CTL (R70)
  ]

/-- Register map of block kind `sch`. -/
def map_sch : List RRow :=
  [{ off := 0x0, dims := [], fields := [⟨31, 24, .sq, 0⟩, ⟨4, 4, .sq, 0⟩, ⟨3, 3, .sq, 0⟩, ⟨2, 2, .sq, 0⟩, ⟨1, 1, .sq, 0⟩, ⟨0, 0, .sq, 0⟩] }, -- SCH_STATUS (R473)
   { off := 0x4, dims := [], fields := [⟨31, 24, .wo, 0⟩] }, -- SCH_STATUS_ACK (R473)
   { off := 0x10, dims := [], fields := [⟨31, 31, .wo, 0⟩, ⟨3, 0, .wo, 0⟩] }, -- SCH_CMD (R473)
   { off := 0x14, dims := [], fields := [⟨31, 31, .ro, 0⟩, ⟨19, 16, .ro, 0⟩, ⟨13, 0, .ro, 0⟩] }, -- SCH_CMD_STAT (R473)
   { off := 0x18, dims := [], fields := [⟨13, 0, .rw, 0x5C⟩] }, -- SCH_PROM_CFG (R473)
   { off := 0x1C, dims := [], fields := [⟨8, 8, .ro, 0⟩, ⟨2, 0, .ro, 5⟩] }, -- SCH_PROM_FLOOR (R473)
   { off := 0x20, dims := [], fields := [⟨14, 0, .ro, 0⟩] }, -- SCH_RESV_COUNT (R473)
   { off := 0x80, dims := [], fields := [⟨31, 0, .rw, 0⟩] }, -- SCH_MBX_ADDR (R473)
   { off := 0x84, dims := [(4, 0x4)], fields := [⟨31, 0, .rw, 0⟩] }, -- SCH_MBX_DATA0-3 (R473)
   { off := 0x94, dims := [], fields := [⟨15, 12, .ro, 0⟩, ⟨8, 8, .wo, 0⟩, ⟨1, 1, .rw, 0⟩, ⟨0, 0, .ro, 0⟩] } -- SCH_MBX_CTL (R473)
  ]

/-- Register map of block kind `gz`. -/
def map_gz : List RRow :=
  [{ off := 0x0, dims := [], fields := [⟨31, 24, .sq, 0⟩, ⟨9, 9, .sq, 0⟩, ⟨8, 8, .sq, 0⟩, ⟨7, 7, .sq, 0⟩, ⟨6, 6, .sq, 0⟩, ⟨5, 5, .sq, 0⟩, ⟨4, 4, .sq, 0⟩, ⟨3, 3, .sq, 0⟩, ⟨2, 2, .sq, 0⟩, ⟨1, 1, .sq, 0⟩, ⟨0, 0, .sq, 0⟩] }, -- GZ_STATUS (R340)
   { off := 0x4, dims := [], fields := [⟨31, 24, .wo, 0⟩] }, -- GZ_STATUS_ACK (R340)
   { off := 0x8, dims := [], fields := [⟨31, 28, .ro, 0⟩, ⟨27, 24, .ro, 0⟩, ⟨23, 23, .ro, 0⟩, ⟨21, 20, .ro, 0⟩, ⟨19, 0, .ro, 0⟩] }, -- GZ_EVENT (R340)
   { off := 0x10, dims := [], fields := [⟨31, 28, .wo, 0⟩, ⟨27, 24, .wo, 0⟩, ⟨23, 23, .wo, 0⟩, ⟨22, 22, .wo, 0⟩, ⟨21, 21, .wo, 0⟩, ⟨9, 0, .wo, 0⟩] }, -- GZ_CMD (R340)
   { off := 0x14, dims := [], fields := [⟨31, 31, .ro, 0⟩, ⟨27, 24, .ro, 0⟩, ⟨23, 23, .ro, 0⟩, ⟨21, 20, .ro, 0⟩, ⟨19, 0, .ro, 0⟩] }, -- GZ_CMD_STAT (R340)
   { off := 0x18, dims := [], fields := [⟨31, 0, .ro, 0⟩] }, -- GZ_CMD_TARGET (R340)
   { off := 0x1C, dims := [], fields := [⟨31, 31, .rw, 1⟩, ⟨23, 23, .rw, 0⟩, ⟨21, 20, .rw, 0⟩, ⟨19, 0, .rw, 0⟩] }, -- GZ_CMD_CURSOR (R340)
   { off := 0x20, dims := [], fields := [⟨31, 28, .ro, 0⟩, ⟨27, 27, .ro, 0⟩, ⟨26, 26, .ro, 0⟩, ⟨15, 0, .ro, 0⟩] }, -- GZ_CMD_INFO (R340)
   { off := 0x40, dims := [], fields := [⟨31, 0, .rw, 0⟩] }, -- GZ_REHASH_SEED (R340)
   { off := 0x44, dims := [], fields := [⟨31, 0, .rw, 0⟩] }, -- GZ_REHASH_PART (R340)
   { off := 0x48, dims := [], fields := [⟨31, 31, .wo, 0⟩, ⟨27, 24, .wo, 0⟩] }, -- GZ_REHASH_CMD (R340)
   { off := 0x4C, dims := [], fields := [⟨31, 28, .ro, 0⟩, ⟨19, 0, .ro, 0⟩] }, -- GZ_REHASH_PROG (R340)
   { off := 0x60, dims := [], fields := [⟨15, 0, .rw, 0x400⟩] }, -- GZ_UPD_CFG (R340)
   { off := 0x64, dims := [], fields := [⟨16, 0, .ro, 0⟩] }, -- GZ_LOG (R340)
   { off := 0x80, dims := [(16, 0x4)], fields := [⟨31, 0, .ro, 0⟩] }, -- GZ_CNT_INSERTS (R340)
   { off := 0x100, dims := [(16, 0x20)], fields := [⟨31, 31, .rw, 0⟩, ⟨30, 30, .rw, 0⟩, ⟨29, 28, .rw, 0⟩, ⟨27, 27, .rw, 0⟩, ⟨26, 26, .rw, 0⟩, ⟨24, 16, .rw, 0⟩, ⟨15, 13, .rw, 0⟩, ⟨12, 10, .rw, 4⟩] }, -- GZ_TBL_CFG (R340)
   { off := 0x104, dims := [(16, 0x20)], fields := [⟨25, 16, .rw, 0⟩, ⟨9, 0, .rw, 0⟩] }, -- GZ_TBL_PART (R340)
   { off := 0x108, dims := [(16, 0x20)], fields := [⟨31, 0, .rw, 0⟩] }, -- GZ_TBL_SEED (R340)
   { off := 0x10C, dims := [(16, 0x20)], fields := [⟨30, 16, .rw, 0⟩, ⟨13, 0, .rw, 0⟩] }, -- GZ_TBL_OVF (R340)
   { off := 0x110, dims := [(16, 0x20)], fields := [⟨31, 16, .rw, 0⟩, ⟨11, 8, .rw, 4⟩] }, -- GZ_TBL_AGE (R340)
   { off := 0x114, dims := [(16, 0x20)], fields := [⟨31, 24, .rw, 8⟩, ⟨23, 8, .rw, 0x400⟩] }, -- GZ_TBL_LEARN (R340)
   { off := 0x118, dims := [(16, 0x20)], fields := [⟨21, 0, .rw, 0⟩] }, -- GZ_TBL_LIMIT (R340)
   { off := 0x11C, dims := [(16, 0x20)], fields := [⟨31, 30, .ro, 0⟩, ⟨21, 0, .ro, 0⟩] }, -- GZ_TBL_STATE (R340)
   { off := 0xF80, dims := [], fields := [⟨31, 0, .rw, 0⟩] }, -- GZ_MBX_ADDR (R340)
   { off := 0xF84, dims := [(4, 0x4)], fields := [⟨31, 0, .rw, 0⟩] }, -- GZ_MBX_DATA0-3 (R340)
   { off := 0xF94, dims := [], fields := [⟨15, 12, .ro, 0⟩, ⟨8, 8, .wo, 0⟩, ⟨1, 1, .rw, 0⟩, ⟨0, 0, .ro, 0⟩] } -- GZ_MBX_CTL (R340)
  ]

/-- Register map of block kind `spl`. -/
def map_spl : List RRow :=
  [{ off := 0x0, dims := [], fields := [⟨31, 24, .sq, 0⟩, ⟨3, 3, .sq, 0⟩, ⟨2, 2, .sq, 0⟩, ⟨1, 1, .sq, 0⟩, ⟨0, 0, .sq, 0⟩] }, -- SPL_STATUS (R444)
   { off := 0x4, dims := [], fields := [⟨31, 24, .wo, 0⟩] }, -- SPL_STATUS_ACK (R444)
   { off := 0x8, dims := [], fields := [⟨0, 0, .rw, 0⟩] }, -- SPL_CTL (R444)
   { off := 0xC, dims := [], fields := [⟨15, 8, .ro, 0xFF⟩, ⟨7, 0, .ro, 0xFF⟩] }, -- SPL_BW (R444)
   { off := 0x10, dims := [], fields := [⟨13, 8, .ro, 0⟩, ⟨5, 0, .ro, 0⟩] }, -- SPL_DEV (R444)
   { off := 0x14, dims := [], fields := [⟨2, 0, .rw, 0⟩] }, -- SPL_POOL (R444)
   { off := 0x18, dims := [], fields := [⟨12, 0, .ro, 0⟩] }, -- SPL_QUEUES (R444)
   { off := 0x1C, dims := [], fields := [⟨23, 0, .ro, 0⟩] }, -- SPL_PAGES (R444)
   { off := 0x40, dims := [(9, 0x4)], fields := [⟨31, 0, .ro, 0⟩] }, -- SPL_CNT_ENTER (R444)
   { off := 0xF80, dims := [], fields := [⟨31, 0, .rw, 0⟩] }, -- SPL_MBX_ADDR (R444)
   { off := 0xF84, dims := [(4, 0x4)], fields := [⟨31, 0, .rw, 0⟩] }, -- SPL_MBX_DATA0-3 (R444)
   { off := 0xF94, dims := [], fields := [⟨15, 12, .ro, 0⟩, ⟨8, 8, .wo, 0⟩, ⟨1, 1, .rw, 0⟩, ⟨0, 0, .ro, 0⟩] } -- SPL_MBX_CTL (R444)
  ]

/-- Register map of block kind `mem`. -/
def map_mem : List RRow :=
  [{ off := 0x0, dims := [], fields := [⟨5, 4, .ro, 0⟩, ⟨1, 0, .pw, 2⟩] }, -- MEM_CFG (R444)
   { off := 0x8, dims := [], fields := [⟨31, 24, .sq, 0⟩, ⟨1, 1, .sq, 0⟩, ⟨0, 0, .ro, 0⟩] }, -- MEM_PW_STATUS (R444)
   { off := 0xC, dims := [], fields := [⟨31, 24, .wo, 0⟩] }, -- MEM_PW_STATUS_ACK (R444)
   { off := 0x10, dims := [], fields := [⟨31, 24, .sq, 0⟩, ⟨3, 3, .sq, 0⟩, ⟨2, 2, .sq, 0⟩, ⟨1, 1, .sq, 0⟩, ⟨0, 0, .sq, 0⟩] }, -- MEM_STATUS (R444)
   { off := 0x14, dims := [], fields := [⟨31, 24, .wo, 0⟩] }, -- MEM_STATUS_ACK (R444)
   { off := 0x18, dims := [], fields := [⟨2, 2, .wo, 0⟩, ⟨1, 1, .wo, 0⟩, ⟨0, 0, .wo, 0⟩] }, -- MEM_CMD (R444)
   { off := 0x1C, dims := [], fields := [⟨7, 0, .pw, 0x10⟩] }, -- MEM_CRC_CFG (R444)
   { off := 0x20, dims := [(6, 0x4)], fields := [⟨31, 0, .ro, 0⟩] } -- MEM_CNT_WR_CRC (R444)
  ]

/-- Register map of block kind `buf`. -/
def map_buf : List RRow :=
  [{ off := 0x0, dims := [], fields := [⟨31, 24, .sq, 0⟩, ⟨2, 2, .sq, 0⟩, ⟨1, 1, .sq, 0⟩, ⟨0, 0, .sq, 0⟩] }, -- BUF_STATUS (R442)
   { off := 0x4, dims := [], fields := [⟨31, 24, .wo, 0⟩] }, -- BUF_STATUS_ACK (R442)
   { off := 0x8, dims := [], fields := [⟨11, 0, .ro, 0⟩] }, -- BUF_CELL_ERR_INFO (R442)
   { off := 0x10, dims := [], fields := [⟨19, 0, .rw, 0⟩] }, -- BUF_POOL (R442)
   { off := 0x14, dims := [], fields := [⟨19, 0, .ro, 0xC0000⟩] }, -- BUF_SHARED (R442)
   { off := 0x18, dims := [], fields := [⟨19, 0, .ro, 0xC0000⟩] }, -- BUF_FREE (R442)
   { off := 0x1C, dims := [], fields := [⟨19, 0, .ro, 0⟩] }, -- BUF_SHARED_USED (R442)
   { off := 0x20, dims := [], fields := [⟨19, 0, .ro, 0⟩] }, -- BUF_HEADROOM_USED (R442)
   { off := 0x40, dims := [(8, 0x8)], fields := [⟨19, 0, .rw, 0⟩] }, -- BUF_CLASS_RSVc (R442)
   { off := 0x44, dims := [(8, 0x8)], fields := [⟨19, 0, .rw, 0xC0000⟩] }, -- BUF_CLASS_QUOTAc (R442)
   { off := 0x80, dims := [(8, 0x4)], fields := [⟨19, 0, .ro, 0⟩] }, -- BUF_CLASS_USEDc (R442)
   { off := 0xC0, dims := [(13, 0x4)], fields := [⟨31, 0, .ro, 0⟩] }, -- BUF_CNT_ADMIT (R442)
   { off := 0x100, dims := [(32, 0x4)], fields := [⟨31, 31, .rw, 0⟩, ⟨27, 24, .rw, 7⟩, ⟨19, 0, .rw, 0⟩] }, -- BUF_QPROFi (R442)
   { off := 0x180, dims := [(32, 0x4)], fields := [⟨31, 24, .rw, 8⟩, ⟨19, 0, .rw, 0x4000⟩] }, -- BUF_QPROF_SPILLi (R442)
   { off := 0x200, dims := [(32, 0x4)], fields := [⟨23, 0, .rw, 0⟩] }, -- BUF_QPROF_MAXi (R442)
   { off := 0x300, dims := [(8, 0x8)], fields := [⟨19, 0, .rw, 0xC0000⟩] }, -- BUF_XOFFp (R442)
   { off := 0x304, dims := [(8, 0x8)], fields := [⟨19, 0, .rw, 0⟩] }, -- BUF_XONp (R442)
   { off := 0x400, dims := [(512, 0x4)], fields := [⟨19, 0, .rw, 0xC0000⟩] }, -- BUF_PORT_QUOTAj (R442)
   { off := 0xC00, dims := [(512, 0x4)], fields := [⟨19, 0, .ro, 0⟩] }, -- BUF_PORT_USEDj (R442)
   { off := 0x2000, dims := [(4096, 0x4)], fields := [⟨4, 0, .rw, 0⟩] }, -- BUF_QMAPn (R442)
   { off := 0x6000, dims := [(4096, 0x4)], fields := [⟨31, 31, .ro, 0⟩, ⟨19, 0, .ro, 0⟩] }, -- BUF_QDEPTHn (R442)
   { off := 0xFF80, dims := [], fields := [⟨31, 0, .rw, 0⟩] }, -- BUF_MBX_ADDR (R442)
   { off := 0xFF84, dims := [(4, 0x4)], fields := [⟨31, 0, .rw, 0⟩] }, -- BUF_MBX_DATA0-3 (R442)
   { off := 0xFF94, dims := [], fields := [⟨15, 12, .ro, 0⟩, ⟨8, 8, .wo, 0⟩, ⟨1, 1, .rw, 0⟩, ⟨0, 0, .ro, 0⟩] } -- BUF_MBX_CTL (R442)
  ]

/-- Register map of block kind `hpmu`. -/
def map_hpmu : List RRow :=
  [{ off := 0x0, dims := [], fields := [⟨2, 2, .rw, 0⟩, ⟨0, 0, .rw, 0⟩] }, -- PMU_CTL (R534)
   { off := 0x4, dims := [], fields := [⟨31, 24, .sq, 0⟩, ⟨7, 0, .sq, 0⟩] }, -- PMU_STATUS (R534)
   { off := 0x8, dims := [], fields := [⟨31, 24, .wo, 0⟩] }, -- PMU_STATUS_ACK (R534)
   { off := 0xC, dims := [], fields := [⟨1, 1, .wo, 0⟩, ⟨0, 0, .wo, 0⟩] }, -- PMU_CMD (R534)
   { off := 0x20, dims := [(8, 0x8)], fields := [⟨31, 31, .rw, 0⟩, ⟨30, 30, .rw, 0⟩, ⟨29, 28, .rw, 0⟩, ⟨27, 27, .rw, 0⟩, ⟨25, 16, .rw, 0⟩, ⟨7, 0, .rw, 0⟩] }, -- PMU_EVTi (R534)
   { off := 0x24, dims := [(8, 0x8)], fields := [⟨19, 0, .rw, 0⟩] }, -- PMU_THRi (R534)
   { off := 0xF80, dims := [], fields := [⟨31, 0, .rw, 0⟩] }, -- HPMU_MBX_ADDR (R535)
   { off := 0xF84, dims := [(4, 0x4)], fields := [⟨31, 0, .rw, 0⟩] }, -- HPMU_MBX_DATA0-3 (R535)
   { off := 0xF94, dims := [], fields := [⟨15, 12, .ro, 0⟩, ⟨8, 8, .wo, 0⟩, ⟨1, 1, .rw, 0⟩, ⟨0, 0, .ro, 0⟩] } -- HPMU_MBX_CTL (R535)
  ]

/-- Register map of block kind `ln`. -/
def map_ln : List RRow :=
  [{ off := 0x0, dims := [], fields := [⟨11, 11, .pw, 1⟩, ⟨10, 10, .pw, 1⟩, ⟨9, 8, .pw, 0⟩, ⟨7, 7, .pw, 0⟩, ⟨6, 6, .pw, 0⟩, ⟨5, 5, .pw, 1⟩, ⟨4, 4, .pw, 0⟩, ⟨3, 3, .pw, 1⟩, ⟨2, 2, .pw, 0⟩, ⟨0, 0, .pw, 0⟩] }, -- LN_CTL (R192)
   { off := 0x4, dims := [], fields := [⟨19, 18, .ro, 0⟩, ⟨17, 17, .ro, 0⟩, ⟨16, 16, .ro, 0⟩, ⟨11, 11, .ro, 0⟩, ⟨10, 10, .ro, 0⟩, ⟨9, 9, .ro, 0⟩, ⟨7, 4, .ro, 0⟩, ⟨2, 0, .ro, 0⟩] }, -- LN_STATE (R192)
   { off := 0x8, dims := [], fields := [⟨31, 24, .sq, 0⟩, ⟨1, 1, .sq, 0⟩, ⟨0, 0, .ro, 0⟩] }, -- LN_PW_STATUS (R192)
   { off := 0xC, dims := [], fields := [⟨31, 24, .wo, 0⟩] }, -- LN_PW_STATUS_ACK (R192)
   { off := 0x10, dims := [], fields := [⟨31, 24, .sq, 0⟩, ⟨9, 9, .sq, 0⟩, ⟨8, 8, .sq, 0⟩, ⟨7, 7, .sq, 0⟩, ⟨6, 6, .sq, 0⟩, ⟨5, 5, .sq, 0⟩, ⟨4, 4, .sq, 0⟩, ⟨3, 3, .sq, 0⟩, ⟨2, 2, .sq, 0⟩, ⟨1, 1, .sq, 0⟩, ⟨0, 0, .sq, 0⟩] }, -- LN_STATUS (R192)
   { off := 0x14, dims := [], fields := [⟨31, 24, .wo, 0⟩] }, -- LN_STATUS_ACK (R192)
   { off := 0x18, dims := [], fields := [⟨31, 24, .pw, 0x14⟩, ⟨23, 16, .pw, 0xA⟩, ⟨15, 0, .pw, 0⟩] }, -- LN_TIMERS (R192)
   { off := 0x1C, dims := [], fields := [⟨31, 24, .pw, 0x10⟩, ⟨15, 8, .pw, 0x38⟩, ⟨7, 0, .pw, 0xC⟩] }, -- LN_FOM_CFG (R192)
   { off := 0x20, dims := [], fields := [⟨31, 24, .ro, 0⟩, ⟨15, 8, .ro, 0⟩, ⟨7, 0, .ro, 0⟩] }, -- LN_FOM (R192)
   { off := 0x24, dims := [], fields := [⟨7, 0, .ro, 0⟩] }, -- LN_LOSS (R192)
   { off := 0x28, dims := [], fields := [⟨4, 4, .wo, 0⟩, ⟨3, 3, .wo, 0⟩, ⟨2, 2, .wo, 0⟩, ⟨1, 1, .wo, 0⟩, ⟨0, 0, .wo, 0⟩] }, -- LN_CMD (R192)
   { off := 0x40, dims := [(10, 0x4)], fields := [⟨31, 0, .ro, 0⟩] }, -- LN_CNT_DETECT (R192)
   { off := 0x80, dims := [], fields := [⟨23, 16, .ro, 0⟩, ⟨15, 8, .ro, 0⟩, ⟨1, 0, .ro, 0⟩] }, -- LN_SURVEY_STATE (R192)
   { off := 0x84, dims := [], fields := [⟨31, 16, .ro, 0⟩, ⟨15, 0, .ro, 0⟩] }, -- LN_SURVEY_PEER (R192)
   { off := 0x88, dims := [], fields := [⟨31, 24, .ro, 0⟩, ⟨23, 16, .ro, 0⟩, ⟨15, 0, .ro, 0⟩] }, -- LN_SURVEY_PEER2 (R192)
   { off := 0x8C, dims := [], fields := [⟨31, 16, .pw, 0⟩, ⟨15, 8, .pw, 0xFF⟩, ⟨5, 5, .pw, 0⟩, ⟨4, 4, .pw, 0⟩, ⟨3, 3, .pw, 0⟩] }, -- LN_SURVEY_TX (R192)
   { off := 0x100, dims := [], fields := [⟨12, 8, .pw, 0x14⟩, ⟨5, 4, .pw, 0⟩] }, -- LN_EYE_CTL (R192)
   { off := 0x104, dims := [], fields := [⟨23, 16, .ro, 0⟩, ⟨15, 15, .ro, 0⟩, ⟨14, 14, .ro, 0⟩, ⟨12, 0, .ro, 0⟩] }, -- LN_EYE_STAT (R192)
   { off := 0x108, dims := [], fields := [⟨5, 0, .pw, 0⟩] }, -- LN_EYE_ROW (R192)
   { off := 0x180, dims := [(32, 0x4)], fields := [⟨31, 16, .ro, 0⟩, ⟨15, 0, .ro, 0⟩] }, -- LN_EYE_DATAi (R192)
   { off := 0x200, dims := [], fields := [⟨15, 12, .pw, 0⟩, ⟨11, 8, .pw, 0⟩, ⟨1, 1, .pw, 0⟩, ⟨0, 0, .pw, 0⟩] }, -- LN_TEST_CTL (R192)
   { off := 0x204, dims := [], fields := [⟨31, 0, .ro, 0⟩] }, -- LN_PRBS_ERR (R192)
   { off := 0x208, dims := [], fields := [⟨23, 16, .ro, 0⟩, ⟨1, 1, .ro, 0⟩, ⟨0, 0, .ro, 0⟩] }, -- LN_PRBS_STAT (R192)
   { off := 0x300, dims := [], fields := [⟨31, 31, .pw, 0⟩, ⟨24, 20, .pw, 0⟩, ⟨19, 15, .pw, 0⟩, ⟨14, 10, .pw, 0⟩, ⟨9, 5, .pw, 0⟩] }, -- LN_TXEQ_OVR (R192)
   { off := 0x780, dims := [], fields := [⟨31, 0, .rw, 0⟩] }, -- LN_MBX_ADDR (R192)
   { off := 0x784, dims := [(4, 0x4)], fields := [⟨31, 0, .rw, 0⟩] }, -- LN_MBX_DATA0-3 (R192)
   { off := 0x794, dims := [], fields := [⟨15, 12, .ro, 0⟩, ⟨8, 8, .wo, 0⟩, ⟨1, 1, .rw, 0⟩, ⟨0, 0, .ro, 0⟩] } -- LN_MBX_CTL (R192)
  ]

/-- Register map of block kind `pt`. -/
def map_pt : List RRow :=
  [{ off := 0x0, dims := [(4, 0x4)], fields := [⟨3, 0, .rw, 0⟩] }, -- PT_OCT_MODEk (R219)
   { off := 0x10, dims := [], fields := [⟨0, 0, .wo, 0⟩] }, -- PT_CMD (R219)
   { off := 0x14, dims := [], fields := [⟨4, 0, .rw, 0⟩] }, -- PT_CMD_PORT (R219)
   { off := 0x1000, dims := [(32, 0x80)], fields := [⟨29, 16, .rw, 0x5F2⟩, ⟨11, 10, .rw, 0⟩, ⟨9, 8, .rw, 0⟩, ⟨6, 6, .rw, 1⟩, ⟨5, 5, .rw, 0⟩, ⟨4, 4, .rw, 1⟩, ⟨3, 3, .rw, 0⟩] }, -- PT_CFG (R219)
   { off := 0x1004, dims := [(32, 0x80)], fields := [⟨15, 8, .ro, 0⟩, ⟨7, 7, .ro, 0⟩, ⟨6, 6, .ro, 0⟩, ⟨5, 5, .ro, 0⟩, ⟨4, 4, .ro, 0⟩, ⟨1, 0, .ro, 0⟩] }, -- PT_LINK (R219)
   { off := 0x1008, dims := [(32, 0x80)], fields := [⟨31, 24, .sq, 0⟩, ⟨5, 5, .sq, 0⟩, ⟨4, 4, .sq, 0⟩, ⟨3, 3, .sq, 0⟩, ⟨2, 2, .sq, 0⟩, ⟨1, 1, .sq, 0⟩, ⟨0, 0, .sq, 0⟩] }, -- PT_STATUS (R219)
   { off := 0x100C, dims := [(32, 0x80)], fields := [⟨31, 24, .wo, 0⟩] }, -- PT_STATUS_ACK (R219)
   { off := 0x1010, dims := [(32, 0x80)], fields := [⟨31, 0, .rw, 0x76543210⟩] }, -- PT_PFC_MAP (R219)
   { off := 0x1014, dims := [(32, 0x80)], fields := [⟨31, 24, .rw, 0⟩, ⟨23, 16, .rw, 0xFF⟩, ⟨15, 0, .rw, 0x64⟩] }, -- PT_PFC_CFG (R219)
   { off := 0x1018, dims := [(32, 0x80)], fields := [⟨31, 16, .rw, 0x7FFF⟩, ⟨15, 0, .rw, 0xFFFF⟩] }, -- PT_PAUSE_QUANTA (R219)
   { off := 0x101C, dims := [(32, 0x80)], fields := [⟨15, 0, .rw, 0x64⟩] }, -- PT_LIVE_CFG (R219)
   { off := 0x1020, dims := [(32, 0x80)], fields := [⟨31, 16, .ro, 0⟩, ⟨15, 0, .ro, 0⟩] }, -- PT_LAT (R219)
   { off := 0x1024, dims := [(32, 0x80)], fields := [⟨31, 16, .rw, 0⟩, ⟨15, 0, .rw, 0⟩] }, -- PT_TS_ADJ (R219)
   { off := 0x1028, dims := [(32, 0x80)], fields := [⟨31, 31, .ro, 0⟩, ⟨22, 16, .ro, 0⟩, ⟨15, 0, .ro, 0⟩] }, -- PT_TS_FIFO (R219)
   { off := 0x102C, dims := [(32, 0x80)], fields := [⟨31, 0, .rw, 0⟩] }, -- PT_MAC_LO (R219)
   { off := 0x1030, dims := [(32, 0x80)], fields := [⟨15, 0, .rw, 0⟩] }, -- PT_MAC_HI (R219)
   { off := 0xF80, dims := [], fields := [⟨31, 0, .rw, 0⟩] }, -- PT_MBX_ADDR (R219)
   { off := 0xF84, dims := [(4, 0x4)], fields := [⟨31, 0, .rw, 0⟩] }, -- PT_MBX_DATA0-3 (R219)
   { off := 0xF94, dims := [], fields := [⟨15, 12, .ro, 0⟩, ⟨8, 8, .wo, 0⟩, ⟨1, 1, .rw, 0⟩, ⟨0, 0, .ro, 0⟩] } -- PT_MBX_CTL (R219)
  ]

/-- Register map of block kind `prs`. -/
def map_prs : List RRow :=
  [{ off := 0x0, dims := [], fields := [⟨31, 24, .sq, 0⟩, ⟨3, 3, .sq, 0⟩, ⟨2, 2, .sq, 0⟩, ⟨1, 1, .sq, 0⟩] }, -- PRS_STATUS (R248)
   { off := 0x4, dims := [], fields := [⟨31, 24, .wo, 0⟩] }, -- PRS_STATUS_ACK (R248)
   { off := 0x10, dims := [(10, 0x4)], fields := [⟨31, 0, .ro, 0⟩] }, -- PRS_CNT_OK (R248)
   { off := 0x40, dims := [], fields := [⟨8, 8, .rw, 0⟩, ⟨4, 0, .rw, 0⟩] }, -- PRS_CAP_CTL (R248)
   { off := 0x44, dims := [], fields := [⟨31, 29, .ro, 0⟩, ⟨28, 25, .ro, 0⟩, ⟨24, 19, .ro, 0⟩, ⟨18, 10, .ro, 0⟩, ⟨5, 5, .ro, 0⟩, ⟨4, 0, .ro, 0⟩] }, -- PRS_CAP_INFO (R248)
   { off := 0x48, dims := [], fields := [⟨31, 0, .ro, 0⟩] }, -- PRS_CAP_EPOCH (R248)
   { off := 0x100, dims := [(16, 0x4)], fields := [⟨31, 0, .ro, 0⟩] }, -- PRS_CAP_DATAi (R248)
   { off := 0xF80, dims := [], fields := [⟨31, 0, .rw, 0⟩] }, -- PRS_MBX_ADDR (R248)
   { off := 0xF84, dims := [(4, 0x4)], fields := [⟨31, 0, .rw, 0⟩] }, -- PRS_MBX_DATA0-3 (R248)
   { off := 0xF94, dims := [], fields := [⟨15, 12, .ro, 0⟩, ⟨8, 8, .wo, 0⟩, ⟨1, 1, .rw, 0⟩, ⟨0, 0, .ro, 0⟩] }, -- PRS_MBX_CTL (R248)
   { off := 0x4000, dims := [(2, 0x4000), (64, 0x10)], fields := [⟨31, 31, .rw, 0⟩, ⟨30, 30, .rw, 0⟩, ⟨29, 28, .rw, 0⟩, ⟨27, 23, .rw, 0x1F⟩, ⟨22, 15, .rw, 0⟩, ⟨14, 9, .rw, 0⟩, ⟨8, 7, .rw, 0⟩] }, -- PRS_STATE_HDRn (R248)
   { off := 0x4004, dims := [(2, 0x4000), (64, 0x10)], fields := [⟨31, 24, .rw, 0⟩, ⟨23, 15, .rw, 0⟩, ⟨14, 11, .rw, 0⟩, ⟨10, 8, .rw, 0⟩] }, -- PRS_STATE_LENn (R248)
   { off := 0x4008, dims := [(2, 0x4000), (64, 0x10)], fields := [⟨31, 23, .rw, 0⟩, ⟨22, 18, .rw, 0⟩, ⟨17, 9, .rw, 0⟩, ⟨8, 4, .rw, 0⟩] }, -- PRS_STATE_KEYn (R248)
   { off := 0x4400, dims := [(2, 0x4000), (33, 0x4)], fields := [⟨21, 16, .rw, 0⟩, ⟨15, 8, .rw, 0⟩] }, -- PRS_PORTp (R248)
   { off := 0x4500, dims := [(2, 0x4000), (33, 0x10), (4, 0x4)], fields := [⟨31, 29, .rw, 0⟩, ⟨28, 28, .rw, 0⟩, ⟨27, 18, .rw, 0⟩, ⟨17, 15, .rw, 0⟩, ⟨14, 9, .rw, 0⟩, ⟨8, 1, .rw, 0⟩], each := [0, 0, 0, 0x60000000] }, -- PRS_DEFp_c (R248)
   { off := 0x4800, dims := [(2, 0x4000)], fields := [⟨12, 3, .rw, 0⟩, ⟨2, 0, .rw, 0⟩] }, -- PRS_MIRROR (R248)
   { off := 0x4804, dims := [(2, 0x4000)], fields := [⟨31, 0, .rw, 0⟩] }, -- PRS_TT_SEED (R248)
   { off := 0x4808, dims := [(2, 0x4000)], fields := [⟨31, 0, .rw, 0⟩] }, -- PRS_CL_SEED (R248)
   { off := 0x480C, dims := [(2, 0x4000)], fields := [⟨8, 8, .rw, 1⟩, ⟨7, 0, .rw, 8⟩] }, -- PRS_CHECKS (R248)
   { off := 0x4C00, dims := [(2, 0x4000), (384, 0x4)], fields := [⟨15, 8, .rw, 0xFF⟩, ⟨7, 0, .rw, 0⟩] }, -- PRS_EXTi (R248)
   { off := 0x5400, dims := [(2, 0x4000), (256, 0x4)], fields := [⟨31, 16, .rw, 0⟩, ⟨15, 0, .rw, 0⟩] } -- PRS_OKEYt (R248)
  ]

/-- Register map of block kind `stg`. -/
def map_stg : List RRow :=
  [{ off := 0x0, dims := [], fields := [⟨31, 24, .sq, 0⟩, ⟨4, 4, .sq, 0⟩, ⟨3, 3, .sq, 0⟩, ⟨2, 2, .sq, 0⟩, ⟨1, 1, .sq, 0⟩, ⟨0, 0, .sq, 0⟩] }, -- STG_STATUS (R293)
   { off := 0x4, dims := [], fields := [⟨31, 24, .wo, 0⟩] }, -- STG_STATUS_ACK (R293)
   { off := 0x10, dims := [(11, 0x4)], fields := [⟨31, 0, .ro, 0⟩] }, -- STG_CNT_PKTS (R293)
   { off := 0x400, dims := [(2, 0x400), (8, 0x20), (6, 0x4)], fields := [⟨31, 16, .rw, 0⟩, ⟨15, 0, .rw, 0⟩] }, -- STG_KBDd_w (R293)
   { off := 0x500, dims := [(2, 0x400), (2, 0x4)], fields := [⟨19, 16, .rw, 0⟩, ⟨12, 0, .rw, 0⟩] }, -- STG_SU_CFGu (R293)
   { off := 0xF80, dims := [], fields := [⟨31, 0, .rw, 0⟩] }, -- STG_MBX_ADDR (R293)
   { off := 0xF84, dims := [(4, 0x4)], fields := [⟨31, 0, .rw, 0⟩] }, -- STG_MBX_DATA0-3 (R293)
   { off := 0xF94, dims := [], fields := [⟨15, 12, .ro, 0⟩, ⟨8, 8, .wo, 0⟩, ⟨1, 1, .rw, 0⟩, ⟨0, 0, .ro, 0⟩] } -- STG_MBX_CTL (R293)
  ]

/-- Register map of block kind `dep`. -/
def map_dep : List RRow :=
  [{ off := 0x100, dims := [(2, 0x100), (6, 0x4)], fields := [⟨31, 0, .rw, 0⟩] }, -- DEP_ORDERw (R295)
   { off := 0x120, dims := [(2, 0x100), (6, 0x4)], fields := [⟨31, 0, .rw, 0⟩] }, -- DEP_LENw (R295)
   { off := 0x140, dims := [(2, 0x100)], fields := [⟨23, 0, .rw, 0⟩] } -- DEP_CSUM (R295)
  ]

/-- Register map of block kind `ase`. -/
def map_ase : List RRow :=
  [{ off := 0x0, dims := [], fields := [⟨31, 24, .sq, 0⟩, ⟨5, 5, .sq, 0⟩, ⟨4, 4, .sq, 0⟩, ⟨3, 3, .sq, 0⟩, ⟨2, 2, .sq, 0⟩, ⟨1, 1, .sq, 0⟩, ⟨0, 0, .sq, 0⟩] }, -- ASE_STATUS (R373)
   { off := 0x4, dims := [], fields := [⟨31, 24, .wo, 0⟩] }, -- ASE_STATUS_ACK (R373)
   { off := 0x8, dims := [], fields := [⟨31, 28, .ro, 0⟩, ⟨14, 11, .ro, 0⟩, ⟨10, 0, .ro, 0⟩] }, -- ASE_EVENT (R373)
   { off := 0x10, dims := [], fields := [⟨31, 31, .wo, 0⟩, ⟨14, 11, .wo, 0⟩, ⟨10, 0, .wo, 0⟩] }, -- ASE_UPD (R373)
   { off := 0x14, dims := [], fields := [⟨31, 31, .ro, 0⟩, ⟨3, 0, .ro, 0⟩] }, -- ASE_UPD_STAT (R373)
   { off := 0x18, dims := [], fields := [⟨1, 0, .ro, 0⟩] }, -- ASE_THR (R373)
   { off := 0x1C, dims := [], fields := [⟨10, 0, .ro, 0⟩] }, -- ASE_SCRUB (R373)
   { off := 0x20, dims := [(12, 0x4)], fields := [⟨31, 0, .ro, 0⟩] }, -- ASE_CNT_SEARCHES (R373)
   { off := 0x100, dims := [(16, 0x4)], fields := [⟨31, 31, .rw, 0⟩, ⟨30, 30, .rw, 0⟩, ⟨29, 26, .rw, 0⟩, ⟨25, 24, .rw, 0⟩, ⟨23, 23, .rw, 0⟩, ⟨8, 0, .rw, 0⟩] }, -- ASE_BANK_CFGb (R373)
   { off := 0x140, dims := [(16, 0x4)], fields := [⟨11, 0, .ro, 0⟩] }, -- ASE_BANK_ENTRIESb (R373)
   { off := 0x400, dims := [(2, 0x100), (16, 0x4)], fields := [⟨31, 31, .rw, 0⟩, ⟨30, 30, .rw, 0⟩, ⟨29, 28, .rw, 0⟩, ⟨15, 0, .rw, 0⟩] }, -- ASE_PROFp (R373)
   { off := 0x1000, dims := [(16, 0x80), (32, 0x4)], fields := [⟨15, 8, .rw, 0⟩, ⟨7, 0, .rw, 0⟩] }, -- ASE_PFb_i (R373)
   { off := 0xF80, dims := [], fields := [⟨31, 0, .rw, 0⟩] }, -- ASE_MBX_ADDR (R373)
   { off := 0xF84, dims := [(4, 0x4)], fields := [⟨31, 0, .rw, 0⟩] }, -- ASE_MBX_DATA0-3 (R373)
   { off := 0xF94, dims := [], fields := [⟨15, 12, .ro, 0⟩, ⟨8, 8, .wo, 0⟩, ⟨1, 1, .rw, 0⟩, ⟨0, 0, .ro, 0⟩] } -- ASE_MBX_CTL (R373)
  ]

/-- Register map of block kind `eq`. -/
def map_eq : List RRow :=
  [{ off := 0x0, dims := [], fields := [⟨31, 24, .sq, 0⟩, ⟨3, 3, .sq, 0⟩, ⟨2, 2, .sq, 0⟩, ⟨1, 1, .sq, 0⟩, ⟨0, 0, .sq, 0⟩] }, -- EQ_STATUS (R475)
   { off := 0x4, dims := [], fields := [⟨31, 24, .wo, 0⟩] }, -- EQ_STATUS_ACK (R475)
   { off := 0x8, dims := [], fields := [⟨3, 0, .rw, 4⟩] }, -- EQ_CFG (R475)
   { off := 0xC, dims := [], fields := [⟨31, 16, .ro, 0⟩, ⟨15, 0, .ro, 0⟩] }, -- EQ_LATE_RUN (R475)
   { off := 0x10, dims := [(13, 0x4)], fields := [⟨31, 0, .ro, 0⟩] }, -- EQ_CNT_DEMOTED (R475)
   { off := 0x100, dims := [(32, 0x10)], fields := [⟨13, 8, .rw, 0⟩] }, -- EQ_PORTn (R475)
   { off := 0x104, dims := [(32, 0x10)], fields := [⟨31, 31, .ro, 0⟩, ⟨30, 30, .ro, 0⟩, ⟨26, 24, .ro, 0⟩, ⟨23, 16, .ro, 0⟩, ⟨8, 0, .ro, 0⟩] }, -- EQ_PROMn (R475)
   { off := 0x108, dims := [(32, 0x10)], fields := [⟨31, 0, .ro, 0⟩] }, -- EQ_PROM_RATEn (R475)
   { off := 0x10C, dims := [(32, 0x10)], fields := [⟨1, 0, .ro, 0⟩] }, -- EQ_PROM_CAUSEn (R475)
   { off := 0x1000, dims := [(256, 0x4)], fields := [⟨31, 31, .rw, 0⟩, ⟨30, 30, .rw, 0⟩, ⟨28, 20, .rw, 0⟩, ⟨15, 0, .rw, 0x800⟩] }, -- EQ_QCFGj (R475)
   { off := 0xF80, dims := [], fields := [⟨31, 0, .rw, 0⟩] }, -- EQ_MBX_ADDR (R475)
   { off := 0xF84, dims := [(4, 0x4)], fields := [⟨31, 0, .rw, 0⟩] }, -- EQ_MBX_DATA0-3 (R475)
   { off := 0xF94, dims := [], fields := [⟨15, 12, .ro, 0⟩, ⟨8, 8, .wo, 0⟩, ⟨1, 1, .rw, 0⟩, ⟨0, 0, .ro, 0⟩] } -- EQ_MBX_CTL (R475)
  ]

/-- Register map of block kind `smp`. -/
def map_smp : List RRow :=
  [{ off := 0x0, dims := [], fields := [⟨2, 2, .rw, 0⟩, ⟨0, 0, .rw, 0⟩] }, -- PMU_CTL (R534)
   { off := 0x4, dims := [], fields := [⟨31, 24, .sq, 0⟩, ⟨7, 0, .sq, 0⟩] }, -- PMU_STATUS (R534)
   { off := 0x8, dims := [], fields := [⟨31, 24, .wo, 0⟩] }, -- PMU_STATUS_ACK (R534)
   { off := 0xC, dims := [], fields := [⟨1, 1, .wo, 0⟩, ⟨0, 0, .wo, 0⟩] }, -- PMU_CMD (R534)
   { off := 0x20, dims := [(8, 0x8)], fields := [⟨31, 31, .rw, 0⟩, ⟨30, 30, .rw, 0⟩, ⟨29, 28, .rw, 0⟩, ⟨27, 27, .rw, 0⟩, ⟨25, 16, .rw, 0⟩, ⟨7, 0, .rw, 0⟩] }, -- PMU_EVTi (R534)
   { off := 0x24, dims := [(8, 0x8)], fields := [⟨19, 0, .rw, 0⟩] }, -- PMU_THRi (R534)
   { off := 0x100, dims := [], fields := [⟨31, 31, .rw, 0⟩, ⟨30, 30, .rw, 0⟩, ⟨29, 29, .rw, 0⟩, ⟨27, 20, .rw, 0⟩, ⟨19, 0, .rw, 0x4000⟩] }, -- SMP_CFG (R537)
   { off := 0x104, dims := [], fields := [⟨10, 0, .ro, 0⟩] }, -- SMP_STAT (R537)
   { off := 0x108, dims := [], fields := [⟨31, 24, .sq, 0⟩, ⟨0, 0, .sq, 0⟩] }, -- SMP_STATUS (R537)
   { off := 0x10C, dims := [], fields := [⟨31, 24, .wo, 0⟩] }, -- SMP_STATUS_ACK (R537)
   { off := 0x110, dims := [(2, 0x4)], fields := [⟨31, 0, .ro, 0⟩] }, -- SMP_CNT_SAMPLES (R537)
   { off := 0xF80, dims := [], fields := [⟨31, 0, .rw, 0⟩] }, -- SMP_MBX_ADDR (R535)
   { off := 0xF84, dims := [(4, 0x4)], fields := [⟨31, 0, .rw, 0⟩] }, -- SMP_MBX_DATA0-3 (R535)
   { off := 0xF94, dims := [], fields := [⟨15, 12, .ro, 0⟩, ⟨8, 8, .wo, 0⟩, ⟨1, 1, .rw, 0⟩, ⟨0, 0, .ro, 0⟩] } -- SMP_MBX_CTL (R535)
  ]

/-- Register map of block kind `act`. -/
def map_act : List RRow :=
  [{ off := 0x10, dims := [(8, 0x4)], fields := [⟨31, 0, .ro, 0⟩] }, -- ACT_CNT_RECIRC (R295)
   { off := 0x100, dims := [(8, 0x4)], fields := [⟨31, 31, .rw, 0⟩, ⟨30, 28, .rw, 0⟩, ⟨27, 18, .rw, 0⟩, ⟨17, 12, .rw, 0⟩, ⟨7, 0, .rw, 0⟩] }, -- ACT_MIRRORm (R295)
   { off := 0x200, dims := [], fields := [⟨15, 0, .rw, 0x1000⟩] }, -- ACT_RECIRC_CFG (R295)
   { off := 0x4000, dims := [(4096, 0x4)], fields := [⟨31, 31, .rw, 0⟩, ⟨29, 16, .rw, 0⟩, ⟨6, 0, .rw, 0⟩] }, -- ACT_GROUPg (R295)
   { off := 0x8000, dims := [(8192, 0x4)], fields := [⟨25, 16, .rw, 0⟩, ⟨9, 0, .rw, 0⟩] }, -- ACT_MEMBERi (R295)
   { off := 0xF80, dims := [], fields := [⟨31, 0, .rw, 0⟩] }, -- ACT_MBX_ADDR (R295)
   { off := 0xF84, dims := [(3, 0x4)], fields := [⟨31, 0, .rw, 0⟩] }, -- ACT_MBX_DATA0-2 (R295)
   { off := 0xF90, dims := [], fields := [⟨31, 0, .ro, 0⟩] }, -- ACT_MBX_DATA3 (R295)
   { off := 0xF94, dims := [], fields := [⟨15, 12, .ro, 0⟩, ⟨8, 8, .wo, 0⟩, ⟨1, 1, .rw, 0⟩, ⟨0, 0, .ro, 0⟩] } -- ACT_MBX_CTL (R295)
  ]

/-- Register map of block kind `cth`. -/
def map_cth : List RRow :=
  [{ off := 0x0, dims := [], fields := [⟨31, 24, .sq, 0⟩, ⟨0, 0, .sq, 0⟩] }, -- CTH_STATUS (R507)
   { off := 0x4, dims := [], fields := [⟨31, 24, .wo, 0⟩] }, -- CTH_STATUS_ACK (R507)
   { off := 0x10, dims := [(6, 0x4)], fields := [⟨31, 0, .ro, 0⟩] }, -- CTH_CNT_IOAM_WRITTEN (R507)
   { off := 0x40, dims := [], fields := [⟨31, 31, .rw, 0⟩, ⟨30, 30, .rw, 0⟩, ⟨29, 25, .rw, 0x1F⟩, ⟨24, 20, .rw, 0x1F⟩, ⟨19, 14, .rw, 0⟩] }, -- CTH_IOAM (R507)
   { off := 0x44, dims := [], fields := [⟨15, 0, .rw, 0⟩] }, -- CTH_IOAM_NS (R507)
   { off := 0x48, dims := [], fields := [⟨31, 0, .rw, 0⟩] }, -- CTH_IOAM_NODE (R507)
   { off := 0x4C, dims := [], fields := [⟨23, 0, .rw, 0⟩] }, -- CTH_IOAM_NODE_HI (R507)
   { off := 0x50, dims := [], fields := [⟨15, 8, .rw, 0x10⟩, ⟨7, 0, .rw, 1⟩] }, -- CTH_DEX_RATE (R507)
   { off := 0x54, dims := [], fields := [⟨31, 31, .rw, 0⟩, ⟨4, 0, .rw, 0x10⟩] }, -- CTH_POSTCARD (R507)
   { off := 0x400, dims := [(256, 0x4)], fields := [⟨31, 0, .rw, 0xFFFFFFFF⟩] }, -- CTH_FKEYt (R507)
   { off := 0x800, dims := [(256, 0x4)], fields := [⟨5, 0, .rw, 0⟩] }, -- CTH_ACCTp (R507)
   { off := 0xF80, dims := [], fields := [⟨31, 0, .rw, 0⟩] }, -- CTH_MBX_ADDR (R507)
   { off := 0xF84, dims := [(4, 0x4)], fields := [⟨31, 0, .rw, 0⟩] }, -- CTH_MBX_DATA0-3 (R507)
   { off := 0xF94, dims := [], fields := [⟨15, 12, .ro, 0⟩, ⟨8, 8, .wo, 0⟩, ⟨1, 1, .rw, 0⟩, ⟨0, 0, .ro, 0⟩] } -- CTH_MBX_CTL (R507)
  ]

end Sys2Proof.Machine
end

