-- ==== Sys2Proof/Machine/RegNames.lean ====
section
/-!
DEFINITION. The names of the spec's register fields: each is its register's BAR0 address (chapter 20, R657-R662) and
its bits, under the register's and the field's own name. Parameters are the instance: h half, s slice, l global lane,
p global port, m PMU (0 device, 1 + half, 3 + slice), g stage (0-15 ingress, 16-27 egress), b bank, and the register's
own index letters. Read from the spec's register tables by script.
-/
namespace Sys2Proof.Machine

/-- A register field: the BAR0 address of its register and its bits, high and low. -/
structure Fld where
  addr : Nat
  hi : Nat
  lo : Nat
  deriving DecidableEq, Repr

/-- Base of half h's register space (R661). -/
def halfBase (h : Nat) : Nat := 0x01000000 + h * 0x01000000

/-- Base of slice s's register space (R662). -/
def sliceBase (s : Nat) : Nat := 0x04000000 + s * 0x00100000

/-- Base of the registers of global lane l (R192). -/
def laneBase (l : Nat) : Nat := sliceBase (l / 32) + (l % 32) * 0x800

/-- Base of a stage of slice s: ingress stages 0-15, egress stages 16-27 (R293). -/
def stageBase (s g : Nat) : Nat :=
  if g < 16 then sliceBase s + 0x30000 + 0x1000 * g else sliceBase s + 0x40000 + 0x1000 * (g - 16)

/-- Base of a PMU's counter set: 0 the device's, 1 + h a half's, 3 + s a slice's (R512, R534). -/
def pmuBase (m : Nat) : Nat :=
  if m = 0 then 0xB0000 else if m < 3 then halfBase (m - 1) + 0x300000 else sliceBase (m - 3) + 0x70000

/-- Base of the per-port registers of global port p (R219). -/
def portBase (p : Nat) : Nat := sliceBase (p / 32) + 0x11000 + 0x80 * (p % 32)

/-- ID_CAP (R2): the whole register. -/
def ID_CAP.word : Fld := ⟨0x10, 31, 0⟩
def ID_CAP.HALVES : Fld := ⟨0x10, 11, 8⟩
def ID_CAP.ASE_BANKS_DIV2 : Fld := ⟨0x10, 7, 4⟩
def ID_CAP.ARCHIVE_PRESENT : Fld := ⟨0x10, 3, 3⟩
def ID_CAP.SPILL_PRESENT : Fld := ⟨0x10, 2, 2⟩
def ID_CAP.GRADE : Fld := ⟨0x10, 1, 0⟩
/-- ID_IDENT (R111): the whole register. -/
def ID_IDENT.word : Fld := ⟨0, 31, 0⟩
def ID_IDENT.PART : Fld := ⟨0, 31, 16⟩
def ID_IDENT.FAMILY : Fld := ⟨0, 15, 8⟩
def ID_IDENT.VENDOR : Fld := ⟨0, 7, 0⟩
/-- ID_SILICON (R111): the whole register. -/
def ID_SILICON.word : Fld := ⟨4, 31, 0⟩
def ID_SILICON.MAJOR : Fld := ⟨4, 15, 8⟩
def ID_SILICON.MINOR : Fld := ⟨4, 7, 0⟩
/-- ID_PCIE (R111): the whole register. -/
def ID_PCIE.word : Fld := ⟨8, 31, 0⟩
def ID_PCIE.PF1_DEVID : Fld := ⟨8, 31, 16⟩
def ID_PCIE.PF0_DEVID : Fld := ⟨8, 15, 0⟩
/-- ID_BOOTROM (R111): the whole register. -/
def ID_BOOTROM.word : Fld := ⟨0xC, 31, 0⟩
def ID_BOOTROM.BOOTROM_VER : Fld := ⟨0xC, 31, 0⟩
/-- HIF_LINK (R112): the whole register. -/
def HIF_LINK.word : Fld := ⟨0x10000, 31, 0⟩
def HIF_LINK.FLIT : Fld := ⟨0x10000, 12, 12⟩
def HIF_LINK.WIDTH : Fld := ⟨0x10000, 11, 4⟩
def HIF_LINK.SPEED : Fld := ⟨0x10000, 3, 0⟩
/-- HIF_STATUS (R112): the whole register. -/
def HIF_STATUS.word : Fld := ⟨0x10004, 31, 0⟩
def HIF_STATUS.SEQ : Fld := ⟨0x10004, 31, 24⟩
def HIF_STATUS.LINK_DOWN : Fld := ⟨0x10004, 3, 3⟩
def HIF_STATUS.LOW_RATE : Fld := ⟨0x10004, 2, 2⟩
def HIF_STATUS.FLR1 : Fld := ⟨0x10004, 1, 1⟩
def HIF_STATUS.FLR0 : Fld := ⟨0x10004, 0, 0⟩
/-- HIF_BUSERR (R112): the whole register. -/
def HIF_BUSERR.word : Fld := ⟨0x10010, 31, 0⟩
def HIF_BUSERR.SEQ : Fld := ⟨0x10010, 31, 24⟩
def HIF_BUSERR.SOURCE : Fld := ⟨0x10010, 19, 18⟩
def HIF_BUSERR.DIR : Fld := ⟨0x10010, 16, 16⟩
def HIF_BUSERR.PENDING : Fld := ⟨0x10010, 8, 8⟩
def HIF_BUSERR.KIND : Fld := ⟨0x10010, 3, 0⟩
/-- HIF_BUSERR_ADDR (R112): the whole register. -/
def HIF_BUSERR_ADDR.word : Fld := ⟨0x10014, 31, 0⟩
def HIF_BUSERR_ADDR.BAR : Fld := ⟨0x10014, 31, 30⟩
def HIF_BUSERR_ADDR.OFFSET : Fld := ⟨0x10014, 26, 0⟩
/-- HIF_BUSERR_CNT (R112): the whole register. -/
def HIF_BUSERR_CNT.word : Fld := ⟨0x1001C, 31, 0⟩
def HIF_BUSERR_CNT.COUNT : Fld := ⟨0x1001C, 31, 0⟩
/-- HIF_OOB_CTL (R112): the whole register. -/
def HIF_OOB_CTL.word : Fld := ⟨0x10020, 31, 0⟩
def HIF_OOB_CTL.STRAP : Fld := ⟨0x10020, 5, 4⟩
def HIF_OOB_CTL.PEC_EN : Fld := ⟨0x10020, 0, 0⟩
/-- HIF_OOB_STAT (R112): the whole register. -/
def HIF_OOB_STAT.word : Fld := ⟨0x10024, 31, 0⟩
def HIF_OOB_STAT.BAD_CMD : Fld := ⟨0x10024, 31, 16⟩
def HIF_OOB_STAT.BAD_PEC : Fld := ⟨0x10024, 15, 0⟩
/-- HIF_SCRATCH (R112): the whole register. -/
def HIF_SCRATCH.word (i : Nat) : Fld := ⟨0x10030 + i * 4, 31, 0⟩
def HIF_SCRATCH.SCRATCH (i : Nat) : Fld := ⟨0x10030 + i * 4, 31, 0⟩
/-- WLD_DEV (R113): the whole register. -/
def WLD_DEV.word : Fld := ⟨0x20000, 31, 0⟩
def WLD_DEV.DEV : Fld := ⟨0x20000, 13, 4⟩
def WLD_DEV.FIXED : Fld := ⟨0x20000, 3, 0⟩
/-- WLD_HALF (R113): the whole register. -/
def WLD_HALF.word : Fld := ⟨0x20004, 31, 0⟩
def WLD_HALF.HALF : Fld := ⟨0x20004, 7, 0⟩
/-- WLD_GZ_TABLE (R113): the whole register. -/
def WLD_GZ_TABLE.word : Fld := ⟨0x20008, 31, 0⟩
def WLD_GZ_TABLE.TABLE : Fld := ⟨0x20008, 15, 0⟩
/-- WLD_BPM_POOL (R113): the whole register. -/
def WLD_BPM_POOL.word : Fld := ⟨0x2000C, 31, 0⟩
def WLD_BPM_POOL.POOL : Fld := ⟨0x2000C, 7, 0⟩
/-- WLD_TEL_RING (R113): the whole register. -/
def WLD_TEL_RING.word : Fld := ⟨0x20010, 31, 0⟩
def WLD_TEL_RING.RING : Fld := ⟨0x20010, 15, 0⟩
/-- WLD_DMA_PUNT_LO (R113): the whole register. -/
def WLD_DMA_PUNT_LO.word : Fld := ⟨0x20014, 31, 0⟩
def WLD_DMA_PUNT_LO.PUNT_LO : Fld := ⟨0x20014, 31, 0⟩
/-- WLD_DMA_PUNT_HI (R113): the whole register. -/
def WLD_DMA_PUNT_HI.word : Fld := ⟨0x20018, 31, 0⟩
def WLD_DMA_PUNT_HI.PUNT_HI : Fld := ⟨0x20018, 31, 0⟩
/-- WLD_DMA_INJ_LO (R113): the whole register. -/
def WLD_DMA_INJ_LO.word : Fld := ⟨0x2001C, 31, 0⟩
def WLD_DMA_INJ_LO.INJ_LO : Fld := ⟨0x2001C, 31, 0⟩
/-- WLD_DMA_INJ_HI (R113): the whole register. -/
def WLD_DMA_INJ_HI.word : Fld := ⟨0x20020, 31, 0⟩
def WLD_DMA_INJ_HI.INJ_HI : Fld := ⟨0x20020, 31, 0⟩
/-- WLD_SLICE (R113): the whole register. -/
def WLD_SLICE.word (s : Nat) : Fld := ⟨0x20100 + s * 4, 31, 0⟩
def WLD_SLICE.BLOCK (s : Nat) : Fld := ⟨0x20100 + s * 4, 9, 0⟩
/-- WLD_LOCK (R113): the whole register. -/
def WLD_LOCK.word : Fld := ⟨0x20200, 31, 0⟩
def WLD_LOCK.LOCK : Fld := ⟨0x20200, 0, 0⟩
/-- WLD_STATE (R113): the whole register. -/
def WLD_STATE.word : Fld := ⟨0x20204, 31, 0⟩
def WLD_STATE.FROM_IMAGE : Fld := ⟨0x20204, 1, 1⟩
def WLD_STATE.LOCKED : Fld := ⟨0x20204, 0, 0⟩
/-- BOOT_STATE (R153): the whole register. -/
def BOOT_STATE.word : Fld := ⟨0x30000, 31, 0⟩
def BOOT_STATE.SOURCE : Fld := ⟨0x30000, 11, 10⟩
def BOOT_STATE.LAST_RESET : Fld := ⟨0x30000, 7, 4⟩
def BOOT_STATE.STATE : Fld := ⟨0x30000, 3, 0⟩
/-- BOOT_RUN_SEQ (R153): the whole register. -/
def BOOT_RUN_SEQ.word : Fld := ⟨0x30004, 31, 0⟩
def BOOT_RUN_SEQ.RUN_SEQ : Fld := ⟨0x30004, 31, 0⟩
/-- BOOT_SLOT_RESULT (R153): the whole register. -/
def BOOT_SLOT_RESULT.word : Fld := ⟨0x30008, 31, 0⟩
def BOOT_SLOT_RESULT.B : Fld := ⟨0x30008, 15, 8⟩
def BOOT_SLOT_RESULT.A : Fld := ⟨0x30008, 7, 0⟩
/-- BOOT_SLOT_SEQ_A (R153): the whole register. -/
def BOOT_SLOT_SEQ_A.word : Fld := ⟨0x3000C, 31, 0⟩
def BOOT_SLOT_SEQ_A.SEQ_A : Fld := ⟨0x3000C, 31, 0⟩
/-- BOOT_SLOT_SEQ_B (R153): the whole register. -/
def BOOT_SLOT_SEQ_B.word : Fld := ⟨0x30010, 31, 0⟩
def BOOT_SLOT_SEQ_B.SEQ_B : Fld := ⟨0x30010, 31, 0⟩
/-- BOOT_ROLLBACK (R153): the whole register. -/
def BOOT_ROLLBACK.word : Fld := ⟨0x30014, 31, 0⟩
def BOOT_ROLLBACK.RUN : Fld := ⟨0x30014, 14, 8⟩
def BOOT_ROLLBACK.FUSED : Fld := ⟨0x30014, 6, 0⟩
/-- BOOT_TIME (R153): the whole register. -/
def BOOT_TIME.word : Fld := ⟨0x30018, 31, 0⟩
def BOOT_TIME.TO_RUN : Fld := ⟨0x30018, 15, 0⟩
/-- BOOT_STATUS (R153): the whole register. -/
def BOOT_STATUS.word : Fld := ⟨0x30020, 31, 0⟩
def BOOT_STATUS.SEQ : Fld := ⟨0x30020, 31, 24⟩
def BOOT_STATUS.DRAIN_EXPIRED : Fld := ⟨0x30020, 5, 5⟩
def BOOT_STATUS.BANK_REJECT : Fld := ⟨0x30020, 4, 4⟩
def BOOT_STATUS.SWAP_DONE : Fld := ⟨0x30020, 3, 3⟩
def BOOT_STATUS.CMD_DONE : Fld := ⟨0x30020, 2, 2⟩
def BOOT_STATUS.FL_DONE : Fld := ⟨0x30020, 1, 1⟩
def BOOT_STATUS.WAIT_HOST : Fld := ⟨0x30020, 0, 0⟩
/-- BOOT_CMD (R153): the whole register. -/
def BOOT_CMD.word : Fld := ⟨0x30030, 31, 0⟩
def BOOT_CMD.SLOT : Fld := ⟨0x30030, 4, 4⟩
def BOOT_CMD.OP : Fld := ⟨0x30030, 3, 0⟩
/-- BOOT_CMD_SEQ (R153): the whole register. -/
def BOOT_CMD_SEQ.word : Fld := ⟨0x30034, 31, 0⟩
def BOOT_CMD_SEQ.SEQ : Fld := ⟨0x30034, 31, 0⟩
/-- BOOT_CMD_RESULT (R153): the whole register. -/
def BOOT_CMD_RESULT.word : Fld := ⟨0x30038, 31, 0⟩
def BOOT_CMD_RESULT.BUSY : Fld := ⟨0x30038, 31, 31⟩
def BOOT_CMD_RESULT.RESULT : Fld := ⟨0x30038, 7, 0⟩
/-- BOOT_APPLY_SKIP (R153): the whole register. -/
def BOOT_APPLY_SKIP.word : Fld := ⟨0x3003C, 31, 0⟩
def BOOT_APPLY_SKIP.SKIP : Fld := ⟨0x3003C, 15, 0⟩
/-- BOOT_BANK_STATE (R153): the whole register. -/
def BOOT_BANK_STATE.word : Fld := ⟨0x30040, 31, 0⟩
def BOOT_BANK_STATE.REJECT : Fld := ⟨0x30040, 15, 12⟩
def BOOT_BANK_STATE.ACTIVE : Fld := ⟨0x30040, 8, 8⟩
def BOOT_BANK_STATE.B_STATE : Fld := ⟨0x30040, 6, 4⟩
def BOOT_BANK_STATE.A_STATE : Fld := ⟨0x30040, 2, 0⟩
/-- BOOT_BANK_SEQ (R153): the whole register. -/
def BOOT_BANK_SEQ.word : Fld := ⟨0x30044, 31, 0⟩
def BOOT_BANK_SEQ.B_SEQ : Fld := ⟨0x30044, 31, 16⟩
def BOOT_BANK_SEQ.A_SEQ : Fld := ⟨0x30044, 15, 0⟩
/-- BOOT_BANK_SEAL (R153): the whole register. -/
def BOOT_BANK_SEAL.word : Fld := ⟨0x30048, 31, 0⟩
def BOOT_BANK_SEAL.BANK : Fld := ⟨0x30048, 16, 16⟩
def BOOT_BANK_SEAL.SEQ : Fld := ⟨0x30048, 15, 0⟩
/-- BOOT_BANK_CMD (R153): the whole register. -/
def BOOT_BANK_CMD.word : Fld := ⟨0x3004C, 31, 0⟩
def BOOT_BANK_CMD.UNSEAL : Fld := ⟨0x3004C, 1, 1⟩
def BOOT_BANK_CMD.SWAP : Fld := ⟨0x3004C, 0, 0⟩
/-- BOOT_BANK_CTL (R153): the whole register. -/
def BOOT_BANK_CTL.word : Fld := ⟨0x30050, 31, 0⟩
def BOOT_BANK_CTL.DRAIN_LIMIT : Fld := ⟨0x30050, 15, 0⟩
/-- BOOT_BANK_TARGET (R153): the whole register. -/
def BOOT_BANK_TARGET.word : Fld := ⟨0x30054, 31, 0⟩
def BOOT_BANK_TARGET.TARGET_LO : Fld := ⟨0x30054, 31, 0⟩
/-- BOOT_BANK_SWAPS (R153): the whole register. -/
def BOOT_BANK_SWAPS.word : Fld := ⟨0x30058, 31, 0⟩
def BOOT_BANK_SWAPS.SWAPS : Fld := ⟨0x30058, 31, 0⟩
/-- BOOT_BANK_EXPIRED (R153): the whole register. -/
def BOOT_BANK_EXPIRED.word : Fld := ⟨0x3005C, 31, 0⟩
def BOOT_BANK_EXPIRED.EXPIRED : Fld := ⟨0x3005C, 31, 0⟩
/-- BOOT_INFLIGHT (R153): the whole register. -/
def BOOT_INFLIGHT.word (s : Nat) : Fld := ⟨0x30100 + s * 4, 31, 0⟩
def BOOT_INFLIGHT.B (s : Nat) : Fld := ⟨0x30100 + s * 4, 31, 16⟩
def BOOT_INFLIGHT.A (s : Nat) : Fld := ⟨0x30100 + s * 4, 15, 0⟩
/-- BOOT_FL_ADDR (R153): the whole register. -/
def BOOT_FL_ADDR.word : Fld := ⟨0x30200, 31, 0⟩
def BOOT_FL_ADDR.ADDR : Fld := ⟨0x30200, 31, 0⟩
/-- BOOT_FL_CMD (R153): the whole register. -/
def BOOT_FL_CMD.word : Fld := ⟨0x30204, 31, 0⟩
def BOOT_FL_CMD.OP : Fld := ⟨0x30204, 2, 0⟩
/-- BOOT_FL_STAT (R153): the whole register. -/
def BOOT_FL_STAT.word : Fld := ⟨0x30208, 31, 0⟩
def BOOT_FL_STAT.SEQ : Fld := ⟨0x30208, 31, 24⟩
def BOOT_FL_STAT.PROTECT_HIT : Fld := ⟨0x30208, 3, 3⟩
def BOOT_FL_STAT.FLASH_ERR : Fld := ⟨0x30208, 2, 2⟩
def BOOT_FL_STAT.REJECTED : Fld := ⟨0x30208, 1, 1⟩
def BOOT_FL_STAT.BUSY : Fld := ⟨0x30208, 0, 0⟩
/-- BOOT_FL_CFG (R153): the whole register. -/
def BOOT_FL_CFG.word : Fld := ⟨0x30210, 31, 0⟩
def BOOT_FL_CFG.SIZE_LOG2 : Fld := ⟨0x30210, 15, 8⟩
def BOOT_FL_CFG.PROTECT_RUNNING : Fld := ⟨0x30210, 0, 0⟩
/-- BOOT_FL_BUF (R153): the whole register. -/
def BOOT_FL_BUF.word (i : Nat) : Fld := ⟨0x30400 + i * 4, 31, 0⟩
def BOOT_FL_BUF.BUF (i : Nat) : Fld := ⟨0x30400 + i * 4, 31, 0⟩
/-- GRT_EPOCH_CTL (R68): the whole register. -/
def GRT_EPOCH_CTL.word : Fld := ⟨0x40000, 31, 0⟩
def GRT_EPOCH_CTL.TRIM_MAX : Fld := ⟨0x40000, 11, 8⟩
def GRT_EPOCH_CTL.TRIM_EN : Fld := ⟨0x40000, 2, 2⟩
def GRT_EPOCH_CTL.AUTO_JUMP : Fld := ⟨0x40000, 1, 1⟩
def GRT_EPOCH_CTL.TRACK_EN : Fld := ⟨0x40000, 0, 0⟩
/-- GRT_STATUS (R68): the whole register. -/
def GRT_STATUS.word : Fld := ⟨0x40004, 31, 0⟩
def GRT_STATUS.SEQ : Fld := ⟨0x40004, 31, 24⟩
def GRT_STATUS.LATE_LIMIT : Fld := ⟨0x40004, 4, 4⟩
def GRT_STATUS.GSYNC_LOST : Fld := ⟨0x40004, 3, 3⟩
def GRT_STATUS.JUMPED : Fld := ⟨0x40004, 2, 2⟩
def GRT_STATUS.BEHIND : Fld := ⟨0x40004, 1, 1⟩
def GRT_STATUS.AHEAD : Fld := ⟨0x40004, 0, 0⟩
/-- GRT_EPOCH_LO (R68): the whole register. -/
def GRT_EPOCH_LO.word : Fld := ⟨0x4000C, 31, 0⟩
def GRT_EPOCH_LO.EPOCH_LO : Fld := ⟨0x4000C, 31, 0⟩
/-- GRT_FRAME_POS (R68): the whole register. -/
def GRT_FRAME_POS.word : Fld := ⟨0x40010, 31, 0⟩
def GRT_FRAME_POS.INDEX : Fld := ⟨0x40010, 9, 0⟩
/-- GRT_STATE (R68): the whole register. -/
def GRT_STATE.word : Fld := ⟨0x40014, 31, 0⟩
def GRT_STATE.STATE : Fld := ⟨0x40014, 2, 0⟩
/-- GRT_PHASE_ERR (R68): the whole register. -/
def GRT_PHASE_ERR.word : Fld := ⟨0x40018, 31, 0⟩
def GRT_PHASE_ERR.PHASE_ERR : Fld := ⟨0x40018, 31, 0⟩
/-- GRT_JUMP (R68): the whole register. -/
def GRT_JUMP.word : Fld := ⟨0x4001C, 31, 0⟩
def GRT_JUMP.JUMP_REQ : Fld := ⟨0x4001C, 0, 0⟩
/-- GRT_LATE_CFG (R68): the whole register. -/
def GRT_LATE_CFG.word (c : Nat) : Fld := ⟨0x40020 + c * 0x10, 31, 0⟩
def GRT_LATE_CFG.LATE_LIMIT (c : Nat) : Fld := ⟨0x40020 + c * 0x10, 15, 8⟩
def GRT_LATE_CFG.CATCHUP (c : Nat) : Fld := ⟨0x40020 + c * 0x10, 3, 0⟩
/-- GRT_LATE_CNT (R68): the whole register. -/
def GRT_LATE_CNT.word (c : Nat) : Fld := ⟨0x40024 + c * 0x10, 31, 0⟩
def GRT_LATE_CNT.LATE_CNT (c : Nat) : Fld := ⟨0x40024 + c * 0x10, 31, 0⟩
/-- GRT_CATCHUP_CNT (R68): the whole register. -/
def GRT_CATCHUP_CNT.word (c : Nat) : Fld := ⟨0x40028 + c * 0x10, 31, 0⟩
def GRT_CATCHUP_CNT.CATCHUP_CNT (c : Nat) : Fld := ⟨0x40028 + c * 0x10, 31, 0⟩
/-- GRT_LATE_RUN (R68): the whole register. -/
def GRT_LATE_RUN.word (c : Nat) : Fld := ⟨0x4002C + c * 0x10, 31, 0⟩
def GRT_LATE_RUN.LATE_MAX (c : Nat) : Fld := ⟨0x4002C + c * 0x10, 31, 16⟩
def GRT_LATE_RUN.LATE_NOW (c : Nat) : Fld := ⟨0x4002C + c * 0x10, 15, 0⟩
/-- GRT_GSYNC_CTL (R68): the whole register. -/
def GRT_GSYNC_CTL.word : Fld := ⟨0x40060, 31, 0⟩
def GRT_GSYNC_CTL.CHIP_ID : Fld := ⟨0x40060, 7, 4⟩
def GRT_GSYNC_CTL.ROLE : Fld := ⟨0x40060, 1, 0⟩
/-- GRT_GSYNC_TRACE (R68): the whole register. -/
def GRT_GSYNC_TRACE.word : Fld := ⟨0x40064, 31, 0⟩
def GRT_GSYNC_TRACE.TRACE : Fld := ⟨0x40064, 11, 0⟩
/-- GRT_GSYNC_STATUS (R68): the whole register. -/
def GRT_GSYNC_STATUS.word : Fld := ⟨0x40068, 31, 0⟩
def GRT_GSYNC_STATUS.SEQ : Fld := ⟨0x40068, 31, 24⟩
def GRT_GSYNC_STATUS.LEADER_ID : Fld := ⟨0x40068, 23, 20⟩
def GRT_GSYNC_STATUS.HOP : Fld := ⟨0x40068, 19, 16⟩
def GRT_GSYNC_STATUS.CRC_ERR : Fld := ⟨0x40068, 2, 2⟩
def GRT_GSYNC_STATUS.LOST : Fld := ⟨0x40068, 1, 1⟩
def GRT_GSYNC_STATUS.LOCKED : Fld := ⟨0x40068, 0, 0⟩
/-- GRT_GSYNC_RTT (R68): the whole register. -/
def GRT_GSYNC_RTT.word : Fld := ⟨0x40070, 31, 0⟩
def GRT_GSYNC_RTT.RTT : Fld := ⟨0x40070, 31, 0⟩
/-- PWR_STATUS (R603): the whole register. -/
def PWR_STATUS.word : Fld := ⟨0x50000, 31, 0⟩
def PWR_STATUS.SEQ : Fld := ⟨0x50000, 31, 24⟩
def PWR_STATUS.ATTR_CLAMP : Fld := ⟨0x50000, 7, 7⟩
def PWR_STATUS.CFG_REJECT : Fld := ⟨0x50000, 6, 6⟩
def PWR_STATUS.STEP_STALE : Fld := ⟨0x50000, 5, 5⟩
def PWR_STATUS.AVS_ERR : Fld := ⟨0x50000, 4, 4⟩
def PWR_STATUS.CURRENT_LIMIT : Fld := ⟨0x50000, 3, 3⟩
def PWR_STATUS.THERMAL_TRIP : Fld := ⟨0x50000, 2, 2⟩
def PWR_STATUS.CAP_DEFICIT : Fld := ⟨0x50000, 1, 1⟩
def PWR_STATUS.THROTTLE : Fld := ⟨0x50000, 0, 0⟩
/-- PWR_PW_STATUS (R603): the whole register. -/
def PWR_PW_STATUS.word : Fld := ⟨0x50008, 31, 0⟩
def PWR_PW_STATUS.SEQ : Fld := ⟨0x50008, 31, 24⟩
def PWR_PW_STATUS.WRITE_LOST : Fld := ⟨0x50008, 1, 1⟩
def PWR_PW_STATUS.PW_BUSY : Fld := ⟨0x50008, 0, 0⟩
/-- PWR_STATE (R603): the whole register. -/
def PWR_STATE.word : Fld := ⟨0x50010, 31, 0⟩
def PWR_STATE.REASONS : Fld := ⟨0x50010, 30, 24⟩
def PWR_STATE.LINKS_OFF : Fld := ⟨0x50010, 23, 23⟩
def PWR_STATE.MEM_RATE_STEPS : Fld := ⟨0x50010, 22, 21⟩
def PWR_STATE.SPL_STEPS : Fld := ⟨0x50010, 20, 19⟩
def PWR_STATE.ASE_LEVEL : Fld := ⟨0x50010, 18, 17⟩
def PWR_STATE.PACE_IN : Fld := ⟨0x50010, 16, 15⟩
def PWR_STATE.PACE_OUT : Fld := ⟨0x50010, 14, 13⟩
def PWR_STATE.FIXED_ON : Fld := ⟨0x50010, 12, 12⟩
def PWR_STATE.FLOOR : Fld := ⟨0x50010, 11, 9⟩
def PWR_STATE.TARGET : Fld := ⟨0x50010, 8, 6⟩
def PWR_STATE.POINT : Fld := ⟨0x50010, 2, 0⟩
/-- PWR_POWER (R603): the whole register. -/
def PWR_POWER.word : Fld := ⟨0x50014, 31, 0⟩
def PWR_POWER.AVG_W : Fld := ⟨0x50014, 31, 16⟩
def PWR_POWER.FRAME_W : Fld := ⟨0x50014, 15, 0⟩
/-- PWR_TEMP (R603): the whole register. -/
def PWR_TEMP.word : Fld := ⟨0x50018, 31, 0⟩
def PWR_TEMP.SENSOR : Fld := ⟨0x50018, 15, 8⟩
def PWR_TEMP.TJ_MAX : Fld := ⟨0x50018, 7, 0⟩
/-- PWR_IOUT (R603): the whole register. -/
def PWR_IOUT.word : Fld := ⟨0x5001C, 31, 0⟩
def PWR_IOUT.SRAM_A : Fld := ⟨0x5001C, 31, 16⟩
def PWR_IOUT.CORE_A : Fld := ⟨0x5001C, 15, 0⟩
/-- PWR_PACE_BE (R603): the whole register. -/
def PWR_PACE_BE.word : Fld := ⟨0x50020, 31, 0⟩
def PWR_PACE_BE.FRACTION : Fld := ⟨0x50020, 8, 0⟩
/-- PWR_PACE_STAT (R603): the whole register. -/
def PWR_PACE_STAT.word : Fld := ⟨0x50024, 31, 0⟩
def PWR_PACE_STAT.ORIG : Fld := ⟨0x50024, 31, 16⟩
/-- PWR_CAP (R603): the whole register. -/
def PWR_CAP.word : Fld := ⟨0x50030, 31, 0⟩
def PWR_CAP.CAP_W : Fld := ⟨0x50030, 10, 0⟩
/-- PWR_CAP_CFG (R603): the whole register. -/
def PWR_CAP_CFG.word : Fld := ⟨0x50034, 31, 0⟩
def PWR_CAP_CFG.THIRD : Fld := ⟨0x50034, 21, 20⟩
def PWR_CAP_CFG.SECOND : Fld := ⟨0x50034, 19, 18⟩
def PWR_CAP_CFG.FIRST : Fld := ⟨0x50034, 17, 16⟩
def PWR_CAP_CFG.HYST_W : Fld := ⟨0x50034, 15, 8⟩
def PWR_CAP_CFG.RELEASE : Fld := ⟨0x50034, 7, 4⟩
def PWR_CAP_CFG.WINDOW : Fld := ⟨0x50034, 3, 0⟩
/-- PWR_POINT_LIM (R603): the whole register. -/
def PWR_POINT_LIM.word : Fld := ⟨0x50038, 31, 0⟩
def PWR_POINT_LIM.FIXED : Fld := ⟨0x50038, 11, 11⟩
def PWR_POINT_LIM.FIXED_POINT : Fld := ⟨0x50038, 10, 8⟩
def PWR_POINT_LIM.BOOST_EN : Fld := ⟨0x50038, 3, 3⟩
def PWR_POINT_LIM.MAX_POINT : Fld := ⟨0x50038, 2, 0⟩
/-- PWR_THERM (R603): the whole register. -/
def PWR_THERM.word : Fld := ⟨0x5003C, 31, 0⟩
def PWR_THERM.T_BOOST : Fld := ⟨0x5003C, 23, 16⟩
def PWR_THERM.T_TRIP : Fld := ⟨0x5003C, 15, 8⟩
def PWR_THERM.T_THROTTLE : Fld := ⟨0x5003C, 7, 0⟩
/-- PWR_ICC (R603): the whole register. -/
def PWR_ICC.word : Fld := ⟨0x50040, 31, 0⟩
def PWR_ICC.ICC_MAX : Fld := ⟨0x50040, 11, 0⟩
/-- PWR_DROOP (R603): the whole register. -/
def PWR_DROOP.word : Fld := ⟨0x50044, 31, 0⟩
def PWR_DROOP.RECOVER : Fld := ⟨0x50044, 15, 8⟩
def PWR_DROOP.DROOP_MV : Fld := ⟨0x50044, 7, 0⟩
/-- PWR_HOST (R603): the whole register. -/
def PWR_HOST.word : Fld := ⟨0x50048, 31, 0⟩
def PWR_HOST.HOST_MAX : Fld := ⟨0x50048, 2, 0⟩
/-- PWR_PACE_CFG (R603): the whole register. -/
def PWR_PACE_CFG.word : Fld := ⟨0x5004C, 31, 0⟩
def PWR_PACE_CFG.RELEASE : Fld := ⟨0x5004C, 23, 16⟩
def PWR_PACE_CFG.PT3 : Fld := ⟨0x5004C, 14, 12⟩
def PWR_PACE_CFG.PT2 : Fld := ⟨0x5004C, 10, 8⟩
def PWR_PACE_CFG.PT1 : Fld := ⟨0x5004C, 6, 4⟩
def PWR_PACE_CFG.PACE_EN : Fld := ⟨0x5004C, 0, 0⟩
/-- PWR_EXT (R603): the whole register. -/
def PWR_EXT.word : Fld := ⟨0x50050, 31, 0⟩
def PWR_EXT.VALID : Fld := ⟨0x50050, 31, 31⟩
def PWR_EXT.W : Fld := ⟨0x50050, 15, 0⟩
/-- PWR_IDLE (R603): the whole register. -/
def PWR_IDLE.word : Fld := ⟨0x50054, 31, 0⟩
def PWR_IDLE.IDLE_W : Fld := ⟨0x50054, 15, 0⟩
def PWR_CNT_STEPS_DOWN : Fld := ⟨0x50060, 31, 0⟩
def PWR_CNT_STEPS_UP : Fld := ⟨0x50064, 31, 0⟩
def PWR_CNT_DROOP : Fld := ⟨0x50068, 31, 0⟩
def PWR_CNT_TRIPS : Fld := ⟨0x5006C, 31, 0⟩
def PWR_CNT_AVS_ERR : Fld := ⟨0x50070, 31, 0⟩
def PWR_CNT_PACE_CHANGES : Fld := ⟨0x50074, 31, 0⟩
def PWR_CNT_DEFICIT : Fld := ⟨0x50078, 31, 0⟩
/-- All counters of the row, by k (R603). -/
def PWR_CNT_STEPS_DOWN.cnt (k : Nat) : Fld := ⟨0x50060 + 4 * k, 31, 0⟩
/-- PWR_VID (R603): the whole register. -/
def PWR_VID.word (p : Nat) : Fld := ⟨0x50100 + p * 4, 31, 0⟩
def PWR_VID.SRAM_MV (p : Nat) : Fld := ⟨0x50100 + p * 4, 25, 16⟩
def PWR_VID.CORE_MV (p : Nat) : Fld := ⟨0x50100 + p * 4, 9, 0⟩
/-- PWR_COEF (R603): the whole register. -/
def PWR_COEF.word (k : Nat) : Fld := ⟨0x50200 + k * 4, 31, 0⟩
def PWR_COEF.PJ (k : Nat) : Fld := ⟨0x50200 + k * 4, 19, 0⟩
/-- FLT_STATUS (R632): the whole register. -/
def FLT_STATUS.word : Fld := ⟨0x60000, 31, 0⟩
def FLT_STATUS.SEQ : Fld := ⟨0x60000, 31, 24⟩
def FLT_STATUS.LOG_LOST : Fld := ⟨0x60000, 5, 5⟩
def FLT_STATUS.FENCED : Fld := ⟨0x60000, 4, 4⟩
def FLT_STATUS.SAFE : Fld := ⟨0x60000, 3, 3⟩
def FLT_STATUS.PATH : Fld := ⟨0x60000, 2, 2⟩
def FLT_STATUS.CONSEQ : Fld := ⟨0x60000, 1, 1⟩
def FLT_STATUS.EVENT : Fld := ⟨0x60000, 0, 0⟩
/-- FLT_SEV_STATUS (R632): the whole register. -/
def FLT_SEV_STATUS.word : Fld := ⟨0x60008, 31, 0⟩
def FLT_SEV_STATUS.SEQ : Fld := ⟨0x60008, 31, 24⟩
def FLT_SEV_STATUS.CLASS : Fld := ⟨0x60008, 23, 18⟩
def FLT_SEV_STATUS.REACTION : Fld := ⟨0x60008, 17, 15⟩
def FLT_SEV_STATUS.SEVERE : Fld := ⟨0x60008, 12, 12⟩
def FLT_SEV_STATUS.SOURCE : Fld := ⟨0x60008, 11, 0⟩
/-- FLT_FIRST (R632): the whole register. -/
def FLT_FIRST.word : Fld := ⟨0x60010, 31, 0⟩
def FLT_FIRST.SEQ : Fld := ⟨0x60010, 31, 24⟩
def FLT_FIRST.VALID : Fld := ⟨0x60010, 23, 23⟩
def FLT_FIRST.OVERFLOW : Fld := ⟨0x60010, 22, 22⟩
def FLT_FIRST.CLASS : Fld := ⟨0x60010, 17, 12⟩
def FLT_FIRST.SOURCE : Fld := ⟨0x60010, 11, 0⟩
/-- FLT_FIRST_DETAIL (R632): the whole register. -/
def FLT_FIRST_DETAIL.word : Fld := ⟨0x60014, 31, 0⟩
def FLT_FIRST_DETAIL.DETAIL : Fld := ⟨0x60014, 31, 0⟩
/-- FLT_FIRST_OVF_CNT (R632): the whole register. -/
def FLT_FIRST_OVF_CNT.word : Fld := ⟨0x60018, 31, 0⟩
def FLT_FIRST_OVF_CNT.COUNT : Fld := ⟨0x60018, 31, 0⟩
/-- FLT_CTL (R632): the whole register. -/
def FLT_CTL.word : Fld := ⟨0x60020, 31, 0⟩
def FLT_CTL.RESET_MAX : Fld := ⟨0x60020, 27, 24⟩
def FLT_CTL.FATAL_DELAY : Fld := ⟨0x60020, 23, 16⟩
def FLT_CTL.SHADOW_TAIL : Fld := ⟨0x60020, 15, 8⟩
def FLT_CTL.FAULT_HOLD : Fld := ⟨0x60020, 0, 0⟩
/-- FLT_CMD (R632): the whole register. -/
def FLT_CMD.word : Fld := ⟨0x60024, 31, 0⟩
def FLT_CMD.SOURCE : Fld := ⟨0x60024, 27, 16⟩
def FLT_CMD.SLICE : Fld := ⟨0x60024, 12, 8⟩
def FLT_CMD.INJECT : Fld := ⟨0x60024, 3, 3⟩
def FLT_CMD.UNFENCE : Fld := ⟨0x60024, 2, 2⟩
def FLT_CMD.LEAVE_SAFE : Fld := ⟨0x60024, 1, 1⟩
def FLT_CMD.RELEASE : Fld := ⟨0x60024, 0, 0⟩
/-- FLT_STATE (R632): the whole register. -/
def FLT_STATE.word : Fld := ⟨0x60028, 31, 0⟩
def FLT_STATE.WARDEN_OK : Fld := ⟨0x60028, 3, 3⟩
def FLT_STATE.SAFE : Fld := ⟨0x60028, 2, 2⟩
def FLT_STATE.HELD : Fld := ⟨0x60028, 1, 1⟩
def FLT_STATE.FAULT_N : Fld := ⟨0x60028, 0, 0⟩
/-- FLT_FENCED (R632): the whole register. -/
def FLT_FENCED.word : Fld := ⟨0x6002C, 31, 0⟩
def FLT_FENCED.FENCED : Fld := ⟨0x6002C, 31, 0⟩
/-- FLT_SHADOW (R632): the whole register. -/
def FLT_SHADOW.word : Fld := ⟨0x60030, 31, 0⟩
def FLT_SHADOW.SHADOW : Fld := ⟨0x60030, 31, 0⟩
/-- FLT_LOG_STAT (R632): the whole register. -/
def FLT_LOG_STAT.word : Fld := ⟨0x60034, 31, 0⟩
def FLT_LOG_STAT.COUNT : Fld := ⟨0x60034, 8, 0⟩
/-- FLT_FABRIC (R632): the whole register. -/
def FLT_FABRIC.word : Fld := ⟨0x60038, 31, 0⟩
def FLT_FABRIC.SPARES_1TO0 : Fld := ⟨0x60038, 7, 4⟩
def FLT_FABRIC.SPARES_0TO1 : Fld := ⟨0x60038, 3, 0⟩
def FLT_CNT_EVENTS : Fld := ⟨0x60040, 31, 0⟩
def FLT_CNT_SEVERE : Fld := ⟨0x60044, 31, 0⟩
def FLT_CNT_MASKED : Fld := ⟨0x60048, 31, 0⟩
def FLT_CNT_CONSEQ : Fld := ⟨0x6004C, 31, 0⟩
def FLT_CNT_PATH : Fld := ⟨0x60050, 31, 0⟩
def FLT_CNT_LOG_LOST : Fld := ⟨0x60054, 31, 0⟩
def FLT_CNT_SLICE_RESETS : Fld := ⟨0x60058, 31, 0⟩
def FLT_CNT_PORT_DOWNS : Fld := ⟨0x6005C, 31, 0⟩
def FLT_CNT_INJECTED : Fld := ⟨0x60060, 31, 0⟩
def FLT_CNT_FABRIC_RETRY : Fld := ⟨0x60064, 31, 0⟩
def FLT_CNT_FABRIC_SPARED : Fld := ⟨0x60068, 31, 0⟩
def FLT_CNT_FABRIC_LOST : Fld := ⟨0x6006C, 31, 0⟩
/-- All counters of the row, by k (R632). -/
def FLT_CNT_EVENTS.cnt (k : Nat) : Fld := ⟨0x60040 + 4 * k, 31, 0⟩
/-- FLT_CLASS (R632): the whole register. -/
def FLT_CLASS.word (c : Nat) : Fld := ⟨0x60100 + c * 4, 31, 0⟩
def FLT_CLASS.N (c : Nat) : Fld := ⟨0x60100 + c * 4, 31, 24⟩
def FLT_CLASS.SEVERE_ACT (c : Nat) : Fld := ⟨0x60100 + c * 4, 23, 21⟩
def FLT_CLASS.FAULT_N_EN (c : Nat) : Fld := ⟨0x60100 + c * 4, 20, 20⟩
def FLT_CLASS.W (c : Nat) : Fld := ⟨0x60100 + c * 4, 15, 0⟩
/-- HK_ROM_VERSION (R577): the whole register. -/
def HK_ROM_VERSION.word : Fld := ⟨0x70000, 31, 0⟩
def HK_ROM_VERSION.ROM_VERSION : Fld := ⟨0x70000, 31, 0⟩
/-- HK_STATUS (R577): the whole register. -/
def HK_STATUS.word : Fld := ⟨0x70004, 31, 0⟩
def HK_STATUS.SEQ : Fld := ⟨0x70004, 31, 24⟩
def HK_STATUS.SHADOW_BAD : Fld := ⟨0x70004, 7, 7⟩
def HK_STATUS.PATCH_REJECT : Fld := ⟨0x70004, 6, 6⟩
def HK_STATUS.PATCH_DONE : Fld := ⟨0x70004, 5, 5⟩
def HK_STATUS.BOTH_OUT : Fld := ⟨0x70004, 4, 4⟩
def HK_STATUS.TAKEOVER : Fld := ⟨0x70004, 3, 3⟩
def HK_STATUS.DEAD : Fld := ⟨0x70004, 2, 2⟩
def HK_STATUS.RESTARTED : Fld := ⟨0x70004, 1, 1⟩
def HK_STATUS.FAILED : Fld := ⟨0x70004, 0, 0⟩
/-- HK_CTL (R577): the whole register. -/
def HK_CTL.word : Fld := ⟨0x7000C, 31, 0⟩
def HK_CTL.HB_LIMIT : Fld := ⟨0x7000C, 15, 12⟩
def HK_CTL.RESTART_MAX : Fld := ⟨0x7000C, 11, 8⟩
def HK_CTL.AUTO_RESTART : Fld := ⟨0x7000C, 0, 0⟩
/-- HK_PATCH_VERSION (R577): the whole register. -/
def HK_PATCH_VERSION.word (e : Nat) : Fld := ⟨0x70010 + e * 0x10, 31, 0⟩
def HK_PATCH_VERSION.VERSION (e : Nat) : Fld := ⟨0x70010 + e * 0x10, 31, 0⟩
/-- HK_ENGINE (R577): the whole register. -/
def HK_ENGINE.word (e : Nat) : Fld := ⟨0x70014 + e * 0x10, 31, 0⟩
def HK_ENGINE.RESTARTS (e : Nat) : Fld := ⟨0x70014 + e * 0x10, 31, 24⟩
def HK_ENGINE.DUTIES_HELD_BY_PEER (e : Nat) : Fld := ⟨0x70014 + e * 0x10, 8, 8⟩
def HK_ENGINE.STATE (e : Nat) : Fld := ⟨0x70014 + e * 0x10, 2, 0⟩
/-- HK_FAULT (R577): the whole register. -/
def HK_FAULT.word (e : Nat) : Fld := ⟨0x70018 + e * 0x10, 31, 0⟩
def HK_FAULT.UADDR (e : Nat) : Fld := ⟨0x70018 + e * 0x10, 31, 16⟩
def HK_FAULT.POST (e : Nat) : Fld := ⟨0x70018 + e * 0x10, 11, 11⟩
def HK_FAULT.CODE (e : Nat) : Fld := ⟨0x70018 + e * 0x10, 7, 0⟩
/-- HK_WORDS (R577): the whole register. -/
def HK_WORDS.word (e : Nat) : Fld := ⟨0x7001C + e * 0x10, 31, 0⟩
def HK_WORDS.WORDS (e : Nat) : Fld := ⟨0x7001C + e * 0x10, 31, 0⟩
/-- HK_CMD (R577): the whole register. -/
def HK_CMD.word : Fld := ⟨0x70030, 31, 0⟩
def HK_CMD.ENGINE : Fld := ⟨0x70030, 5, 4⟩
def HK_CMD.OP : Fld := ⟨0x70030, 2, 0⟩
/-- HK_CMD_STAT (R577): the whole register. -/
def HK_CMD_STAT.word : Fld := ⟨0x70034, 31, 0⟩
def HK_CMD_STAT.BUSY : Fld := ⟨0x70034, 31, 31⟩
def HK_CMD_STAT.RESULT : Fld := ⟨0x70034, 3, 0⟩
/-- HK_RING_CFG (R577): the whole register. -/
def HK_RING_CFG.word : Fld := ⟨0x70040, 31, 0⟩
def HK_RING_CFG.EN : Fld := ⟨0x70040, 31, 31⟩
def HK_RING_CFG.CMD_LOG2 : Fld := ⟨0x70040, 11, 8⟩
def HK_RING_CFG.RSP_LOG2 : Fld := ⟨0x70040, 3, 0⟩
/-- HK_CMD_PROD (R577): the whole register. -/
def HK_CMD_PROD.word : Fld := ⟨0x70044, 31, 0⟩
def HK_CMD_PROD.PROD : Fld := ⟨0x70044, 15, 0⟩
/-- HK_CMD_CONS (R577): the whole register. -/
def HK_CMD_CONS.word : Fld := ⟨0x70048, 31, 0⟩
def HK_CMD_CONS.CONS : Fld := ⟨0x70048, 15, 0⟩
/-- HK_RSP_PROD (R577): the whole register. -/
def HK_RSP_PROD.word : Fld := ⟨0x7004C, 31, 0⟩
def HK_RSP_PROD.PROD : Fld := ⟨0x7004C, 15, 0⟩
/-- HK_RSP_CONS (R577): the whole register. -/
def HK_RSP_CONS.word : Fld := ⟨0x70050, 31, 0⟩
def HK_RSP_CONS.CONS : Fld := ⟨0x70050, 15, 0⟩
/-- HK_RING_STATUS (R577): the whole register. -/
def HK_RING_STATUS.word : Fld := ⟨0x70054, 31, 0⟩
def HK_RING_STATUS.SEQ : Fld := ⟨0x70054, 31, 24⟩
def HK_RING_STATUS.EVT_LOST : Fld := ⟨0x70054, 3, 3⟩
def HK_RING_STATUS.RSP_FULL : Fld := ⟨0x70054, 2, 2⟩
def HK_RING_STATUS.CMD_BAD : Fld := ⟨0x70054, 1, 1⟩
def HK_RING_STATUS.RSP_WRITTEN : Fld := ⟨0x70054, 0, 0⟩
/-- HK_EVT_HELD (R577): the whole register. -/
def HK_EVT_HELD.word : Fld := ⟨0x7005C, 31, 0⟩
def HK_EVT_HELD.HELD : Fld := ⟨0x7005C, 6, 0⟩
def HK_CNT_RESTART0 : Fld := ⟨0x70100, 31, 0⟩
def HK_CNT_RESTART1 : Fld := ⟨0x70104, 31, 0⟩
def HK_CNT_ABANDON0 : Fld := ⟨0x70108, 31, 0⟩
def HK_CNT_ABANDON1 : Fld := ⟨0x7010C, 31, 0⟩
def HK_CNT_UCORR : Fld := ⟨0x70110, 31, 0⟩
def HK_CNT_HB_MISS : Fld := ⟨0x70114, 31, 0⟩
def HK_CNT_CMDS : Fld := ⟨0x70118, 31, 0⟩
def HK_CNT_EVENTS : Fld := ⟨0x7011C, 31, 0⟩
def HK_CNT_EVT_LOST : Fld := ⟨0x70120, 31, 0⟩
def HK_CNT_TAKEOVER : Fld := ⟨0x70124, 31, 0⟩
/-- All counters of the row, by k (R577). -/
def HK_CNT_RESTART0.cnt (k : Nat) : Fld := ⟨0x70100 + 4 * k, 31, 0⟩
/-- HK_MATCH (R577): the whole register. -/
def HK_MATCH.word (e m : Nat) : Fld := ⟨0x70200 + e * 0x80 + m * 4, 31, 0⟩
def HK_MATCH.VALID (e m : Nat) : Fld := ⟨0x70200 + e * 0x80 + m * 4, 31, 31⟩
def HK_MATCH.ROM_ADDR (e m : Nat) : Fld := ⟨0x70200 + e * 0x80 + m * 4, 25, 11⟩
def HK_MATCH.PATCH_WORD (e m : Nat) : Fld := ⟨0x70200 + e * 0x80 + m * 4, 10, 0⟩
/-- DMA_RING_CTL (R86): the whole register. -/
def DMA_RING_CTL.word (n : Nat) : Fld := ⟨0x80000 + n * 0x40, 31, 0⟩
def DMA_RING_CTL.IRQ_EN (n : Nat) : Fld := ⟨0x80000 + n * 0x40, 9, 9⟩
def DMA_RING_CTL.ENABLE (n : Nat) : Fld := ⟨0x80000 + n * 0x40, 8, 8⟩
def DMA_RING_CTL.LOG2_SIZE (n : Nat) : Fld := ⟨0x80000 + n * 0x40, 3, 0⟩
/-- DMA_RING_HEAD (R86): the whole register. -/
def DMA_RING_HEAD.word (n : Nat) : Fld := ⟨0x80004 + n * 0x40, 31, 0⟩
def DMA_RING_HEAD.HEAD (n : Nat) : Fld := ⟨0x80004 + n * 0x40, 15, 0⟩
/-- DMA_RING_STATUS (R86): the whole register. -/
def DMA_RING_STATUS.word (n : Nat) : Fld := ⟨0x80008 + n * 0x40, 31, 0⟩
def DMA_RING_STATUS.SEQ (n : Nat) : Fld := ⟨0x80008 + n * 0x40, 31, 24⟩
def DMA_RING_STATUS.DB_ERR (n : Nat) : Fld := ⟨0x80008 + n * 0x40, 2, 2⟩
def DMA_RING_STATUS.DESC_ERR (n : Nat) : Fld := ⟨0x80008 + n * 0x40, 1, 1⟩
def DMA_RING_STATUS.STARVED (n : Nat) : Fld := ⟨0x80008 + n * 0x40, 0, 0⟩
/-- DMA_RING_DROP (R86): the whole register. -/
def DMA_RING_DROP.word (n : Nat) : Fld := ⟨0x80010 + n * 0x40, 31, 0⟩
def DMA_RING_DROP.DROP (n : Nat) : Fld := ⟨0x80010 + n * 0x40, 31, 0⟩
/-- BPM_STATUS (R397): the whole register. -/
def BPM_STATUS.word : Fld := ⟨0x90000, 31, 0⟩
def BPM_STATUS.SEQ : Fld := ⟨0x90000, 31, 24⟩
def BPM_STATUS.CMD_LOST : Fld := ⟨0x90000, 4, 4⟩
def BPM_STATUS.LOW : Fld := ⟨0x90000, 3, 3⟩
def BPM_STATUS.TAG_UNCORR : Fld := ⟨0x90000, 2, 2⟩
def BPM_STATUS.CFG_REJECT : Fld := ⟨0x90000, 1, 1⟩
def BPM_STATUS.FREE_REJECT : Fld := ⟨0x90000, 0, 0⟩
/-- BPM_ERR (R397): the whole register. -/
def BPM_ERR.word : Fld := ⟨0x90008, 31, 0⟩
def BPM_ERR.KIND : Fld := ⟨0x90008, 31, 28⟩
def BPM_ERR.REQ : Fld := ⟨0x90008, 27, 24⟩
def BPM_ERR.OWNER : Fld := ⟨0x90008, 23, 20⟩
def BPM_ERR.POOL_VALID : Fld := ⟨0x90008, 19, 19⟩
def BPM_ERR.POOL : Fld := ⟨0x90008, 18, 16⟩
/-- BPM_ERR_INDEX (R397): the whole register. -/
def BPM_ERR_INDEX.word : Fld := ⟨0x9000C, 31, 0⟩
def BPM_ERR_INDEX.INDEX : Fld := ⟨0x9000C, 21, 0⟩
/-- BPM_ALLOC (R397): the whole register. -/
def BPM_ALLOC.word : Fld := ⟨0x90010, 31, 0⟩
def BPM_ALLOC.GO : Fld := ⟨0x90010, 31, 31⟩
def BPM_ALLOC.FORCE : Fld := ⟨0x90010, 20, 20⟩
def BPM_ALLOC.POOL : Fld := ⟨0x90010, 19, 17⟩
def BPM_ALLOC.LENGTH : Fld := ⟨0x90010, 16, 0⟩
/-- BPM_ALLOC_STAT (R397): the whole register. -/
def BPM_ALLOC_STAT.word : Fld := ⟨0x90014, 31, 0⟩
def BPM_ALLOC_STAT.BUSY : Fld := ⟨0x90014, 31, 31⟩
def BPM_ALLOC_STAT.POOL : Fld := ⟨0x90014, 30, 28⟩
def BPM_ALLOC_STAT.RESULT : Fld := ⟨0x90014, 25, 22⟩
def BPM_ALLOC_STAT.INDEX : Fld := ⟨0x90014, 21, 0⟩
/-- BPM_FREE (R397): the whole register. -/
def BPM_FREE.word : Fld := ⟨0x90018, 31, 0⟩
def BPM_FREE.GO : Fld := ⟨0x90018, 31, 31⟩
/-- BPM_FREE_STAT (R397): the whole register. -/
def BPM_FREE_STAT.word : Fld := ⟨0x9001C, 31, 0⟩
def BPM_FREE_STAT.BUSY : Fld := ⟨0x9001C, 31, 31⟩
def BPM_FREE_STAT.RESULT : Fld := ⟨0x9001C, 3, 0⟩
/-- BPM_RECLAIM (R397): the whole register. -/
def BPM_RECLAIM.word : Fld := ⟨0x90020, 31, 0⟩
def BPM_RECLAIM.GO : Fld := ⟨0x90020, 31, 31⟩
def BPM_RECLAIM.REQ : Fld := ⟨0x90020, 7, 4⟩
def BPM_RECLAIM.POOL : Fld := ⟨0x90020, 2, 0⟩
/-- BPM_POOL_CFG (R397): the whole register. -/
def BPM_POOL_CFG.word (p : Nat) : Fld := ⟨0x90100 + p * 0x20, 31, 0⟩
def BPM_POOL_CFG.EN (p : Nat) : Fld := ⟨0x90100 + p * 0x20, 31, 31⟩
def BPM_POOL_CFG.LOCATION (p : Nat) : Fld := ⟨0x90100 + p * 0x20, 30, 29⟩
def BPM_POOL_CFG.SIZE_CODE (p : Nat) : Fld := ⟨0x90100 + p * 0x20, 27, 24⟩
def BPM_POOL_CFG.COUNT (p : Nat) : Fld := ⟨0x90100 + p * 0x20, 21, 0⟩
/-- BPM_POOL_BASE (R397): the whole register. -/
def BPM_POOL_BASE.word (p : Nat) : Fld := ⟨0x90104 + p * 0x20, 31, 0⟩
def BPM_POOL_BASE.BASE (p : Nat) : Fld := ⟨0x90104 + p * 0x20, 31, 0⟩
/-- BPM_POOL_MARK (R397): the whole register. -/
def BPM_POOL_MARK.word (p : Nat) : Fld := ⟨0x90108 + p * 0x20, 31, 0⟩
def BPM_POOL_MARK.LOW_MARK (p : Nat) : Fld := ⟨0x90108 + p * 0x20, 21, 0⟩
/-- BPM_POOL_FREE (R397): the whole register. -/
def BPM_POOL_FREE.word (p : Nat) : Fld := ⟨0x9010C + p * 0x20, 31, 0⟩
def BPM_POOL_FREE.FREE (p : Nat) : Fld := ⟨0x9010C + p * 0x20, 21, 0⟩
/-- BPM_QUOTA (R397): the whole register. -/
def BPM_QUOTA.word (r p : Nat) : Fld := ⟨0x90200 + r * 0x20 + p * 4, 31, 0⟩
def BPM_QUOTA.LIMIT (r p : Nat) : Fld := ⟨0x90200 + r * 0x20 + p * 4, 21, 0⟩
/-- BPM_HELD (R397): the whole register. -/
def BPM_HELD.word (r p : Nat) : Fld := ⟨0x90400 + r * 0x20 + p * 4, 31, 0⟩
def BPM_HELD.HELD (r p : Nat) : Fld := ⟨0x90400 + r * 0x20 + p * 4, 21, 0⟩
/-- BPM_REQ_CFG (R397): the whole register. -/
def BPM_REQ_CFG.word (r : Nat) : Fld := ⟨0x90600 + r * 4, 31, 0⟩
def BPM_REQ_CFG.GROW (r : Nat) : Fld := ⟨0x90600 + r * 4, 0, 0⟩
/-- BPM_CNT_REJECT (R397): the whole register. -/
def BPM_CNT_REJECT.word (r : Nat) : Fld := ⟨0x90680 + r * 4, 31, 0⟩
def BPM_CNT_REJECT.COUNT (r : Nat) : Fld := ⟨0x90680 + r * 4, 31, 0⟩
def BPM_CNT_ALLOCS : Fld := ⟨0x90700, 31, 0⟩
def BPM_CNT_FREES : Fld := ⟨0x90704, 31, 0⟩
def BPM_CNT_NO_FIT : Fld := ⟨0x90708, 31, 0⟩
def BPM_CNT_EMPTY : Fld := ⟨0x9070C, 31, 0⟩
def BPM_CNT_QUOTA : Fld := ⟨0x90710, 31, 0⟩
def BPM_CNT_TAG_CORR : Fld := ⟨0x90714, 31, 0⟩
def BPM_CNT_TAG_UNCORR : Fld := ⟨0x90718, 31, 0⟩
def BPM_CNT_RECLAIMED : Fld := ⟨0x9071C, 31, 0⟩
/-- All counters of the row, by k (R397). -/
def BPM_CNT_ALLOCS.cnt (k : Nat) : Fld := ⟨0x90700 + 4 * k, 31, 0⟩
/-- TEL_STATUS (R505): the whole register. -/
def TEL_STATUS.word : Fld := ⟨0xA0000, 31, 0⟩
def TEL_STATUS.SEQ : Fld := ⟨0xA0000, 31, 24⟩
def TEL_STATUS.CFG_REJECT : Fld := ⟨0xA0000, 3, 3⟩
def TEL_STATUS.FLOW_ECC : Fld := ⟨0xA0000, 2, 2⟩
def TEL_STATUS.RING_FULL : Fld := ⟨0xA0000, 1, 1⟩
def TEL_STATUS.ARCH_DONE : Fld := ⟨0xA0000, 0, 0⟩
/-- TEL_IPFIX_PEN (R505): the whole register. -/
def TEL_IPFIX_PEN.word : Fld := ⟨0xA0010, 31, 0⟩
def TEL_IPFIX_PEN.PEN : Fld := ⟨0xA0010, 31, 0⟩
/-- TEL_IPFIX_CFG (R505): the whole register. -/
def TEL_IPFIX_CFG.word : Fld := ⟨0xA0014, 31, 0⟩
def TEL_IPFIX_CFG.TEMPLATE_FRAMES : Fld := ⟨0xA0014, 31, 24⟩
def TEL_IPFIX_CFG.FLUSH_US : Fld := ⟨0xA0014, 23, 16⟩
def TEL_IPFIX_CFG.MSG_MAX : Fld := ⟨0xA0014, 15, 0⟩
/-- TEL_ARCH_CMD (R505): the whole register. -/
def TEL_ARCH_CMD.word : Fld := ⟨0xA0018, 31, 0⟩
def TEL_ARCH_CMD.GO : Fld := ⟨0xA0018, 31, 31⟩
def TEL_ARCH_CMD.RING : Fld := ⟨0xA0018, 23, 20⟩
def TEL_ARCH_CMD.DEST : Fld := ⟨0xA0018, 19, 16⟩
def TEL_ARCH_CMD.COUNT : Fld := ⟨0xA0018, 15, 0⟩
/-- TEL_ARCH_START (R505): the whole register. -/
def TEL_ARCH_START.word : Fld := ⟨0xA001C, 31, 0⟩
def TEL_ARCH_START.START : Fld := ⟨0xA001C, 31, 0⟩
/-- TEL_ROUTE (R505): the whole register. -/
def TEL_ROUTE.word (h k : Nat) : Fld := ⟨0xA0020 + h * 0x20 + k * 4, 31, 0⟩
def TEL_ROUTE.EN (h k : Nat) : Fld := ⟨0xA0020 + h * 0x20 + k * 4, 4, 4⟩
def TEL_ROUTE.RING (h k : Nat) : Fld := ⟨0xA0020 + h * 0x20 + k * 4, 3, 0⟩
/-- TEL_FLOW_CTL (R505): the whole register. -/
def TEL_FLOW_CTL.word (h : Nat) : Fld := ⟨0xA0060 + h * 0x20, 31, 0⟩
def TEL_FLOW_CTL.EN (h : Nat) : Fld := ⟨0xA0060 + h * 0x20, 0, 0⟩
/-- TEL_FLOW_CFG (R505): the whole register. -/
def TEL_FLOW_CFG.word (h : Nat) : Fld := ⟨0xA0064 + h * 0x20, 31, 0⟩
def TEL_FLOW_CFG.ACTIVE_FRAMES (h : Nat) : Fld := ⟨0xA0064 + h * 0x20, 31, 16⟩
def TEL_FLOW_CFG.IDLE_FRAMES (h : Nat) : Fld := ⟨0xA0064 + h * 0x20, 15, 0⟩
/-- TEL_FLOW_SEED (R505): the whole register. -/
def TEL_FLOW_SEED.word (h : Nat) : Fld := ⟨0xA0068 + h * 0x20, 31, 0⟩
def TEL_FLOW_SEED.SEED (h : Nat) : Fld := ⟨0xA0068 + h * 0x20, 31, 0⟩
/-- TEL_FLOW_CMD (R505): the whole register. -/
def TEL_FLOW_CMD.word (h : Nat) : Fld := ⟨0xA006C + h * 0x20, 31, 0⟩
def TEL_FLOW_CMD.FLUSH (h : Nat) : Fld := ⟨0xA006C + h * 0x20, 0, 0⟩
/-- TEL_HH_CFG (R505): the whole register. -/
def TEL_HH_CFG.word (h : Nat) : Fld := ⟨0xA0070 + h * 0x20, 31, 0⟩
def TEL_HH_CFG.HH_KIB (h : Nat) : Fld := ⟨0xA0070 + h * 0x20, 31, 0⟩
/-- TEL_HH_SEED (R505): the whole register. -/
def TEL_HH_SEED.word (h : Nat) : Fld := ⟨0xA0074 + h * 0x20, 31, 0⟩
def TEL_HH_SEED.SEED (h : Nat) : Fld := ⟨0xA0074 + h * 0x20, 31, 0⟩
def TEL_CNT_FLOWS_CREATED : Fld := ⟨0xA00C0, 31, 0⟩
def TEL_CNT_FLOWS_EVICTED : Fld := ⟨0xA00C4, 31, 0⟩
def TEL_CNT_FLOWS_EXPORTED : Fld := ⟨0xA00C8, 31, 0⟩
def TEL_CNT_FLOW_ECC : Fld := ⟨0xA00CC, 31, 0⟩
def TEL_CNT_HH : Fld := ⟨0xA00D0, 31, 0⟩
def TEL_CNT_HH_OVF : Fld := ⟨0xA00D4, 31, 0⟩
def TEL_CNT_DR_SENT : Fld := ⟨0xA00D8, 31, 0⟩
def TEL_CNT_DR_SUPPRESSED : Fld := ⟨0xA00DC, 31, 0⟩
/-- All counters of the row, by k (R505). -/
def TEL_CNT_FLOWS_CREATED.cnt (k : Nat) : Fld := ⟨0xA00C0 + 4 * k, 31, 0⟩
/-- TEL_DRLIM (R505): the whole register. -/
def TEL_DRLIM.word (h c : Nat) : Fld := ⟨0xA0400 + h * 0x100 + c * 4, 31, 0⟩
def TEL_DRLIM.BURST (h c : Nat) : Fld := ⟨0xA0400 + h * 0x100 + c * 4, 31, 16⟩
def TEL_DRLIM.RATE (h c : Nat) : Fld := ⟨0xA0400 + h * 0x100 + c * 4, 7, 0⟩
/-- TEL_RING_CFG (R505): the whole register. -/
def TEL_RING_CFG.word (r : Nat) : Fld := ⟨0xA1000 + r * 0x40, 31, 0⟩
def TEL_RING_CFG.EN (r : Nat) : Fld := ⟨0xA1000 + r * 0x40, 31, 31⟩
def TEL_RING_CFG.KIND (r : Nat) : Fld := ⟨0xA1000 + r * 0x40, 30, 29⟩
def TEL_RING_CFG.PIPELINE (r : Nat) : Fld := ⟨0xA1000 + r * 0x40, 28, 28⟩
def TEL_RING_CFG.PORT (r : Nat) : Fld := ⟨0xA1000 + r * 0x40, 27, 18⟩
def TEL_RING_CFG.QUEUE (r : Nat) : Fld := ⟨0xA1000 + r * 0x40, 17, 15⟩
def TEL_RING_CFG.HDR_LEN (r : Nat) : Fld := ⟨0xA1000 + r * 0x40, 14, 8⟩
def TEL_RING_CFG.UDP_CSUM (r : Nat) : Fld := ⟨0xA1000 + r * 0x40, 7, 7⟩
def TEL_RING_CFG.L3_OFF (r : Nat) : Fld := ⟨0xA1000 + r * 0x40, 6, 1⟩
def TEL_RING_CFG.IPV6 (r : Nat) : Fld := ⟨0xA1000 + r * 0x40, 0, 0⟩
/-- TEL_RING_RATE (R505): the whole register. -/
def TEL_RING_RATE.word (r : Nat) : Fld := ⟨0xA1004 + r * 0x40, 31, 0⟩
def TEL_RING_RATE.RATE (r : Nat) : Fld := ⟨0xA1004 + r * 0x40, 31, 0⟩
/-- TEL_RING_ODID (R505): the whole register. -/
def TEL_RING_ODID.word (r : Nat) : Fld := ⟨0xA1008 + r * 0x40, 31, 0⟩
def TEL_RING_ODID.ODID (r : Nat) : Fld := ⟨0xA1008 + r * 0x40, 31, 0⟩
/-- TEL_RING_PROD (R505): the whole register. -/
def TEL_RING_PROD.word (r : Nat) : Fld := ⟨0xA100C + r * 0x40, 31, 0⟩
def TEL_RING_PROD.PROD (r : Nat) : Fld := ⟨0xA100C + r * 0x40, 31, 0⟩
/-- TEL_RING_CONS (R505): the whole register. -/
def TEL_RING_CONS.word (r : Nat) : Fld := ⟨0xA1010 + r * 0x40, 31, 0⟩
def TEL_RING_CONS.CONS (r : Nat) : Fld := ⟨0xA1010 + r * 0x40, 31, 0⟩
/-- TEL_RING_SIZE (R505): the whole register. -/
def TEL_RING_SIZE.word (r : Nat) : Fld := ⟨0xA1014 + r * 0x40, 31, 0⟩
def TEL_RING_SIZE.LOG2_SIZE (r : Nat) : Fld := ⟨0xA1014 + r * 0x40, 4, 0⟩
/-- TEL_RING_ARCH (R505): the whole register. -/
def TEL_RING_ARCH.word (r : Nat) : Fld := ⟨0xA1018 + r * 0x40, 31, 0⟩
def TEL_RING_ARCH.POOL (r : Nat) : Fld := ⟨0xA1018 + r * 0x40, 31, 29⟩
def TEL_RING_ARCH.PAGES (r : Nat) : Fld := ⟨0xA1018 + r * 0x40, 21, 0⟩
/-- TEL_RING_DROP (R505): the whole register. -/
def TEL_RING_DROP.word (r : Nat) : Fld := ⟨0xA1020 + r * 0x40, 31, 0⟩
def TEL_RING_DROP.DROP (r : Nat) : Fld := ⟨0xA1020 + r * 0x40, 31, 0⟩
/-- TEL_RING_SENT (R505): the whole register. -/
def TEL_RING_SENT.word (r : Nat) : Fld := ⟨0xA1024 + r * 0x40, 31, 0⟩
def TEL_RING_SENT.SENT (r : Nat) : Fld := ⟨0xA1024 + r * 0x40, 31, 0⟩
/-- PMU_CTL (R534): the whole register. -/
def PMU_CTL.word (m : Nat) : Fld := ⟨pmuBase m, 31, 0⟩
def PMU_CTL.FREEZE_OVF (m : Nat) : Fld := ⟨pmuBase m, 2, 2⟩
def PMU_CTL.EN (m : Nat) : Fld := ⟨pmuBase m, 0, 0⟩
/-- PMU_STATUS (R534): the whole register. -/
def PMU_STATUS.word (m : Nat) : Fld := ⟨pmuBase m + 4, 31, 0⟩
def PMU_STATUS.SEQ (m : Nat) : Fld := ⟨pmuBase m + 4, 31, 24⟩
def PMU_STATUS.OVF (m : Nat) : Fld := ⟨pmuBase m + 4, 7, 0⟩
/-- PMU_CMD (R534): the whole register. -/
def PMU_CMD.word (m : Nat) : Fld := ⟨pmuBase m + 0xC, 31, 0⟩
def PMU_CMD.CLEAR_CYCLE (m : Nat) : Fld := ⟨pmuBase m + 0xC, 1, 1⟩
def PMU_CMD.CLEAR (m : Nat) : Fld := ⟨pmuBase m + 0xC, 0, 0⟩
/-- PMU_EVT (R534): the whole register. -/
def PMU_EVT.word (m i : Nat) : Fld := ⟨pmuBase m + 0x20 + i * 8, 31, 0⟩
def PMU_EVT.EN (m i : Nat) : Fld := ⟨pmuBase m + 0x20 + i * 8, 31, 31⟩
def PMU_EVT.CHAIN (m i : Nat) : Fld := ⟨pmuBase m + 0x20 + i * 8, 30, 30⟩
def PMU_EVT.MODE (m i : Nat) : Fld := ⟨pmuBase m + 0x20 + i * 8, 29, 28⟩
def PMU_EVT.FILTER_EN (m i : Nat) : Fld := ⟨pmuBase m + 0x20 + i * 8, 27, 27⟩
def PMU_EVT.FILTER (m i : Nat) : Fld := ⟨pmuBase m + 0x20 + i * 8, 25, 16⟩
def PMU_EVT.EVENT (m i : Nat) : Fld := ⟨pmuBase m + 0x20 + i * 8, 7, 0⟩
/-- PMU_THR (R534): the whole register. -/
def PMU_THR.word (m i : Nat) : Fld := ⟨pmuBase m + 0x24 + i * 8, 31, 0⟩
def PMU_THR.N (m i : Nat) : Fld := ⟨pmuBase m + 0x24 + i * 8, 19, 0⟩
/-- PMU_SNAP_SEQ (R536): the whole register. -/
def PMU_SNAP_SEQ.word : Fld := ⟨0xB0100, 31, 0⟩
def PMU_SNAP_SEQ.SNAP_SEQ : Fld := ⟨0xB0100, 31, 0⟩
/-- PMU_SNAP_LAT (R536): the whole register. -/
def PMU_SNAP_LAT.word : Fld := ⟨0xB0104, 31, 0⟩
def PMU_SNAP_LAT.LAT : Fld := ⟨0xB0104, 15, 0⟩
/-- PMU_SYNC (R536): the whole register. -/
def PMU_SYNC.word : Fld := ⟨0xB0110, 31, 0⟩
def PMU_SYNC.CLEAR : Fld := ⟨0xB0110, 2, 2⟩
def PMU_SYNC.STOP : Fld := ⟨0xB0110, 1, 1⟩
def PMU_SYNC.START : Fld := ⟨0xB0110, 0, 0⟩
/-- PMU_SWEEP_CFG (R536): the whole register. -/
def PMU_SWEEP_CFG.word : Fld := ⟨0xB0120, 31, 0⟩
def PMU_SWEEP_CFG.EN : Fld := ⟨0xB0120, 31, 31⟩
def PMU_SWEEP_CFG.LOG2_SLOTS : Fld := ⟨0xB0120, 19, 16⟩
def PMU_SWEEP_CFG.EVERY_LOG2 : Fld := ⟨0xB0120, 11, 8⟩
def PMU_SWEEP_CFG.PARTS : Fld := ⟨0xB0120, 7, 0⟩
/-- PMU_SWEEP_SLICES (R536): the whole register. -/
def PMU_SWEEP_SLICES.word : Fld := ⟨0xB0124, 31, 0⟩
def PMU_SWEEP_SLICES.SLICES : Fld := ⟨0xB0124, 31, 0⟩
/-- PMU_SWEEP_PROD (R536): the whole register. -/
def PMU_SWEEP_PROD.word : Fld := ⟨0xB0128, 31, 0⟩
def PMU_SWEEP_PROD.PROD : Fld := ⟨0xB0128, 7, 0⟩
/-- PMU_SWEEP_CONS (R536): the whole register. -/
def PMU_SWEEP_CONS.word : Fld := ⟨0xB012C, 31, 0⟩
def PMU_SWEEP_CONS.CONS : Fld := ⟨0xB012C, 7, 0⟩
/-- PMU_DEV_STATUS (R536): the whole register. -/
def PMU_DEV_STATUS.word : Fld := ⟨0xB0140, 31, 0⟩
def PMU_DEV_STATUS.SEQ : Fld := ⟨0xB0140, 31, 24⟩
def PMU_DEV_STATUS.SNAP_LATE : Fld := ⟨0xB0140, 4, 4⟩
def PMU_DEV_STATUS.TS_FULL : Fld := ⟨0xB0140, 3, 3⟩
def PMU_DEV_STATUS.SWEEP_OVERRUN : Fld := ⟨0xB0140, 2, 2⟩
def PMU_DEV_STATUS.SWEEP_SKIPPED : Fld := ⟨0xB0140, 1, 1⟩
def PMU_DEV_STATUS.SWEEP_DONE : Fld := ⟨0xB0140, 0, 0⟩
def PMU_CNT_SWEEPS : Fld := ⟨0xB0150, 31, 0⟩
def PMU_CNT_SWEEP_SKIPPED : Fld := ⟨0xB0154, 31, 0⟩
def PMU_CNT_SWEEP_OVERRUN : Fld := ⟨0xB0158, 31, 0⟩
def PMU_CNT_BAR2_REFUSED : Fld := ⟨0xB015C, 31, 0⟩
def PMU_CNT_TS_LOST : Fld := ⟨0xB0160, 31, 0⟩
/-- All counters of the row, by k (R536). -/
def PMU_CNT_SWEEPS.cnt (k : Nat) : Fld := ⟨0xB0150 + 4 * k, 31, 0⟩
/-- PMU_BAR2_OPEN_DEV (R536): the whole register. -/
def PMU_BAR2_OPEN_DEV.word : Fld := ⟨0xB0180, 31, 0⟩
def PMU_BAR2_OPEN_DEV.OPEN : Fld := ⟨0xB0180, 9, 0⟩
/-- PMU_BAR2_OPEN_HALF (R536): the whole register. -/
def PMU_BAR2_OPEN_HALF.word : Fld := ⟨0xB0184, 31, 0⟩
def PMU_BAR2_OPEN_HALF.OPEN : Fld := ⟨0xB0184, 9, 0⟩
/-- PMU_BAR2_OPEN_SL (R536): the whole register. -/
def PMU_BAR2_OPEN_SL.word (p : Nat) : Fld := ⟨0xB01C0 + p * 4, 31, 0⟩
def PMU_BAR2_OPEN_SL.OPEN (p : Nat) : Fld := ⟨0xB01C0 + p * 4, 31, 0⟩
/-- PMU_TS_CFG (R536): the whole register. -/
def PMU_TS_CFG.word (e : Nat) : Fld := ⟨0xB0200 + e * 8, 31, 0⟩
def PMU_TS_CFG.EN (e : Nat) : Fld := ⟨0xB0200 + e * 8, 31, 31⟩
def PMU_TS_CFG.WRAP (e : Nat) : Fld := ⟨0xB0200 + e * 8, 30, 30⟩
def PMU_TS_CFG.INTERVAL (e : Nat) : Fld := ⟨0xB0200 + e * 8, 23, 0⟩
/-- PMU_TS_STAT (R536): the whole register. -/
def PMU_TS_STAT.word (e : Nat) : Fld := ⟨0xB0204 + e * 8, 31, 0⟩
def PMU_TS_STAT.COUNT (e : Nat) : Fld := ⟨0xB0204 + e * 8, 8, 0⟩
/-- TIME_CTL (R70): the whole register. -/
def TIME_CTL.word : Fld := ⟨0xC0000, 31, 0⟩
def TIME_CTL.PPS_IN_EN : Fld := ⟨0xC0000, 1, 1⟩
def TIME_CTL.PPS_OUT_EN : Fld := ⟨0xC0000, 0, 0⟩
/-- TIME_FREQ (R70): the whole register. -/
def TIME_FREQ.word : Fld := ⟨0xC0004, 31, 0⟩
def TIME_FREQ.ADJ : Fld := ⟨0xC0004, 31, 0⟩
/-- TIME_PW_STATUS (R70): the whole register. -/
def TIME_PW_STATUS.word : Fld := ⟨0xC0008, 31, 0⟩
def TIME_PW_STATUS.SEQ : Fld := ⟨0xC0008, 31, 24⟩
def TIME_PW_STATUS.WRITE_LOST : Fld := ⟨0xC0008, 1, 1⟩
def TIME_PW_STATUS.PW_BUSY : Fld := ⟨0xC0008, 0, 0⟩
/-- TIME_STATUS (R70): the whole register. -/
def TIME_STATUS.word : Fld := ⟨0xC0010, 31, 0⟩
def TIME_STATUS.SEQ : Fld := ⟨0xC0010, 31, 24⟩
def TIME_STATUS.PPS_IN_LOST : Fld := ⟨0xC0010, 2, 2⟩
def TIME_STATUS.PPS_IN : Fld := ⟨0xC0010, 1, 1⟩
def TIME_STATUS.STEPPED : Fld := ⟨0xC0010, 0, 0⟩
def TIME_CNT_STEPS : Fld := ⟨0xC0020, 31, 0⟩
def TIME_CNT_OFFSETS : Fld := ⟨0xC0024, 31, 0⟩
def TIME_CNT_PPS_IN : Fld := ⟨0xC0028, 31, 0⟩
/-- All counters of the row, by k (R70). -/
def TIME_CNT_STEPS.cnt (k : Nat) : Fld := ⟨0xC0020 + 4 * k, 31, 0⟩
/-- SCH_STATUS (R473): the whole register. -/
def SCH_STATUS.word : Fld := ⟨0xD0000, 31, 0⟩
def SCH_STATUS.SEQ : Fld := ⟨0xD0000, 31, 24⟩
def SCH_STATUS.CMD_LOST : Fld := ⟨0xD0000, 4, 4⟩
def SCH_STATUS.UNSOUND : Fld := ⟨0xD0000, 3, 3⟩
def SCH_STATUS.RESV_LOST : Fld := ⟨0xD0000, 2, 2⟩
def SCH_STATUS.REFUSED : Fld := ⟨0xD0000, 1, 1⟩
def SCH_STATUS.CMD_DONE : Fld := ⟨0xD0000, 0, 0⟩
/-- SCH_CMD (R473): the whole register. -/
def SCH_CMD.word : Fld := ⟨0xD0010, 31, 0⟩
def SCH_CMD.GO : Fld := ⟨0xD0010, 31, 31⟩
def SCH_CMD.OP : Fld := ⟨0xD0010, 3, 0⟩
/-- SCH_CMD_STAT (R473): the whole register. -/
def SCH_CMD_STAT.word : Fld := ⟨0xD0014, 31, 0⟩
def SCH_CMD_STAT.BUSY : Fld := ⟨0xD0014, 31, 31⟩
def SCH_CMD_STAT.RESULT : Fld := ⟨0xD0014, 19, 16⟩
def SCH_CMD_STAT.ID : Fld := ⟨0xD0014, 13, 0⟩
/-- SCH_PROM_CFG (R473): the whole register. -/
def SCH_PROM_CFG.word : Fld := ⟨0xD0018, 31, 0⟩
def SCH_PROM_CFG.FRAME_MIN : Fld := ⟨0xD0018, 13, 0⟩
/-- SCH_PROM_FLOOR (R473): the whole register. -/
def SCH_PROM_FLOOR.word : Fld := ⟨0xD001C, 31, 0⟩
def SCH_PROM_FLOOR.ACTIVE : Fld := ⟨0xD001C, 8, 8⟩
def SCH_PROM_FLOOR.POINT : Fld := ⟨0xD001C, 2, 0⟩
/-- SCH_RESV_COUNT (R473): the whole register. -/
def SCH_RESV_COUNT.word : Fld := ⟨0xD0020, 31, 0⟩
def SCH_RESV_COUNT.COUNT : Fld := ⟨0xD0020, 14, 0⟩
/-- GZ_STATUS (R340): the whole register. -/
def GZ_STATUS.word (h : Nat) : Fld := ⟨halfBase h, 31, 0⟩
def GZ_STATUS.SEQ (h : Nat) : Fld := ⟨halfBase h, 31, 24⟩
def GZ_STATUS.CMD_LOST (h : Nat) : Fld := ⟨halfBase h, 9, 9⟩
def GZ_STATUS.CFG_REJECT (h : Nat) : Fld := ⟨halfBase h, 8, 8⟩
def GZ_STATUS.BATCH_LOST (h : Nat) : Fld := ⟨halfBase h, 7, 7⟩
def GZ_STATUS.FLAP (h : Nat) : Fld := ⟨halfBase h, 6, 6⟩
def GZ_STATUS.REPLICA_BAD (h : Nat) : Fld := ⟨halfBase h, 5, 5⟩
def GZ_STATUS.PARITY (h : Nat) : Fld := ⟨halfBase h, 4, 4⟩
def GZ_STATUS.REHASH_FAIL (h : Nat) : Fld := ⟨halfBase h, 3, 3⟩
def GZ_STATUS.REHASH_DONE (h : Nat) : Fld := ⟨halfBase h, 2, 2⟩
def GZ_STATUS.REHASH_REQ (h : Nat) : Fld := ⟨halfBase h, 1, 1⟩
def GZ_STATUS.CMD_DONE (h : Nat) : Fld := ⟨halfBase h, 0, 0⟩
/-- GZ_EVENT (R340): the whole register. -/
def GZ_EVENT.word (h : Nat) : Fld := ⟨halfBase h + 8, 31, 0⟩
def GZ_EVENT.TABLE (h : Nat) : Fld := ⟨halfBase h + 8, 31, 28⟩
def GZ_EVENT.KIND (h : Nat) : Fld := ⟨halfBase h + 8, 27, 24⟩
def GZ_EVENT.OVF (h : Nat) : Fld := ⟨halfBase h + 8, 23, 23⟩
def GZ_EVENT.SLOT (h : Nat) : Fld := ⟨halfBase h + 8, 21, 20⟩
def GZ_EVENT.INDEX (h : Nat) : Fld := ⟨halfBase h + 8, 19, 0⟩
/-- GZ_CMD (R340): the whole register. -/
def GZ_CMD.word (h : Nat) : Fld := ⟨halfBase h + 0x10, 31, 0⟩
def GZ_CMD.OP (h : Nat) : Fld := ⟨halfBase h + 0x10, 31, 28⟩
def GZ_CMD.TABLE (h : Nat) : Fld := ⟨halfBase h + 0x10, 27, 24⟩
def GZ_CMD.REPLACE (h : Nat) : Fld := ⟨halfBase h + 0x10, 23, 23⟩
def GZ_CMD.STATIC (h : Nat) : Fld := ⟨halfBase h + 0x10, 22, 22⟩
def GZ_CMD.ALL (h : Nat) : Fld := ⟨halfBase h + 0x10, 21, 21⟩
def GZ_CMD.PORT (h : Nat) : Fld := ⟨halfBase h + 0x10, 9, 0⟩
/-- GZ_CMD_STAT (R340): the whole register. -/
def GZ_CMD_STAT.word (h : Nat) : Fld := ⟨halfBase h + 0x14, 31, 0⟩
def GZ_CMD_STAT.BUSY (h : Nat) : Fld := ⟨halfBase h + 0x14, 31, 31⟩
def GZ_CMD_STAT.RESULT (h : Nat) : Fld := ⟨halfBase h + 0x14, 27, 24⟩
def GZ_CMD_STAT.OVF (h : Nat) : Fld := ⟨halfBase h + 0x14, 23, 23⟩
def GZ_CMD_STAT.SLOT (h : Nat) : Fld := ⟨halfBase h + 0x14, 21, 20⟩
def GZ_CMD_STAT.INDEX (h : Nat) : Fld := ⟨halfBase h + 0x14, 19, 0⟩
/-- GZ_CMD_TARGET (R340): the whole register. -/
def GZ_CMD_TARGET.word (h : Nat) : Fld := ⟨halfBase h + 0x18, 31, 0⟩
def GZ_CMD_TARGET.TARGET (h : Nat) : Fld := ⟨halfBase h + 0x18, 31, 0⟩
/-- GZ_CMD_CURSOR (R340): the whole register. -/
def GZ_CMD_CURSOR.word (h : Nat) : Fld := ⟨halfBase h + 0x1C, 31, 0⟩
def GZ_CMD_CURSOR.START (h : Nat) : Fld := ⟨halfBase h + 0x1C, 31, 31⟩
def GZ_CMD_CURSOR.OVF (h : Nat) : Fld := ⟨halfBase h + 0x1C, 23, 23⟩
def GZ_CMD_CURSOR.SLOT (h : Nat) : Fld := ⟨halfBase h + 0x1C, 21, 20⟩
def GZ_CMD_CURSOR.INDEX (h : Nat) : Fld := ⟨halfBase h + 0x1C, 19, 0⟩
/-- GZ_CMD_INFO (R340): the whole register. -/
def GZ_CMD_INFO.word (h : Nat) : Fld := ⟨halfBase h + 0x20, 31, 0⟩
def GZ_CMD_INFO.AGE (h : Nat) : Fld := ⟨halfBase h + 0x20, 31, 28⟩
def GZ_CMD_INFO.HIT0 (h : Nat) : Fld := ⟨halfBase h + 0x20, 27, 27⟩
def GZ_CMD_INFO.HIT1 (h : Nat) : Fld := ⟨halfBase h + 0x20, 26, 26⟩
def GZ_CMD_INFO.RELOC (h : Nat) : Fld := ⟨halfBase h + 0x20, 15, 0⟩
/-- GZ_REHASH_SEED (R340): the whole register. -/
def GZ_REHASH_SEED.word (h : Nat) : Fld := ⟨halfBase h + 0x40, 31, 0⟩
def GZ_REHASH_SEED.SEED (h : Nat) : Fld := ⟨halfBase h + 0x40, 31, 0⟩
/-- GZ_REHASH_PART (R340): the whole register. -/
def GZ_REHASH_PART.word (h : Nat) : Fld := ⟨halfBase h + 0x44, 31, 0⟩
def GZ_REHASH_PART.PART (h : Nat) : Fld := ⟨halfBase h + 0x44, 31, 0⟩
/-- GZ_REHASH_CMD (R340): the whole register. -/
def GZ_REHASH_CMD.word (h : Nat) : Fld := ⟨halfBase h + 0x48, 31, 0⟩
def GZ_REHASH_CMD.GO (h : Nat) : Fld := ⟨halfBase h + 0x48, 31, 31⟩
def GZ_REHASH_CMD.TABLE (h : Nat) : Fld := ⟨halfBase h + 0x48, 27, 24⟩
/-- GZ_REHASH_PROG (R340): the whole register. -/
def GZ_REHASH_PROG.word (h : Nat) : Fld := ⟨halfBase h + 0x4C, 31, 0⟩
def GZ_REHASH_PROG.TABLE (h : Nat) : Fld := ⟨halfBase h + 0x4C, 31, 28⟩
def GZ_REHASH_PROG.CURSOR (h : Nat) : Fld := ⟨halfBase h + 0x4C, 19, 0⟩
/-- GZ_UPD_CFG (R340): the whole register. -/
def GZ_UPD_CFG.word (h : Nat) : Fld := ⟨halfBase h + 0x60, 31, 0⟩
def GZ_UPD_CFG.PIN_LIMIT (h : Nat) : Fld := ⟨halfBase h + 0x60, 15, 0⟩
/-- GZ_LOG (R340): the whole register. -/
def GZ_LOG.word (h : Nat) : Fld := ⟨halfBase h + 0x64, 31, 0⟩
def GZ_LOG.RECORDS (h : Nat) : Fld := ⟨halfBase h + 0x64, 16, 0⟩
def GZ_CNT_INSERTS (h : Nat) : Fld := ⟨halfBase h + 0x80, 31, 0⟩
def GZ_CNT_DELETES (h : Nat) : Fld := ⟨halfBase h + 0x84, 31, 0⟩
def GZ_CNT_LEARNED (h : Nat) : Fld := ⟨halfBase h + 0x88, 31, 0⟩
def GZ_CNT_MOVES (h : Nat) : Fld := ⟨halfBase h + 0x8C, 31, 0⟩
def GZ_CNT_FLAPS (h : Nat) : Fld := ⟨halfBase h + 0x90, 31, 0⟩
def GZ_CNT_LEARN_DROP (h : Nat) : Fld := ⟨halfBase h + 0x94, 31, 0⟩
def GZ_CNT_AGED (h : Nat) : Fld := ⟨halfBase h + 0x98, 31, 0⟩
def GZ_CNT_RELOCATIONS (h : Nat) : Fld := ⟨halfBase h + 0x9C, 31, 0⟩
def GZ_CNT_OVF_PLACED (h : Nat) : Fld := ⟨halfBase h + 0xA0, 31, 0⟩
def GZ_CNT_INSERT_FULL (h : Nat) : Fld := ⟨halfBase h + 0xA4, 31, 0⟩
def GZ_CNT_PARITY (h : Nat) : Fld := ⟨halfBase h + 0xA8, 31, 0⟩
def GZ_CNT_RESTORED (h : Nat) : Fld := ⟨halfBase h + 0xAC, 31, 0⟩
def GZ_CNT_RETIRED (h : Nat) : Fld := ⟨halfBase h + 0xB0, 31, 0⟩
def GZ_CNT_BATCH_WAIT (h : Nat) : Fld := ⟨halfBase h + 0xB4, 31, 0⟩
def GZ_CNT_LOST (h : Nat) : Fld := ⟨halfBase h + 0xB8, 31, 0⟩
def GZ_CNT_HELD (h : Nat) : Fld := ⟨halfBase h + 0xBC, 31, 0⟩
/-- All counters of the row, by k (R340). -/
def GZ_CNT_INSERTS.cnt (h k : Nat) : Fld := ⟨halfBase h + 0x80 + 4 * k, 31, 0⟩
/-- GZ_TBL_CFG (R340): the whole register. -/
def GZ_TBL_CFG.word (h t : Nat) : Fld := ⟨halfBase h + 0x100 + t * 0x20, 31, 0⟩
def GZ_TBL_CFG.EN (h t : Nat) : Fld := ⟨halfBase h + 0x100 + t * 0x20, 31, 31⟩
def GZ_TBL_CFG.OWNER (h t : Nat) : Fld := ⟨halfBase h + 0x100 + t * 0x20, 30, 30⟩
def GZ_TBL_CFG.WIDTH (h t : Nat) : Fld := ⟨halfBase h + 0x100 + t * 0x20, 29, 28⟩
def GZ_TBL_CFG.LEARN_EN (h t : Nat) : Fld := ⟨halfBase h + 0x100 + t * 0x20, 27, 27⟩
def GZ_TBL_CFG.OVF_EN (h t : Nat) : Fld := ⟨halfBase h + 0x100 + t * 0x20, 26, 26⟩
def GZ_TBL_CFG.KEY_WIDTH (h t : Nat) : Fld := ⟨halfBase h + 0x100 + t * 0x20, 24, 16⟩
def GZ_TBL_CFG.DATA_WORDS (h t : Nat) : Fld := ⟨halfBase h + 0x100 + t * 0x20, 15, 13⟩
def GZ_TBL_CFG.MAX_KICKS (h t : Nat) : Fld := ⟨halfBase h + 0x100 + t * 0x20, 12, 10⟩
/-- GZ_TBL_PART (R340): the whole register. -/
def GZ_TBL_PART.word (h t : Nat) : Fld := ⟨halfBase h + 0x104 + t * 0x20, 31, 0⟩
def GZ_TBL_PART.ROWS (h t : Nat) : Fld := ⟨halfBase h + 0x104 + t * 0x20, 25, 16⟩
def GZ_TBL_PART.BASE_ROW (h t : Nat) : Fld := ⟨halfBase h + 0x104 + t * 0x20, 9, 0⟩
/-- GZ_TBL_SEED (R340): the whole register. -/
def GZ_TBL_SEED.word (h t : Nat) : Fld := ⟨halfBase h + 0x108 + t * 0x20, 31, 0⟩
def GZ_TBL_SEED.SEED (h t : Nat) : Fld := ⟨halfBase h + 0x108 + t * 0x20, 31, 0⟩
/-- GZ_TBL_OVF (R340): the whole register. -/
def GZ_TBL_OVF.word (h t : Nat) : Fld := ⟨halfBase h + 0x10C + t * 0x20, 31, 0⟩
def GZ_TBL_OVF.COUNT (h t : Nat) : Fld := ⟨halfBase h + 0x10C + t * 0x20, 30, 16⟩
def GZ_TBL_OVF.BASE (h t : Nat) : Fld := ⟨halfBase h + 0x10C + t * 0x20, 13, 0⟩
/-- GZ_TBL_AGE (R340): the whole register. -/
def GZ_TBL_AGE.word (h t : Nat) : Fld := ⟨halfBase h + 0x110 + t * 0x20, 31, 0⟩
def GZ_TBL_AGE.AGE_FRAMES (h t : Nat) : Fld := ⟨halfBase h + 0x110 + t * 0x20, 31, 16⟩
def GZ_TBL_AGE.AGE_LIMIT (h t : Nat) : Fld := ⟨halfBase h + 0x110 + t * 0x20, 11, 8⟩
/-- GZ_TBL_LEARN (R340): the whole register. -/
def GZ_TBL_LEARN.word (h t : Nat) : Fld := ⟨halfBase h + 0x114 + t * 0x20, 31, 0⟩
def GZ_TBL_LEARN.SETTLE (h t : Nat) : Fld := ⟨halfBase h + 0x114 + t * 0x20, 31, 24⟩
def GZ_TBL_LEARN.HOLD (h t : Nat) : Fld := ⟨halfBase h + 0x114 + t * 0x20, 23, 8⟩
/-- GZ_TBL_LIMIT (R340): the whole register. -/
def GZ_TBL_LIMIT.word (h t : Nat) : Fld := ⟨halfBase h + 0x118 + t * 0x20, 31, 0⟩
def GZ_TBL_LIMIT.LEARN_MAX (h t : Nat) : Fld := ⟨halfBase h + 0x118 + t * 0x20, 21, 0⟩
/-- GZ_TBL_STATE (R340): the whole register. -/
def GZ_TBL_STATE.word (h t : Nat) : Fld := ⟨halfBase h + 0x11C + t * 0x20, 31, 0⟩
def GZ_TBL_STATE.STATE (h t : Nat) : Fld := ⟨halfBase h + 0x11C + t * 0x20, 31, 30⟩
def GZ_TBL_STATE.ENTRIES (h t : Nat) : Fld := ⟨halfBase h + 0x11C + t * 0x20, 21, 0⟩
/-- SPL_STATUS (R444): the whole register. -/
def SPL_STATUS.word (h : Nat) : Fld := ⟨halfBase h + 0x100000, 31, 0⟩
def SPL_STATUS.SEQ (h : Nat) : Fld := ⟨halfBase h + 0x100000, 31, 24⟩
def SPL_STATUS.CFG_REJECT (h : Nat) : Fld := ⟨halfBase h + 0x100000, 3, 3⟩
def SPL_STATUS.DEVICE_OUT (h : Nat) : Fld := ⟨halfBase h + 0x100000, 2, 2⟩
def SPL_STATUS.SPILL_LOST (h : Nat) : Fld := ⟨halfBase h + 0x100000, 1, 1⟩
def SPL_STATUS.PAGE_WAIT (h : Nat) : Fld := ⟨halfBase h + 0x100000, 0, 0⟩
/-- SPL_CTL (R444): the whole register. -/
def SPL_CTL.word (h : Nat) : Fld := ⟨halfBase h + 0x100000 + 8, 31, 0⟩
def SPL_CTL.EN (h : Nat) : Fld := ⟨halfBase h + 0x100000 + 8, 0, 0⟩
/-- SPL_BW (R444): the whole register. -/
def SPL_BW.word (h : Nat) : Fld := ⟨halfBase h + 0x100000 + 0xC, 31, 0⟩
def SPL_BW.WR_LIMIT (h : Nat) : Fld := ⟨halfBase h + 0x100000 + 0xC, 15, 8⟩
def SPL_BW.RD_LIMIT (h : Nat) : Fld := ⟨halfBase h + 0x100000 + 0xC, 7, 0⟩
/-- SPL_DEV (R444): the whole register. -/
def SPL_DEV.word (h : Nat) : Fld := ⟨halfBase h + 0x100000 + 0x10, 31, 0⟩
def SPL_DEV.OUT (h : Nat) : Fld := ⟨halfBase h + 0x100000 + 0x10, 13, 8⟩
def SPL_DEV.TRAINED (h : Nat) : Fld := ⟨halfBase h + 0x100000 + 0x10, 5, 0⟩
/-- SPL_POOL (R444): the whole register. -/
def SPL_POOL.word (h : Nat) : Fld := ⟨halfBase h + 0x100000 + 0x14, 31, 0⟩
def SPL_POOL.POOL (h : Nat) : Fld := ⟨halfBase h + 0x100000 + 0x14, 2, 0⟩
/-- SPL_QUEUES (R444): the whole register. -/
def SPL_QUEUES.word (h : Nat) : Fld := ⟨halfBase h + 0x100000 + 0x18, 31, 0⟩
def SPL_QUEUES.COUNT (h : Nat) : Fld := ⟨halfBase h + 0x100000 + 0x18, 12, 0⟩
/-- SPL_PAGES (R444): the whole register. -/
def SPL_PAGES.word (h : Nat) : Fld := ⟨halfBase h + 0x100000 + 0x1C, 31, 0⟩
def SPL_PAGES.COUNT (h : Nat) : Fld := ⟨halfBase h + 0x100000 + 0x1C, 23, 0⟩
def SPL_CNT_ENTER (h : Nat) : Fld := ⟨halfBase h + 0x100000 + 0x40, 31, 0⟩
def SPL_CNT_PAGES_WRITTEN (h : Nat) : Fld := ⟨halfBase h + 0x100000 + 0x44, 31, 0⟩
def SPL_CNT_PAGES_READ (h : Nat) : Fld := ⟨halfBase h + 0x100000 + 0x48, 31, 0⟩
def SPL_CNT_CANCELLED (h : Nat) : Fld := ⟨halfBase h + 0x100000 + 0x4C, 31, 0⟩
def SPL_CNT_PAGE_WAIT (h : Nat) : Fld := ⟨halfBase h + 0x100000 + 0x50, 31, 0⟩
def SPL_CNT_HEAD_STARVED (h : Nat) : Fld := ⟨halfBase h + 0x100000 + 0x54, 31, 0⟩
def SPL_CNT_PAGES_LOST (h : Nat) : Fld := ⟨halfBase h + 0x100000 + 0x58, 31, 0⟩
def SPL_CNT_FRAMES_LOST (h : Nat) : Fld := ⟨halfBase h + 0x100000 + 0x5C, 31, 0⟩
def SPL_CNT_DEAD_CELLS (h : Nat) : Fld := ⟨halfBase h + 0x100000 + 0x60, 31, 0⟩
/-- All counters of the row, by k (R444). -/
def SPL_CNT_ENTER.cnt (h k : Nat) : Fld := ⟨halfBase h + 0x100000 + 0x40 + 4 * k, 31, 0⟩
/-- MEM_CFG (R444): the whole register. -/
def MEM_CFG.word (h d : Nat) : Fld := ⟨halfBase h + 0x108000 + 0x1000 * d, 31, 0⟩
def MEM_CFG.DENSITY (h d : Nat) : Fld := ⟨halfBase h + 0x108000 + 0x1000 * d, 5, 4⟩
def MEM_CFG.RATE (h d : Nat) : Fld := ⟨halfBase h + 0x108000 + 0x1000 * d, 1, 0⟩
/-- MEM_PW_STATUS (R444): the whole register. -/
def MEM_PW_STATUS.word (h d : Nat) : Fld := ⟨halfBase h + 0x108000 + 0x1000 * d + 8, 31, 0⟩
def MEM_PW_STATUS.SEQ (h d : Nat) : Fld := ⟨halfBase h + 0x108000 + 0x1000 * d + 8, 31, 24⟩
def MEM_PW_STATUS.WRITE_LOST (h d : Nat) : Fld := ⟨halfBase h + 0x108000 + 0x1000 * d + 8, 1, 1⟩
def MEM_PW_STATUS.PW_BUSY (h d : Nat) : Fld := ⟨halfBase h + 0x108000 + 0x1000 * d + 8, 0, 0⟩
/-- MEM_STATUS (R444): the whole register. -/
def MEM_STATUS.word (h d : Nat) : Fld := ⟨halfBase h + 0x108000 + 0x1000 * d + 0x10, 31, 0⟩
def MEM_STATUS.SEQ (h d : Nat) : Fld := ⟨halfBase h + 0x108000 + 0x1000 * d + 0x10, 31, 24⟩
def MEM_STATUS.OUT (h d : Nat) : Fld := ⟨halfBase h + 0x108000 + 0x1000 * d + 0x10, 3, 3⟩
def MEM_STATUS.ECC_UNCORR (h d : Nat) : Fld := ⟨halfBase h + 0x108000 + 0x1000 * d + 0x10, 2, 2⟩
def MEM_STATUS.TRAIN_FAIL (h d : Nat) : Fld := ⟨halfBase h + 0x108000 + 0x1000 * d + 0x10, 1, 1⟩
def MEM_STATUS.TRAINED (h d : Nat) : Fld := ⟨halfBase h + 0x108000 + 0x1000 * d + 0x10, 0, 0⟩
/-- MEM_CMD (R444): the whole register. -/
def MEM_CMD.word (h d : Nat) : Fld := ⟨halfBase h + 0x108000 + 0x1000 * d + 0x18, 31, 0⟩
def MEM_CMD.RESTORE (h d : Nat) : Fld := ⟨halfBase h + 0x108000 + 0x1000 * d + 0x18, 2, 2⟩
def MEM_CMD.EXCLUDE (h d : Nat) : Fld := ⟨halfBase h + 0x108000 + 0x1000 * d + 0x18, 1, 1⟩
def MEM_CMD.RETRAIN (h d : Nat) : Fld := ⟨halfBase h + 0x108000 + 0x1000 * d + 0x18, 0, 0⟩
/-- MEM_CRC_CFG (R444): the whole register. -/
def MEM_CRC_CFG.word (h d : Nat) : Fld := ⟨halfBase h + 0x108000 + 0x1000 * d + 0x1C, 31, 0⟩
def MEM_CRC_CFG.LIMIT (h d : Nat) : Fld := ⟨halfBase h + 0x108000 + 0x1000 * d + 0x1C, 7, 0⟩
def MEM_CNT_WR_CRC (h d : Nat) : Fld := ⟨halfBase h + 0x108000 + 0x1000 * d + 0x20, 31, 0⟩
def MEM_CNT_RD_CRC (h d : Nat) : Fld := ⟨halfBase h + 0x108000 + 0x1000 * d + 0x24, 31, 0⟩
def MEM_CNT_RETRY_FAIL (h d : Nat) : Fld := ⟨halfBase h + 0x108000 + 0x1000 * d + 0x28, 31, 0⟩
def MEM_CNT_ECC_CORR (h d : Nat) : Fld := ⟨halfBase h + 0x108000 + 0x1000 * d + 0x2C, 31, 0⟩
def MEM_CNT_ECC_UNCORR (h d : Nat) : Fld := ⟨halfBase h + 0x108000 + 0x1000 * d + 0x30, 31, 0⟩
def MEM_CNT_DRIFT_COMP (h d : Nat) : Fld := ⟨halfBase h + 0x108000 + 0x1000 * d + 0x34, 31, 0⟩
/-- All counters of the row, by k (R444). -/
def MEM_CNT_WR_CRC.cnt (h d k : Nat) : Fld := ⟨halfBase h + 0x108000 + 0x1000 * d + 0x20 + 4 * k, 31, 0⟩
/-- BUF_STATUS (R442): the whole register. -/
def BUF_STATUS.word (h : Nat) : Fld := ⟨halfBase h + 0x200000, 31, 0⟩
def BUF_STATUS.SEQ (h : Nat) : Fld := ⟨halfBase h + 0x200000, 31, 24⟩
def BUF_STATUS.MC_ERR (h : Nat) : Fld := ⟨halfBase h + 0x200000, 2, 2⟩
def BUF_STATUS.CELL_ERR (h : Nat) : Fld := ⟨halfBase h + 0x200000, 1, 1⟩
def BUF_STATUS.CFG_REJECT (h : Nat) : Fld := ⟨halfBase h + 0x200000, 0, 0⟩
/-- BUF_CELL_ERR_INFO (R442): the whole register. -/
def BUF_CELL_ERR_INFO.word (h : Nat) : Fld := ⟨halfBase h + 0x200000 + 8, 31, 0⟩
def BUF_CELL_ERR_INFO.QUEUE (h : Nat) : Fld := ⟨halfBase h + 0x200000 + 8, 11, 0⟩
/-- BUF_POOL (R442): the whole register. -/
def BUF_POOL.word (h : Nat) : Fld := ⟨halfBase h + 0x200000 + 0x10, 31, 0⟩
def BUF_POOL.HEADROOM (h : Nat) : Fld := ⟨halfBase h + 0x200000 + 0x10, 19, 0⟩
/-- BUF_SHARED (R442): the whole register. -/
def BUF_SHARED.word (h : Nat) : Fld := ⟨halfBase h + 0x200000 + 0x14, 31, 0⟩
def BUF_SHARED.SHARED (h : Nat) : Fld := ⟨halfBase h + 0x200000 + 0x14, 19, 0⟩
/-- BUF_FREE (R442): the whole register. -/
def BUF_FREE.word (h : Nat) : Fld := ⟨halfBase h + 0x200000 + 0x18, 31, 0⟩
def BUF_FREE.FREE (h : Nat) : Fld := ⟨halfBase h + 0x200000 + 0x18, 19, 0⟩
/-- BUF_SHARED_USED (R442): the whole register. -/
def BUF_SHARED_USED.word (h : Nat) : Fld := ⟨halfBase h + 0x200000 + 0x1C, 31, 0⟩
def BUF_SHARED_USED.USED (h : Nat) : Fld := ⟨halfBase h + 0x200000 + 0x1C, 19, 0⟩
/-- BUF_HEADROOM_USED (R442): the whole register. -/
def BUF_HEADROOM_USED.word (h : Nat) : Fld := ⟨halfBase h + 0x200000 + 0x20, 31, 0⟩
def BUF_HEADROOM_USED.USED (h : Nat) : Fld := ⟨halfBase h + 0x200000 + 0x20, 19, 0⟩
/-- BUF_CLASS_RSV (R442): the whole register. -/
def BUF_CLASS_RSV.word (h c : Nat) : Fld := ⟨halfBase h + 0x200000 + 0x40 + c * 8, 31, 0⟩
def BUF_CLASS_RSV.RESERVE (h c : Nat) : Fld := ⟨halfBase h + 0x200000 + 0x40 + c * 8, 19, 0⟩
/-- BUF_CLASS_QUOTA (R442): the whole register. -/
def BUF_CLASS_QUOTA.word (h c : Nat) : Fld := ⟨halfBase h + 0x200000 + 0x44 + c * 8, 31, 0⟩
def BUF_CLASS_QUOTA.QUOTA (h c : Nat) : Fld := ⟨halfBase h + 0x200000 + 0x44 + c * 8, 19, 0⟩
/-- BUF_CLASS_USED (R442): the whole register. -/
def BUF_CLASS_USED.word (h c : Nat) : Fld := ⟨halfBase h + 0x200000 + 0x80 + c * 4, 31, 0⟩
def BUF_CLASS_USED.USED (h c : Nat) : Fld := ⟨halfBase h + 0x200000 + 0x80 + c * 4, 19, 0⟩
def BUF_CNT_ADMIT (h : Nat) : Fld := ⟨halfBase h + 0x200000 + 0xC0, 31, 0⟩
def BUF_CNT_ADMIT_RSV (h : Nat) : Fld := ⟨halfBase h + 0x200000 + 0xC4, 31, 0⟩
def BUF_CNT_ADMIT_HEADROOM (h : Nat) : Fld := ⟨halfBase h + 0x200000 + 0xC8, 31, 0⟩
def BUF_CNT_DROP_PORT_QUOTA (h : Nat) : Fld := ⟨halfBase h + 0x200000 + 0xCC, 31, 0⟩
def BUF_CNT_DROP_CLASS_QUOTA (h : Nat) : Fld := ⟨halfBase h + 0x200000 + 0xD0, 31, 0⟩
def BUF_CNT_DROP_THRESHOLD (h : Nat) : Fld := ⟨halfBase h + 0x200000 + 0xD4, 31, 0⟩
def BUF_CNT_DROP_SPILL_LIMIT (h : Nat) : Fld := ⟨halfBase h + 0x200000 + 0xD8, 31, 0⟩
def BUF_CNT_HEADROOM_EXHAUSTED (h : Nat) : Fld := ⟨halfBase h + 0x200000 + 0xDC, 31, 0⟩
def BUF_CNT_MC_COPIES (h : Nat) : Fld := ⟨halfBase h + 0x200000 + 0xE0, 31, 0⟩
def BUF_CNT_MC_DROP (h : Nat) : Fld := ⟨halfBase h + 0x200000 + 0xE4, 31, 0⟩
def BUF_CNT_CELL_ERR (h : Nat) : Fld := ⟨halfBase h + 0x200000 + 0xE8, 31, 0⟩
def BUF_CNT_CELL_ERR_DROP (h : Nat) : Fld := ⟨halfBase h + 0x200000 + 0xEC, 31, 0⟩
def BUF_CNT_CELL_ERR_STOMP (h : Nat) : Fld := ⟨halfBase h + 0x200000 + 0xF0, 31, 0⟩
/-- All counters of the row, by k (R442). -/
def BUF_CNT_ADMIT.cnt (h k : Nat) : Fld := ⟨halfBase h + 0x200000 + 0xC0 + 4 * k, 31, 0⟩
/-- BUF_QPROF (R442): the whole register. -/
def BUF_QPROF.word (h i : Nat) : Fld := ⟨halfBase h + 0x200000 + 0x100 + i * 4, 31, 0⟩
def BUF_QPROF.SPILL_EN (h i : Nat) : Fld := ⟨halfBase h + 0x200000 + 0x100 + i * 4, 31, 31⟩
def BUF_QPROF.ALPHA (h i : Nat) : Fld := ⟨halfBase h + 0x200000 + 0x100 + i * 4, 27, 24⟩
def BUF_QPROF.RSV_MAX (h i : Nat) : Fld := ⟨halfBase h + 0x200000 + 0x100 + i * 4, 19, 0⟩
/-- BUF_QPROF_SPILL (R442): the whole register. -/
def BUF_QPROF_SPILL.word (h i : Nat) : Fld := ⟨halfBase h + 0x200000 + 0x180 + i * 4, 31, 0⟩
def BUF_QPROF_SPILL.HEAD_LOW (h i : Nat) : Fld := ⟨halfBase h + 0x200000 + 0x180 + i * 4, 31, 24⟩
def BUF_QPROF_SPILL.SPILL_ON (h i : Nat) : Fld := ⟨halfBase h + 0x200000 + 0x180 + i * 4, 19, 0⟩
/-- BUF_QPROF_MAX (R442): the whole register. -/
def BUF_QPROF_MAX.word (h i : Nat) : Fld := ⟨halfBase h + 0x200000 + 0x200 + i * 4, 31, 0⟩
def BUF_QPROF_MAX.SPILL_MAX (h i : Nat) : Fld := ⟨halfBase h + 0x200000 + 0x200 + i * 4, 23, 0⟩
/-- BUF_XOFF (R442): the whole register. -/
def BUF_XOFF.word (h p : Nat) : Fld := ⟨halfBase h + 0x200000 + 0x300 + p * 8, 31, 0⟩
def BUF_XOFF.XOFF (h p : Nat) : Fld := ⟨halfBase h + 0x200000 + 0x300 + p * 8, 19, 0⟩
/-- BUF_XON (R442): the whole register. -/
def BUF_XON.word (h p : Nat) : Fld := ⟨halfBase h + 0x200000 + 0x304 + p * 8, 31, 0⟩
def BUF_XON.XON (h p : Nat) : Fld := ⟨halfBase h + 0x200000 + 0x304 + p * 8, 19, 0⟩
/-- BUF_PORT_QUOTA (R442): the whole register. -/
def BUF_PORT_QUOTA.word (h j : Nat) : Fld := ⟨halfBase h + 0x200000 + 0x400 + j * 4, 31, 0⟩
def BUF_PORT_QUOTA.QUOTA (h j : Nat) : Fld := ⟨halfBase h + 0x200000 + 0x400 + j * 4, 19, 0⟩
/-- BUF_PORT_USED (R442): the whole register. -/
def BUF_PORT_USED.word (h j : Nat) : Fld := ⟨halfBase h + 0x200000 + 0xC00 + j * 4, 31, 0⟩
def BUF_PORT_USED.USED (h j : Nat) : Fld := ⟨halfBase h + 0x200000 + 0xC00 + j * 4, 19, 0⟩
/-- BUF_QMAP (R442): the whole register. -/
def BUF_QMAP.word (h n : Nat) : Fld := ⟨halfBase h + 0x200000 + 0x2000 + n * 4, 31, 0⟩
def BUF_QMAP.PROFILE (h n : Nat) : Fld := ⟨halfBase h + 0x200000 + 0x2000 + n * 4, 4, 0⟩
/-- BUF_QDEPTH (R442): the whole register. -/
def BUF_QDEPTH.word (h n : Nat) : Fld := ⟨halfBase h + 0x200000 + 0x6000 + n * 4, 31, 0⟩
def BUF_QDEPTH.SPILLED (h n : Nat) : Fld := ⟨halfBase h + 0x200000 + 0x6000 + n * 4, 31, 31⟩
def BUF_QDEPTH.ON_CHIP (h n : Nat) : Fld := ⟨halfBase h + 0x200000 + 0x6000 + n * 4, 19, 0⟩
/-- LN_CTL (R192): the whole register. -/
def LN_CTL.word (l : Nat) : Fld := ⟨laneBase l, 31, 0⟩
def LN_CTL.AUTO_RETRAIN (l : Nat) : Fld := ⟨laneBase l, 11, 11⟩
def LN_CTL.RELOCK_EN (l : Nat) : Fld := ⟨laneBase l, 10, 10⟩
def LN_CTL.ADAPT_MODE (l : Nat) : Fld := ⟨laneBase l, 9, 8⟩
def LN_CTL.TEST_MODE (l : Nat) : Fld := ⟨laneBase l, 7, 7⟩
def LN_CTL.MANUAL_ALIGN (l : Nat) : Fld := ⟨laneBase l, 6, 6⟩
def LN_CTL.SURVEY_EN (l : Nat) : Fld := ⟨laneBase l, 5, 5⟩
def LN_CTL.FETS_EN (l : Nat) : Fld := ⟨laneBase l, 4, 4⟩
def LN_CTL.TRAIN_EN (l : Nat) : Fld := ⟨laneBase l, 3, 3⟩
def LN_CTL.AN_EN (l : Nat) : Fld := ⟨laneBase l, 2, 2⟩
def LN_CTL.ADMIN_UP (l : Nat) : Fld := ⟨laneBase l, 0, 0⟩
/-- LN_STATE (R192): the whole register. -/
def LN_STATE.word (l : Nat) : Fld := ⟨laneBase l + 4, 31, 0⟩
def LN_STATE.RATE (l : Nat) : Fld := ⟨laneBase l + 4, 19, 18⟩
def LN_STATE.FIRST (l : Nat) : Fld := ⟨laneBase l + 4, 17, 17⟩
def LN_STATE.POWERED (l : Nat) : Fld := ⟨laneBase l + 4, 16, 16⟩
def LN_STATE.PRECODE_TX (l : Nat) : Fld := ⟨laneBase l + 4, 11, 11⟩
def LN_STATE.PRECODE_RX (l : Nat) : Fld := ⟨laneBase l + 4, 10, 10⟩
def LN_STATE.ADAPT_EYE (l : Nat) : Fld := ⟨laneBase l + 4, 9, 9⟩
def LN_STATE.FREEZE (l : Nat) : Fld := ⟨laneBase l + 4, 7, 4⟩
def LN_STATE.STATE (l : Nat) : Fld := ⟨laneBase l + 4, 2, 0⟩
/-- LN_PW_STATUS (R192): the whole register. -/
def LN_PW_STATUS.word (l : Nat) : Fld := ⟨laneBase l + 8, 31, 0⟩
def LN_PW_STATUS.SEQ (l : Nat) : Fld := ⟨laneBase l + 8, 31, 24⟩
def LN_PW_STATUS.WRITE_LOST (l : Nat) : Fld := ⟨laneBase l + 8, 1, 1⟩
def LN_PW_STATUS.PW_BUSY (l : Nat) : Fld := ⟨laneBase l + 8, 0, 0⟩
/-- LN_STATUS (R192): the whole register. -/
def LN_STATUS.word (l : Nat) : Fld := ⟨laneBase l + 0x10, 31, 0⟩
def LN_STATUS.SEQ (l : Nat) : Fld := ⟨laneBase l + 0x10, 31, 24⟩
def LN_STATUS.REFCLK_LOSS (l : Nat) : Fld := ⟨laneBase l + 0x10, 9, 9⟩
def LN_STATUS.SCAN_DONE (l : Nat) : Fld := ⟨laneBase l + 0x10, 8, 8⟩
def LN_STATUS.SCAN_ABORT (l : Nat) : Fld := ⟨laneBase l + 0x10, 7, 7⟩
def LN_STATUS.CMD_IGNORED (l : Nat) : Fld := ⟨laneBase l + 0x10, 6, 6⟩
def LN_STATUS.RETRAIN_REQ (l : Nat) : Fld := ⟨laneBase l + 0x10, 5, 5⟩
def LN_STATUS.LOL (l : Nat) : Fld := ⟨laneBase l + 0x10, 4, 4⟩
def LN_STATUS.EXCH_TO (l : Nat) : Fld := ⟨laneBase l + 0x10, 3, 3⟩
def LN_STATUS.TRAIN_FAIL (l : Nat) : Fld := ⟨laneBase l + 0x10, 2, 2⟩
def LN_STATUS.ACTIVE (l : Nat) : Fld := ⟨laneBase l + 0x10, 1, 1⟩
def LN_STATUS.DOWN (l : Nat) : Fld := ⟨laneBase l + 0x10, 0, 0⟩
/-- LN_TIMERS (R192): the whole register. -/
def LN_TIMERS.word (l : Nat) : Fld := ⟨laneBase l + 0x18, 31, 0⟩
def LN_TIMERS.EXCH_TIMEOUT (l : Nat) : Fld := ⟨laneBase l + 0x18, 31, 24⟩
def LN_TIMERS.RELOCK (l : Nat) : Fld := ⟨laneBase l + 0x18, 23, 16⟩
def LN_TIMERS.TRAIN_TIMEOUT (l : Nat) : Fld := ⟨laneBase l + 0x18, 15, 0⟩
/-- LN_FOM_CFG (R192): the whole register. -/
def LN_FOM_CFG.word (l : Nat) : Fld := ⟨laneBase l + 0x1C, 31, 0⟩
def LN_FOM_CFG.TD_MIN (l : Nat) : Fld := ⟨laneBase l + 0x1C, 31, 24⟩
def LN_FOM_CFG.FLOOR (l : Nat) : Fld := ⟨laneBase l + 0x1C, 15, 8⟩
def LN_FOM_CFG.DROP (l : Nat) : Fld := ⟨laneBase l + 0x1C, 7, 0⟩
/-- LN_FOM (R192): the whole register. -/
def LN_FOM.word (l : Nat) : Fld := ⟨laneBase l + 0x20, 31, 0⟩
def LN_FOM.TD (l : Nat) : Fld := ⟨laneBase l + 0x20, 31, 24⟩
def LN_FOM.LOCK_FOM (l : Nat) : Fld := ⟨laneBase l + 0x20, 15, 8⟩
def LN_FOM.FOM (l : Nat) : Fld := ⟨laneBase l + 0x20, 7, 0⟩
/-- LN_LOSS (R192): the whole register. -/
def LN_LOSS.word (l : Nat) : Fld := ⟨laneBase l + 0x24, 31, 0⟩
def LN_LOSS.LOSS (l : Nat) : Fld := ⟨laneBase l + 0x24, 7, 0⟩
/-- LN_CMD (R192): the whole register. -/
def LN_CMD.word (l : Nat) : Fld := ⟨laneBase l + 0x28, 31, 0⟩
def LN_CMD.CHK_CLEAR (l : Nat) : Fld := ⟨laneBase l + 0x28, 4, 4⟩
def LN_CMD.EYE_START (l : Nat) : Fld := ⟨laneBase l + 0x28, 3, 3⟩
def LN_CMD.BITSLIP (l : Nat) : Fld := ⟨laneBase l + 0x28, 2, 2⟩
def LN_CMD.RETRAIN (l : Nat) : Fld := ⟨laneBase l + 0x28, 1, 1⟩
def LN_CMD.LANE_RESET (l : Nat) : Fld := ⟨laneBase l + 0x28, 0, 0⟩
def LN_CNT_DETECT (l : Nat) : Fld := ⟨laneBase l + 0x40, 31, 0⟩
def LN_CNT_AN_RESTART (l : Nat) : Fld := ⟨laneBase l + 0x44, 31, 0⟩
def LN_CNT_TRAIN_FAIL (l : Nat) : Fld := ⟨laneBase l + 0x48, 31, 0⟩
def LN_CNT_LOCK_FAIL (l : Nat) : Fld := ⟨laneBase l + 0x4C, 31, 0⟩
def LN_CNT_EXCH_TO (l : Nat) : Fld := ⟨laneBase l + 0x50, 31, 0⟩
def LN_CNT_LOL (l : Nat) : Fld := ⟨laneBase l + 0x54, 31, 0⟩
def LN_CNT_RELOCK (l : Nat) : Fld := ⟨laneBase l + 0x58, 31, 0⟩
def LN_CNT_RETRAIN (l : Nat) : Fld := ⟨laneBase l + 0x5C, 31, 0⟩
def LN_CNT_FREEZE (l : Nat) : Fld := ⟨laneBase l + 0x60, 31, 0⟩
def LN_CNT_REBASE (l : Nat) : Fld := ⟨laneBase l + 0x64, 31, 0⟩
/-- All counters of the row, by k (R192). -/
def LN_CNT_DETECT.cnt (l k : Nat) : Fld := ⟨laneBase l + 0x40 + 4 * k, 31, 0⟩
/-- LN_SURVEY_STATE (R192): the whole register. -/
def LN_SURVEY_STATE.word (l : Nat) : Fld := ⟨laneBase l + 0x80, 31, 0⟩
def LN_SURVEY_STATE.FLAGS (l : Nat) : Fld := ⟨laneBase l + 0x80, 23, 16⟩
def LN_SURVEY_STATE.VERSION (l : Nat) : Fld := ⟨laneBase l + 0x80, 15, 8⟩
def LN_SURVEY_STATE.KIND (l : Nat) : Fld := ⟨laneBase l + 0x80, 1, 0⟩
/-- LN_SURVEY_PEER (R192): the whole register. -/
def LN_SURVEY_PEER.word (l : Nat) : Fld := ⟨laneBase l + 0x84, 31, 0⟩
def LN_SURVEY_PEER.PART (l : Nat) : Fld := ⟨laneBase l + 0x84, 31, 16⟩
def LN_SURVEY_PEER.PORT (l : Nat) : Fld := ⟨laneBase l + 0x84, 15, 0⟩
/-- LN_SURVEY_PEER2 (R192): the whole register. -/
def LN_SURVEY_PEER2.word (l : Nat) : Fld := ⟨laneBase l + 0x88, 31, 0⟩
def LN_SURVEY_PEER2.WIDTH (l : Nat) : Fld := ⟨laneBase l + 0x88, 31, 24⟩
def LN_SURVEY_PEER2.PCP (l : Nat) : Fld := ⟨laneBase l + 0x88, 23, 16⟩
def LN_SURVEY_PEER2.DEADLINE (l : Nat) : Fld := ⟨laneBase l + 0x88, 15, 0⟩
/-- LN_SURVEY_TX (R192): the whole register. -/
def LN_SURVEY_TX.word (l : Nat) : Fld := ⟨laneBase l + 0x8C, 31, 0⟩
def LN_SURVEY_TX.DEADLINE (l : Nat) : Fld := ⟨laneBase l + 0x8C, 31, 16⟩
def LN_SURVEY_TX.PCP (l : Nat) : Fld := ⟨laneBase l + 0x8C, 15, 8⟩
def LN_SURVEY_TX.Q7_NOPAUSE (l : Nat) : Fld := ⟨laneBase l + 0x8C, 5, 5⟩
def LN_SURVEY_TX.PROMISE (l : Nat) : Fld := ⟨laneBase l + 0x8C, 4, 4⟩
def LN_SURVEY_TX.PACE (l : Nat) : Fld := ⟨laneBase l + 0x8C, 3, 3⟩
/-- LN_EYE_CTL (R192): the whole register. -/
def LN_EYE_CTL.word (l : Nat) : Fld := ⟨laneBase l + 0x100, 31, 0⟩
def LN_EYE_CTL.DWELL_LOG2 (l : Nat) : Fld := ⟨laneBase l + 0x100, 12, 8⟩
def LN_EYE_CTL.EYE_SEL (l : Nat) : Fld := ⟨laneBase l + 0x100, 5, 4⟩
/-- LN_EYE_STAT (R192): the whole register. -/
def LN_EYE_STAT.word (l : Nat) : Fld := ⟨laneBase l + 0x104, 31, 0⟩
def LN_EYE_STAT.VRANGE (l : Nat) : Fld := ⟨laneBase l + 0x104, 23, 16⟩
def LN_EYE_STAT.VALID (l : Nat) : Fld := ⟨laneBase l + 0x104, 15, 15⟩
def LN_EYE_STAT.RUNNING (l : Nat) : Fld := ⟨laneBase l + 0x104, 14, 14⟩
def LN_EYE_STAT.POINTS (l : Nat) : Fld := ⟨laneBase l + 0x104, 12, 0⟩
/-- LN_EYE_ROW (R192): the whole register. -/
def LN_EYE_ROW.word (l : Nat) : Fld := ⟨laneBase l + 0x108, 31, 0⟩
def LN_EYE_ROW.ROW (l : Nat) : Fld := ⟨laneBase l + 0x108, 5, 0⟩
/-- LN_EYE_DATA (R192): the whole register. -/
def LN_EYE_DATA.word (l i : Nat) : Fld := ⟨laneBase l + 0x180 + i * 4, 31, 0⟩
def LN_EYE_DATA.ODD (l i : Nat) : Fld := ⟨laneBase l + 0x180 + i * 4, 31, 16⟩
def LN_EYE_DATA.EVEN (l i : Nat) : Fld := ⟨laneBase l + 0x180 + i * 4, 15, 0⟩
/-- LN_TEST_CTL (R192): the whole register. -/
def LN_TEST_CTL.word (l : Nat) : Fld := ⟨laneBase l + 0x200, 31, 0⟩
def LN_TEST_CTL.TX_PAT (l : Nat) : Fld := ⟨laneBase l + 0x200, 15, 12⟩
def LN_TEST_CTL.RX_PAT (l : Nat) : Fld := ⟨laneBase l + 0x200, 11, 8⟩
def LN_TEST_CTL.CHK_EN (l : Nat) : Fld := ⟨laneBase l + 0x200, 1, 1⟩
def LN_TEST_CTL.GEN_EN (l : Nat) : Fld := ⟨laneBase l + 0x200, 0, 0⟩
/-- LN_PRBS_ERR (R192): the whole register. -/
def LN_PRBS_ERR.word (l : Nat) : Fld := ⟨laneBase l + 0x204, 31, 0⟩
def LN_PRBS_ERR.ERR (l : Nat) : Fld := ⟨laneBase l + 0x204, 31, 0⟩
/-- LN_PRBS_STAT (R192): the whole register. -/
def LN_PRBS_STAT.word (l : Nat) : Fld := ⟨laneBase l + 0x208, 31, 0⟩
def LN_PRBS_STAT.SLIP_POS (l : Nat) : Fld := ⟨laneBase l + 0x208, 23, 16⟩
def LN_PRBS_STAT.SYNC (l : Nat) : Fld := ⟨laneBase l + 0x208, 1, 1⟩
def LN_PRBS_STAT.CHK_RUN (l : Nat) : Fld := ⟨laneBase l + 0x208, 0, 0⟩
/-- LN_TXEQ_OVR (R192): the whole register. -/
def LN_TXEQ_OVR.word (l : Nat) : Fld := ⟨laneBase l + 0x300, 31, 0⟩
def LN_TXEQ_OVR.OVR_EN (l : Nat) : Fld := ⟨laneBase l + 0x300, 31, 31⟩
def LN_TXEQ_OVR.CM3 (l : Nat) : Fld := ⟨laneBase l + 0x300, 24, 20⟩
def LN_TXEQ_OVR.CM2 (l : Nat) : Fld := ⟨laneBase l + 0x300, 19, 15⟩
def LN_TXEQ_OVR.CM1 (l : Nat) : Fld := ⟨laneBase l + 0x300, 14, 10⟩
def LN_TXEQ_OVR.CP1 (l : Nat) : Fld := ⟨laneBase l + 0x300, 9, 5⟩
/-- PT_OCT_MODE (R219): the whole register. -/
def PT_OCT_MODE.word (s k : Nat) : Fld := ⟨sliceBase s + 0x10000 + k * 4, 31, 0⟩
def PT_OCT_MODE.MODE (s k : Nat) : Fld := ⟨sliceBase s + 0x10000 + k * 4, 3, 0⟩
/-- PT_CMD (R219): the whole register. -/
def PT_CMD.word (s : Nat) : Fld := ⟨sliceBase s + 0x10000 + 0x10, 31, 0⟩
def PT_CMD.CLEAR_STATS (s : Nat) : Fld := ⟨sliceBase s + 0x10000 + 0x10, 0, 0⟩
/-- PT_CMD_PORT (R219): the whole register. -/
def PT_CMD_PORT.word (s : Nat) : Fld := ⟨sliceBase s + 0x10000 + 0x14, 31, 0⟩
def PT_CMD_PORT.LANE (s : Nat) : Fld := ⟨sliceBase s + 0x10000 + 0x14, 4, 0⟩
/-- PT_CFG (R219): the whole register. -/
def PT_CFG.word (p : Nat) : Fld := ⟨portBase p, 31, 0⟩
def PT_CFG.MTU (p : Nat) : Fld := ⟨portBase p, 29, 16⟩
def PT_CFG.FC_MODE (p : Nat) : Fld := ⟨portBase p, 11, 10⟩
def PT_CFG.FEC (p : Nat) : Fld := ⟨portBase p, 9, 8⟩
def PT_CFG.CT_EN (p : Nat) : Fld := ⟨portBase p, 6, 6⟩
def PT_CFG.DRAIN (p : Nat) : Fld := ⟨portBase p, 5, 5⟩
def PT_CFG.PTP_EN (p : Nat) : Fld := ⟨portBase p, 4, 4⟩
def PT_CFG.LOOP (p : Nat) : Fld := ⟨portBase p, 3, 3⟩
/-- PT_LINK (R219): the whole register. -/
def PT_LINK.word (p : Nat) : Fld := ⟨portBase p + 4, 31, 0⟩
def PT_LINK.SKEW (p : Nat) : Fld := ⟨portBase p + 4, 15, 8⟩
def PT_LINK.LIVE (p : Nat) : Fld := ⟨portBase p + 4, 7, 7⟩
def PT_LINK.RF (p : Nat) : Fld := ⟨portBase p + 4, 6, 6⟩
def PT_LINK.LF (p : Nat) : Fld := ⟨portBase p + 4, 5, 5⟩
def PT_LINK.FEC_ALIGN (p : Nat) : Fld := ⟨portBase p + 4, 4, 4⟩
def PT_LINK.STATE (p : Nat) : Fld := ⟨portBase p + 4, 1, 0⟩
/-- PT_STATUS (R219): the whole register. -/
def PT_STATUS.word (p : Nat) : Fld := ⟨portBase p + 8, 31, 0⟩
def PT_STATUS.SEQ (p : Nat) : Fld := ⟨portBase p + 8, 31, 24⟩
def PT_STATUS.TS_FIFO_OVF (p : Nat) : Fld := ⟨portBase p + 8, 5, 5⟩
def PT_STATUS.PFC_WD (p : Nat) : Fld := ⟨portBase p + 8, 4, 4⟩
def PT_STATUS.FAULT (p : Nat) : Fld := ⟨portBase p + 8, 3, 3⟩
def PT_STATUS.FEC_LOSS (p : Nat) : Fld := ⟨portBase p + 8, 2, 2⟩
def PT_STATUS.DOWN (p : Nat) : Fld := ⟨portBase p + 8, 1, 1⟩
def PT_STATUS.UP (p : Nat) : Fld := ⟨portBase p + 8, 0, 0⟩
/-- PT_PFC_MAP (R219): the whole register. -/
def PT_PFC_MAP.word (p : Nat) : Fld := ⟨portBase p + 0x10, 31, 0⟩
def PT_PFC_MAP.MAP (p : Nat) : Fld := ⟨portBase p + 0x10, 31, 0⟩
/-- PT_PFC_CFG (R219): the whole register. -/
def PT_PFC_CFG.word (p : Nat) : Fld := ⟨portBase p + 0x14, 31, 0⟩
def PT_PFC_CFG.TX_MASK (p : Nat) : Fld := ⟨portBase p + 0x14, 31, 24⟩
def PT_PFC_CFG.RX_MASK (p : Nat) : Fld := ⟨portBase p + 0x14, 23, 16⟩
def PT_PFC_CFG.WD_MS (p : Nat) : Fld := ⟨portBase p + 0x14, 15, 0⟩
/-- PT_PAUSE_QUANTA (R219): the whole register. -/
def PT_PAUSE_QUANTA.word (p : Nat) : Fld := ⟨portBase p + 0x18, 31, 0⟩
def PT_PAUSE_QUANTA.REFRESH (p : Nat) : Fld := ⟨portBase p + 0x18, 31, 16⟩
def PT_PAUSE_QUANTA.QUANTA (p : Nat) : Fld := ⟨portBase p + 0x18, 15, 0⟩
/-- PT_LIVE_CFG (R219): the whole register. -/
def PT_LIVE_CFG.word (p : Nat) : Fld := ⟨portBase p + 0x1C, 31, 0⟩
def PT_LIVE_CFG.UP_HOLD (p : Nat) : Fld := ⟨portBase p + 0x1C, 15, 0⟩
/-- PT_LAT (R219): the whole register. -/
def PT_LAT.word (p : Nat) : Fld := ⟨portBase p + 0x20, 31, 0⟩
def PT_LAT.EGRESS (p : Nat) : Fld := ⟨portBase p + 0x20, 31, 16⟩
def PT_LAT.INGRESS (p : Nat) : Fld := ⟨portBase p + 0x20, 15, 0⟩
/-- PT_TS_ADJ (R219): the whole register. -/
def PT_TS_ADJ.word (p : Nat) : Fld := ⟨portBase p + 0x24, 31, 0⟩
def PT_TS_ADJ.TX_ADJ (p : Nat) : Fld := ⟨portBase p + 0x24, 31, 16⟩
def PT_TS_ADJ.RX_ADJ (p : Nat) : Fld := ⟨portBase p + 0x24, 15, 0⟩
/-- PT_TS_FIFO (R219): the whole register. -/
def PT_TS_FIFO.word (p : Nat) : Fld := ⟨portBase p + 0x28, 31, 0⟩
def PT_TS_FIFO.VALID (p : Nat) : Fld := ⟨portBase p + 0x28, 31, 31⟩
def PT_TS_FIFO.DEPTH (p : Nat) : Fld := ⟨portBase p + 0x28, 22, 16⟩
def PT_TS_FIFO.TAG (p : Nat) : Fld := ⟨portBase p + 0x28, 15, 0⟩
/-- PT_MAC_LO (R219): the whole register. -/
def PT_MAC_LO.word (p : Nat) : Fld := ⟨portBase p + 0x2C, 31, 0⟩
def PT_MAC_LO.MAC_LO (p : Nat) : Fld := ⟨portBase p + 0x2C, 31, 0⟩
/-- PT_MAC_HI (R219): the whole register. -/
def PT_MAC_HI.word (p : Nat) : Fld := ⟨portBase p + 0x30, 31, 0⟩
def PT_MAC_HI.MAC_HI (p : Nat) : Fld := ⟨portBase p + 0x30, 15, 0⟩
/-- PRS_STATUS (R248): the whole register. -/
def PRS_STATUS.word (s : Nat) : Fld := ⟨sliceBase s + 0x20000, 31, 0⟩
def PRS_STATUS.SEQ (s : Nat) : Fld := ⟨sliceBase s + 0x20000, 31, 24⟩
def PRS_STATUS.CAPTURED (s : Nat) : Fld := ⟨sliceBase s + 0x20000, 3, 3⟩
def PRS_STATUS.SHADOW_BAD (s : Nat) : Fld := ⟨sliceBase s + 0x20000, 2, 2⟩
def PRS_STATUS.TABLE_UNCORR (s : Nat) : Fld := ⟨sliceBase s + 0x20000, 1, 1⟩
def PRS_CNT_OK (s : Nat) : Fld := ⟨sliceBase s + 0x20000 + 0x10, 31, 0⟩
def PRS_CNT_NO_MATCH (s : Nat) : Fld := ⟨sliceBase s + 0x20000 + 0x14, 31, 0⟩
def PRS_CNT_PARSE_FAIL (s : Nat) : Fld := ⟨sliceBase s + 0x20000 + 0x18, 31, 0⟩
def PRS_CNT_MALFORMED (s : Nat) : Fld := ⟨sliceBase s + 0x20000 + 0x1C, 31, 0⟩
def PRS_CNT_DEPTH (s : Nat) : Fld := ⟨sliceBase s + 0x20000 + 0x20, 31, 0⟩
def PRS_CNT_FRAG (s : Nat) : Fld := ⟨sliceBase s + 0x20000 + 0x24, 31, 0⟩
def PRS_CNT_LATE_MALF (s : Nat) : Fld := ⟨sliceBase s + 0x20000 + 0x28, 31, 0⟩
def PRS_CNT_CSUM_ERR (s : Nat) : Fld := ⟨sliceBase s + 0x20000 + 0x2C, 31, 0⟩
def PRS_CNT_DEF_ERR (s : Nat) : Fld := ⟨sliceBase s + 0x20000 + 0x30, 31, 0⟩
def PRS_CNT_TABLE_CORR (s : Nat) : Fld := ⟨sliceBase s + 0x20000 + 0x34, 31, 0⟩
/-- All counters of the row, by k (R248). -/
def PRS_CNT_OK.cnt (s k : Nat) : Fld := ⟨sliceBase s + 0x20000 + 0x10 + 4 * k, 31, 0⟩
/-- PRS_CAP_CTL (R248): the whole register. -/
def PRS_CAP_CTL.word (s : Nat) : Fld := ⟨sliceBase s + 0x20000 + 0x40, 31, 0⟩
def PRS_CAP_CTL.ARM (s : Nat) : Fld := ⟨sliceBase s + 0x20000 + 0x40, 8, 8⟩
def PRS_CAP_CTL.MASK (s : Nat) : Fld := ⟨sliceBase s + 0x20000 + 0x40, 4, 0⟩
/-- PRS_CAP_INFO (R248): the whole register. -/
def PRS_CAP_INFO.word (s : Nat) : Fld := ⟨sliceBase s + 0x20000 + 0x44, 31, 0⟩
def PRS_CAP_INFO.CLASS (s : Nat) : Fld := ⟨sliceBase s + 0x20000 + 0x44, 31, 29⟩
def PRS_CAP_INFO.CAUSE (s : Nat) : Fld := ⟨sliceBase s + 0x20000 + 0x44, 28, 25⟩
def PRS_CAP_INFO.STATE (s : Nat) : Fld := ⟨sliceBase s + 0x20000 + 0x44, 24, 19⟩
def PRS_CAP_INFO.OFFSET (s : Nat) : Fld := ⟨sliceBase s + 0x20000 + 0x44, 18, 10⟩
def PRS_CAP_INFO.RECIRC (s : Nat) : Fld := ⟨sliceBase s + 0x20000 + 0x44, 5, 5⟩
def PRS_CAP_INFO.LANE (s : Nat) : Fld := ⟨sliceBase s + 0x20000 + 0x44, 4, 0⟩
/-- PRS_CAP_EPOCH (R248): the whole register. -/
def PRS_CAP_EPOCH.word (s : Nat) : Fld := ⟨sliceBase s + 0x20000 + 0x48, 31, 0⟩
def PRS_CAP_EPOCH.EPOCH_LO (s : Nat) : Fld := ⟨sliceBase s + 0x20000 + 0x48, 31, 0⟩
/-- PRS_CAP_DATA (R248): the whole register. -/
def PRS_CAP_DATA.word (s i : Nat) : Fld := ⟨sliceBase s + 0x20000 + 0x100 + i * 4, 31, 0⟩
def PRS_CAP_DATA.DATA (s i : Nat) : Fld := ⟨sliceBase s + 0x20000 + 0x100 + i * 4, 31, 0⟩
/-- PRS_STATE_HDR (R248): the whole register. -/
def PRS_STATE_HDR.word (s b n : Nat) : Fld := ⟨sliceBase s + 0x20000 + 0x4000 + b * 0x4000 + n * 0x10, 31, 0⟩
def PRS_STATE_HDR.VALID (s b n : Nat) : Fld := ⟨sliceBase s + 0x20000 + 0x4000 + b * 0x4000 + n * 0x10, 31, 31⟩
def PRS_STATE_HDR.OUTER (s b n : Nat) : Fld := ⟨sliceBase s + 0x20000 + 0x4000 + b * 0x4000 + n * 0x10, 30, 30⟩
def PRS_STATE_HDR.CHECK (s b n : Nat) : Fld := ⟨sliceBase s + 0x20000 + 0x4000 + b * 0x4000 + n * 0x10, 29, 28⟩
def PRS_STATE_HDR.HDR (s b n : Nat) : Fld := ⟨sliceBase s + 0x20000 + 0x4000 + b * 0x4000 + n * 0x10, 27, 23⟩
def PRS_STATE_HDR.PTYPE (s b n : Nat) : Fld := ⟨sliceBase s + 0x20000 + 0x4000 + b * 0x4000 + n * 0x10, 22, 15⟩
def PRS_STATE_HDR.DEF_NEXT (s b n : Nat) : Fld := ⟨sliceBase s + 0x20000 + 0x4000 + b * 0x4000 + n * 0x10, 14, 9⟩
def PRS_STATE_HDR.DEF_KIND (s b n : Nat) : Fld := ⟨sliceBase s + 0x20000 + 0x4000 + b * 0x4000 + n * 0x10, 8, 7⟩
/-- PRS_STATE_LEN (R248): the whole register. -/
def PRS_STATE_LEN.word (s b n : Nat) : Fld := ⟨sliceBase s + 0x20000 + 0x4004 + b * 0x4000 + n * 0x10, 31, 0⟩
def PRS_STATE_LEN.FIXED (s b n : Nat) : Fld := ⟨sliceBase s + 0x20000 + 0x4004 + b * 0x4000 + n * 0x10, 31, 24⟩
def PRS_STATE_LEN.LF_OFF (s b n : Nat) : Fld := ⟨sliceBase s + 0x20000 + 0x4004 + b * 0x4000 + n * 0x10, 23, 15⟩
def PRS_STATE_LEN.LF_WIDTH (s b n : Nat) : Fld := ⟨sliceBase s + 0x20000 + 0x4004 + b * 0x4000 + n * 0x10, 14, 11⟩
def PRS_STATE_LEN.LF_SHIFT (s b n : Nat) : Fld := ⟨sliceBase s + 0x20000 + 0x4004 + b * 0x4000 + n * 0x10, 10, 8⟩
/-- PRS_STATE_KEY (R248): the whole register. -/
def PRS_STATE_KEY.word (s b n : Nat) : Fld := ⟨sliceBase s + 0x20000 + 0x4008 + b * 0x4000 + n * 0x10, 31, 0⟩
def PRS_STATE_KEY.K0_OFF (s b n : Nat) : Fld := ⟨sliceBase s + 0x20000 + 0x4008 + b * 0x4000 + n * 0x10, 31, 23⟩
def PRS_STATE_KEY.K0_WIDTH (s b n : Nat) : Fld := ⟨sliceBase s + 0x20000 + 0x4008 + b * 0x4000 + n * 0x10, 22, 18⟩
def PRS_STATE_KEY.K1_OFF (s b n : Nat) : Fld := ⟨sliceBase s + 0x20000 + 0x4008 + b * 0x4000 + n * 0x10, 17, 9⟩
def PRS_STATE_KEY.K1_WIDTH (s b n : Nat) : Fld := ⟨sliceBase s + 0x20000 + 0x4008 + b * 0x4000 + n * 0x10, 8, 4⟩
/-- PRS_PORT (R248): the whole register. -/
def PRS_PORT.word (s b p : Nat) : Fld := ⟨sliceBase s + 0x20000 + 0x4400 + b * 0x4000 + p * 4, 31, 0⟩
def PRS_PORT.START (s b p : Nat) : Fld := ⟨sliceBase s + 0x20000 + 0x4400 + b * 0x4000 + p * 4, 21, 16⟩
def PRS_PORT.PORT_CLASS (s b p : Nat) : Fld := ⟨sliceBase s + 0x20000 + 0x4400 + b * 0x4000 + p * 4, 15, 8⟩
/-- PRS_DEF (R248): the whole register. -/
def PRS_DEF.word (s b p c : Nat) : Fld := ⟨sliceBase s + 0x20000 + 0x4500 + b * 0x4000 + p * 0x10 + c * 4, 31, 0⟩
def PRS_DEF.ACTION (s b p c : Nat) : Fld := ⟨sliceBase s + 0x20000 + 0x4500 + b * 0x4000 + p * 0x10 + c * 4, 31, 29⟩
def PRS_DEF.MIRROR (s b p c : Nat) : Fld := ⟨sliceBase s + 0x20000 + 0x4500 + b * 0x4000 + p * 0x10 + c * 4, 28, 28⟩
def PRS_DEF.PORT (s b p c : Nat) : Fld := ⟨sliceBase s + 0x20000 + 0x4500 + b * 0x4000 + p * 0x10 + c * 4, 27, 18⟩
def PRS_DEF.QUEUE (s b p c : Nat) : Fld := ⟨sliceBase s + 0x20000 + 0x4500 + b * 0x4000 + p * 0x10 + c * 4, 17, 15⟩
def PRS_DEF.RING (s b p c : Nat) : Fld := ⟨sliceBase s + 0x20000 + 0x4500 + b * 0x4000 + p * 0x10 + c * 4, 14, 9⟩
def PRS_DEF.TRAP_CODE (s b p c : Nat) : Fld := ⟨sliceBase s + 0x20000 + 0x4500 + b * 0x4000 + p * 0x10 + c * 4, 8, 1⟩
/-- PRS_MIRROR (R248): the whole register. -/
def PRS_MIRROR.word (s b : Nat) : Fld := ⟨sliceBase s + 0x20000 + 0x4800 + b * 0x4000, 31, 0⟩
def PRS_MIRROR.PORT (s b : Nat) : Fld := ⟨sliceBase s + 0x20000 + 0x4800 + b * 0x4000, 12, 3⟩
def PRS_MIRROR.QUEUE (s b : Nat) : Fld := ⟨sliceBase s + 0x20000 + 0x4800 + b * 0x4000, 2, 0⟩
/-- PRS_TT_SEED (R248): the whole register. -/
def PRS_TT_SEED.word (s b : Nat) : Fld := ⟨sliceBase s + 0x20000 + 0x4804 + b * 0x4000, 31, 0⟩
def PRS_TT_SEED.SEED (s b : Nat) : Fld := ⟨sliceBase s + 0x20000 + 0x4804 + b * 0x4000, 31, 0⟩
/-- PRS_CL_SEED (R248): the whole register. -/
def PRS_CL_SEED.word (s b : Nat) : Fld := ⟨sliceBase s + 0x20000 + 0x4808 + b * 0x4000, 31, 0⟩
def PRS_CL_SEED.SEED (s b : Nat) : Fld := ⟨sliceBase s + 0x20000 + 0x4808 + b * 0x4000, 31, 0⟩
/-- PRS_CHECKS (R248): the whole register. -/
def PRS_CHECKS.word (s b : Nat) : Fld := ⟨sliceBase s + 0x20000 + 0x480C + b * 0x4000, 31, 0⟩
def PRS_CHECKS.CSUM_EN (s b : Nat) : Fld := ⟨sliceBase s + 0x20000 + 0x480C + b * 0x4000, 8, 8⟩
def PRS_CHECKS.TRAIL_MAX (s b : Nat) : Fld := ⟨sliceBase s + 0x20000 + 0x480C + b * 0x4000, 7, 0⟩
/-- PRS_EXT (R248): the whole register. -/
def PRS_EXT.word (s b i : Nat) : Fld := ⟨sliceBase s + 0x20000 + 0x4C00 + b * 0x4000 + i * 4, 31, 0⟩
def PRS_EXT.CONT (s b i : Nat) : Fld := ⟨sliceBase s + 0x20000 + 0x4C00 + b * 0x4000 + i * 4, 15, 8⟩
def PRS_EXT.OFF (s b i : Nat) : Fld := ⟨sliceBase s + 0x20000 + 0x4C00 + b * 0x4000 + i * 4, 7, 0⟩
/-- PRS_OKEY (R248): the whole register. -/
def PRS_OKEY.word (s b t : Nat) : Fld := ⟨sliceBase s + 0x20000 + 0x5400 + b * 0x4000 + t * 4, 31, 0⟩
def PRS_OKEY.SEL1 (s b t : Nat) : Fld := ⟨sliceBase s + 0x20000 + 0x5400 + b * 0x4000 + t * 4, 31, 16⟩
def PRS_OKEY.SEL0 (s b t : Nat) : Fld := ⟨sliceBase s + 0x20000 + 0x5400 + b * 0x4000 + t * 4, 15, 0⟩
/-- STG_STATUS (R293): the whole register. -/
def STG_STATUS.word (s g : Nat) : Fld := ⟨stageBase s g, 31, 0⟩
def STG_STATUS.SEQ (s g : Nat) : Fld := ⟨stageBase s g, 31, 24⟩
def STG_STATUS.SHADOW_BAD (s g : Nat) : Fld := ⟨stageBase s g, 4, 4⟩
def STG_STATUS.TABLE_UNCORR (s g : Nat) : Fld := ⟨stageBase s g, 3, 3⟩
def STG_STATUS.REPLAY_FAIL (s g : Nat) : Fld := ⟨stageBase s g, 2, 2⟩
def STG_STATUS.SU_UNCORR (s g : Nat) : Fld := ⟨stageBase s g, 1, 1⟩
def STG_STATUS.REPLAY (s g : Nat) : Fld := ⟨stageBase s g, 0, 0⟩
def STG_CNT_PKTS (s g : Nat) : Fld := ⟨stageBase s g + 0x10, 31, 0⟩
def STG_CNT_HIT_A (s g : Nat) : Fld := ⟨stageBase s g + 0x14, 31, 0⟩
def STG_CNT_HIT_B (s g : Nat) : Fld := ⟨stageBase s g + 0x18, 31, 0⟩
def STG_CNT_HIT_C (s g : Nat) : Fld := ⟨stageBase s g + 0x1C, 31, 0⟩
def STG_CNT_MISS (s g : Nat) : Fld := ⟨stageBase s g + 0x20, 31, 0⟩
def STG_CNT_WORD_LIMIT (s g : Nat) : Fld := ⟨stageBase s g + 0x24, 31, 0⟩
def STG_CNT_SU_EXCESS (s g : Nat) : Fld := ⟨stageBase s g + 0x28, 31, 0⟩
def STG_CNT_REPLAY (s g : Nat) : Fld := ⟨stageBase s g + 0x2C, 31, 0⟩
def STG_CNT_SU_CORR (s g : Nat) : Fld := ⟨stageBase s g + 0x30, 31, 0⟩
def STG_CNT_SU_UNCORR (s g : Nat) : Fld := ⟨stageBase s g + 0x34, 31, 0⟩
def STG_CNT_TABLE_CORR (s g : Nat) : Fld := ⟨stageBase s g + 0x38, 31, 0⟩
/-- All counters of the row, by k (R293). -/
def STG_CNT_PKTS.cnt (s g k : Nat) : Fld := ⟨stageBase s g + 0x10 + 4 * k, 31, 0⟩
/-- STG_KBD (R293): the whole register. -/
def STG_KBD.word (s g b d w : Nat) : Fld := ⟨stageBase s g + 0x400 + b * 0x400 + d * 0x20 + w * 4, 31, 0⟩
def STG_KBD.SLOT_HI (s g b d w : Nat) : Fld := ⟨stageBase s g + 0x400 + b * 0x400 + d * 0x20 + w * 4, 31, 16⟩
def STG_KBD.SLOT_LO (s g b d w : Nat) : Fld := ⟨stageBase s g + 0x400 + b * 0x400 + d * 0x20 + w * 4, 15, 0⟩
/-- STG_SU_CFG (R293): the whole register. -/
def STG_SU_CFG.word (s g b u : Nat) : Fld := ⟨stageBase s g + 0x500 + b * 0x400 + u * 4, 31, 0⟩
def STG_SU_CFG.SIZE_LOG2 (s g b u : Nat) : Fld := ⟨stageBase s g + 0x500 + b * 0x400 + u * 4, 19, 16⟩
def STG_SU_CFG.BASE (s g b u : Nat) : Fld := ⟨stageBase s g + 0x500 + b * 0x400 + u * 4, 12, 0⟩
/-- DEP_ORDER (R295): the whole register. -/
def DEP_ORDER.word (s b w : Nat) : Fld := ⟨sliceBase s + 0x4C000 + 0x100 + b * 0x100 + w * 4, 31, 0⟩
def DEP_ORDER.ORDER (s b w : Nat) : Fld := ⟨sliceBase s + 0x4C000 + 0x100 + b * 0x100 + w * 4, 31, 0⟩
/-- DEP_LEN (R295): the whole register. -/
def DEP_LEN.word (s b w : Nat) : Fld := ⟨sliceBase s + 0x4C000 + 0x120 + b * 0x100 + w * 4, 31, 0⟩
def DEP_LEN.LEN (s b w : Nat) : Fld := ⟨sliceBase s + 0x4C000 + 0x120 + b * 0x100 + w * 4, 31, 0⟩
/-- DEP_CSUM (R295): the whole register. -/
def DEP_CSUM.word (s b : Nat) : Fld := ⟨sliceBase s + 0x4C000 + 0x140 + b * 0x100, 31, 0⟩
def DEP_CSUM.CSUM (s b : Nat) : Fld := ⟨sliceBase s + 0x4C000 + 0x140 + b * 0x100, 23, 0⟩
/-- ASE_STATUS (R373): the whole register. -/
def ASE_STATUS.word (s : Nat) : Fld := ⟨sliceBase s + 0x50000, 31, 0⟩
def ASE_STATUS.SEQ (s : Nat) : Fld := ⟨sliceBase s + 0x50000, 31, 24⟩
def ASE_STATUS.CFG_REJECT (s : Nat) : Fld := ⟨sliceBase s + 0x50000, 5, 5⟩
def ASE_STATUS.SHADOW_BAD (s : Nat) : Fld := ⟨sliceBase s + 0x50000, 4, 4⟩
def ASE_STATUS.SCRUB_FIX (s : Nat) : Fld := ⟨sliceBase s + 0x50000, 3, 3⟩
def ASE_STATUS.UPD_LOST (s : Nat) : Fld := ⟨sliceBase s + 0x50000, 2, 2⟩
def ASE_STATUS.UPD_REJECT (s : Nat) : Fld := ⟨sliceBase s + 0x50000, 1, 1⟩
def ASE_STATUS.UPD_DONE (s : Nat) : Fld := ⟨sliceBase s + 0x50000, 0, 0⟩
/-- ASE_EVENT (R373): the whole register. -/
def ASE_EVENT.word (s : Nat) : Fld := ⟨sliceBase s + 0x50000 + 8, 31, 0⟩
def ASE_EVENT.KIND (s : Nat) : Fld := ⟨sliceBase s + 0x50000 + 8, 31, 28⟩
def ASE_EVENT.BANK (s : Nat) : Fld := ⟨sliceBase s + 0x50000 + 8, 14, 11⟩
def ASE_EVENT.ROW (s : Nat) : Fld := ⟨sliceBase s + 0x50000 + 8, 10, 0⟩
/-- ASE_UPD (R373): the whole register. -/
def ASE_UPD.word (s : Nat) : Fld := ⟨sliceBase s + 0x50000 + 0x10, 31, 0⟩
def ASE_UPD.GO (s : Nat) : Fld := ⟨sliceBase s + 0x50000 + 0x10, 31, 31⟩
def ASE_UPD.BANK (s : Nat) : Fld := ⟨sliceBase s + 0x50000 + 0x10, 14, 11⟩
def ASE_UPD.ROW (s : Nat) : Fld := ⟨sliceBase s + 0x50000 + 0x10, 10, 0⟩
/-- ASE_UPD_STAT (R373): the whole register. -/
def ASE_UPD_STAT.word (s : Nat) : Fld := ⟨sliceBase s + 0x50000 + 0x14, 31, 0⟩
def ASE_UPD_STAT.BUSY (s : Nat) : Fld := ⟨sliceBase s + 0x50000 + 0x14, 31, 31⟩
def ASE_UPD_STAT.RESULT (s : Nat) : Fld := ⟨sliceBase s + 0x50000 + 0x14, 3, 0⟩
/-- ASE_THR (R373): the whole register. -/
def ASE_THR.word (s : Nat) : Fld := ⟨sliceBase s + 0x50000 + 0x18, 31, 0⟩
def ASE_THR.LEVEL (s : Nat) : Fld := ⟨sliceBase s + 0x50000 + 0x18, 1, 0⟩
/-- ASE_SCRUB (R373): the whole register. -/
def ASE_SCRUB.word (s : Nat) : Fld := ⟨sliceBase s + 0x50000 + 0x1C, 31, 0⟩
def ASE_SCRUB.ROW (s : Nat) : Fld := ⟨sliceBase s + 0x50000 + 0x1C, 10, 0⟩
def ASE_CNT_SEARCHES (s : Nat) : Fld := ⟨sliceBase s + 0x50000 + 0x20, 31, 0⟩
def ASE_CNT_HITS (s : Nat) : Fld := ⟨sliceBase s + 0x50000 + 0x24, 31, 0⟩
def ASE_CNT_MULTI (s : Nat) : Fld := ⟨sliceBase s + 0x50000 + 0x28, 31, 0⟩
def ASE_CNT_RESUMES (s : Nat) : Fld := ⟨sliceBase s + 0x50000 + 0x2C, 31, 0⟩
def ASE_CNT_RESUME_LIMIT (s : Nat) : Fld := ⟨sliceBase s + 0x50000 + 0x30, 31, 0⟩
def ASE_CNT_SLIPS (s : Nat) : Fld := ⟨sliceBase s + 0x50000 + 0x34, 31, 0⟩
def ASE_CNT_ISSUE_HOLD (s : Nat) : Fld := ⟨sliceBase s + 0x50000 + 0x38, 31, 0⟩
def ASE_CNT_UPDATES (s : Nat) : Fld := ⟨sliceBase s + 0x50000 + 0x3C, 31, 0⟩
def ASE_CNT_SCRUB_FIX (s : Nat) : Fld := ⟨sliceBase s + 0x50000 + 0x40, 31, 0⟩
def ASE_CNT_PROF_ERR (s : Nat) : Fld := ⟨sliceBase s + 0x50000 + 0x44, 31, 0⟩
def ASE_CNT_RESULT_CORR (s : Nat) : Fld := ⟨sliceBase s + 0x50000 + 0x48, 31, 0⟩
def ASE_CNT_THROTTLED (s : Nat) : Fld := ⟨sliceBase s + 0x50000 + 0x4C, 31, 0⟩
/-- All counters of the row, by k (R373). -/
def ASE_CNT_SEARCHES.cnt (s k : Nat) : Fld := ⟨sliceBase s + 0x50000 + 0x20 + 4 * k, 31, 0⟩
/-- ASE_BANK_CFG (R373): the whole register. -/
def ASE_BANK_CFG.word (s b : Nat) : Fld := ⟨sliceBase s + 0x50000 + 0x100 + b * 4, 31, 0⟩
def ASE_BANK_CFG.EN (s b : Nat) : Fld := ⟨sliceBase s + 0x50000 + 0x100 + b * 4, 31, 31⟩
def ASE_BANK_CFG.MIRROR (s b : Nat) : Fld := ⟨sliceBase s + 0x50000 + 0x100 + b * 4, 30, 30⟩
def ASE_BANK_CFG.PRIMARY (s b : Nat) : Fld := ⟨sliceBase s + 0x50000 + 0x100 + b * 4, 29, 26⟩
def ASE_BANK_CFG.WIDTH (s b : Nat) : Fld := ⟨sliceBase s + 0x50000 + 0x100 + b * 4, 25, 24⟩
def ASE_BANK_CFG.PF_EN (s b : Nat) : Fld := ⟨sliceBase s + 0x50000 + 0x100 + b * 4, 23, 23⟩
def ASE_BANK_CFG.PF_OFF (s b : Nat) : Fld := ⟨sliceBase s + 0x50000 + 0x100 + b * 4, 8, 0⟩
/-- ASE_BANK_ENTRIES (R373): the whole register. -/
def ASE_BANK_ENTRIES.word (s b : Nat) : Fld := ⟨sliceBase s + 0x50000 + 0x140 + b * 4, 31, 0⟩
def ASE_BANK_ENTRIES.ENTRIES (s b : Nat) : Fld := ⟨sliceBase s + 0x50000 + 0x140 + b * 4, 11, 0⟩
/-- ASE_PROF (R373): the whole register. -/
def ASE_PROF.word (s b p : Nat) : Fld := ⟨sliceBase s + 0x50000 + 0x400 + b * 0x100 + p * 4, 31, 0⟩
def ASE_PROF.EN (s b p : Nat) : Fld := ⟨sliceBase s + 0x50000 + 0x400 + b * 0x100 + p * 4, 31, 31⟩
def ASE_PROF.PROMISED (s b p : Nat) : Fld := ⟨sliceBase s + 0x50000 + 0x400 + b * 0x100 + p * 4, 30, 30⟩
def ASE_PROF.MODE (s b p : Nat) : Fld := ⟨sliceBase s + 0x50000 + 0x400 + b * 0x100 + p * 4, 29, 28⟩
def ASE_PROF.BANKS (s b p : Nat) : Fld := ⟨sliceBase s + 0x50000 + 0x400 + b * 0x100 + p * 4, 15, 0⟩
/-- ASE_PF (R373): the whole register. -/
def ASE_PF.word (s b i : Nat) : Fld := ⟨sliceBase s + 0x50000 + 0x1000 + b * 0x80 + i * 4, 31, 0⟩
def ASE_PF.MASK (s b i : Nat) : Fld := ⟨sliceBase s + 0x50000 + 0x1000 + b * 0x80 + i * 4, 15, 8⟩
def ASE_PF.VALUE (s b i : Nat) : Fld := ⟨sliceBase s + 0x50000 + 0x1000 + b * 0x80 + i * 4, 7, 0⟩
/-- EQ_STATUS (R475): the whole register. -/
def EQ_STATUS.word (s : Nat) : Fld := ⟨sliceBase s + 0x60000, 31, 0⟩
def EQ_STATUS.SEQ (s : Nat) : Fld := ⟨sliceBase s + 0x60000, 31, 24⟩
def EQ_STATUS.UNSOUND (s : Nat) : Fld := ⟨sliceBase s + 0x60000, 3, 3⟩
def EQ_STATUS.PROM_MISS (s : Nat) : Fld := ⟨sliceBase s + 0x60000, 2, 2⟩
def EQ_STATUS.PROM_LATE (s : Nat) : Fld := ⟨sliceBase s + 0x60000, 1, 1⟩
def EQ_STATUS.UNRESERVED (s : Nat) : Fld := ⟨sliceBase s + 0x60000, 0, 0⟩
/-- EQ_CFG (R475): the whole register. -/
def EQ_CFG.word (s : Nat) : Fld := ⟨sliceBase s + 0x60000 + 8, 31, 0⟩
def EQ_CFG.EWMA_SHIFT (s : Nat) : Fld := ⟨sliceBase s + 0x60000 + 8, 3, 0⟩
/-- EQ_LATE_RUN (R475): the whole register. -/
def EQ_LATE_RUN.word (s : Nat) : Fld := ⟨sliceBase s + 0x60000 + 0xC, 31, 0⟩
def EQ_LATE_RUN.LATE_MAX (s : Nat) : Fld := ⟨sliceBase s + 0x60000 + 0xC, 31, 16⟩
def EQ_LATE_RUN.LATE_NOW (s : Nat) : Fld := ⟨sliceBase s + 0x60000 + 0xC, 15, 0⟩
def EQ_CNT_DEMOTED (s : Nat) : Fld := ⟨sliceBase s + 0x60000 + 0x10, 31, 0⟩
def EQ_CNT_UNRESERVED (s : Nat) : Fld := ⟨sliceBase s + 0x60000 + 0x14, 31, 0⟩
def EQ_CNT_PROM_TX (s : Nat) : Fld := ⟨sliceBase s + 0x60000 + 0x18, 31, 0⟩
def EQ_CNT_PROM_LATE (s : Nat) : Fld := ⟨sliceBase s + 0x60000 + 0x1C, 31, 0⟩
def EQ_CNT_LATE_PAUSE (s : Nat) : Fld := ⟨sliceBase s + 0x60000 + 0x20, 31, 0⟩
def EQ_CNT_LATE_LINK (s : Nat) : Fld := ⟨sliceBase s + 0x60000 + 0x24, 31, 0⟩
def EQ_CNT_LATE_CAPACITY (s : Nat) : Fld := ⟨sliceBase s + 0x60000 + 0x28, 31, 0⟩
def EQ_CNT_PROM_MISS (s : Nat) : Fld := ⟨sliceBase s + 0x60000 + 0x2C, 31, 0⟩
def EQ_CNT_LATE_TICKS (s : Nat) : Fld := ⟨sliceBase s + 0x60000 + 0x30, 31, 0⟩
def EQ_CNT_CATCHUP_EPOCHS (s : Nat) : Fld := ⟨sliceBase s + 0x60000 + 0x34, 31, 0⟩
def EQ_CNT_POL_YELLOW (s : Nat) : Fld := ⟨sliceBase s + 0x60000 + 0x38, 31, 0⟩
def EQ_CNT_POL_RED (s : Nat) : Fld := ⟨sliceBase s + 0x60000 + 0x3C, 31, 0⟩
def EQ_CNT_COARSE (s : Nat) : Fld := ⟨sliceBase s + 0x60000 + 0x40, 31, 0⟩
/-- All counters of the row, by k (R475). -/
def EQ_CNT_DEMOTED.cnt (s k : Nat) : Fld := ⟨sliceBase s + 0x60000 + 0x10 + 4 * k, 31, 0⟩
/-- EQ_PORT (R475): the whole register. -/
def EQ_PORT.word (s n : Nat) : Fld := ⟨sliceBase s + 0x60000 + 0x100 + n * 0x10, 31, 0⟩
def EQ_PORT.SP_MASK (s n : Nat) : Fld := ⟨sliceBase s + 0x60000 + 0x100 + n * 0x10, 13, 8⟩
/-- EQ_PROM (R475): the whole register. -/
def EQ_PROM.word (s n : Nat) : Fld := ⟨sliceBase s + 0x60000 + 0x104 + n * 0x10, 31, 0⟩
def EQ_PROM.UNSOUND (s n : Nat) : Fld := ⟨sliceBase s + 0x60000 + 0x104 + n * 0x10, 31, 31⟩
def EQ_PROM.LATE (s n : Nat) : Fld := ⟨sliceBase s + 0x60000 + 0x104 + n * 0x10, 30, 30⟩
def EQ_PROM.DEMOTE_Q (s n : Nat) : Fld := ⟨sliceBase s + 0x60000 + 0x104 + n * 0x10, 26, 24⟩
def EQ_PROM.SHARE (s n : Nat) : Fld := ⟨sliceBase s + 0x60000 + 0x104 + n * 0x10, 23, 16⟩
def EQ_PROM.DEADLINE (s n : Nat) : Fld := ⟨sliceBase s + 0x60000 + 0x104 + n * 0x10, 8, 0⟩
/-- EQ_PROM_RATE (R475): the whole register. -/
def EQ_PROM_RATE.word (s n : Nat) : Fld := ⟨sliceBase s + 0x60000 + 0x108 + n * 0x10, 31, 0⟩
def EQ_PROM_RATE.RATE (s n : Nat) : Fld := ⟨sliceBase s + 0x60000 + 0x108 + n * 0x10, 31, 0⟩
/-- EQ_PROM_CAUSE (R475): the whole register. -/
def EQ_PROM_CAUSE.word (s n : Nat) : Fld := ⟨sliceBase s + 0x60000 + 0x10C + n * 0x10, 31, 0⟩
def EQ_PROM_CAUSE.CAUSE (s n : Nat) : Fld := ⟨sliceBase s + 0x60000 + 0x10C + n * 0x10, 1, 0⟩
/-- EQ_QCFG (R475): the whole register. -/
def EQ_QCFG.word (s j : Nat) : Fld := ⟨sliceBase s + 0x60000 + 0x1000 + j * 4, 31, 0⟩
def EQ_QCFG.SHAPE_EN (s j : Nat) : Fld := ⟨sliceBase s + 0x60000 + 0x1000 + j * 4, 31, 31⟩
def EQ_QCFG.POL_EN (s j : Nat) : Fld := ⟨sliceBase s + 0x60000 + 0x1000 + j * 4, 30, 30⟩
def EQ_QCFG.POLICER (s j : Nat) : Fld := ⟨sliceBase s + 0x60000 + 0x1000 + j * 4, 28, 20⟩
def EQ_QCFG.QUANTUM (s j : Nat) : Fld := ⟨sliceBase s + 0x60000 + 0x1000 + j * 4, 15, 0⟩
/-- SMP_CFG (R537): the whole register. -/
def SMP_CFG.word (s : Nat) : Fld := ⟨sliceBase s + 0x70000 + 0x100, 31, 0⟩
def SMP_CFG.EN (s : Nat) : Fld := ⟨sliceBase s + 0x70000 + 0x100, 31, 31⟩
def SMP_CFG.WRAP (s : Nat) : Fld := ⟨sliceBase s + 0x70000 + 0x100, 30, 30⟩
def SMP_CFG.PROG_EN (s : Nat) : Fld := ⟨sliceBase s + 0x70000 + 0x100, 29, 29⟩
def SMP_CFG.PROGRAM (s : Nat) : Fld := ⟨sliceBase s + 0x70000 + 0x100, 27, 20⟩
def SMP_CFG.INTERVAL (s : Nat) : Fld := ⟨sliceBase s + 0x70000 + 0x100, 19, 0⟩
/-- SMP_STAT (R537): the whole register. -/
def SMP_STAT.word (s : Nat) : Fld := ⟨sliceBase s + 0x70000 + 0x104, 31, 0⟩
def SMP_STAT.COUNT (s : Nat) : Fld := ⟨sliceBase s + 0x70000 + 0x104, 10, 0⟩
/-- SMP_STATUS (R537): the whole register. -/
def SMP_STATUS.word (s : Nat) : Fld := ⟨sliceBase s + 0x70000 + 0x108, 31, 0⟩
def SMP_STATUS.SEQ (s : Nat) : Fld := ⟨sliceBase s + 0x70000 + 0x108, 31, 24⟩
def SMP_STATUS.FULL (s : Nat) : Fld := ⟨sliceBase s + 0x70000 + 0x108, 0, 0⟩
def SMP_CNT_SAMPLES (s : Nat) : Fld := ⟨sliceBase s + 0x70000 + 0x110, 31, 0⟩
def SMP_CNT_LOST (s : Nat) : Fld := ⟨sliceBase s + 0x70000 + 0x114, 31, 0⟩
/-- All counters of the row, by k (R537). -/
def SMP_CNT_SAMPLES.cnt (s k : Nat) : Fld := ⟨sliceBase s + 0x70000 + 0x110 + 4 * k, 31, 0⟩
def ACT_CNT_RECIRC (s : Nat) : Fld := ⟨sliceBase s + 0x80000 + 0x10, 31, 0⟩
def ACT_CNT_RECIRC_LIMIT (s : Nat) : Fld := ⟨sliceBase s + 0x80000 + 0x14, 31, 0⟩
def ACT_CNT_RECIRC_FULL (s : Nat) : Fld := ⟨sliceBase s + 0x80000 + 0x18, 31, 0⟩
def ACT_CNT_GROUP_EMPTY (s : Nat) : Fld := ⟨sliceBase s + 0x80000 + 0x1C, 31, 0⟩
def ACT_CNT_NO_EGRESS (s : Nat) : Fld := ⟨sliceBase s + 0x80000 + 0x20, 31, 0⟩
def ACT_CNT_DEPARSE_ERR (s : Nat) : Fld := ⟨sliceBase s + 0x80000 + 0x24, 31, 0⟩
def ACT_CNT_MIRROR_ERR (s : Nat) : Fld := ⟨sliceBase s + 0x80000 + 0x28, 31, 0⟩
def ACT_CNT_TABLE_CORR (s : Nat) : Fld := ⟨sliceBase s + 0x80000 + 0x2C, 31, 0⟩
/-- All counters of the row, by k (R295). -/
def ACT_CNT_RECIRC.cnt (s k : Nat) : Fld := ⟨sliceBase s + 0x80000 + 0x10 + 4 * k, 31, 0⟩
/-- ACT_MIRROR (R295): the whole register. -/
def ACT_MIRROR.word (s m : Nat) : Fld := ⟨sliceBase s + 0x80000 + 0x100 + m * 4, 31, 0⟩
def ACT_MIRROR.KIND (s m : Nat) : Fld := ⟨sliceBase s + 0x80000 + 0x100 + m * 4, 31, 31⟩
def ACT_MIRROR.QUEUE (s m : Nat) : Fld := ⟨sliceBase s + 0x80000 + 0x100 + m * 4, 30, 28⟩
def ACT_MIRROR.PORT (s m : Nat) : Fld := ⟨sliceBase s + 0x80000 + 0x100 + m * 4, 27, 18⟩
def ACT_MIRROR.RING (s m : Nat) : Fld := ⟨sliceBase s + 0x80000 + 0x100 + m * 4, 17, 12⟩
def ACT_MIRROR.TRUNC (s m : Nat) : Fld := ⟨sliceBase s + 0x80000 + 0x100 + m * 4, 7, 0⟩
/-- ACT_RECIRC_CFG (R295): the whole register. -/
def ACT_RECIRC_CFG.word (s : Nat) : Fld := ⟨sliceBase s + 0x80000 + 0x200, 31, 0⟩
def ACT_RECIRC_CFG.LIMIT (s : Nat) : Fld := ⟨sliceBase s + 0x80000 + 0x200, 15, 0⟩
/-- ACT_GROUP (R295): the whole register. -/
def ACT_GROUP.word (s g : Nat) : Fld := ⟨sliceBase s + 0x80000 + 0x4000 + g * 4, 31, 0⟩
def ACT_GROUP.VALID (s g : Nat) : Fld := ⟨sliceBase s + 0x80000 + 0x4000 + g * 4, 31, 31⟩
def ACT_GROUP.BASE (s g : Nat) : Fld := ⟨sliceBase s + 0x80000 + 0x4000 + g * 4, 29, 16⟩
def ACT_GROUP.SIZE (s g : Nat) : Fld := ⟨sliceBase s + 0x80000 + 0x4000 + g * 4, 6, 0⟩
/-- ACT_MEMBER (R295): the whole register. -/
def ACT_MEMBER.word (s i : Nat) : Fld := ⟨sliceBase s + 0x80000 + 0x8000 + i * 4, 31, 0⟩
def ACT_MEMBER.PORT_ODD (s i : Nat) : Fld := ⟨sliceBase s + 0x80000 + 0x8000 + i * 4, 25, 16⟩
def ACT_MEMBER.PORT_EVEN (s i : Nat) : Fld := ⟨sliceBase s + 0x80000 + 0x8000 + i * 4, 9, 0⟩
/-- CTH_STATUS (R507): the whole register. -/
def CTH_STATUS.word (s : Nat) : Fld := ⟨sliceBase s + 0x90000, 31, 0⟩
def CTH_STATUS.SEQ (s : Nat) : Fld := ⟨sliceBase s + 0x90000, 31, 24⟩
def CTH_STATUS.IOAM_ERR (s : Nat) : Fld := ⟨sliceBase s + 0x90000, 0, 0⟩
def CTH_CNT_IOAM_WRITTEN (s : Nat) : Fld := ⟨sliceBase s + 0x90000 + 0x10, 31, 0⟩
def CTH_CNT_IOAM_OVERFLOW (s : Nat) : Fld := ⟨sliceBase s + 0x90000 + 0x14, 31, 0⟩
def CTH_CNT_IOAM_ERR (s : Nat) : Fld := ⟨sliceBase s + 0x90000 + 0x18, 31, 0⟩
def CTH_CNT_DEX (s : Nat) : Fld := ⟨sliceBase s + 0x90000 + 0x1C, 31, 0⟩
def CTH_CNT_DEX_SUPPRESSED (s : Nat) : Fld := ⟨sliceBase s + 0x90000 + 0x20, 31, 0⟩
def CTH_CNT_POSTCARDS (s : Nat) : Fld := ⟨sliceBase s + 0x90000 + 0x24, 31, 0⟩
/-- All counters of the row, by k (R507). -/
def CTH_CNT_IOAM_WRITTEN.cnt (s k : Nat) : Fld := ⟨sliceBase s + 0x90000 + 0x10 + 4 * k, 31, 0⟩
/-- CTH_IOAM (R507): the whole register. -/
def CTH_IOAM.word (s : Nat) : Fld := ⟨sliceBase s + 0x90000 + 0x40, 31, 0⟩
def CTH_IOAM.EN (s : Nat) : Fld := ⟨sliceBase s + 0x90000 + 0x40, 31, 31⟩
def CTH_IOAM.DEX_EN (s : Nat) : Fld := ⟨sliceBase s + 0x90000 + 0x40, 30, 30⟩
def CTH_IOAM.INSTANCE (s : Nat) : Fld := ⟨sliceBase s + 0x90000 + 0x40, 29, 25⟩
def CTH_IOAM.DEX_INSTANCE (s : Nat) : Fld := ⟨sliceBase s + 0x90000 + 0x40, 24, 20⟩
def CTH_IOAM.HOPLIM_CONT (s : Nat) : Fld := ⟨sliceBase s + 0x90000 + 0x40, 19, 14⟩
/-- CTH_IOAM_NS (R507): the whole register. -/
def CTH_IOAM_NS.word (s : Nat) : Fld := ⟨sliceBase s + 0x90000 + 0x44, 31, 0⟩
def CTH_IOAM_NS.NAMESPACE (s : Nat) : Fld := ⟨sliceBase s + 0x90000 + 0x44, 15, 0⟩
/-- CTH_IOAM_NODE (R507): the whole register. -/
def CTH_IOAM_NODE.word (s : Nat) : Fld := ⟨sliceBase s + 0x90000 + 0x48, 31, 0⟩
def CTH_IOAM_NODE.NODE (s : Nat) : Fld := ⟨sliceBase s + 0x90000 + 0x48, 31, 0⟩
/-- CTH_IOAM_NODE_HI (R507): the whole register. -/
def CTH_IOAM_NODE_HI.word (s : Nat) : Fld := ⟨sliceBase s + 0x90000 + 0x4C, 31, 0⟩
def CTH_IOAM_NODE_HI.NODE_HI (s : Nat) : Fld := ⟨sliceBase s + 0x90000 + 0x4C, 23, 0⟩
/-- CTH_DEX_RATE (R507): the whole register. -/
def CTH_DEX_RATE.word (s : Nat) : Fld := ⟨sliceBase s + 0x90000 + 0x50, 31, 0⟩
def CTH_DEX_RATE.DEX_BURST (s : Nat) : Fld := ⟨sliceBase s + 0x90000 + 0x50, 15, 8⟩
def CTH_DEX_RATE.DEX_RATE (s : Nat) : Fld := ⟨sliceBase s + 0x90000 + 0x50, 7, 0⟩
/-- CTH_POSTCARD (R507): the whole register. -/
def CTH_POSTCARD.word (s : Nat) : Fld := ⟨sliceBase s + 0x90000 + 0x54, 31, 0⟩
def CTH_POSTCARD.EN (s : Nat) : Fld := ⟨sliceBase s + 0x90000 + 0x54, 31, 31⟩
def CTH_POSTCARD.LOG2_N (s : Nat) : Fld := ⟨sliceBase s + 0x90000 + 0x54, 4, 0⟩
/-- CTH_FKEY (R507): the whole register. -/
def CTH_FKEY.word (s t : Nat) : Fld := ⟨sliceBase s + 0x90000 + 0x400 + t * 4, 31, 0⟩
/-- CTH_ACCT (R507): the whole register. -/
def CTH_ACCT.word (s p : Nat) : Fld := ⟨sliceBase s + 0x90000 + 0x800 + p * 4, 31, 0⟩
def CTH_ACCT.GROUP (s p : Nat) : Fld := ⟨sliceBase s + 0x90000 + 0x800 + p * 4, 5, 0⟩

end Sys2Proof.Machine
end

