-- ==== Sys2Proof/Machine/SMap.lean ====
section
/-!
DEFINITION. A sparse map from addresses to values, as plain data in one canonical form: keys strictly rising and no
entry equal to what an unlisted key reads as. What an unlisted key reads as is given at each use, since registers,
counters and tables read differently when nothing was written (log entry 3).
-/
namespace Sys2Proof.Machine

/-- A sparse map: (key, value) pairs. -/
abbrev SMap (α : Type) := List (Nat × α)

/-- Read key k; `d` is what an unlisted key reads as. -/
def SMap.get {α : Type} (m : SMap α) (d : α) (k : Nat) : α :=
  match m with
  | [] => d
  | (k', v) :: r => if k = k' then v else SMap.get r d k

/-- Remove key k. -/
def SMap.erase {α : Type} (m : SMap α) (k : Nat) : SMap α :=
  match m with
  | [] => []
  | (k', v) :: r => if k = k' then SMap.erase r k else (k', v) :: SMap.erase r k

/-- Insert a key, keeping the keys rising. -/
def SMap.ins {α : Type} (m : SMap α) (k : Nat) (v : α) : SMap α :=
  match m with
  | [] => [(k, v)]
  | (k', v') :: r =>
    if k < k' then (k, v) :: (k', v') :: r
    else if k = k' then (k, v) :: r
    else (k', v') :: SMap.ins r k v

/-- Write key k: a value equal to what an unlisted key reads as removes the entry. -/
def SMap.put {α : Type} [DecidableEq α] (m : SMap α) (d : α) (k : Nat) (v : α) : SMap α :=
  if v = d then SMap.erase m k else SMap.ins m k v

/-- Keep the entries whose key passes. -/
def SMap.keep {α : Type} (m : SMap α) (p : Nat → Bool) : SMap α := m.filter fun e => p e.1

/-- Keys strictly rising: every key listed is above `lo`. -/
def SMap.rising {α : Type} (m : SMap α) (lo : Option Nat) : Bool :=
  match m with
  | [] => true
  | (k, _) :: r => (match lo with
      | none => true
      | some b => decide (b < k)) && SMap.rising r (some k)

/-- The canonical form: keys strictly rising, no entry equal to what its key reads as unlisted. -/
def SMap.wf {α : Type} [DecidableEq α] (m : SMap α) (d : Nat → α) : Bool :=
  SMap.rising m none && m.all fun e => decide (e.2 ≠ d e.1)

end Sys2Proof.Machine
end

