-- ==== Sys2Proof/Machine/State.lean ====
section
/-!
DEFINITION. The state of the OX1024: the queue of waiting commands, the Graticule, the banks, and everything else the
spec gives the device. Registers live in one sparse map under their BAR0 addresses; what a register holds that was
never written is its reset value (RegMap). Plain data throughout.
-/
namespace Sys2Proof.Machine

/-! ### Why a command can stop -/

/-- Faults of the model: no command faults. -/
inductive Fault where
  /-- Raised by no command: an event that cannot happen in a state leaves that state as it is (log entry 10), and everything
  the spec turns away is an effect (a bus error, a RESULT, a reject bit). Safe. -/
  | illFormed
  deriving DecidableEq, Repr

/-- Refusals of the model. -/
inductive Refusal where
  /-- Raised by the dispatch for a command that has no meaning yet. Safe. -/
  | notModelled (mnemonic : String)
  deriving DecidableEq, Repr

/-- The outcome of a command. -/
abbrev Out (σ : Type) := Host.Outcome σ Fault Refusal

/-! ### Snapshots (chapter 15) -/

/-- Every counter as one frame tick captured it (R517, R519): the header's values, the registers, wide values, 64-bit
counters and histograms, each queue's sojourn maximum and average and its last and largest depth, and Contour's durations
and energies by their BAR2 offset (R605). -/
structure Snap where
  seq : Nat := 0
  flags : Nat := 0
  epoch : BitVec 64 := 0
  ptpNs : Nat := 0
  resets : Nat := 0
  point : Nat := 0
  /-- Ticks at the capture: what bin 0 of a queue that never had a cell reads (R490). -/
  ticks : Nat := 0
  regs : SMap Word := []
  wide : SMap (BitVec 128) := []
  ctr : SMap (BitVec 64) := []
  depthHist : SMap Word := []
  sojHist : SMap Word := []
  qstat : SMap (Nat × Nat × Nat × Nat) := []
  pwr : SMap Nat := []
  deriving DecidableEq, Repr

/-! ### What the device sends out -/

/-- An ordered set a port sends (R206). -/
inductive OrdSet where
  | remoteFault | idle | none
  deriving DecidableEq, Repr

/-- A byte of an out-of-band transaction that the target may refuse (R90). -/
inductive OobByte where
  | command | a3 | addrR | d3 | pec | extra
  deriving DecidableEq, Repr

/-- What leaves the device: each is emitted once, in the order it happens. -/
inductive Output where
  /-- An MSI-X message of function pf's vector (R78). -/
  | msix (pf vec : Nat)
  /-- A completion to the host: the value a read returned, or the write's acceptance (R100, R101). -/
  | readDone (src : Src) (addr : Nat) (v : BitVec 64)
  /-- Completer Abort: a PCIe read that was refused, or that did not complete in time (R77, R101). -/
  | abort (src : Src) (bar addr : Nat)
  /-- The target's part in an out-of-band transaction (R89-R91): the byte it refused, if it refused one, and the bytes it
  sent, in their order on the bus. -/
  | oob (nack : Option OobByte) (sent : List Byte)
  /-- A write into host memory under the requester ID of function pf: a punt, a ring record, a response, an export (R83,
  R85, R501). -/
  | hostWrite (pf : Nat) (addr : BitVec 64) (bytes : List Byte)
  /-- A read of host memory under the requester ID of function pf: a descriptor, a frame, a command, an image (R84, R85,
  R137, R562). -/
  | hostRead (pf : Nat) (addr : BitVec 64) (n : Nat)
  /-- A frame begins to leave port p (R445). -/
  | tx (p : Nat) (bytes : List Byte) (stomped : Bool)
  /-- A MAC control frame of port p: opcode, enable vector, quanta (R211, R213). -/
  | macControl (p : Nat) (opcode : Nat) (vec : Nat) (quanta : Nat)
  /-- Port p sends an ordered set, or stops sending it. -/
  | ordered (p : Nat) (k : OrdSet)
  /-- Port p starts Clause 73 auto-negotiation: the technology it advertises (lanes and their rate code), its FEC abilities
  (R163). -/
  | autoneg (p lanes rate : Nat) (fec : List Nat)
  /-- Lane l's generator sends a pattern with its USER word, or stops (R188, R193). -/
  | pattern (l : Nat) (pat : Option (Nat × Nat))
  /-- The G_SYNC word of a frame (R59). -/
  | gsync (w : BitVec 128)
  /-- An output pin changes (chapter 19). -/
  | pin (name : String) (level : Bool)
  /-- A flash operation starts (R138, R139): the command, the address, the page written. -/
  | flash (cmd addr : Nat) (page : List Byte)
  /-- A bus message to a regulator (R581). -/
  | avs (rail mv : Nat)
  /-- A word or a page goes to or is asked of a GDDR device (chapter 12). -/
  | gddr (h dev : Nat) (write : Bool) (buf : Nat)
  /-- A sweep fills a slot of the host ring: its address, PARTS, SLICES, and the snapshot whose view it lays out there from offset
  0, the header last (R526, R527), under the requester ID of function pf. -/
  | sweep (pf : Nat) (slot : BitVec 64) (parts slices : Nat) (v : Snap)
  /-- A lane's transmitter goes into electrical idle (R618, R648), or leaves it: all lanes of the device. -/
  | silence (on : Bool)
  deriving DecidableEq, Repr

/-- A fault report on its way to the collector (R611): the source, its detail, whether it is consequential (R609, R623), and
whether a reset shadow masks it (R622). -/
structure Report where
  src : Nat
  detail : Nat
  conseq : Bool
  masked : Bool
  deriving DecidableEq, Repr

/-! ### The Graticule (chapter 02) -/

/-- The states of the Graticule (R43, GRT_STATE's codes are the order). -/
inductive GrtState where
  | aligned | trimming | ahead | behind | holdover | free | openS
  deriving DecidableEq, Repr

/-- GRT_STATE.STATE's code (R68). -/
def GrtState.code : GrtState → Nat
  | .aligned => 0
  | .trimming => 1
  | .ahead => 2
  | .behind => 3
  | .holdover => 4
  | .free => 5
  | .openS => 6

/-- The Graticule and the PTP clock. Times are in fine units of 1/1,024,000,000,000 ns in the clock's present
time scale, in which every step of TIME_FREQ is whole (log entry 5). -/
structure Grid where
  /-- EPOCH (R35). -/
  epoch : BitVec 64 := 0
  /-- EPOCH before the last jump, and the EPOCH it set (R41, R68). -/
  epochBefore : BitVec 64 := 0
  epochSet : BitVec 64 := 0
  /-- PTP time at the last tick, in fine units. -/
  base : Int := 0
  /-- Where TIME_FREQ changed within the epoch in progress: PTP time and core-reference time from the last tick to the last
  change, in fine units (R72). -/
  freqAt : Int := 0
  coreAt : Int := 0
  /-- PTP time at the last frame start, in fine units (R60, R64). -/
  frameBase : Int := 0
  /-- PTP time at the last tick as GRT mailbox index 3 shows it. -/
  ptpAtTick : BitVec 128 := 0
  /-- PHASE_ERR in ns, not yet saturated (R39). -/
  phaseErr : Int := 0
  /-- GRT_STATE (R43). -/
  state : GrtState := .trimming
  /-- GSYNC frames missed in a row, and valid ones since (R66). -/
  missed : Nat := 0
  good : Nat := 0
  /-- At a leader: the word that came back since the last frame tick was valid (R60, R67). -/
  wordBack : Bool := false
  /-- JUMP_REQ was asked for and not yet taken, with the time it became due (R41). -/
  jumpAsked : Bool := false
  jumpFrom : Option Int := none
  /-- The last GSYNC word received (R68). -/
  gsyncWord : BitVec 128 := 0
  /-- The last values written to TIME's mailbox and the last 1PPS capture (R70). -/
  stepWritten : BitVec 128 := 0
  offsetWritten : BitVec 64 := 0
  ppsIn : BitVec 128 := 0
  /-- Units whose copy of EPOCH differs, with the copy (R47). -/
  copies : List (Nat × BitVec 64) := []
  deriving DecidableEq, Repr

/-! ### Banks (chapter 04, R143-R151) -/

/-- The states of a bank (R144, BOOT_BANK_STATE's codes are the order). -/
inductive BankState where
  | free | sealed | armed | active | draining
  deriving DecidableEq, Repr

/-- BOOT_BANK_STATE's code of a bank (R153). -/
def BankState.code : BankState → Nat
  | .free => 0
  | .sealed => 1
  | .armed => 2
  | .active => 3
  | .draining => 4

/-- The two banks. -/
structure Banks where
  /-- The states of bank A and bank B. -/
  a : BankState := .free
  b : BankState := .free
  /-- The sequence numbers the banks were sealed with. -/
  seqA : BitVec 16 := 0
  seqB : BitVec 16 := 0
  /-- Which bank new packets are given: false A, true B. -/
  activeB : Bool := false
  /-- REJECT (R145, R153). -/
  reject : Nat := 0
  /-- The target of the last armed swap (R153), and the tick's EPOCH that each bank's swap waits for (R145). -/
  target : BitVec 64 := 0
  targetA : BitVec 64 := 0
  targetB : BitVec 64 := 0
  /-- The bank armed last: false A, true B. -/
  lastArm : Bool := false
  /-- Swaps made, and packets removed at the end of DRAIN_LIMIT (R151, R153). -/
  swaps : Word := 0
  expired : Word := 0
  /-- Frame ticks since the swap (R151). -/
  drainFrames : Nat := 0
  /-- The drain end was found at a tick after the swap (R145). -/
  drainReady : Bool := false
  /-- EPOCH of the last swap (R153). -/
  lastSwap : BitVec 64 := 0
  deriving DecidableEq, Repr

/-! ### Lanes and ports (chapters 05 and 06) -/

/-- Bring-up facts of a lane that no register shows (R158-R168, R181). -/
structure LaneHid where
  /-- Signal seen; termination sensed. -/
  sig : Bool := false
  term : Bool := false
  ready : Bool := false
  partnerReady : Bool := false
  anDone : Bool := false
  anFec : Option Nat := none
  lostIn : Nat := 0
  lostLane : Nat := 0
  txAck : Bool := false
  ackSent : Bool := false
  rxAck0 : Bool := false
  /-- The port has reached lock since its octet mode was set (R204). -/
  lockedOnce : Bool := false
  fomHist : List Nat := []
  /-- The freeze time up to the present freeze, in ticks, and the tick at which that one began (R180). -/
  freezeTicks : Nat := 0
  frozenAt : Nat := 0
  /-- The last eye scan: the tick at which it began, its DWELL_LOG2, the first free value its points read as until the scan is
  done (R185, R187). -/
  scanAt : Nat := 0
  scanDwell : Nat := 0
  scanSeed : Nat := 0
  /-- What the generator sends: a pattern code with the USER word (R188). -/
  gen : Option (Nat × Nat) := none
  deriving DecidableEq, Repr

/-! ### Frames and packets (chapters 06-08, 12, 14) -/

/-- Tests put off until a long frame's last byte (R237): the datagram ends that must not pass the frame end, the
outermost datagram's end for the TRAILING test, and the TRAIL_MAX of the packet's bank. -/
structure Deferred where
  ends : List Nat
  outerEnd : Option Nat
  trailMax : Nat
  slice : Nat
  deriving DecidableEq, Repr

/-- A received or built frame, as long as some copy refers to it. -/
structure Frame where
  inPort : Nat
  /-- The bytes so far, FCS included. -/
  bytes : List Byte
  complete : Bool
  /-- The ingress check failed: FCS, PCS error block, length (R18, R198). -/
  bad : Bool := false
  /-- Receive timestamp in 0.25 ns of PTP time (R216). -/
  rxTs : Nat := 0
  /-- While it arrives: the length it comes to (R232). -/
  total : Nat := 0
  /-- While it arrives, kept from the pipeline (`bad`): why its port cannot take it (R205, R206, R34), if that is the cause. -/
  doom : Option Nat := none
  defer : Option Deferred := none
  /-- Built from a frame whose late tests were still to come (R237): that frame. -/
  origin : Option Nat := none
  /-- A frame the deparser builds from one still arriving (R274, R278): that frame, the emitted headers, the byte its
  payload begins at, the bytes written over the result (offset, bytes). -/
  built : Option (Nat × List Byte × Nat × List (Nat × List Byte)) := none
  deriving DecidableEq, Repr

/-- A packet: what the slice carries along with a frame (R256, R400). -/
structure Pkt where
  fid : Nat
  inPort : Nat
  /-- Stamped with a bank and counted in flight (R150). -/
  stamped : Bool := false
  /-- Bank stamp (false A) and ingress epoch (R48, R149). -/
  bankB : Bool := false
  epoch : BitVec 64 := 0
  second : Bool := false
  /-- R530's HANDLE and the time of the first parser entry, in 0.25 ns. -/
  handle : Nat := 0
  entered : Nat := 0
  /-- Containers 0-223 and descriptor fields 224-239, by selector (R231, R254, R256). -/
  vec : SMap Word := []
  /-- Header instances recorded: instance, offset, length (R230). -/
  hdrs : List (Nat × Nat × Nat) := []
  drop : Bool := false
  trap : Bool := false
  mirror : Bool := false
  recirc : Bool := false
  egsel : Nat := 0
  ts : Nat := 0
  /-- HITS of the Cartouche (R477): words with HIT, the first, the last. -/
  hits : Nat := 0
  hitFirst : Nat := 0
  hitLast : Nat := 0
  replayed : Bool := false
  /-- Parity errors met so far (R290), and the parser's cycles in this pass (R224). -/
  parErrs : Nat := 0
  parseCyc : Nat := 20
  /-- ASE cursor and RESUME lookups made in this pipeline (R352, R353). -/
  cursor : Option (Nat × Nat) := none
  resumes : Nat := 0
  /-- KEY_EN of the last word of the stage before (R265). -/
  keyKbd : Option Nat := none
  /-- IG_PROGRAM at the end of ingress (R478). -/
  acct : Nat := 0
  /-- Energy class at parser entry (R478, R600), and the energy events of the pipeline under way, by coefficient. -/
  eclass : Nat := 0
  acts : SMap Nat := []
  deriving DecidableEq, Repr

/-- A copy of a packet on its way to, or in, a queue. -/
structure Copy where
  cid : Nat := 0
  pkt : Pkt
  port : Nat
  q : Nat
  /-- The copy skips the egress stages and leaves as its frame was received (R243, R274). -/
  raw : Bool := false
  mirror : Bool := false
  replica : Bool := false
  /-- Bytes kept of the frame, 0 for all (R277). -/
  trunc : Nat := 0
  /-- The slice it leaves, and its packet's place in the order in which packets ended their pass there (R14, R20). -/
  leaves : Nat := 0
  ord : Nat := 0
  /-- Admitted before its last byte (R408). -/
  early : Bool := false
  /-- The account its cells were drawn from: 0 reserve, 1 shared, 2 headroom (R408). -/
  acct : Nat := 0
  /-- Its priority at the ingress port (R412). -/
  prio : Nat := 0
  /-- Marked for removal in a spilled middle: no longer in flight (R150, R430). -/
  marked : Bool := false
  /-- Cells charged, and how many of them are record cells. -/
  cells : Nat := 0
  recCells : Nat := 0
  admitT : Nat := 0
  enqDepth : Nat := 0
  spilled : Bool := false
  demoted : Bool := false
  /-- Matched a reservation (R470). -/
  reserved : Bool := false
  /-- Due tick of a q7 packet, as a PTP time in 1/64 ns (R466). -/
  due : Nat := 0
  /-- Occupancy of the half at admission (R492). -/
  occupancy : Nat := 0
  /-- The first of its cells known to have failed its code or to lie in a lost page (R435, R438). -/
  badAt : Option Nat := none
  /-- A page it continues into was lost: it drops when the head reaches it (R435). -/
  lost : Bool := false
  /-- The copy goes to a punt ring with a trap code, and has no queue (R82, R274, R277). -/
  punt : Option (Nat × Nat) := none
  /-- The frame left the device through the punt path or began to leave, cut through (R477 FLAGS). -/
  cut : Bool := false
  deriving DecidableEq, Repr

/-- Cells of one copy lying together in a queue: `n` cells from its cell `off` on. -/
structure Run where
  cid : Nat
  off : Nat
  n : Nat
  deriving DecidableEq, Repr

/-- A page of a spilled queue's middle (R418): its BPM pointer's byte offset, its sequence number, its cells, the cells
marked BAD, the descriptors in its unit 0, whether its read-up is under way, or has arrived before an older one. -/
structure Page where
  ptr : Nat
  seq : Nat
  runs : List Run
  bad : List Nat
  desc : List Word := []
  reading : Bool := false
  arrived : Bool := false
  deriving DecidableEq, Repr

/-- A write-down (R422): the page, the cells copied into it, and their descriptors (R418); whether the device has accepted it, so that
it waits for older ones of its queue, or has failed it while younger ones follow, so that it waits for another page (R434). -/
structure WriteDown where
  ptr : Nat
  seq : Nat
  runs : List Run
  bad : List Nat
  desc : List Word := []
  done : Bool := false
  again : Bool := false
  deriving DecidableEq, Repr

/-- One egress queue (chapters 12 and 13). -/
structure Queue where
  /-- Copies waiting, oldest first. -/
  pkts : List Copy := []
  /-- The cells: head, middle, tail (a queue not in spill has all in its head), and the write-downs of the tail's first cells,
  oldest first (R422). -/
  head : List Run := []
  mid : List Page := []
  tail : List Run := []
  down : List WriteDown := []
  spill : Bool := false
  pageSeq : Nat := 0
  pageWait : Bool := false
  /-- Cells drawn from the class reserve, the shared part, headroom (R404). -/
  rsv : Nat := 0
  shr : Nat := 0
  hdr : Nat := 0
  /-- DWRR deficit (R448). -/
  deficit : Nat := 0
  /-- Shaper: settings in force, credit in 1/32,000 byte, the time it was last brought up to date in 0.25 ns, the
  wheel slot (time in 16 ns units) while waiting, and whether that entry is on the coarse wheel (R450-R453). -/
  shOn : Bool := false
  shRate : Nat := 0
  shBurst : Nat := 0
  credit : Int := 0
  creditT : Nat := 0
  wheel : Option Nat := none
  coarse : Bool := false
  /-- Marks of R430: packets of a bank, or stamped before an epoch, go at read-up. -/
  markBank : Option Bool := none
  markEpoch : Option (BitVec 64) := none
  /-- Sojourn and depth (R456, R457): maximum of the frame, moving average, last and largest depth. -/
  sojMax : Nat := 0
  sojEwma : Nat := 0
  depthLast : Nat := 0
  depthMax : Nat := 0
  deriving DecidableEq, Repr

/-- A frame in transmission: the copy; whether it leaves as received; else the headers the deparser emitted, the byte of
the received frame its payload begins at, the bytes the deparser writes over the result and those the MAC writes
(offset, bytes); when its transmission began, its transmit timestamp, its SOJOURN in ns, whether it missed its deadline,
whether IOAM data was written, the fields of its DEX record. -/
structure Tx where
  copy : Copy
  asIs : Bool
  hdr : List Byte
  off : Nat
  edits : List (Nat × List Byte)
  mac : List (Nat × List Byte)
  start : Nat
  ts : Nat
  sojourn : Nat
  miss : Bool
  ioam : Bool
  dex : Option (List Byte)
  deriving DecidableEq, Repr

/-- What a port keeps besides its registers (chapters 06 and 13). -/
structure PortHid where
  tx : Option Tx := none
  /-- Round-robin places of the DWRR and scavenger sets (R448). -/
  drr : Nat := 0
  drrFresh : Bool := true
  rr : Nat := 0
  /-- Priorities paused by the partner: priority, when the paused interval began and when it ends, in 0.25 ns (R212);
  priorities whose pause the watchdog ignores (R215). -/
  pausedUntil : List (Nat × Nat × Nat) := []
  /-- Paused time of each priority below a whole microsecond, in 0.25 ns (R212). -/
  pausedRem : SMap Nat := []
  wdLifted : List Nat := []
  /-- Priorities whose count reached XOFF and has not come down to XON since (R413). -/
  xoffSent : List Nat := []
  /-- MAC control frames to send before any queued frame (R213). -/
  ctlFrames : List (List Byte) := []
  /-- Frames in near-end loopback, sent and not yet received again, each with whether it was stomped (R219 LOOP). -/
  looped : List (List Byte × Bool) := []
  /-- Transmit timestamp FIFO: seconds, nanoseconds, tag (R217). -/
  tsFifo : List (Nat × Nat × Nat) := []
  /-- The promise (R466-R468): calendar time in 1/64 ns, calendar credit of a catch-up epoch. -/
  v : Nat := 0
  credit : Option Int := none
  /-- What the catch-up epoch's credit was made of: its must-work, CATCHUP, and the share granted (R468). -/
  grant : Nat × Nat × Nat := (0, 0, 0)
  /-- Wire bytes of q0-q6 counted against this epoch's paced share (R595). -/
  beUsed : Nat := 0
  /-- Discards of a slice in reset, added when it returns (R210). -/
  heldDiscard : Nat := 0
  deriving DecidableEq, Repr

/-- One learn event (R329). -/
structure Learn where
  table : Nat
  key : BitVec 512
  port : Nat
  epoch : BitVec 64
  slice : Nat
  deriving DecidableEq, Repr

/-- An entry of a slice's associative search engine (R346). -/
structure AseEntry where
  v : BitVec 320 := 0
  m : BitVec 320 := 0
  pri : Nat := 0
  res : Word := 0
  valid : Bool := false
  deriving DecidableEq, Repr

/-- What a slice keeps besides its registers. -/
structure SliceHid where
  /-- Staging buffer: frames waiting for the parser, oldest first (R223), and the packet whose ingress ended and waits
  for admission, oldest first (R13). -/
  staging : List Pkt := []
  toAdmit : List Copy := []
  /-- Arrivals parsed while a recirculated packet waited (R16). -/
  passedBy : Nat := 0
  /-- Recirculation queue (R280): copies with the pass they are in. -/
  recirc : List Copy := []
  handle : Nat := 0
  /-- Learn events awaiting transfer, and the keys already sent this epoch (R330). -/
  learn : List Learn := []
  learnKeys : List (Nat × BitVec 512) := []
  /-- Precise sampling: words until the next sample, samples taken and not yet recorded, the samples (R529-R531). -/
  smpLeft : Option Nat := none
  smpDue : List (BitVec 128) := []
  samples : List (BitVec 128) := []
  /-- Cartouches until the next postcard (R497), DEX tokens (R494). -/
  cardLeft : Option Nat := none
  dexTokens : Nat := 0x10
  /-- The slice is in warm reset (R615, R616); the frame ticks at which its resets began, by number, and that the next one
  fences it (R617). -/
  inReset : Bool := false
  resetAt : List Nat := []
  fenceNext : Bool := false
  /-- ASE: the update under way (bank, row, entry), rows scrubbed so far (R359, R364). -/
  aseUpd : Option (Nat × Nat × AseEntry) := none
  scrubDone : Nat := 0
  deriving DecidableEq, Repr

/-- A policer's buckets (R454): committed and excess or peak tokens in 1/8,000 byte, and the last time in ns. -/
structure Policer where
  tc : Nat := 0
  te : Nat := 0
  last : Nat := 0
  deriving DecidableEq, Repr

/-- A reservation (R458, R463): ports, rate in Mb/s, burst in bytes, meter in 1/8,000 byte, the tick it acts from. -/
structure Resv where
  ingress : Nat
  egress : Nat
  rho : Nat
  sigma : Nat
  tokens : Nat
  acts : Bool
  deriving DecidableEq, Repr

/-- A frame on its way to a punt ring (R82, R388): ring, trap code, the bytes, ingress port, timestamp, reason. -/
structure Punt where
  ring : Nat
  code : Nat
  copy : Copy
  bytes : List Byte
  buf : Nat
  deriving DecidableEq, Repr

/-- A version log record (R310). -/
structure VerRec where
  half : Nat
  ovf : Bool
  loc : Nat
  prev : BitVec 512
  target : BitVec 64
  held : Nat
  /-- Slot writes it counts as (R308). -/
  w : Nat
  deriving DecidableEq, Repr

/-- An entry of a half's flow cache (R485). -/
structure Flow where
  key : BitVec 128
  ptype : Nat
  repl : Bool
  inPort : Nat
  egPort : Option Nat
  idle : Nat
  active : Nat
  firstTs : Nat
  lastTs : Nat
  demoted : Nat
  octets : Nat
  copies : Nat
  sojourn : Nat
  dropped : Nat
  reason : Nat
  deriving DecidableEq, Repr

/-- A closed message of an export ring (R499, R502): a Template Set; records, each with its kind, its bytes and the BPM buffer it waits
in; a page copied from an archive ring. -/
inductive RingMsg where
  | templates
  | records (l : List (Nat × List Byte × Nat))
  | page (b : List Byte)
  deriving DecidableEq, Repr

/-- A telemetry export ring (R499-R503). -/
structure Ring where
  /-- Records of the open message: kind, bytes, the BPM buffer each waits in. -/
  staged : List (Nat × List Byte × Nat) := []
  /-- Closed messages, oldest first. -/
  msgs : List RingMsg := []
  /-- Data records sent earlier (R499), bytes sent in this tick, bytes of the oldest closed message that earlier ticks sent (R503),
  frame ticks to the next Template Set. -/
  seqNo : Nat := 0
  spent : Nat := 0
  part : Nat := 0
  templateIn : Nat := 0
  templateDue : Bool := false
  /-- Archive: the buffers taken, the pages written in the order of their sequence numbers (number, buffer, bytes), the
  next page's number (R502). -/
  bufs : List Nat := []
  pages : List (Nat × Nat × List Byte) := []
  nextPage : Nat := 0
  deriving DecidableEq, Repr

/-! ### The Gazetteer (chapter 09) -/

/-- What becomes of a location's hit bits and age when it is written: they stay, start anew, stay with an age of 0 (a static entry,
R336), or come along from the location a moved entry left (log entry 30). -/
inductive GzMeta where
  | keep | fresh | ageless
  | from (ovf : Bool) (loc : Nat)
  deriving DecidableEq, Repr

/-- One write of an update batch (R308): a slot (bucket * 4 + slot) or overflow entry with its weight in slot writes; and what
takes effect with the batch and writes no slot: a migration's switch of its table (R323), a move that counts (R319), a
migration's cursor (R325), the end of a bad place that the batch erases (R328). -/
inductive GzWr where
  | ent (ovf : Bool) (loc : Nat) (v : BitVec 512) (w : Nat) (side : GzMeta)
  | switch (t : Nat)
  | moved (t : Nat)
  | cursor (t n : Nat)
  | heal (ovf : Bool) (i : Nat)
  deriving DecidableEq, Repr

/-- Writes that go into one batch together; `later` says that the batch must follow that of the step before (R319). -/
structure GzStep where
  writes : List GzWr
  later : Bool
  deriving DecidableEq, Repr

/-- What a Tansy engine holds of Gazetteer work: steps not yet armed, how many were ever queued and armed, the armed
batches with their targets, the epoch of the last arm (R308), learn events that arrived (R331). -/
structure GzEng where
  steps : List GzStep := []
  queued : Nat := 0
  armed : Nat := 0
  batches : List (BitVec 64 × List GzWr) := []
  lastArm : Option (BitVec 64) := none
  lastTarget : BitVec 64 := 0
  learn : List Learn := []
  deriving DecidableEq, Repr

/-- A command of a port (0, 1 the halves' GZ_CMD, 2 the host command ring), from its issue to its completion (R315):
the half it is issued through, its place in the order of arrival (R339), the command word, the image, the cursor, and once its
outcome is known the RESULT, the location (or count) and the engine and step after which it is complete. -/
structure GzCmd where
  half : Nat
  seq : Nat := 0
  word : Word
  image : BitVec 512
  cursor : Word
  planned : Bool := false
  result : Nat := 0
  loc : Option (Bool × Nat × Nat) := none
  wait : Option (Nat × Nat) := none
  target : Option (BitVec 64) := none
  deriving DecidableEq, Repr

/-- A settle window (R332): ticks left, candidate port. -/
structure GzWin where
  table : Nat
  key : BitVec 512
  cand : Nat
  left : Nat
  deriving DecidableEq, Repr

/-- The replicas and what belongs to them: slots by half * 2^22 + bucket * 4 + slot, overflow entries by
half * 2^14 + index, hit bits and ages by location, version records (oldest first), bad buckets under restore; the
engines' work; the ports' commands and the target epochs their earlier commands wait for; settle windows, moves of the
frame by engine, table and key, flap holds with their frames left; age counters and age steps due by table; writes of
GZ_TBL registers waiting for their tick (table, offset, value, target). -/
structure Gaz where
  slots : SMap (BitVec 128) := []
  ovf : SMap (BitVec 512) := []
  hits : SMap Bool := []
  ages : SMap Nat := []
  log : List VerRec := []
  badBuckets : List (Nat × Nat) := []
  badOvf : List (Nat × Nat) := []
  eng : SMap GzEng := []
  cmds : SMap (Option GzCmd) := []
  portTarget : SMap (BitVec 64) := []
  windows : List GzWin := []
  moves : List (Nat × Nat × BitVec 512 × Nat) := []
  holds : List (Nat × BitVec 512 × Nat) := []
  ageCnt : SMap Nat := []
  ageDue : SMap Nat := []
  tblWrites : List (Nat × Nat × Word × BitVec 64) := []
  /-- Commands that have arrived, of all ports (R339). -/
  arrivals : Nat := 0
  /-- Migrations whose copies are queued, and the partition (base, rows) a table leaves, which the journal keeps (R323, R325). -/
  moved : List Nat := []
  oldPart : SMap (Nat × Nat) := []
  deriving DecidableEq, Repr

/-! ### The buffer pool manager (chapter 11) -/

/-- Tags by pool * 2^22 + index (an unlisted buffer is FREE with owner 0xE), the pools' cursors, the pools whose free
count lies below LOW_MARK (R383, R387, R396). -/
structure BpmHid where
  tags : SMap (BitVec 8) := []
  cursor : SMap Nat := []
  low : List Nat := []
  deriving DecidableEq, Repr

/-! ### Telemetry (chapter 14) -/

/-- Flow caches by half * 2^18 + set * 4 + way, sketches by half * 2^16 + row * 2^14 + index, the halves'
heavy-hitter lists (the first 256 flows of each are its entries; those after them found it full, R489), drop-record tokens by half * 64 + reason, the rings. -/
structure TelHid where
  flows : SMap (Option Flow) := []
  sketch : SMap Word := []
  hh : List (Nat × BitVec 128 × Nat) := []
  drTokens : SMap Nat := []
  rings : SMap Ring := []
  depthHist : SMap Word := []
  sojHist : SMap Word := []
  /-- A copy of archive pages is under way (R502). -/
  archBusy : Bool := false
  deriving DecidableEq, Repr

/-! ### Sampling (chapter 15) -/

/-- Snapshots and sampling: the capture not yet complete, the bank shown, PMU_SYNC's actions waiting for the tick (bit 0
START, 1 STOP, 2 CLEAR), the snapshot that a sweep under way copies and whether the last one was abandoned, the Tansy engines' samples, and
every counter as it stood when the reset of each slice in warm reset began (R520). -/
structure PmuHid where
  taken : Option Snap := none
  shown : Snap := {}
  sync : Nat := 0
  sweeping : Option Snap := none
  sweptLate : Bool := false
  tansy : SMap (List (BitVec 128)) := []
  frozen : SMap Snap := []
  deriving DecidableEq, Repr

/-! ### Tansy and the Warden (chapter 16) -/

/-- A host event waiting for the response ring (R564, R565). -/
structure HostEv where
  kind : Nat
  engine : Nat
  seq : Nat
  data : BitVec 512
  deriving DecidableEq, Repr

/-- The host ring's command under way (R559-R561): the entry's fields, and its response once known (RESULT, location
word, target, image). -/
structure RingCmd where
  op : Nat
  tag : Nat
  half : Nat
  word : Word
  cursor : Word
  image : BitVec 512
  started : Bool := false
  answer : Option (Nat × Word × Word × BitVec 512) := none
  deriving DecidableEq, Repr

/-- An effect that a Tansy routine holds back until COMMIT and then writes into the redo record (R550, R551): a store of
words through a port, a buffer freed, a host event with the EVENT_SEQ it took, a signal to the peer, the Gazetteer batch
armed, a response. -/
inductive TEff where
  | store (port addr : Nat) (data : List Word)
  | free (ptr : Nat)
  | event (kind : Nat) (data : BitVec 512) (seq : Option Nat)
  | signal
  | arm
  | respond (a : Nat × Word × Word × BitVec 512)
  deriving DecidableEq, Repr

/-- A Tansy engine besides its registers: the restart routine runs (after the reload), the restart is a patch swap's,
runs of heartbeats missed as the peer and as the Warden count them, frame ticks left of the restart window, the private
scratch RAM and the retained journal RAM by 32-bit word, the redo record where it is not done (R551), and whether it is out of
RUNNING because of a failure. -/
structure Engine where
  routine : Bool := false
  swap : Bool := false
  missRun : Nat := 0
  stillRun : Nat := 0
  window : Option Nat := none
  scratch : SMap Word := []
  journal : SMap Word := []
  redo : List TEff := []
  failed : Bool := false
  /-- Words the engine's must and optional routines ran since the last tick (R556). -/
  usedMust : Nat := 0
  usedOpt : Nat := 0
  deriving DecidableEq, Repr

/-- The engines, the Warden and the host rings; words of late work each engine had outstanding at the last tick; PEER_SIGNALs queued for each engine (R576), the engine whose swap an APPLY
still owes (R141, R574). -/
structure Hk where
  eng : SMap Engine := []
  late : Nat × Nat := (0, 0)
  signals : SMap Nat := []
  /-- An SCH_CMD that its engine has not yet carried out: OP and the record staged at GO (R459, R572). -/
  sch : Option (Nat × BitVec 128) := none
  applySwap : Option Nat := none
  /-- The 16-word mailboxes, by receiving engine * 16 + word (R543). -/
  peer : SMap Word := []
  cur : Option RingCmd := none
  events : List HostEv := []
  evSeq : Nat := 0
  /-- The Warden has failed; the collector has reset it once (R629). -/
  wardenFailed : Bool := false
  wardenReset : Bool := false
  deriving DecidableEq, Repr

/-! ### Contour (chapter 17) -/

/-- An action of the power cap (R591): one point deeper (from the ladder position `old`), an ASE level, an SPL_BW step, a GDDR7
rate step, the links (with the lanes it powered off). -/
inductive CapStep where
  | point (old : Nat) | ase | splBw | memRate
  | links (off : List Nat)
  deriving DecidableEq, Repr

/-- Contour besides its registers. Powers are in mW. -/
structure Pwr where
  /-- The cap's position on the compute ladder (R591), and the point actions among those below. -/
  cap : Nat := 0
  /-- Cap actions taken, newest first, each with the power of the frame before it and the saving it showed. -/
  acts : List (CapStep × Nat × Option Nat) := []
  /-- R592 step 1: 0 no action is in progress; else its effect is not complete (1), complete since some time in this frame
  (2), or complete since the frame's beginning (3). -/
  stage : Nat := 0
  calm : Nat := 0
  /-- The thermal limiter's point, its quiet frames, a reading above the quiet limit in this frame, a trip in force
  (R588). -/
  therm : Nat := 0
  thermQuiet : Nat := 0
  thermHot : Bool := false
  trip : Bool := false
  /-- The current limiter's point, a move it waits to make, its quiet frames, a reading above the quiet limit in this frame,
  its fixed-mode ASE action (R585, R587). -/
  cur : Nat := 0
  curMove : Bool := false
  curQuiet : Nat := 0
  curHot : Bool := false
  curAse : Bool := false
  boost : Bool := false
  /-- The peer limiter's point; the ticks for which the own target has allowed a lower depth, and the deepest depth it
  called for in them (R598). -/
  peer : Nat := 0
  paceQuiet : Nat := 0
  paceMax : Nat := 0
  /-- A shallower step is decided and its voltages written (R580); both regulators have reported them. -/
  rising : Bool := false
  settled : Bool := false
  /-- No AVSBus transaction has succeeded since one failed (R582). -/
  avsBad : Bool := false
  /-- Sum and number of the AVSBus power readings of the frame; the powers of the last frames, newest first. -/
  accP : Nat := 0
  accN : Nat := 0
  frames : List Nat := []
  /-- Frame ticks since the last control step, and that STEP_STALE was raised for them (R589). -/
  stale : Nat := 0
  staleRaised : Bool := false
  /-- The length of the frame just ended in ns, and its energy events (R601). -/
  frameNs : Nat := 0
  frameE : SMap Nat := []
  frameG : SMap Nat := []
  drooped : List Nat := []
  /-- The reasons' durations in ns by bit (R596); energies in pJ: 0-4 package, compute, memory, links, unattributed;
  groups, ports, and the ports of the last attributed frame (R601). -/
  reasonNs : SMap Nat := []
  energy : SMap Nat := []
  groupE : SMap Nat := []
  portE : SMap Nat := []
  portLast : SMap Nat := []
  /-- The data rate each GDDR7 device runs at, coded as MEM_CFG.RATE; 2 where it is not listed (R431, R591). -/
  memRate : SMap Nat := []
  deriving DecidableEq, Repr

/-! ### The fault collector (chapter 18) -/

/-- An entry of the event log (R620, R633). -/
structure FltLog where
  src : Nat
  cls : Nat
  conseq : Bool
  severe : Bool
  react : Nat
  inj : Bool
  detail : Nat
  time : Nat
  deriving DecidableEq, Repr

/-- The collector besides its registers: the source map where it differs from reset (class, MASK, PATH_FAILED), counts
and open windows by source (one more than the frame ticks left), the frame ticks so far, the log, the time of the captured
first error, the reset shadows (0 slice, 1 port, 2 engine, 3 GDDR7 device, 4 fabric lane; and which), FAULT_N's 10 us running and its hold, the hold of
DEVICE_FATAL and its reset still to come, the collector standing still, CRC failures of fabric lanes in the frame. -/
structure Flt where
  map : SMap (Option (Nat × Bool × Bool)) := []
  counts : SMap Nat := []
  wins : SMap Nat := []
  frameNo : Nat := 0
  log : List FltLog := []
  firstTime : Nat := 0
  shadows : List (Nat × Nat) := []
  pulse : Bool := false
  latched : Bool := false
  fatal : Bool := false
  fatalDue : Bool := false
  dead : Bool := false
  fabricFails : SMap Nat := []
  deriving DecidableEq, Repr

/-! ### The shared buffers and the spill tier (chapter 12) -/

/-- What the halves' buffers keep besides registers: copies waiting for replication (half, group entry read, copy),
cells held per (half, ingress port, priority) and per (half, class) reserve, holders of each frame cell, round-robin
places of write-downs and read-ups, pages of flushed queues not yet freed, retry failures of each device in the frame,
retraining devices, and the write-downs in flight by queue and page, oldest first. -/
structure BufHid where
  toRep : List (Nat × Copy) := []
  inCells : SMap Nat := []
  rsvUsed : SMap Nat := []
  frameCells : SMap Nat := []
  rrDown : SMap Nat := []
  rrUp : SMap Nat := []
  orphans : List (Nat × Nat) := []
  memFail : SMap Nat := []
  retraining : List Nat := []
  downs : List (Nat × Nat) := []
  deriving DecidableEq, Repr

/-- Pins and references the outside world drives (chapter 19). -/
structure Pins where
  refclkLost : List Nat := []
  /-- PORST_N is low; a monitored rail has collapsed (R115, R645). -/
  porst : Bool := false
  rail : Bool := false
  /-- SYSRST_N is low in a reset it started (R116); PERST_N is low (R649); CORE_REF is absent (R648). -/
  sysrst : Bool := false
  perst : Bool := false
  coreLost : Bool := false
  /-- PPS_OUT is driven high (R70, R650). -/
  ppsOut : Bool := false
  /-- STRAP_TST was sampled as 1: the factory test mode, in which the device does not boot (R640). -/
  test : Bool := false
  deriving DecidableEq, Repr

/-! ### Boot and register accesses under way (chapters 03 and 04) -/

/-- An access that waits: for its slice, which is in reset (R616), or for earlier accesses of its path (R94). -/
structure HeldAcc where
  src : Src
  write : Bool
  bar : Nat
  addr : Nat
  shape : Shape
  v : Word
  deriving DecidableEq, Repr

/-- What BOOT keeps besides its registers: the BOOT_CMD operation under way (OP, SLOT, and its RESULT once known), the flash
command under way (OP, address), and whether the boot ROM has still to choose an image. -/
structure BootHid where
  cmd : Option (Nat × Nat × Option Nat) := none
  flash : Option (Nat × Nat) := none
  waiting : Bool := true
  deriving DecidableEq, Repr

/-! ### The device -/

/-- Everything but the queue of commands, the Graticule and the banks' states. -/
structure Dev where
  /-- Every register of BAR0 that differs from its reset value, by address. -/
  regs : SMap Word := []
  /-- Wide values behind mailboxes, by mailbox block * 2^32 + index (R104). -/
  wide : SMap (BitVec 128) := []
  /-- Counters wider than a register, by their offset in BAR2's live view (R510, R521). -/
  ctr : SMap (BitVec 64) := []
  out : List Output := []
  reports : List Report := []
  /-- The model's own: how many free values were drawn (log entry 1). -/
  free : Nat := 0
  /-- Fuses: the package serial number (R667), the anti-rollback bits blown (R130), the key hash (R131), and the fused reset
  values of registers that may be written, where RegMap's are not theirs (PWR_VIDp, R603). -/
  serial : BitVec 64 := 0
  rollback : Nat := 0
  keyHash : BitVec 384 := 0
  fuses : SMap Word := []
  pins : Pins := {}
  /-- MSI-X tables of the two functions by function * 2^16 + DW index, and pending bits by function * 2^16 + vector. -/
  msix : SMap Word := []
  pba : SMap Bool := []
  lanes : SMap LaneHid := []
  eye : SMap (BitVec 16) := []
  frames : SMap (Option Frame) := []
  nextFid : Nat := 1
  nextCid : Nat := 1
  slices : SMap SliceHid := []
  queues : SMap Queue := []
  ports : SMap PortHid := []
  policers : SMap Policer := []
  resv : SMap (Option Resv) := []
  /-- Late-work classes whose LATE_LIMIT was raised in the present run (R58). -/
  lateRaised : List Nat := []
  punts : List Punt := []
  /-- The last producer index each ring accepted: 0-63 punt, 64-127 inject (R81). -/
  dmaIdx : SMap Nat := []
  ase : SMap AseEntry := []
  /-- Ternary cells that differ from what was written, by bank and row: flipped bits of value and mask (R364). -/
  aseFlips : SMap (BitVec 80 × BitVec 80) := []
  gaz : Gaz := {}
  /-- Entries bad in both copies, until rewritten (R291, R668), and those of them already reported: slice, unit (32 parser,
  33 ACT, 40 an entry that is a register, by its address, else the stage), bank, table (2 of the parser: the words of the bank
  window), entry. -/
  badEntries : List (Nat × Nat × Nat × Nat × Nat) := []
  badSeen : List (Nat × Nat × Nat × Nat × Nat) := []
  /-- R32: failures of memory rows by source * 2^24 + row, and spare rows in use by source. -/
  rowFails : SMap Nat := []
  spareRows : SMap Nat := []
  bpm : BpmHid := {}
  tel : TelHid := {}
  buf : BufHid := {}
  pmu : PmuHid := {}
  hk : Hk := {}
  pwr : Pwr := {}
  flt : Flt := {}
  boot : BootHid := {}
  /-- Mailboxes with an operation in progress, by base (R104-R106). -/
  mbxBusy : List Nat := []
  /-- The write pending in each posted-write domain: address and value (R108): lane l, 1024 + 6h + d the GDDR7 devices,
  1040 AVSBus, 1041 PTP. -/
  pw : SMap (Option (Nat × Word)) := []
  /-- Accesses that wait for a slice in reset, oldest first (R94, R616). -/
  heldAcc : List HeldAcc := []
  /-- Ticks since the last device reset: the ASE scrub's rows fall due by them (R364), and bin 0 of each queue's depth
  histogram counts them all but those with cells (R490). -/
  ticks : Nat := 0
  /-- Every lane transmitter is in electrical idle (R618, R648). -/
  silent : Bool := false
  /-- Energy events of the frame by coefficient * 1024 + port and coefficient * 64 + group; from coefficient 11 on, the
  events' ns (R600). -/
  energy : SMap Nat := []
  energyGrp : SMap Nat := []
  deriving DecidableEq, Repr

/-- The state of the block. -/
structure State where
  /-- Commands waiting, first in first out. -/
  pending : List Instr := []
  grid : Grid := {}
  banks : Banks := {}
  dev : Dev := {}
  deriving DecidableEq, Repr

/-- The outcome of a command on the block. -/
abbrev Outc := Host.Outcome State Fault Refusal

/-- The state after PORST_N: every register at its reset value, nothing in memory (R115). -/
def State.reset : State := {}

end Sys2Proof.Machine
end

