-- ==== Sys2Proof/Machine/Ops.lean ====
section
/-!
DEFINITION. The named operations every meaning is written with: registers and their fields, status events and the
interrupts they signal (R78, R79, R107), fault reports, counters, wide values, free values, byte strings and CRCs.
-/
namespace Sys2Proof.Machine

/-! ### Where an address lies (chapter 20) -/

/-- The kinds of block (R657-R662). -/
inductive BKind where
  | id | hif | wld | boot | grt | pwr | flt | hk | dma | bpm | tel | pmu | time | sch
  | gz | spl | mem | buf | hpmu
  | ln | pt | prs | stg | dep | ase | eq | smp | act | cth
  deriving DecidableEq, Repr

/-- A place in BAR0: the block, the half or slice it belongs to, and the sub-unit (lane, stage, GDDR7 device), and the
offset in the block. -/
structure Loc where
  kind : BKind
  unit : Nat
  sub : Nat
  off : Nat
  deriving DecidableEq, Repr

/-- R659-R662: the block at a BAR0 address. -/
def locate (a : Nat) : Option Loc :=
  if a < 0x01000000 then
    let o := a % 0x10000
    match a / 0x10000 with
    | 0 => some ⟨.id, 0, 0, o⟩
    | 1 => some ⟨.hif, 0, 0, o⟩
    | 2 => some ⟨.wld, 0, 0, o⟩
    | 3 => some ⟨.boot, 0, 0, o⟩
    | 4 => some ⟨.grt, 0, 0, o⟩
    | 5 => some ⟨.pwr, 0, 0, o⟩
    | 6 => some ⟨.flt, 0, 0, o⟩
    | 7 => some ⟨.hk, 0, 0, o⟩
    | 8 => some ⟨.dma, 0, 0, o⟩
    | 9 => some ⟨.bpm, 0, 0, o⟩
    | 10 => some ⟨.tel, 0, 0, o⟩
    | 11 => some ⟨.pmu, 0, 0, o⟩
    | 12 => some ⟨.time, 0, 0, o⟩
    | 13 => some ⟨.sch, 0, 0, o⟩
    | _ => none
  else if a < 0x03000000 then
    let h := a / 0x01000000 - 1
    let o := a % 0x100000
    match a % 0x01000000 / 0x100000 with
    | 0 => some ⟨.gz, h, 0, o⟩
    | 1 => if o < 0x8000 then some ⟨.spl, h, 0, o⟩
      else if o < 0xE000 then some ⟨.mem, h, (o - 0x8000) / 0x1000, o % 0x1000⟩ else none
    | 2 => some ⟨.buf, h, 0, o⟩
    | 3 => some ⟨.hpmu, h, 0, o⟩
    | _ => none
  else if 0x04000000 ≤ a ∧ a < 0x06000000 then
    let s := (a - 0x04000000) / 0x100000
    let o := a % 0x10000
    match a % 0x100000 / 0x10000 with
    | 0 => some ⟨.ln, s, o / 0x800, o % 0x800⟩
    | 1 => some ⟨.pt, s, 0, o⟩
    | 2 => some ⟨.prs, s, 0, o⟩
    | 3 => some ⟨.stg, s, o / 0x1000, o % 0x1000⟩
    | 4 => if o < 0xC000 then some ⟨.stg, s, 16 + o / 0x1000, o % 0x1000⟩ else some ⟨.dep, s, 0, o - 0xC000⟩
    | 5 => some ⟨.ase, s, 0, o⟩
    | 6 => some ⟨.eq, s, 0, o⟩
    | 7 => some ⟨.smp, s, 0, o⟩
    | 8 => some ⟨.act, s, 0, o⟩
    | 9 => some ⟨.cth, s, 0, o⟩
    | _ => none
  else none

/-- The register map of a kind of block. -/
def mapOf : BKind → List RRow
  | .id => map_id
  | .hif => map_hif
  | .wld => map_wld
  | .boot => map_boot
  | .grt => map_grt
  | .pwr => map_pwr
  | .flt => map_flt
  | .hk => map_hk
  | .dma => map_dma
  | .bpm => map_bpm
  | .tel => map_tel
  | .pmu => map_pmu
  | .time => map_time
  | .sch => map_sch
  | .gz => map_gz
  | .spl => map_spl
  | .mem => map_mem
  | .buf => map_buf
  | .hpmu => map_hpmu
  | .ln => map_ln
  | .pt => map_pt
  | .prs => map_prs
  | .stg => map_stg
  | .dep => map_dep
  | .ase => map_ase
  | .eq => map_eq
  | .smp => map_smp
  | .act => map_act
  | .cth => map_cth

/-- Split an offset inside a row into the indices of its instance; none where it is no instance. -/
def matchDims (dims : List (Nat × Nat)) (n : Nat) : Option (List Nat) :=
  match dims with
  | [] => if n = 0 then some [] else none
  | (c, st) :: r =>
    if n / st < c then (matchDims r (n % st)).map (n / st :: ·) else none

/-- The row of a map that an offset falls on, with its instance. -/
def findRow (rows : List RRow) (off : Nat) : Option (RRow × List Nat) :=
  match rows with
  | [] => none
  | r :: rs =>
    if r.off ≤ off then
      match matchDims r.dims (off - r.off) with
      | some ix => some (r, ix)
      | none => findRow rs off
    else findRow rs off

/-- The reset word of a row's instance. -/
def RRow.resetVal (r : RRow) (ix : List Nat) : Nat :=
  match r.each[ix.getLastD 0]? with
  | some v => if r.each = [] then 0 else v
  | none => r.fields.foldl (fun w f => w + f.reset * 2 ^ f.lo) 0

/-- What a register that was never written holds. -/
def resetWord (a : Nat) : Word :=
  match locate a with
  | none => 0
  | some l =>
    match findRow (mapOf l.kind) l.off with
    | none => 0
    | some (r, ix) => BitVec.ofNat 32 (r.resetVal ix)

/-! ### Registers and fields -/

/-- The whole register at an address. -/
def Dev.word (d : Dev) (a : Nat) : Word := d.regs.get (resetWord a) a

/-- Write the whole register at an address. -/
def Dev.setWord (d : Dev) (a : Nat) (v : Word) : Dev := { d with regs := d.regs.put (resetWord a) a v }

/-- The bits of a field. -/
def Fld.read (f : Fld) (w : Word) : Nat := w.toNat / 2 ^ f.lo % 2 ^ (f.hi + 1 - f.lo)

/-- A word with a field's bits replaced. -/
def Fld.write (f : Fld) (w : Word) (v : Nat) : Word :=
  BitVec.ofNat 32 (w.toNat - f.read w * 2 ^ f.lo + v % 2 ^ (f.hi + 1 - f.lo) * 2 ^ f.lo)

/-- Read a field. -/
def Dev.get (d : Dev) (f : Fld) : Nat := f.read (d.word f.addr)

/-- A one-bit field as a truth value. -/
def Dev.flag (d : Dev) (f : Fld) : Bool := decide (d.get f ≠ 0)

/-- Write a field. -/
def Dev.put (d : Dev) (f : Fld) (v : Nat) : Dev := d.setWord f.addr (f.write (d.word f.addr) v)

/-- Add to a field, wrapping at its width (R508). -/
def Dev.addTo (d : Dev) (f : Fld) (n : Nat) : Dev := d.put f (d.get f + n)

/-- Add one to a counter register. -/
def Dev.bump (d : Dev) (f : Fld) : Dev := d.addTo f 1

/-- Take from a field, stopping at 0. -/
def Dev.subFrom (d : Dev) (f : Fld) (n : Nat) : Dev := d.put f (d.get f - n)

/-! ### Outputs, free values, wide values, 64-bit counters -/

/-- Something leaves the device. -/
def Dev.emit (d : Dev) (o : Output) : Dev := { d with out := d.out ++ [o] }

/-- A fresh free value (log entry 1). -/
def Dev.fresh (d : Dev) : BitVec 64 × Dev := (Config.freeWord d.free, { d with free := d.free + 1 })

/-- The key of a wide value: the address of its mailbox's MBX_ADDR register and the index (R104). -/
def wkey (base idx : Nat) : Nat := base * 2 ^ 32 + idx

/-- The addresses of the blocks' mailboxes (R69, R86, R111, R153, R192, R219, R248, R293, R295, R340, R373, R397, R442,
R444, R473, R475, R505, R507, R535, R577, R603, R632). -/
def mbxId : Nat := 0x80
def mbxBoot : Nat := 0x30080
def mbxGrt : Nat := 0x40080
def mbxPwr : Nat := 0x50080
def mbxFlt : Nat := 0x60080
def mbxHk : Nat := 0x70080
def mbxDma : Nat := 0x82000
def mbxBpm : Nat := 0x90080
def mbxTel : Nat := 0xA0F80
def mbxPmu : Nat := 0xB0080
def mbxTime : Nat := 0xC0080
def mbxSch : Nat := 0xD0080
def mbxGz (h : Nat) : Nat := halfBase h + 0xF80
def mbxSpl (h : Nat) : Nat := halfBase h + 0x100F80
def mbxBuf (h : Nat) : Nat := halfBase h + 0x20FF80
def mbxHpmu (h : Nat) : Nat := halfBase h + 0x300F80
def mbxLn (l : Nat) : Nat := laneBase l + 0x780
def mbxPt (s : Nat) : Nat := sliceBase s + 0x10F80
def mbxPrs (s : Nat) : Nat := sliceBase s + 0x20F80
def mbxStg (s g : Nat) : Nat := stageBase s g + 0xF80
def mbxAse (s : Nat) : Nat := sliceBase s + 0x50F80
def mbxEq (s : Nat) : Nat := sliceBase s + 0x60F80
def mbxSmp (s : Nat) : Nat := sliceBase s + 0x70F80
def mbxAct (s : Nat) : Nat := sliceBase s + 0x80F80
def mbxCth (s : Nat) : Nat := sliceBase s + 0x90F80

/-- Read a wide value. -/
def Dev.wget (d : Dev) (k : Nat) : Nat := (d.wide.get 0 k).toNat

/-- Write a wide value. -/
def Dev.wput (d : Dev) (k v : Nat) : Dev := { d with wide := d.wide.put 0 k (BitVec.ofNat 128 v) }

/-- Add to a wide value. -/
def Dev.wadd (d : Dev) (k n : Nat) : Dev := d.wput k (d.wget k + n)

/-- A DATA word of a wide value. -/
def dataWord (v : Nat) (i : Nat) : Nat := v / 2 ^ (32 * i) % 2 ^ 32

/-- A bit field [hi:lo] of a number. -/
def bits (v hi lo : Nat) : Nat := v / 2 ^ lo % 2 ^ (hi + 1 - lo)

/-- One bit of a number. -/
def bit (v i : Nat) : Bool := decide (v / 2 ^ i % 2 = 1)

/-- Read a 64-bit counter, by its offset in BAR2's live view. -/
def Dev.ctrGet (d : Dev) (k : Nat) : Nat := (d.ctr.get 0 k).toNat

/-- Add to a 64-bit counter, wrapping. -/
def Dev.ctrAdd (d : Dev) (k n : Nat) : Dev :=
  { d with ctr := d.ctr.put 0 k (d.ctr.get 0 k + BitVec.ofNat 64 n) }

/-- Write a 64-bit counter. -/
def Dev.ctrPut (d : Dev) (k n : Nat) : Dev := { d with ctr := d.ctr.put 0 k (BitVec.ofNat 64 n) }

/-- The BAR2 offset of slice s's region (R521). -/
def bar2Slice (s : Nat) : Nat := 0x100000 + 0x20000 * s

/-- Port counter k of port p (R218, R522). -/
def ptCtr (p k : Nat) : Nat := bar2Slice (p / 32) + 8 * (64 * (p % 32) + k)

/-- Queue counter c of queue id n (R509, R522). -/
def qCtr (n c : Nat) : Nat := bar2Slice (n / 256) + 0x4000 + 8 * (8 * (n % 256) + c)

/-- Drop count of half h for a reason (R481, R521). -/
def dropCtr (h reason : Nat) : Nat := 0x10000 * (1 + h) + 8 * reason

/-- Counter i of PMU m (i = 8 the cycle counter; R511, R523). -/
def pmuCtr (m i : Nat) : Nat :=
  (if m = 0 then 0x9000 else if m < 3 then 0x10000 * m + 0x4000 else bar2Slice (m - 3) + 0x1F000)
    + (if i = 8 then 0 else 8 + 8 * i)

/-! ### Which lanes form a port (R194, R160) -/

/-- The ports, lanes and figures of an octet mode (R194, R203): lanes per port, lane rate code, port speed in Gb/s,
ingress and egress latency in ns (the RS-FEC figure). -/
structure ModeRow where
  lanes : Nat
  rate : Nat
  speed : Nat
  ingress : Nat
  egress : Nat
  deriving DecidableEq, Repr

/-- The table of R194 with the latencies of R203; modes 0 and 15 have no port. -/
def modeRow : Nat → ModeRow
  | 1 => ⟨8, 3, 1600, 64, 30⟩
  | 2 => ⟨4, 3, 800, 74, 32⟩
  | 3 => ⟨8, 2, 800, 78, 34⟩
  | 4 => ⟨2, 3, 400, 86, 34⟩
  | 5 => ⟨4, 2, 400, 90, 36⟩
  | 6 => ⟨8, 1, 400, 98, 40⟩
  | 7 => ⟨1, 3, 200, 104, 36⟩
  | 8 => ⟨2, 2, 200, 108, 38⟩
  | 9 => ⟨4, 1, 200, 116, 42⟩
  | 10 => ⟨1, 2, 100, 140, 40⟩
  | 11 => ⟨2, 1, 100, 148, 44⟩
  | 12 => ⟨4, 0, 100, 152, 44⟩
  | 13 => ⟨1, 1, 50, 236, 48⟩
  | 14 => ⟨1, 0, 25, 290, 56⟩
  | _ => ⟨0, 0, 0, 0, 0⟩

/-- The mode of the octet that lane l lies in. -/
def octModeOf (d : Dev) (l : Nat) : Nat := d.get (PT_OCT_MODE.MODE (l / 32) (l % 32 / 8))

/-- The mode row of the octet of lane l. -/
def laneMode (d : Dev) (l : Nat) : ModeRow := modeRow (octModeOf d l)

/-! ### Status events and interrupts (R78, R79, R107) -/

/-- R113: whether the block at a place belongs to the secure world (R96: ID and HIF to both, WLD and BOOT always). -/
def secureBlock (d : Dev) (l : Loc) : Bool :=
  let dev (b : Nat) := bit (d.word WLD_DEV.word.addr).toNat b
  let half (b : Nat) := bit (d.word WLD_HALF.word.addr).toNat (4 * l.unit + b)
  let sl (b : Nat) := bit (d.word (WLD_SLICE.word l.unit).addr).toNat b
  match l.kind with
  | .id | .hif => false
  | .wld | .boot => true
  | .grt => dev 4
  | .pwr => dev 5
  | .flt => dev 6
  | .hk => dev 7
  | .dma => dev 8
  | .bpm => dev 9
  | .tel => dev 10
  | .pmu => dev 11
  | .time => dev 12
  | .sch => dev 13
  | .gz => half 0
  | .spl | .mem => half 1
  | .buf => half 2
  | .hpmu => half 3
  | .ln => sl 0
  | .pt => sl 1
  | .prs => sl 2
  | .stg => if l.sub < 16 then sl 3 else sl 4
  | .dep => sl 4
  | .ase => sl 5
  | .eq => sl 6
  | .smp => sl 7
  | .act => sl 8
  | .cth => sl 9

/-- The vector of a block's status registers (R78); none for blocks the table does not name. FLT's and HK's vectors
depend on the register (R577, R632). -/
def vectorOf (l : Loc) : Option Nat :=
  match l.kind with
  | .hif => some 130
  | .grt => some 131
  | .boot => some 132
  | .pwr => some 135
  | .time => some 136
  | .tel => some 137
  | .pmu | .hpmu => some 138
  | .gz => some 139
  | .hk => if l.off = 4 then some 134 else some 133
  | .flt => if l.off = 0 then some 129 else if l.off = 8 then some 128 else none
  | .buf | .spl | .mem => some 140
  | .ln | .pt | .prs | .stg | .dep | .ase | .eq | .smp | .act | .cth => some (160 + l.unit)
  | _ => none

/-- Signal an MSI-X vector on a function: a masked vector (vector control bit 0 of its table entry) becomes pending in
the PBA, another sends its message. Vectors are masked after reset (PRESUMED, PCIe Base 6.0, log entry 51). -/
def Dev.signal (d : Dev) (pf vec : Nat) : Dev :=
  if bit (d.msix.get 1 (pf * 65536 + 4 * vec + 3)).toNat 0 then
    { d with pba := d.pba.put false (pf * 65536 + vec) true }
  else d.emit (.msix pf vec)

/-- Signal the vector of the block at an address on the function of its world; HIF signals both (R78). -/
def Dev.signalBlock (d : Dev) (l : Loc) (vec : Nat) : Dev :=
  if l.kind = .hif then (d.signal 0 vec).signal 1 vec
  else d.signal (if secureBlock d l then 1 else 0) vec

/-- R107: an event sets its bit and increments SEQ, and R79 signals the register's vector. -/
def Dev.event (d : Dev) (f : Fld) : Dev :=
  let d := d.put ⟨f.addr, f.lo, f.lo⟩ 1
  let d := d.bump ⟨f.addr, 31, 24⟩
  match locate f.addr with
  | some l => match vectorOf l with
    | some v => d.signalBlock l v
    | none => d
  | none => d

/-- R107: an acknowledgement whose SEQ is current clears the event bits; `mask` is the event bits of the register. -/
def Dev.ackStatus (d : Dev) (status : Nat) (mask : Nat) (v : Word) : Dev :=
  let w := d.word status
  if v.toNat / 2 ^ 24 = w.toNat / 2 ^ 24 then d.setWord status (w &&& ~~~ (BitVec.ofNat 32 mask)) else d

/-! ### Fault sources (R606) -/

/-- The source at offset o of half h's range. -/
def srcHalf (h o : Nat) : Nat := 0x100 + 0x100 * h + o

/-- The source at offset o of slice s's range. -/
def srcSlice (s o : Nat) : Nat := 0x400 + 0x60 * s + o

/-- The source of lane l. -/
def srcLane (l : Nat) : Nat := srcSlice (l / 32) (l % 32)

/-- The source of the PCS and FEC of port p's octet. -/
def srcOctet (p : Nat) : Nat := srcSlice (p / 32) (0x48 + p % 32 / 8)

/-- The source of stage g (0-15 ingress, 16-27 egress) of slice s. -/
def srcStage (s g : Nat) : Nat := srcSlice s (if g < 16 then 0x22 + g else 0x32 + (g - 16))

/-! ### Fault reports and reset shadows (R609, R611, R622) -/

/-- The source of GDDR7 device k of half h. -/
def srcMem (h k : Nat) : Nat := srcHalf h (0x58 + 8 * k)

/-- R622: the port that an event's detail names: BUF's names the queue of the failed cell. -/
def detailPort (src detail : Nat) : Option Nat :=
  if detail = 0xFFFFFFFF then none
  else if src = srcHalf 0 0x48 then some (detail % 4096 / 8)
  else if src = srcHalf 1 0x48 then some (512 + detail % 4096 / 8)
  else none

/-- R622: a shadow masks a source. -/
def shadowMasks (d : Dev) (src : Nat) (sh : Nat × Nat) : Bool :=
  let inside (lo n : Nat) : Bool := decide (lo ≤ src) && decide (src < lo + n)
  match sh.1 with
  | 0 => inside (srcSlice sh.2 0) 0x50
  | 1 => inside (srcLane sh.2) (max 1 (laneMode d sh.2).lanes) || decide (src = srcOctet sh.2)
  | 2 => decide (src = 0x0A0 + sh.2)
  | 3 => inside (srcMem (sh.2 / 6) (sh.2 % 6)) 8
  | _ => decide (src = srcHalf (sh.2 / 32) (0x90 + sh.2 % 32))

/-- R622: an event in a shadow is consequential. -/
def shadowConseq (src detail : Nat) (sh : Nat × Nat) : Bool :=
  match sh.1 with
  | 0 => decide (src = 0x022) || decide ((detailPort src detail).map (· / 32) = some sh.2)
  | 1 => decide (detailPort src detail = some sh.2)
  | 2 => decide (src = 0x020 + sh.2) || decide (src = 0x0A1 - sh.2)
  | 3 => decide (srcHalf (sh.2 / 6) 0x50 ≤ src) && decide (src < srcHalf (sh.2 / 6) 0x58)
  | _ => decide (0x400 ≤ src) && decide ((src - 0x400) / 0x60 / 16 = sh.2 / 32) && decide (0x4C ≤ (src - 0x400) % 0x60)

/-- An event as the shadows of this moment leave it. -/
def shadowed (d : Dev) (src detail : Nat) (conseq : Bool) : Report :=
  { src := src, detail := detail, conseq := conseq || d.flt.shadows.any (shadowConseq src detail)
    masked := d.flt.shadows.any (shadowMasks d src) }

/-- A unit reports a fault event to the collector (R611). -/
def Dev.report (d : Dev) (src detail : Nat) : Dev := { d with reports := d.reports ++ [shadowed d src detail false] }

/-- A unit reports a consequential fault event (R609, R622). -/
def Dev.reportConseq (d : Dev) (src detail : Nat) : Dev := { d with reports := d.reports ++ [shadowed d src detail true] }

/-! ### Rows and entries that fail (R32, R668) -/

/-- A spare row takes the place of a row that failed repeatedly; false where the memory has none left. -/
def substituteRow (d : Dev) (src row : Nat) : Bool × Dev :=
  let used := d.spareRows.get 0 src
  if used < Config.spareRows src then
    (true, { d with spareRows := d.spareRows.put 0 src (used + 1), rowFails := d.rowFails.put 0 (src * 2 ^ 24 + row) 0 })
  else (false, d)

/-- R32: a row of the memory whose faults `src` reports fails once more. A row that has failed repeatedly is substituted by
a spare; with none left it stays in use and a fault is reported (log entry 149). -/
def Dev.rowFail (d : Dev) (src row : Nat) : Dev :=
  let k := src * 2 ^ 24 + row
  let n := d.rowFails.get 0 k + 1
  let d := { d with rowFails := d.rowFails.put 0 k n }
  if n < Config.rowLimit then d else
    let (ok, d) := substituteRow d src row
    if ok then d else d.report src 0

/-- An entry is bad in both copies: the first lookup that meets it reports it by `event` (R668). -/
def Dev.noteBad (d : Dev) (k : Nat × Nat × Nat × Nat × Nat) (event : Dev → Dev) : Dev :=
  let d := if d.badEntries.contains k then d else { d with badEntries := d.badEntries ++ [k] }
  if d.badSeen.contains k then d else event { d with badSeen := d.badSeen ++ [k] }

/-- An entry is rewritten in both copies: it is bad no longer (R668). -/
def Dev.mendEntry (d : Dev) (x : Nat × Nat × Nat × Nat × Nat) : Dev :=
  { d with badEntries := d.badEntries.filter fun y => decide (y ≠ x), badSeen := d.badSeen.filter fun y => decide (y ≠ x) }

/-- The key of an entry that is a register. -/
def regEntry (a : Nat) : Nat × Nat × Nat × Nat × Nat := (0, 40, 0, 0, a)

/-! ### Host events and shadows (R564, R622) -/

/-- An engine raises a host event, which takes the next EVENT_SEQ and waits for the response ring; the device holds 64
(R564, R565). -/
def Dev.hostEvent (d : Dev) (kind engine : Nat) (data : Nat) : Dev :=
  let e : HostEv := { kind := kind, engine := engine, seq := d.hk.evSeq % 2 ^ 32, data := BitVec.ofNat 512 data }
  let d := { d with hk := { d.hk with evSeq := d.hk.evSeq + 1 } }
  if d.hk.events.length < 64 then
    let d := { d with hk := { d.hk with events := d.hk.events ++ [e] } }
    d.put HK_EVT_HELD.HELD d.hk.events.length
  else (d.event HK_RING_STATUS.EVT_LOST).bump HK_CNT_EVT_LOST

/-- A recovery action casts a shadow (R622): 0 slice, 1 port, 2 engine, 3 GDDR7 device, 4 fabric lane. -/
def Dev.shadow (d : Dev) (kind n : Nat) : Dev :=
  let d := if kind = 0 then d.setWord FLT_SHADOW.word.addr (d.word FLT_SHADOW.word.addr ||| BitVec.ofNat 32 (2 ^ n)) else d
  if d.flt.shadows.contains (kind, n) then d
  else { d with flt := { d.flt with shadows := d.flt.shadows ++ [(kind, n)] } }

/-- A Tansy engine's duties are served: by itself, or by its peer while it is DEAD (R540). -/
def Dev.serves (d : Dev) (e : Nat) : Bool :=
  decide (d.get (HK_ENGINE.STATE e) = 0)
    || (decide (d.get (HK_ENGINE.STATE e) = 4) && decide (d.get (HK_ENGINE.STATE (1 - e)) = 0))

/-! ### The parts of the state by unit -/

/-- Change the hidden record of slice s. -/
def Dev.slice (d : Dev) (s : Nat) (f : SliceHid → SliceHid) : Dev :=
  { d with slices := d.slices.put {} s (f (d.slices.get {} s)) }

/-- The hidden record of slice s. -/
def Dev.sl (d : Dev) (s : Nat) : SliceHid := d.slices.get {} s

/-- Change queue id n. -/
def Dev.queue (d : Dev) (n : Nat) (f : Queue → Queue) : Dev :=
  { d with queues := d.queues.put {} n (f (d.queues.get {} n)) }

/-- Queue id n (R10). -/
def Dev.qu (d : Dev) (n : Nat) : Queue := d.queues.get {} n

/-- Change the hidden record of port p. -/
def Dev.port (d : Dev) (p : Nat) (f : PortHid → PortHid) : Dev :=
  { d with ports := d.ports.put {} p (f (d.ports.get {} p)) }

/-- The hidden record of port p. -/
def Dev.po (d : Dev) (p : Nat) : PortHid := d.ports.get {} p

/-- The frame with number fid. -/
def Dev.frame (d : Dev) (fid : Nat) : Option Frame := d.frames.get none fid

/-- Store a frame. -/
def Dev.setFrame (d : Dev) (fid : Nat) (f : Option Frame) : Dev := { d with frames := d.frames.put none fid f }

/-- A new frame takes the next number. -/
def Dev.newFrame (d : Dev) (f : Frame) : Nat × Dev :=
  (d.nextFid, { (d.setFrame d.nextFid (some f)) with nextFid := d.nextFid + 1 })

/-- The slice is not in warm reset (R615). -/
def Dev.sliceUp (d : Dev) (s : Nat) : Bool := !(d.sl s).inReset

/-- The queue id of queue q of port p (R10). -/
def qid (p q : Nat) : Nat := 8 * p + q

/-- The half of port p. -/
def halfOf (p : Nat) : Nat := p / 512

/-! ### Byte strings -/

/-- The n low bytes of v, most significant first. -/
def beBytes (n v : Nat) : List Byte :=
  match n with
  | 0 => []
  | n + 1 => BitVec.ofNat 8 (v / 256 ^ n) :: beBytes n v

/-- The number a byte string spells, most significant byte first. -/
def beNat (b : List Byte) : Nat := b.foldl (fun a x => a * 256 + x.toNat) 0

/-- The n low bytes of v, least significant first. -/
def leBytes (n v : Nat) : List Byte := (beBytes n v).reverse

/-- Bytes off to off + n - 1 of a string, bytes beyond its end read as 0. -/
def bytesAt (b : List Byte) (off n : Nat) : List Byte :=
  let r := (b.drop off).take n
  r ++ List.replicate (n - r.length) 0

/-- Overwrite bytes of a string from an offset on; bytes beyond its end are not written. -/
def overwrite (b : List Byte) (off : Nat) (v : List Byte) : List Byte :=
  b.take off ++ (v.take (b.length - off)) ++ b.drop (off + v.length)

/-! ### CRCs -/

/-- One bit of a reflected 32-bit CRC. -/
def crcStep (poly : Word) (c : Word) : Word := if c.getLsbD 0 then (c >>> 1) ^^^ poly else c >>> 1

/-- A reflected 32-bit CRC over bytes, from a register value, not yet inverted. -/
def crcRun (poly : Word) (c : Word) (b : List Byte) : Word :=
  b.foldl (fun c x => (List.range 8).foldl (fun c _ => crcStep poly c) (c ^^^ x.zeroExtend 32)) c

/-- CRC-32C with a seed (R227): polynomial 0x1EDC6F41 reflected, the seed loaded as written, the result inverted. -/
def crc32c (seed : Word) (b : List Byte) : Word := ~~~ (crcRun 0x82F63B78 seed b)

/-- The Ethernet FCS of a frame's bytes (R199), as the four bytes that follow them. -/
def ethFcs (b : List Byte) : List Byte := leBytes 4 (~~~ (crcRun 0xEDB88320 0xFFFFFFFF b)).toNat

/-- A stomped FCS: the correct CRC with every bit inverted (R199). -/
def stompedFcs (b : List Byte) : List Byte := (ethFcs b).map (~~~ ·)

/-- The SMBus CRC-8 of a byte string (R89): polynomial 0x07, initial value 0, most significant bit first. -/
def crc8 (b : List Byte) : Byte :=
  b.foldl (fun c x => (List.range 8).foldl (fun c _ => if c.getLsbD 7 then (c <<< 1) ^^^ 7 else c <<< 1) (c ^^^ x)) 0

/-- A 16-bit CRC, most significant bit first, over a bit string of n bits (R401, R60). -/
def crc16 (poly init : BitVec 16) (n v : Nat) : BitVec 16 :=
  (List.range n).foldl (fun c i =>
    let top := c.getLsbD 15 != bit v (n - 1 - i)
    if top then (c <<< 1) ^^^ poly else c <<< 1) init

/-! ### Cells and their detection codes (R399-R401) -/

/-- R401: the detection code of a cell: polynomial 0x8BB7, initial value 0, the bits most significant first in each byte (DEDUCED,
log entry 154). -/
def cellCode (cell : List Byte) : BitVec 16 := cell.foldl (fun c x => crc16 0x8BB7 c 8 x.toNat) 0

/-- Frame cell j of a frame: 256 bytes, zeros after its last one. -/
def frameCell (b : List Byte) (j : Nat) : List Byte :=
  let c := (b.drop (256 * j)).take 256
  c ++ List.replicate (256 - c.length) 0

/-- The bits changed in a cell, as 256 bytes. -/
def flipsOf (e : CellErr) : List Byte :=
  e.bytes.foldl (fun c x => c.set x.1.val (c.getD x.1.val 0 ^^^ x.2)) (List.replicate 256 0)

/-- R438: the cell no longer matches its code. With initial value 0 the code is linear: the changed cell's code differs from the
changed stored code exactly where the code of the changed bits differs from the bits changed in the code, whatever the cell holds. -/
def codeFails (e : CellErr) : Bool := decide (cellCode (flipsOf e) ≠ e.code)

/-- A frame whose frame cell j has changed bits that its code does not find. -/
def Frame.flipCell (f : Frame) (j : Nat) (e : CellErr) : Frame :=
  { f with bytes := e.bytes.foldl (fun b x =>
      let i := 256 * j + x.1.val
      b.set i (b.getD i 0 ^^^ x.2)) f.bytes }

/-! ### Time -/

/-- Fine units of the Graticule in a quarter nanosecond (log entry 5). -/
def fineQ : Int := 256000000000

/-- PTP time in 0.25 ns, `dt` after the last tick. -/
def Grid.nowQ (g : Grid) (dt : Nat) : Nat := (g.base / fineQ + dt).toNat

/-- PTP time in ns. -/
def Grid.nowNs (g : Grid) (dt : Nat) : Nat := g.nowQ dt / 4

/-! ### Sorted lists of numbers -/

/-- Insert a number into a rising list, once. -/
def insertNat (n : Nat) (l : List Nat) : List Nat :=
  match l with
  | [] => [n]
  | m :: r => if n < m then n :: m :: r else if n = m then m :: r else m :: insertNat n r

/-- The distinct numbers of a list, rising. -/
def sortNat (l : List Nat) : List Nat := l.foldl (fun a n => insertNat n a) []

/-! ### Where commands act on the state -/

/-- The device is in power-on reset: PORST_N is low, or a monitored rail has collapsed (R115, R645). -/
def State.held (s : State) : Bool := s.dev.pins.porst || s.dev.pins.rail

/-- A command that changes nothing but the device; in power-on reset nothing acts. -/
def State.withDev (s : State) (f : Dev → Dev) : Outc := if s.held then .next s else .next { s with dev := f s.dev }

/-- A command that may change Graticule, banks and device; in power-on reset nothing acts. -/
def State.withAll (s : State) (f : Grid → Banks → Dev → Grid × Banks × Dev) : Outc :=
  if s.held then .next s else
    let r := f s.grid s.banks s.dev
    .next { s with grid := r.1, banks := r.2.1, dev := r.2.2 }

/-! ### PMU counting (R511-R516) -/

/-- Add n to counter i of PMU m, with wrap, OVF, chaining and freezing (R511, R513, R516). -/
def Dev.pmuAdd (d : Dev) (m i n : Nat) : Dev :=
  let old := d.ctrGet (pmuCtr m i)
  let new := old + n
  let d := d.ctrPut (pmuCtr m i) (new % 2 ^ 48)
  if new < 2 ^ 48 then d else
    if i % 2 = 0 ∧ d.flag (PMU_EVT.CHAIN m (i + 1)) then
      if !d.flag (PMU_EVT.EN m (i + 1)) then d else
      let old2 := d.ctrGet (pmuCtr m (i + 1))
      let d := d.ctrPut (pmuCtr m (i + 1)) ((old2 + 1) % 2 ^ 48)
      if old2 + 1 < 2 ^ 48 then d else
        let d := d.event ⟨(PMU_STATUS.word m).addr, i + 1, i + 1⟩
        if d.flag (PMU_CTL.FREEZE_OVF m) then d.put (PMU_CTL.EN m) 0 else d
    else
      let d := d.event ⟨(PMU_STATUS.word m).addr, i, i⟩
      if d.flag (PMU_CTL.FREEZE_OVF m) then d.put (PMU_CTL.EN m) 0 else d

/-- Whether counter i of PMU m counts count code `code` for port `port` (R512, R513): the modes other than THRESHOLD and
ACCUMULATE count, and a filter applies to events that name a port. -/
def pmuCounts (d : Dev) (m i code : Nat) (port : Option Nat) : Bool :=
  d.flag (PMU_CTL.EN m) && d.flag (PMU_EVT.EN m i) && decide (d.get (PMU_EVT.EVENT m i) = code)
    && (decide (d.get (PMU_EVT.MODE m i) = 0) || decide (d.get (PMU_EVT.MODE m i) = 3))
    && !(decide (i % 2 = 1) && d.flag (PMU_EVT.CHAIN m i))
    && (match port with
      | none => true
      | some p => !d.flag (PMU_EVT.FILTER_EN m i) || decide (d.get (PMU_EVT.FILTER m i) = p))

/-- n events of a count code at PMU m (R514). -/
def Dev.pmuEvent (d : Dev) (m code n : Nat) (port : Option Nat := none) : Dev :=
  if d.flag (PMU_CTL.EN m) then
    (List.range 8).foldl (fun d i => if pmuCounts d m i code port then d.pmuAdd m i n else d) d
  else d

/-- The PMU of slice s and of half h (R511). -/
def slicePmu (s : Nat) : Nat := 3 + s
def halfPmu (h : Nat) : Nat := 1 + h

end Sys2Proof.Machine
end

