-- ==== Sys2Proof/Machine/Bpm.lean ====
section
/-!
DEFINITION. The buffer pool manager (chapter 11): pools, allocation, the pointer checks of a free, reclaim. The
commands BPM_ALLOC, BPM_FREE and BPM_RECLAIM stand in Bpm's family file; these are the operations every unit shares.
-/
namespace Sys2Proof.Machine

/-- The spill tier is present (R2). -/
def spillPresent (d : Dev) : Bool := d.flag ID_CAP.SPILL_PRESENT

/-- A location exists on this grade (R375). -/
def locPresent (d : Dev) (loc : Nat) : Bool :=
  decide (loc = 0) || ((decide (loc = 1) || decide (loc = 2)) && spillPresent d)

/-- Bytes of a location (R375, R431): half h's GDDR7 is six devices of the density training found. -/
def locBytes (d : Dev) (loc : Nat) : Nat :=
  if loc = 0 then 2 * 2 ^ 20
  else 6 * (match d.get (MEM_CFG.DENSITY (loc - 1) 0) with
    | 0 => 2
    | 1 => 3
    | _ => 4) * 2 ^ 30

/-- Buffer size of pool p (R376). -/
def poolSize (d : Dev) (p : Nat) : Nat := 2 ^ (8 + d.get (BPM_POOL_CFG.SIZE_CODE p))

/-- The tag of buffer i of pool p (R387). -/
def bpmTag (d : Dev) (p i : Nat) : Nat := (d.bpm.tags.get 0x0E (p * 2 ^ 22 + i)).toNat

/-- Write a tag. -/
def Dev.setTag (d : Dev) (p i v : Nat) : Dev :=
  { d with bpm := { d.bpm with tags := d.bpm.tags.put 0x0E (p * 2 ^ 22 + i) (BitVec.ofNat 8 v) } }

/-- The pointer of buffer i of pool p (R377). -/
def bpmPtr (d : Dev) (p i : Nat) : Nat :=
  d.get (BPM_POOL_CFG.LOCATION p) * 2 ^ 38 + (d.get (BPM_POOL_BASE.BASE p) + i) * poolSize d p

/-- R396: LOW is set once per crossing below LOW_MARK. -/
def bpmLow (d : Dev) (p : Nat) : Dev :=
  let below := decide (d.get (BPM_POOL_FREE.FREE p) < d.get (BPM_POOL_MARK.LOW_MARK p))
  if below && !d.bpm.low.contains p then
    { d with bpm := { d.bpm with low := p :: d.bpm.low } }.event BPM_STATUS.LOW
  else if !below then { d with bpm := { d.bpm with low := d.bpm.low.filter (· ≠ p) } }
  else d

/-- R383: the first FREE buffer at or after i, wrapping at count. -/
def firstFree (d : Dev) (p count fuel i : Nat) : Option Nat :=
  match fuel with
  | 0 => none
  | fuel + 1 =>
    if bpmTag d p (i % count) < 0x80 then some (i % count) else firstFree d p count fuel (i + 1)

/-- The result of an allocation: 0 OK, 1 NO_FIT, 2 EMPTY, 3 QUOTA (R382), the pool, the index, the pointer. -/
structure BpmGot where
  result : Nat
  pool : Nat
  index : Nat
  ptr : Nat
  deriving DecidableEq, Repr

/-- Try one pool (R382, R383). -/
def allocIn (d : Dev) (r p : Nat) : BpmGot × Dev :=
  let count := d.get (BPM_POOL_CFG.COUNT p)
  let full := decide (d.get (BPM_HELD.HELD r p) ≥ d.get (BPM_QUOTA.LIMIT r p))
  match (if d.get (BPM_POOL_FREE.FREE p) = 0 then none else firstFree d p count count (d.bpm.cursor.get 0 p)) with
  | some i =>
    if full then (⟨3, p, 0, 0⟩, d) else
      let d := d.setTag p i (0x80 + r)
      let d := { d with bpm := { d.bpm with cursor := d.bpm.cursor.put 0 p ((i + 1) % count) } }
      let d := (d.bump (BPM_HELD.HELD r p)).subFrom (BPM_POOL_FREE.FREE p) 1
      (⟨0, p, i, bpmPtr d p i⟩, bpmLow d p)
  | none => (⟨if full then 3 else 2, p, 0, 0⟩, d)

/-- The pools that may serve a request, smallest buffers first, lower pool number first (R382, R393). -/
def eligible (d : Dev) (r len : Nat) (secure : Bool) (force : Option Nat) : List Nat :=
  let ok (p : Nat) : Bool := d.flag (BPM_POOL_CFG.EN p) && decide (len ≤ poolSize d p) && decide (0 < len)
    && decide (d.get (BPM_QUOTA.LIMIT r p) ≠ 0)
    && (secure || !bit (d.word WLD_BPM_POOL.word.addr).toNat p)
    && (match force with
      | none => true
      | some q => decide (q = p))
  (List.range 9).flatMap fun c =>
    (List.range 8).filter fun p => ok p && decide (d.get (BPM_POOL_CFG.SIZE_CODE p) = c)

/-- Try pools in order; with GROW = 0 only the first (R382). -/
def allocFrom (d : Dev) (r : Nat) (grow : Bool) (ps : List Nat) (last : BpmGot) : BpmGot × Dev :=
  match ps with
  | [] => (last, d)
  | p :: rest =>
    let (g, d') := allocIn d r p
    if g.result = 0 then (g, d') else if grow then allocFrom d r grow rest g else (g, d)

/-- Count a result (R397's counters). -/
def countAlloc (d : Dev) (g : BpmGot) : Dev :=
  let d := (d.bump (BPM_CNT_ALLOCS.cnt (match g.result with
    | 0 => 0
    | 1 => 2
    | 2 => 3
    | _ => 4)))
  if g.result = 0 then d.pmuEvent 0 0x08 1 else d

/-- R382: an allocation for requester r. `secure` is false only for software's non-secure allocations (R393). -/
def bpmAlloc (d : Dev) (r len : Nat) (secure : Bool := true) (force : Option Nat := none) : BpmGot × Dev :=
  let (g, d) := allocFrom d r (d.flag (BPM_REQ_CFG.GROW r)) (eligible d r len secure force) ⟨1, 0, 0, 0⟩
  (g, countAlloc d g)

/-- Some buffer of a pool is HELD. -/
def poolHeld (d : Dev) (p : Nat) : Bool := d.bpm.tags.any fun e => decide (e.1 / 2 ^ 22 = p) && decide (0x80 ≤ e.2.toNat)

/-- The pool whose range holds a pointer: enabled, or disabled with buffers still HELD (R385 check 1). -/
def poolAt (d : Dev) (ptr : Nat) : Option Nat :=
  (List.range 8).find? fun p =>
    let size := poolSize d p
    let lo := d.get (BPM_POOL_BASE.BASE p) * size
    let n := d.get (BPM_POOL_CFG.COUNT p)
    decide (ptr / 2 ^ 38 = d.get (BPM_POOL_CFG.LOCATION p)) && decide (lo ≤ ptr % 2 ^ 38)
      && decide (ptr % 2 ^ 38 < lo + n * size)
      && (d.flag (BPM_POOL_CFG.EN p) || poolHeld d p)

/-- R386: a free is rejected and reported. -/
def rejectFree (d : Dev) (r owner kind : Nat) (pool : Option Nat) (index ptr : Nat) : Dev :=
  let d := d.setWord BPM_ERR.word.addr (BitVec.ofNat 32 (kind * 2 ^ 28 + r * 2 ^ 24 + owner * 2 ^ 20
    + (match pool with
      | some p => 2 ^ 19 + p * 2 ^ 16
      | none => 0)))
  let d := d.put BPM_ERR_INDEX.INDEX index
  let d := d.wput (wkey mbxBpm 2) ptr
  let d := (d.event BPM_STATUS.FREE_REJECT).bump (BPM_CNT_REJECT.COUNT r)
  d.report (0x090 + r) (d.word BPM_ERR.word.addr).toNat

/-- A buffer of pool p becomes FREE; the tag keeps its last holder (R385). -/
def freeBuf (d : Dev) (p i : Nat) : Dev :=
  let t := bpmTag d p i
  let d := d.setTag p i (t % 16)
  let d := d.bump (BPM_POOL_FREE.FREE p)
  let d := if t % 16 < 9 then d.subFrom (BPM_HELD.HELD (t % 16) p) 1 else d
  bpmLow d p

/-- R385: free a pointer; answers the KIND of the failure, 0 for none. -/
def bpmFree (d : Dev) (r ptr : Nat) : Nat × Dev :=
  match poolAt d ptr with
  | none => (1, rejectFree d r 0xE 1 none 0 ptr)
  | some p =>
    let size := poolSize d p
    let off := ptr % 2 ^ 38 - d.get (BPM_POOL_BASE.BASE p) * size
    let i := off / size
    if off % size ≠ 0 then (2, rejectFree d r 0xE 2 (some p) i ptr)
    else
      let t := bpmTag d p i
      if t < 0x80 then (3, rejectFree d r (t % 16) 3 (some p) i ptr)
      else if t % 16 ≠ r then (4, rejectFree d r (t % 16) 4 (some p) i ptr)
      else (0, ((freeBuf d p i).bump (BPM_CNT_FREES)).pmuEvent 0 0x09 1)

/-- R395: free every buffer of a pool that is HELD by an owner; quarantined buffers go with owner 15 (R387). -/
def bpmReclaim (d : Dev) (p owner : Nat) : Dev :=
  let mine := d.bpm.tags.filter fun e => decide (e.1 / 2 ^ 22 = p) && decide (e.2.toNat = 0x80 + owner)
  mine.foldl (fun d e => (freeBuf d p (e.1 % 2 ^ 22)).bump BPM_CNT_RECLAIMED) d

/-- R387: a buffer whose tag is uncorrectable is quarantined: HELD with owner 0xF, out of its holder's count and of the
free count. -/
def quarantine (d : Dev) (p i : Nat) : Dev :=
  let n := d.get (BPM_POOL_CFG.COUNT p)
  let t := bpmTag d p i
  if n ≤ i ∨ t = 0x8F ∨ (d.flag (BPM_POOL_CFG.EN p) = false ∧ poolHeld d p = false) then d else
    let d := if t < 0x80 then d.subFrom (BPM_POOL_FREE.FREE p) 1
      else if t % 16 < 9 then d.subFrom (BPM_HELD.HELD (t % 16) p) 1 else d
    let d := bpmLow (d.setTag p i 0x8F) p
    ((d.event BPM_STATUS.TAG_UNCORR).bump BPM_CNT_TAG_UNCORR).report 0x09F 0

/-- R387: the tag errors an access meets. -/
def tagErrors (d : Dev) (x : TagErrors) : Dev :=
  x.bad.foldl (fun d b => quarantine d b.1 b.2.toNat) (d.addTo BPM_CNT_TAG_CORR x.corr)

/-- R378: enabling a pool marks every buffer of it FREE, with owner 0xE. Its cursor begins at buffer 0 (DESIGN CHOICE, log entry 171). -/
def poolEnable (d : Dev) (p : Nat) : Dev :=
  let d := { d with bpm := { d.bpm with
    tags := d.bpm.tags.keep fun k => decide (k / 2 ^ 22 ≠ p)
    cursor := d.bpm.cursor.put 0 p 0 } }
  let d := (List.range 9).foldl (fun d r => d.put (BPM_HELD.HELD r p) 0) d
  d.put (BPM_POOL_FREE.FREE p) (d.get (BPM_POOL_CFG.COUNT p))

end Sys2Proof.Machine
end

