-- ==== Sys2Proof/Machine/Tel.lean ====
section
/-!
DEFINITION. What every copy's end feeds (chapter 14): the Cartouche, drop counts and drop records, the flow cache, the
heavy-hitter sketch, postcards, and the staging of records on export rings.
-/
namespace Sys2Proof.Machine

/-! ### Export staging (R495, R503) -/

/-- Change export ring r. -/
def Dev.ring (d : Dev) (r : Nat) (f : Ring → Ring) : Dev :=
  { d with tel := { d.tel with rings := d.tel.rings.put {} r (f (d.tel.rings.get {} r)) } }

/-- Export ring r. -/
def Dev.ri (d : Dev) (r : Nat) : Ring := d.tel.rings.get {} r

/-- Bytes of an IPFIX message of records: a 16-byte header, and a 4-byte set header before each run of one kind (R499). -/
def msgBytes (l : List (Nat × List Byte × Nat)) : Nat :=
  (l.foldl (fun (a : Nat × Option Nat) x =>
    (a.1 + x.2.1.length + (if a.2 = some x.1 then 0 else 4), some x.1)) (16, none)).1

/-- Frame ticks between Template Sets (R499, R505). -/
def templateFrames (d : Dev) : Nat := max 1 (d.get TEL_IPFIX_CFG.TEMPLATE_FRAMES)

/-- The largest message (R505). -/
def msgMax (d : Dev) : Nat := max 256 (min 9000 (d.get TEL_IPFIX_CFG.MSG_MAX))

/-- R499: a record joins the open message, which is closed first where the record does not fit. -/
def addRecord (d : Dev) (r : Nat) (x : Nat × List Byte × Nat) : Dev :=
  let fits := decide (msgBytes ((d.ri r).staged ++ [x]) ≤ msgMax d)
  d.ring r fun y =>
    if fits ∨ y.staged = [] then { y with staged := y.staged ++ [x] }
    else { y with msgs := y.msgs ++ [.records y.staged], staged := [x] }

/-- R495, R503: a record goes to its kind's ring and waits in a staging buffer; without a buffer, or on a ring that is
not enabled, it is dropped and counted. -/
def exportRecord (d : Dev) (h kind : Nat) (b : List Byte) : Dev :=
  if d.flag (TEL_ROUTE.EN h kind) then
    let r := d.get (TEL_ROUTE.RING h kind)
    if d.flag (TEL_RING_CFG.EN r) then
      let (g, d) := bpmAlloc d 4 b.length
      if g.result = 0 then addRecord d r (kind, b, g.ptr) else d.bump (TEL_RING_DROP.DROP r)
    else d.bump (TEL_RING_DROP.DROP r)
  else d

/-! ### The Cartouche (R477-R479) -/

/-- How a copy ended: where (half and slice of the unit), transmit delta, sojourn, deadline missed, drop reason, trapped,
egress port chosen, flags, the stage that dropped it, and whether its parse had begun. -/
structure EndInfo where
  half : Nat
  slice : Nat
  txDelta : Nat := 0
  sojourn : Nat := 0
  queued : Bool := false
  miss : Bool := false
  reason : Nat := 0
  trapped : Bool := false
  out : Option Nat := none
  stomped : Bool := false
  ioam : Bool := false
  stage : Nat := 0xFF
  parsed : Bool := true
  deriving DecidableEq, Repr

/-- R478: the energy class of a copy. -/
def energyClass (c : Copy) : Nat :=
  if c.spilled then 3 else if c.replica || c.mirror then 2 else if c.pkt.second then 1 else 0

/-- The slice a packet entered in. -/
def ingressSlice (p : Pkt) : Nat := p.inPort / 32

/-- R478: the accounting group of a copy. -/
def acctGroup (d : Dev) (p : Pkt) : Nat := d.get (CTH_ACCT.GROUP (ingressSlice p) p.acct)

/-- A number limited to n bits. -/
def sat (n v : Nat) : Nat := min v (2 ^ n - 1)

/-- R477: the Cartouche's 32 bytes. -/
def cartouche (d : Dev) (c : Copy) (rxTs : Nat) (e : EndInfo) (flow : Bool) : List Byte :=
  let p := c.pkt
  beBytes 6 (rxTs % 2 ^ 48) ++ beBytes 4 (sat 32 e.txDelta) ++ beBytes 4 (sat 32 e.sojourn)
    ++ beBytes 2 ((if e.queued || e.out.isSome then qid c.port c.q % 8192 else 0) + (if e.miss then 2 ^ 13 else 0)
        + (if c.demoted then 2 ^ 14 else 0) + (if c.spilled then 2 ^ 15 else 0))
    ++ beBytes 3 c.enqDepth
    ++ beBytes 1 (e.reason + (if e.trapped then 64 else 0) + (if c.mirror then 128 else 0))
    ++ beBytes 2 (p.inPort + (if p.second then 1024 else 0))
    ++ beBytes 2 (match e.out with
        | some o => o + 32768
        | none => 0)
    ++ beBytes 4 (if e.parsed then min p.hits 15 * 2 ^ 28 + p.hitFirst * 2 ^ 14 + p.hitLast else 0)
    ++ beBytes 1 (energyClass c * 64 + acctGroup d p)
    ++ beBytes 1 ((if e.stomped then 1 else 0) + (if p.replayed then 2 else 0) + (if c.cut then 4 else 0)
        + (if e.ioam then 8 else 0) + (if flow then 16 else 0) + (if p.bankB then 32 else 0))
    ++ beBytes 2 (p.vec.get 0 237).toNat

/-! ### Flow keys and the flow cache (R483-R487) -/

/-- PTYPE_USED of a packet (R232). -/
def ptypeUsed (p : Pkt) : Nat := (p.vec.get 0 155).toNat / 256

/-- R483: the flow key of a copy; values from the header vector as its last pipeline left it. -/
def flowKey (d : Dev) (p : Pkt) : Option (BitVec 128) :=
  let w := (d.word (CTH_FKEY.word (ingressSlice p) (ptypeUsed p)).addr).toNat
  let sel (i : Nat) : Option Nat := let v := w / 256 ^ i % 256; if v < 224 then some v else none
  if ((List.range 4).all fun i => (sel i).isNone) then none
  else some ((List.range 4).foldl (fun a i => a <<< 32 |||
    (match sel i with
      | some v => (p.vec.get 0 v).zeroExtend 128
      | none => 0)) 0)

/-- R485, R498: a flow record's 64 bytes. -/
def flowBytes (f : Flow) (reason : Nat) : List Byte :=
  beBytes 16 f.key.toNat ++ beBytes 1 f.ptype ++ beBytes 1 (128 + (if f.repl then 64 else 0) + reason)
    ++ beBytes 2 f.inPort ++ beBytes 2 (match f.egPort with
        | some o => o + 32768
        | none => 0)
    ++ beBytes 2 f.idle ++ beBytes 2 f.active ++ beBytes 6 f.firstTs ++ beBytes 6 f.lastTs
    ++ beBytes 2 f.demoted ++ beBytes 8 f.octets ++ beBytes 8 f.copies ++ beBytes 4 f.sojourn
    ++ beBytes 3 f.dropped ++ beBytes 1 f.reason

/-- Export a flow entry with an end reason (R486, R495). -/
def exportFlow (d : Dev) (h : Nat) (f : Flow) (reason : Nat) : Dev :=
  exportRecord (d.bump TEL_CNT_FLOWS_EXPORTED) h 0 (flowBytes f reason)

/-- The key bytes hashed for flows and heavy hitters (R484, R488). -/
def flowHash (seed : Word) (choice : Nat) (key : BitVec 128) (ptype : Nat) : Nat :=
  (crc32c seed (beBytes 1 choice ++ beBytes 16 key.toNat ++ beBytes 1 ptype)).toNat

/-- Store a way of the flow cache. -/
def Dev.setFlow (d : Dev) (k : Nat) (f : Option Flow) : Dev :=
  { d with tel := { d.tel with flows := d.tel.flows.put none k f } }

/-- R485: what a copy's end adds to its flow's entry. -/
def Flow.update (f : Flow) (c : Copy) (rxTs len : Nat) (e : EndInfo) : Flow :=
  { f with
    repl := f.repl || c.replica
    inPort := c.pkt.inPort
    egPort := match e.out with
      | some o => some o
      | none => f.egPort
    idle := 0
    lastTs := max f.lastTs (rxTs % 2 ^ 48)
    demoted := sat 16 (f.demoted + (if c.demoted then 1 else 0))
    octets := (f.octets + len) % 2 ^ 64
    copies := (f.copies + 1) % 2 ^ 64
    sojourn := max f.sojourn (sat 32 e.sojourn)
    dropped := sat 24 (f.dropped + (if e.reason ≠ 0 then 1 else 0))
    reason := if e.reason ≠ 0 then e.reason else f.reason }

/-- A new flow's entry, before its first update. -/
def newFlow (key : BitVec 128) (ptype rxTs inPort : Nat) : Flow :=
  { key := key, ptype := ptype, repl := false, inPort := inPort, egPort := none, idle := 0, active := 0,
    firstTs := rxTs % 2 ^ 48, lastTs := rxTs % 2 ^ 48, demoted := 0, octets := 0, copies := 0, sojourn := 0,
    dropped := 0, reason := 0 }

/-- R484: a completed copy updates, creates or replaces an entry of the half's flow cache. -/
def updateFlow (d : Dev) (h : Nat) (key : BitVec 128) (c : Copy) (rxTs len : Nat) (e : EndInfo) : Dev :=
  let pt := ptypeUsed c.pkt
  let set := flowHash (d.word (TEL_FLOW_SEED.word h).addr) 0x10 key pt % 65536
  let base := h * 2 ^ 18 + set * 4
  let way (w : Nat) : Option Flow := d.tel.flows.get none (base + w)
  let found := (List.range 4).find? fun w => match way w with
    | some f => decide (f.key = key ∧ f.ptype = pt)
    | none => false
  match found with
  | some w => match way w with
    | some f => d.setFlow (base + w) (some (f.update c rxTs len e))
    | none => d
  | none =>
    let f := (newFlow key pt rxTs c.pkt.inPort).update c rxTs len e
    let d := d.bump TEL_CNT_FLOWS_CREATED
    match (List.range 4).find? fun w => (way w).isNone with
    | some w => d.setFlow (base + w) (some f)
    | none =>
      let last (w : Nat) : Nat := match way w with
        | some f => f.lastTs
        | none => 0
      let old := (List.range 4).foldl (fun b w => if last w < last b then w else b) 0
      let d := match way old with
        | some f => exportFlow (d.bump TEL_CNT_FLOWS_EVICTED) h f 5
        | none => d
      d.setFlow (base + old) (some f)

/-- R488, R489: the sketch and the list of heavy hitters; a flow sends one record in a frame, in the list or beyond it (DEDUCED,
log entry 161). -/
def updateHH (g : Grid) (d : Dev) (h : Nat) (key : BitVec 128) (c : Copy) (len : Nat) : Dev :=
  let kib := d.get (TEL_HH_CFG.HH_KIB h)
  if kib = 0 then d else
    let pt := ptypeUsed c.pkt
    let cell (i : Nat) := h * 65536 + i * 16384 + flowHash (d.word (TEL_HH_SEED.word h).addr) i key pt % 16384
    let sk := (List.range 4).foldl (fun (m : SMap Word) i =>
      m.put 0 (cell i) (BitVec.ofNat 32 (sat 32 ((m.get 0 (cell i)).toNat + len)))) d.tel.sketch
    let d := { d with tel := { d.tel with sketch := sk } }
    let est := (List.range 4).foldl (fun a i => min a (sk.get 0 (cell i)).toNat) (2 ^ 32)
    let known := d.tel.hh.any fun x => decide (x = (h, key, pt))
    if est < kib * 1024 ∨ known then d else
      let d := exportRecord (d.bump TEL_CNT_HH) h 2
        (beBytes 16 key.toNat ++ beBytes 1 pt ++ beBytes 1 h ++ beBytes 2 c.pkt.inPort
          ++ beBytes 4 (g.epoch.toNat / 1024 % 2 ^ 32) ++ beBytes 8 est)
      let full := decide (256 ≤ (d.tel.hh.filter fun x => decide (x.1 = h)).length)
      let d := { d with tel := { d.tel with hh := d.tel.hh ++ [(h, key, pt)] } }
      if full then d.bump TEL_CNT_HH_OVF else d

/-! ### Drops (R480-R482, R496) -/

/-- Drop reasons (R480). -/
def drUndersize := 1
def drOversize := 2
def drFcsErr := 3
def drRateExceeded := 4
def drLinkDown := 5
def drPortRemoved := 6
def drNoMatch := 7
def drParseFail := 8
def drMalformed := 9
def drDepth := 10
def drActionDrop := 11
def drNoEgress := 12
def drGroupEmpty := 13
def drRecircLimit := 14
def drRecircFull := 15
def drDeparseErr := 16
def drHvParity := 17
def drPortQuota := 18
def drClassQuota := 19
def drSpillLimit := 20
def drQueueThreshold := 21
def drPolicerRed := 22
def drPolicerYellow := 23
def drSpillLost := 24
def drCellErr := 25
def drBankRetired := 26
def drTableRetired := 27
def drPuntNobuf := 28
def drPuntStarved := 29
def drNotReady := 30
def drSliceReset := 31
def drFabricLost := 32
def drMirrorErr := 33

/-- R481: count a drop in its half. -/
def countDrop (d : Dev) (h reason : Nat) : Dev := d.ctrAdd (dropCtr h reason) 1

/-- R496, R498: a drop record, where its reason's bucket holds a token. -/
def dropRecord (d : Dev) (c : Copy) (cart : List Byte) (key : Option (BitVec 128)) (frame : List Byte) (e : EndInfo) :
    Dev :=
  let k := e.half * 64 + e.reason
  let tok := d.tel.drTokens.get 0x100 k
  if tok = 0 then d.bump TEL_CNT_DR_SUPPRESSED else
    let d := { d with tel := { d.tel with drTokens := d.tel.drTokens.put 0x100 k (tok - 1) } }
    exportRecord (d.bump TEL_CNT_DR_SENT) e.half 1
      (cart ++ beBytes 16 (match key with
          | some k => k.toNat
          | none => 0)
        ++ beBytes 1 (if e.parsed then ptypeUsed c.pkt else 0)
        ++ beBytes 1 ((c.pkt.vec.get 0 158).toNat / 512 % 128)
        ++ beBytes 1 e.stage ++ beBytes 1 ((c.pkt.vec.get 0 235).toNat % 256) ++ bytesAt frame 0 64)

/-- R497: postcards. -/
def postcard (d : Dev) (e : EndInfo) (cart : List Byte) (key : Option (BitVec 128)) : Dev :=
  if d.flag (CTH_POSTCARD.EN e.slice) then
    let n := 2 ^ (max (d.get (CTH_POSTCARD.LOG2_N e.slice)) 1 - 1)
    let (left, d) := match (d.sl e.slice).cardLeft with
      | some k => (k, d)
      | none => let (r, d) := d.fresh; (n + r.toNat % (2 * n), d)
    if left ≤ 1 then
      let (r, d) := d.fresh
      let d := d.slice e.slice fun s => { s with cardLeft := some (n + r.toNat % (2 * n)) }
      exportRecord (d.bump (CTH_CNT_POSTCARDS e.slice)) e.half 4
        (cart ++ beBytes 16 (match key with
          | some k => k.toNat
          | none => 0))
    else d.slice e.slice fun s => { s with cardLeft := some (left - 1) }
  else d

/-- Bytes of a frame that a copy carries: all, or the first 64 * TRUNC (R277). -/
def copyBytes (c : Copy) (f : Frame) : List Byte := if c.trunc = 0 then f.bytes else f.bytes.take (64 * c.trunc)

/-- A copy's Cartouche is complete (R477): it feeds the flow cache, the sketch, the drop counts and records, and the
postcards. The octets counted are those of the frame as the copy held it in the buffer (DEDUCED, log entry 174). -/
def complete (g : Grid) (d : Dev) (c : Copy) (e : EndInfo) : Dev :=
  let fr := d.frame c.pkt.fid
  let (rxTs, bytes) := match fr with
    | some f => (f.rxTs, f.bytes)
    | none => (0, [])
  let len := match fr with
    | some f => if f.complete then (copyBytes c f).length else max f.bytes.length f.total
    | none => 0
  let key := if e.parsed then flowKey d c.pkt else none
  let useFlow := key.isSome && d.flag (TEL_FLOW_CTL.EN e.half)
  let cart := cartouche d c rxTs e useFlow
  let d := if e.reason ≠ 0 then countDrop d e.half e.reason else d
  let d := match key with
    | some k =>
      let d := if useFlow then updateFlow d e.half k c rxTs len e else d
      updateHH g d e.half k c len
    | none => d
  let d := if e.reason ≠ 0 then dropRecord d c cart key bytes e else d
  postcard d e cart key

/-! ### Energy events (R600) -/

/-- Charge n events of coefficient k to a port and a group. -/
def Dev.charge (d : Dev) (k n port group : Nat) : Dev :=
  { d with
    energy := d.energy.put 0 (k * 1024 + port) (d.energy.get 0 (k * 1024 + port) + n)
    energyGrp := if k ≤ 10 then d.energyGrp.put 0 (k * 64 + group) (d.energyGrp.get 0 (k * 64 + group) + n)
      else d.energyGrp }

/-- A packet's pipeline has ended: its energy events are charged. -/
def flushActs (d : Dev) (p : Pkt) (port : Nat) : Dev :=
  p.acts.foldl (fun d e => d.charge e.1 e.2 port (acctGroup d p)) d

/-- Note an energy event of the pipeline under way. -/
def Pkt.act (p : Pkt) (k n : Nat) : Pkt := { p with acts := p.acts.put 0 k (p.acts.get 0 k + n) }

/-! ### Frames' life -/

/-- Whether any copy or packet still refers to a frame. -/
def frameUsed (d : Dev) (fid : Nat) : Bool :=
  (d.slices.any fun e => e.2.staging.any (·.fid = fid) || e.2.toAdmit.any (·.pkt.fid = fid)
      || e.2.recirc.any (·.pkt.fid = fid))
    || (d.queues.any fun e => e.2.pkts.any (·.pkt.fid = fid))
    || (d.ports.any fun e => match e.2.tx with
        | some t => decide (t.copy.pkt.fid = fid)
        | none => false)
    || (d.buf.toRep.any fun e => decide (e.2.pkt.fid = fid))
    || (d.punts.any fun p => decide (p.copy.pkt.fid = fid))
    || (d.frames.any fun e => match e.2.bind (·.built) with
        | some x => decide (x.1 = fid)
        | none => false)

/-- Forget a frame no copy refers to any more; an incomplete frame stays, since bytes of it may still come, and so does one
whose late tests are still to come (R237). -/
def dropFrame (d : Dev) (fid : Nat) : Dev :=
  if frameUsed d fid then d else
    match d.frame fid with
    | some f => if f.complete && f.defer.isNone then d.setFrame fid none else d
    | none => d

end Sys2Proof.Machine
end

