-- ==== Sys2Proof/Machine/Buf.lean ====
section
/-!
DEFINITION. The shared buffer's operations (chapters 06, 12, 13): which lanes form ports, cell counts and accounts,
XOFF and XON with the PAUSE and PFC frames they send, flushing, in-flight counts. Admission, scheduling and spill
stand in their families.
-/
namespace Sys2Proof.Machine

/-! ### Ports (R11, R201, R203) -/

/-- R11: the lane is the first lane of a port in its octet's mode. -/
def isPort (d : Dev) (p : Nat) : Bool :=
  let m := laneMode d p
  decide (p < 1024) && decide (m.lanes ≠ 0) && decide (p % 8 % m.lanes = 0)

/-- The speed of port p in Gb/s. -/
def portSpeed (d : Dev) (p : Nat) : Nat := (laneMode d p).speed

/-- The FEC in use where the mode leaves a choice: auto-negotiation's while it is enabled, else PT_CFG.FEC (R201). -/
def fecOf (d : Dev) (p : Nat) : Nat := match d.flag (LN_CTL.AN_EN p), (d.lanes.get {} p).anFec with
  | true, some f => f
  | _, _ => d.get (PT_CFG.FEC p)

/-- R203: the ingress figure of a port's mode and FEC. -/
def ingressFigure (d : Dev) (p : Nat) : Nat :=
  match octModeOf d p, fecOf d p with
  | 12, 3 => 52
  | 14, 2 => 180
  | 14, 3 => 60
  | m, _ => (modeRow m).ingress

/-- R203: PT_LAT.EGRESS. -/
def portEgressNs (d : Dev) (p : Nat) : Nat :=
  match octModeOf d p, fecOf d p with
  | 12, 3 => 26
  | 14, 2 => 40
  | 14, 3 => 28
  | m, _ => (modeRow m).egress

/-- R203, R204: PT_LAT.INGRESS: the figure and the skew, which counts as 40 ns until the port has reached lock. -/
def portIngressNs (d : Dev) (p : Nat) : Nat :=
  let m := laneMode d p
  ingressFigure d p + (if (d.lanes.get {} p).lockedOnce then d.get (PT_LINK.SKEW p)
    else if m.lanes > 1 then 40 else 0)

/-- The link state UP (R205). -/
def linkUp (d : Dev) (p : Nat) : Bool := decide (d.get (PT_LINK.STATE p) = 1)

/-- A port's MTU (R219). -/
def portMtu (d : Dev) (p : Nat) : Nat := max 64 (min 9416 (d.get (PT_CFG.MTU p)))

/-! ### Cells (R399, R400, R402) -/

/-- The header vector byte a container starts at (R231). -/
def contByte (c : Nat) : Nat := if c < 64 then c else if c < 160 then 64 + 2 * (c - 64) else 256 + 4 * (c - 160)

/-- Width of a container in bytes (R231). -/
def contWidth (c : Nat) : Nat := if c < 64 then 1 else if c < 160 then 2 else 4

/-- The number of nonzero 8-byte words of the header vector (R400). -/
def nonzeroWords (v : SMap Word) : Nat :=
  ((v.filter fun e => decide (e.1 < 224) && decide (e.2 ≠ 0)).foldl (fun (l : List Nat) e =>
    let w := contByte e.1 / 8
    if l.contains w then l else w :: l) []).length

/-- R400: the record cells of a packet. -/
def recordCells (p : Pkt) : Nat := (64 + 8 * nonzeroWords p.vec + 255) / 256

/-- R399: the frame cells of n bytes. -/
def frameCellsOf (n : Nat) : Nat := (n + 255) / 256

/-- The total of a list of runs. -/
def sumRuns (l : List Run) : Nat := l.foldl (fun a r => a + r.n) 0

/-- The first n cells of a list of runs, and the rest. -/
def splitRuns (n : Nat) (l : List Run) : List Run × List Run :=
  match l with
  | [] => ([], [])
  | r :: rs =>
    if n = 0 then ([], r :: rs)
    else if r.n ≤ n then
      let (a, b) := splitRuns (n - r.n) rs
      (r :: a, b)
    else ([{ r with n := n }], { r with off := r.off + n, n := r.n - n } :: rs)

/-- Local queue number in its half, and the half. -/
def lq (n : Nat) : Nat := n % 4096
def qHalf (n : Nat) : Nat := n / 4096

/-- A frame cell of half h gains a holder; its first holder takes it from the pool (R402, R410). -/
def holdFrameCell (d : Dev) (h fid i : Nat) : Dev :=
  let k := (fid * 2 + h) * 4096 + i
  let n := d.buf.frameCells.get 0 k
  let d := { d with buf := { d.buf with frameCells := d.buf.frameCells.put 0 k (n + 1) } }
  if n = 0 then d.subFrom (BUF_FREE.FREE h) 1 else d

/-- A frame cell loses a holder; the last returns it to the pool. -/
def dropFrameCell (d : Dev) (h fid i : Nat) : Dev :=
  let k := (fid * 2 + h) * 4096 + i
  let n := d.buf.frameCells.get 0 k
  if n = 0 then d else
    let d := { d with buf := { d.buf with frameCells := d.buf.frameCells.put 0 k (n - 1) } }
    if n = 1 then d.bump (BUF_FREE.FREE h) else d

/-- The cells of a run of a copy come on chip in half h's pool. -/
def poolTake (d : Dev) (h : Nat) (c : Copy) (r : Run) : Dev :=
  (List.range r.n).foldl (fun d i =>
    let j := r.off + i
    if j < c.recCells then d.subFrom (BUF_FREE.FREE h) 1 else holdFrameCell d h c.pkt.fid (j - c.recCells)) d

/-- The cells of a run of a copy leave half h's pool. -/
def poolGive (d : Dev) (h : Nat) (c : Copy) (r : Run) : Dev :=
  (List.range r.n).foldl (fun d i =>
    let j := r.off + i
    if j < c.recCells then d.bump (BUF_FREE.FREE h) else dropFrameCell d h c.pkt.fid (j - c.recCells)) d

/-- Reserve use of class c in half h. -/
def rsvUse (d : Dev) (h c : Nat) : Nat := d.buf.rsvUsed.get 0 (h * 8 + c)

/-- Change a half's reserve use of a class. -/
def Dev.setRsv (d : Dev) (h c v : Nat) : Dev :=
  { d with buf := { d.buf with rsvUsed := d.buf.rsvUsed.put 0 (h * 8 + c) v } }

/-- The key of cells held for an ingress port and priority in a half (R412). -/
def inKey (h port prio : Nat) : Nat := h * 8192 + port * 8 + prio

/-- Cells a half holds for an ingress port and priority (R412). -/
def inCells (d : Dev) (h port prio : Nat) : Nat := d.buf.inCells.get 0 (inKey h port prio)

/-- Change that count. -/
def Dev.setIn (d : Dev) (h port prio v : Nat) : Dev :=
  { d with buf := { d.buf with inCells := d.buf.inCells.put 0 (inKey h port prio) v } }

/-- k cells come on chip in a queue, charged to an account: 0 reserve, 1 shared, 2 headroom (R404, R406); each copy of a packet
counts for R412 (DEDUCED, log entry 172). -/
def charge (d : Dev) (n k acct : Nat) (c : Copy) : Dev :=
  let h := qHalf n
  let cls := n % 8
  let d := d.addTo (BUF_QDEPTH.ON_CHIP h (lq n)) k
  let d := d.addTo (BUF_PORT_USED.USED h (lq n / 8)) k
  let d := d.addTo (BUF_CLASS_USED.USED h cls) k
  let d := d.setIn h c.pkt.inPort c.prio (inCells d h c.pkt.inPort c.prio + k)
  match acct with
  | 0 => (d.setRsv h cls (rsvUse d h cls + k)).queue n fun q => { q with rsv := q.rsv + k }
  | 1 => (d.addTo (BUF_SHARED_USED.USED h) k).queue n fun q => { q with shr := q.shr + k }
  | _ => (d.addTo (BUF_HEADROOM_USED.USED h) k).queue n fun q => { q with hdr := q.hdr + k }

/-- R409: k cells leave a queue: first from its headroom count, then shared, then reserve. -/
def uncharge (d : Dev) (n k : Nat) (c : Copy) : Dev :=
  let h := qHalf n
  let cls := n % 8
  let q := d.qu n
  let a := min k q.hdr
  let b := min (k - a) q.shr
  let e := min (k - a - b) q.rsv
  let d := d.subFrom (BUF_QDEPTH.ON_CHIP h (lq n)) k
  let d := d.subFrom (BUF_PORT_USED.USED h (lq n / 8)) k
  let d := d.subFrom (BUF_CLASS_USED.USED h cls) k
  let d := d.setIn h c.pkt.inPort c.prio (inCells d h c.pkt.inPort c.prio - k)
  let d := d.subFrom (BUF_HEADROOM_USED.USED h) a
  let d := d.subFrom (BUF_SHARED_USED.USED h) b
  let d := d.setRsv h cls (rsvUse d h cls - e)
  d.queue n fun q => { q with hdr := q.hdr - a, shr := q.shr - b, rsv := q.rsv - e }

/-! ### The port's own frames (R667, R213) -/

/-- The port's own MAC address (R667): the reset value is derived from the serial number and the port number, which
the registers hold as 0 until they are written (log entry 7). -/
def portMac (d : Dev) (p : Nat) : Nat :=
  let v := d.get (PT_MAC_HI.MAC_HI p) * 2 ^ 32 + (d.word (PT_MAC_LO.word p).addr).toNat
  if d.wget (wkey (portBase p) 0xFFFF) = 1 then v
  else 0x02 * 2 ^ 40 + d.serial.toNat % 2 ^ 30 * 2 ^ 10 + p

/-- A frame padded to the least length, with its FCS. -/
def withFcs (b : List Byte) : List Byte :=
  let b := b ++ List.replicate (60 - b.length) 0
  b ++ ethFcs b

/-- Octets, frames and address classes of a frame in one direction (R218; base 0 receive, 14 transmit). -/
def countFrame (d : Dev) (p base : Nat) (b : List Byte) : Dev :=
  let d := (d.ctrAdd (ptCtr p base) b.length).ctrAdd (ptCtr p (base + 1)) 1
  let da := beNat (b.take 6)
  d.ctrAdd (ptCtr p (base + (if da = 2 ^ 48 - 1 then 4 else if da / 2 ^ 40 % 2 = 1 then 3 else 2))) 1

/-- A frame leaves port p, or returns to its own receiver in near-end loopback, where the partner sees Idle (R219). -/
def txOut (d : Dev) (p : Nat) (b : List Byte) (stomped : Bool) : Dev :=
  if d.flag (PT_CFG.LOOP p) then d.port p fun x => { x with looped := x.looped ++ [(b, stomped)] }
  else d.emit (.tx p b stomped)

/-- A frame the device itself originates on a port leaves at once. -/
def txOwnFrame (d : Dev) (p : Nat) (b : List Byte) : Dev :=
  let f := withFcs b
  txOut (countFrame d p 14 f) p f false

/-- The bytes of a PAUSE (opcode 1) or PFC (opcode 0x0101) frame of a port (R211, R213). -/
def controlFrame (d : Dev) (p opcode vec quanta : Nat) : List Byte :=
  beBytes 6 0x0180C2000001 ++ beBytes 6 (portMac d p) ++ beBytes 2 0x8808 ++ beBytes 2 opcode
    ++ (if opcode = 1 then beBytes 2 quanta
      else beBytes 2 vec ++ (List.range 8).flatMap fun i => beBytes 2 (if bit vec i then quanta else 0))

/-- Send a MAC control frame now: counted (k 20 PAUSE, 21 PFC), then sent. -/
def sendControl (d : Dev) (p : Nat) (b : List Byte) : Dev :=
  let d := d.ctrAdd (ptCtr p (if beNat ((b.drop 14).take 2) = 1 then 20 else 21)) 1
  txOwnFrame d p b

/-- A port sends frames: its link is UP (R206) and its slice not in reset (R210). -/
def maySend (d : Dev) (p : Nat) : Bool := linkUp d p && d.sliceUp (p / 32)

/-- R213: a MAC control frame leaves at the next frame boundary, ahead of every queued frame; in a slice in reset once the slice
is back (R210). A port that is not UP makes none: it sends what then holds as it comes UP. -/
def queueControl (d : Dev) (p : Nat) (b : List Byte) : Dev :=
  if !linkUp d p then d
  else if (d.po p).tx.isNone && maySend d p then sendControl d p b
  else d.port p fun x => { x with ctlFrames := x.ctlFrames ++ [b] }

/-- Control frames waiting at a port leave (R213). -/
def drainControl (d : Dev) (p : Nat) : Dev :=
  if maySend d p then
    (d.po p).ctlFrames.foldl (fun d b => sendControl d p b) (d.port p fun x => { x with ctlFrames := [] })
  else d

/-- The flow-control mode of a port: 1 PAUSE, 2 PFC, others none (R211). -/
def fcMode (d : Dev) (p : Nat) : Nat := d.get (PT_CFG.FC_MODE p)

/-- Send XOFF (quanta) or XON (zero quanta) for a priority (R213). -/
def sendPause (d : Dev) (p prio quanta : Nat) : Dev :=
  match fcMode d p with
  | 1 => queueControl d p (controlFrame d p 1 0 quanta)
  | 2 => queueControl d p (controlFrame d p 0x0101 (2 ^ prio) quanta)
  | _ => d

/-- Priority of queue class q at a port (PT_PFC_MAP, R212). -/
def pfcPrio (d : Dev) (p q : Nat) : Nat := bits (d.word (PT_PFC_MAP.word p).addr).toNat (4 * q + 2) (4 * q)

/-- A priority is lossless at an ingress port (R412). -/
def lossless (d : Dev) (p prio : Nat) : Bool := bit (d.get (PT_PFC_CFG.TX_MASK p)) prio

/-- R213, R413: frames for a priority are sent only while it is in TX_MASK. -/
def pauseOn (d : Dev) (p prio : Nat) : Dev :=
  if lossless d p prio then sendPause d p prio (d.get (PT_PAUSE_QUANTA.QUANTA p)) else d

/-- R213: the zero-quanta frame that releases a priority; under PAUSE one releases the port when its last one ends. -/
def pauseOff (d : Dev) (p prio : Nat) : Dev :=
  if !lossless d p prio || (decide (fcMode d p = 1) && (d.po p).xoffSent.any (lossless d p)) then d else sendPause d p prio 0

/-- R413: XOFF and XON of an ingress port and priority by both halves' counts. -/
def checkPause (d : Dev) (p prio : Nat) : Dev :=
  let on := (d.po p).xoffSent.contains prio
  let hit (h : Nat) := decide (inCells d h p prio ≥ d.get (BUF_XOFF.XOFF h prio))
  let low (h : Nat) := decide (inCells d h p prio ≤ d.get (BUF_XON.XON h prio))
  if !on && (hit 0 || hit 1) then
    pauseOn (d.port p fun x => { x with xoffSent := prio :: x.xoffSent }) p prio
  else if on && low 0 && low 1 then
    pauseOff (d.port p fun x => { x with xoffSent := x.xoffSent.filter (· ≠ prio) }) p prio
  else d

/-! ### Leaving the buffer -/

/-- The copies a queue's runs may belong to: those waiting and the one in transmission. -/
def copyOf (d : Dev) (n cid : Nat) : Option Copy :=
  match (d.qu n).pkts.find? fun c => decide (c.cid = cid) with
  | some c => some c
  | none => match (d.po (n / 8)).tx with
    | some t => if t.copy.cid = cid then some t.copy else none
    | none => none

/-- Runs of a copy leave a queue's chip: accounts, pool, and XON (R402, R409, R413). -/
def releaseRuns (d : Dev) (n : Nat) (c : Copy) (rs : List Run) : Dev :=
  let d := uncharge d n (sumRuns rs) c
  let d := rs.foldl (fun d r => poolGive d (qHalf n) c r) d
  checkPause d c.pkt.inPort c.prio

/-- Runs of any copies of a queue leave the chip. -/
def releaseAny (d : Dev) (n : Nat) (rs : List Run) : Dev :=
  rs.foldl (fun d r => match copyOf d n r.cid with
    | some c => releaseRuns d n c [r]
    | none => d) d

/-- Whether a copy has cells in a queue's pages. -/
def inPages (q : Queue) (cid : Nat) : Bool := q.mid.any fun p => p.runs.any fun r => decide (r.cid = cid)

/-- The profile of queue n (R405). -/
def qProf (d : Dev) (n : Nat) : Nat := d.get (BUF_QMAP.PROFILE (qHalf n) (lq n))

/-- R418's target of a queue's head in cells; HEAD_LOW 0 acts as 1. -/
def headTarget (d : Dev) (n : Nat) : Nat := 63 * max 1 (d.get (BUF_QPROF_SPILL.HEAD_LOW (qHalf n) (qProf d n)))

/-- A write-down holds a page (R422). -/
def WriteDown.paged (w : WriteDown) : Bool := !w.again

/-- Write-downs of queue n are no longer in flight. -/
def forgetDowns (d : Dev) (n : Nat) : Dev :=
  { d with buf := { d.buf with downs := d.buf.downs.filter fun x => decide (x.1 ≠ n) } }

/-- R425: a queue's write-downs are given up: their pages are freed unwritten, their cells stay in the tail. -/
def cancelDowns (d : Dev) (n : Nat) : Dev :=
  let d := ((d.qu n).down.filter (·.paged)).foldl (fun d w => (bpmFree d (qHalf n) w.ptr).2) d
  (forgetDowns d n).queue n fun q => { q with down := [] }

/-- R425, R421: with the middle empty, an empty head goes on with the tail's oldest cells, and a queue with few enough
cells on chip leaves spill. -/
def settleSpill (d : Dev) (n : Nat) : Dev :=
  let q := d.qu n
  if !q.spill || !q.mid.isEmpty then d else
    let h := qHalf n
    let d := if q.head = [] ∧ q.tail ≠ [] then
      let d := (cancelDowns d n).addTo (SPL_CNT_CANCELLED h) (q.down.filter (·.paged)).length
      let (a, b) := splitRuns (headTarget d n) q.tail
      d.queue n fun q => { q with head := a, tail := b }
    else d
    if (d.qu n).down = [] ∧ d.get (BUF_QDEPTH.ON_CHIP h (lq n)) ≤ d.get (BUF_QPROF_SPILL.SPILL_ON h (qProf d n)) / 2 then
      let d := (d.subFrom (SPL_QUEUES.COUNT h) 1).put (BUF_QDEPTH.SPILLED h (lq n)) 0
      d.queue n fun q => { q with spill := false, head := q.head ++ q.tail, tail := [], markBank := none, markEpoch := none }
    else d

/-- A copy's on-chip cells leave its queue: head and tail, and what a write-down had copied of them. -/
def releaseCopy (d : Dev) (n : Nat) (c : Copy) : Dev :=
  let q := d.qu n
  let mine (l : List Run) := l.filter fun r => decide (r.cid = c.cid)
  let others (l : List Run) := l.filter fun r => decide (r.cid ≠ c.cid)
  let d := releaseRuns d n c (mine q.head ++ mine q.tail)
  settleSpill (d.queue n fun q => { q with
    head := others q.head, tail := others q.tail, down := q.down.map fun w => { w with runs := others w.runs } }) n

/-- A page of a flushed queue goes back to the BPM later, one per cycle (R429). -/
def orphanPage (d : Dev) (h ptr : Nat) : Dev := { d with buf := { d.buf with orphans := d.buf.orphans ++ [(h, ptr)] } }

/-- A copy is dropped after admission: its cells leave, FLUSH_PKTS counts, its Cartouche completes in the egress half
(R509, R481); a queue that empties has no deficit (R448). -/
def dropQueued (g : Grid) (d : Dev) (n : Nat) (c : Copy) (reason : Nat) : Dev :=
  let d := releaseCopy d n c
  let d := d.queue n fun q =>
    let rest := q.pkts.filter fun x => decide (x.cid ≠ c.cid)
    { q with pkts := rest, deficit := if rest = [] then 0 else q.deficit }
  let d := d.ctrAdd (qCtr n 6) 1
  let d := complete g d c { half := qHalf n, slice := c.port / 32, reason := reason, queued := true, out := some c.port }
  dropFrame d c.pkt.fid

/-- The queue's pages leave its middle for the BPM (R429, R421). -/
def dropMiddle (d : Dev) (n : Nat) : Dev :=
  let h := qHalf n
  let q := d.qu n
  let d := q.mid.foldl (fun d p => orphanPage d h p.ptr) d
  let d := (q.down.filter (·.paged)).foldl (fun d w => orphanPage d h w.ptr) d
  let d := forgetDowns (d.subFrom (SPL_PAGES.COUNT h) q.mid.length) n
  let d := if q.spill then (d.subFrom (SPL_QUEUES.COUNT h) 1).put (BUF_QDEPTH.SPILLED h (lq n)) 0 else d
  d.queue n fun q => { q with mid := [], down := [], spill := false, markBank := none, markEpoch := none }

/-- R209, R195, R429: flush a queue: every waiting packet drops with the reason; a frame in transmission is finished. -/
def flushQueue (g : Grid) (d : Dev) (n reason : Nat) : Dev :=
  let ps := (d.qu n).pkts
  let d := dropMiddle d n
  let d := ps.foldl (fun d c => dropQueued g d n c reason) d
  d.queue n fun q => { q with head := q.head ++ q.tail, tail := [] }

/-- Flush the eight queues of a port. -/
def flushPort (g : Grid) (d : Dev) (p reason : Nat) : Dev :=
  (List.range 8).foldl (fun d q =>
    if (d.qu (qid p q)).pkts = [] ∧ (d.qu (qid p q)).mid = [] then d else flushQueue g d (qid p q) reason) d

/-! ### Packets in flight (R150) -/

/-- Whether a packet counts for slice s and a bank. -/
def counts (s : Nat) (bankB : Bool) (p : Pkt) : Bool :=
  p.stamped && decide (ingressSlice p = s) && decide (p.bankB = bankB)

/-- R150: packets and copies stamped in slice s with a bank and still in the device. -/
def inFlight (d : Dev) (s : Nat) (bankB : Bool) : Nat :=
  let cnt (l : List Copy) := (l.filter fun c => counts s bankB c.pkt && !c.marked).length
  (d.slices.foldl (fun a e => a + (e.2.staging.filter (counts s bankB)).length + cnt e.2.toAdmit + cnt e.2.recirc) 0)
    + (d.queues.foldl (fun a e => a + cnt e.2.pkts) 0)
    + (d.ports.foldl (fun a e => a + (match e.2.tx with
        | some t => cnt [t.copy]
        | none => 0)) 0)
    + cnt (d.buf.toRep.map (·.2))

/-- The smallest ingress epoch of the packets and copies in the device (R310). -/
def oldestEpoch (d : Dev) : Option Nat :=
  let es (l : List Copy) := (l.filter fun c => !c.marked).map fun c => c.pkt.epoch.toNat
  let all := d.slices.flatMap (fun e =>
      ((e.2.staging.filter (·.stamped)).map fun p => p.epoch.toNat) ++ es e.2.toAdmit ++ es e.2.recirc)
    ++ d.queues.flatMap (fun e => es e.2.pkts)
    ++ d.ports.flatMap (fun e => match e.2.tx with
        | some t => es [t.copy]
        | none => [])
    ++ es (d.buf.toRep.map (·.2))
  match all with
  | [] => none
  | e :: r => some (r.foldl min e)

end Sys2Proof.Machine
end

