-- ==== Sys2Proof/Machine/Lookup.lean ====
section
/-!
DEFINITION. Lookups: the Gazetteer's exact match with its version log and learn events (chapter 09, R296-R312,
R326-R330) and the associative search engine's wildcard match (chapter 10, R342-R353, R363). What changes their tables
stands in their families.
-/
namespace Sys2Proof.Machine

/-! ### The Gazetteer's tables -/

/-- The settings of a logical table (R297, R340). -/
structure GzTbl where
  en : Bool
  width : Nat
  kw : Nat
  dw : Nat
  rows : Nat
  base : Nat
  seed : Word
  ovfEn : Bool
  ovfBase : Nat
  ovfCount : Nat
  deriving DecidableEq, Repr

/-- Table t as half h's registers hold it. -/
def gzTbl (d : Dev) (h t : Nat) : GzTbl :=
  { en := d.flag (GZ_TBL_CFG.EN h t)
    width := 2 ^ d.get (GZ_TBL_CFG.WIDTH h t)
    kw := d.get (GZ_TBL_CFG.KEY_WIDTH h t)
    dw := d.get (GZ_TBL_CFG.DATA_WORDS h t)
    rows := d.get (GZ_TBL_PART.ROWS h t)
    base := d.get (GZ_TBL_PART.BASE_ROW h t)
    seed := d.word (GZ_TBL_SEED.word h t).addr
    ovfEn := d.flag (GZ_TBL_CFG.OVF_EN h t)
    ovfBase := d.get (GZ_TBL_OVF.BASE h t)
    ovfCount := d.get (GZ_TBL_OVF.COUNT h t) }

/-- R304: the candidate bucket of a key for choice c. -/
def gzBucket (seed : Word) (base rows kw key c : Nat) : Nat :=
  let n := (kw + 7) / 8
  let hash := (crc32c seed (beBytes 1 c ++ beBytes n (key * 2 ^ (8 * n - kw)))).toNat
  1024 * base + hash * rows * 1024 / 2 ^ 32

/-- R302: an entry's value from header bits, key and data. -/
def gzEntry (w kw : Nat) (static : Bool) (table port key data : Nat) : Nat :=
  (2 ^ 23 + (match w with
      | 1 => 0
      | 2 => 1
      | _ => 2) * 2 ^ 21 + table * 2 ^ 17 + (if static then 2 ^ 16 else 0) + port * 2 ^ 6) * 2 ^ (128 * w - 24)
    + key * 2 ^ (128 * w - 24 - kw) + data

/-- The header of an entry of w slots (R302). -/
def gzHeader (w e : Nat) : Nat := e / 2 ^ (128 * w - 24)

/-- Header fields. -/
def hdrValid (x : Nat) : Bool := bit x 23
def hdrWidth (x : Nat) : Nat := 2 ^ bits x 22 21
def hdrTable (x : Nat) : Nat := bits x 20 17
def hdrStatic (x : Nat) : Bool := bit x 16
def hdrPort (x : Nat) : Nat := bits x 15 6

/-- The key of an entry (R302). -/
def gzKey (w kw e : Nat) : Nat := bits e (128 * w - 25) (128 * w - 24 - kw)

/-- The place of a bucket's slot, or of an overflow entry, in the half's maps. -/
def slotKey (h b s : Nat) : Nat := h * 2 ^ 22 + b * 4 + s
def ovfKey (h i : Nat) : Nat := h * 2 ^ 14 + i

/-- The key of a location's hit bit or age. -/
def locKey (h : Nat) (ovf : Bool) (loc : Nat) : Nat := (h * 2 + (if ovf then 1 else 0)) * 2 ^ 22 + loc

/-- R310: what a slot or an overflow entry held for a packet of an ingress epoch: the oldest record of a later target. -/
def versioned (d : Dev) (h : Nat) (ovf : Bool) (loc : Nat) (epoch : Option (BitVec 64)) (now : Nat) : Nat :=
  match epoch with
  | none => now
  | some e =>
    match d.gaz.log.find? fun r => decide (r.half = h) && decide (r.ovf = ovf) && decide (r.loc = loc)
        && decide (e < r.target) with
    | some r => r.prev.toNat
    | none => now

/-- A slot's content, for an epoch. -/
def slotAt (d : Dev) (h b s : Nat) (epoch : Option (BitVec 64)) : Nat :=
  versioned d h false (b * 4 + s) epoch (d.gaz.slots.get 0 (slotKey h b s)).toNat

/-- An overflow entry's content, for an epoch. -/
def ovfAt (d : Dev) (h i : Nat) (epoch : Option (BitVec 64)) : Nat :=
  versioned d h true i epoch (d.gaz.ovf.get 0 (ovfKey h i)).toNat

/-- The value of w slots from slot s on, the first most significant (R301). -/
def entryAt (d : Dev) (h b s w : Nat) (epoch : Option (BitVec 64)) : Nat :=
  (List.range w).foldl (fun a k => a * 2 ^ 128 + slotAt d h b (s + k) epoch) 0

/-- R305: whether a value is the entry of a table for a key. -/
def gzMatches (t : GzTbl) (table key e : Nat) : Bool :=
  let x := gzHeader t.width e
  hdrValid x && decide (hdrTable x = table) && decide (hdrWidth x = t.width) && decide (gzKey t.width t.kw e = key)

/-- The matching entry of a bucket by slot. -/
def findInBucket (d : Dev) (h table : Nat) (t : GzTbl) (key b : Nat) (epoch : Option (BitVec 64)) :
    Option (Nat × Nat) :=
  ((List.range (4 / t.width)).map (· * t.width)).findSome? fun s =>
    let e := entryAt d h b s t.width epoch
    if gzMatches t table key e then some (s, e) else none

/-- Overflow indices of a half that hold or held something, within a range. -/
def ovfIndices (d : Dev) (h base count : Nat) : List Nat :=
  let inRange (i : Nat) : Bool := decide (base ≤ i) && decide (i < min 16384 (base + count))
  sortNat ((d.gaz.ovf.filterMap fun e : Nat × BitVec 512 =>
      if e.1 / 2 ^ 14 = h ∧ inRange (e.1 % 2 ^ 14) then some (e.1 % 2 ^ 14) else none)
    ++ (d.gaz.log.filterMap fun r => if r.ovf ∧ r.half = h ∧ inRange r.loc then some r.loc else none))

/-- The matching overflow entry of lowest index. -/
def findInOvf (d : Dev) (h table : Nat) (t : GzTbl) (key : Nat) (epoch : Option (BitVec 64)) : Option (Nat × Nat) :=
  if t.ovfEn then
    (ovfIndices d h t.ovfBase t.ovfCount).findSome? fun i =>
      let e := ovfAt d h i epoch
      if gzMatches t table key e && !d.gaz.badOvf.contains (h, i) then some (i, e) else none
  else none

/-- The buckets a lookup reads: both candidates, and both of the target partition while MIGRATING (R305, R323). -/
def gzCandidates (d : Dev) (h table : Nat) (t : GzTbl) (key : Nat) : List Nat :=
  let old := [gzBucket t.seed t.base t.rows t.kw key 0, gzBucket t.seed t.base t.rows t.kw key 1]
  if d.get (GZ_TBL_STATE.STATE h table) = 1 then
    let j := d.wget (wkey (mbxGz h) (3 * 2 ^ 28 + table))
    let seed := BitVec.ofNat 32 (dataWord j 0)
    let rows := bits (dataWord j 2) 25 16
    let base := bits (dataWord j 2) 9 0
    old ++ [gzBucket seed base rows t.kw key 0, gzBucket seed base rows t.kw key 1]
  else old

/-- Where an entry lies: overflow or bucket, index, slot; and its value. -/
structure GzHit where
  ovf : Bool
  index : Nat
  slot : Nat
  e : Nat
  deriving DecidableEq, Repr

/-- R305, R326: the entry of a key in a half's replica, buckets under restore counting as empty. -/
def gzFind (d : Dev) (h table key : Nat) (epoch : Option (BitVec 64)) : Option GzHit :=
  let t := gzTbl d h table
  if t.en then
    match (gzCandidates d h table t key).findSome? fun b =>
        if d.gaz.badBuckets.contains (h, b) then none
        else (findInBucket d h table t key b epoch).map fun x => (⟨false, b, x.1, x.2⟩ : GzHit) with
    | some x => some x
    | none => (findInOvf d h table t key epoch).map fun x => ⟨true, x.1, 0, x.2⟩
  else none

/-- The place of a hit in its half's maps of hit bits and ages. -/
def GzHit.loc (x : GzHit) : Nat := if x.ovf then x.index else x.index * 4 + x.slot

/-- R327: a half finds a parity error: the bucket or overflow entry is bad until restored. -/
def gzBad (d : Dev) (h table : Nat) (ovf : Bool) (index : Nat) : Dev :=
  let known := if ovf then d.gaz.badOvf.contains (h, index) else d.gaz.badBuckets.contains (h, index)
  if known then d else
    let d := { d with gaz := { d.gaz with
      badOvf := if ovf then d.gaz.badOvf ++ [(h, index)] else d.gaz.badOvf
      badBuckets := if ovf then d.gaz.badBuckets else d.gaz.badBuckets ++ [(h, index)] } }
    let d := d.setWord (GZ_EVENT.word h).addr
      (BitVec.ofNat 32 (table * 2 ^ 28 + 4 * 2 ^ 24 + (if ovf then 2 ^ 23 else 0) + index))
    let d := (d.event (GZ_STATUS.PARITY h)).bump (GZ_CNT_PARITY h)
    let src := srcHalf h (if ovf then 0x42 else index % 1024 / 16)
    (d.report src (d.word (GZ_EVENT.word h).addr).toNat).rowFail src index

/-- R330: a slice emits a learn event, once per table and key in an epoch, into its queue of 64. -/
def emitLearn (d : Dev) (s : Nat) (x : Learn) : Dev :=
  let sl := d.sl s
  if sl.learnKeys.contains (x.table, x.key) then d else
    let d := d.slice s fun y => { y with learnKeys := y.learnKeys ++ [(x.table, x.key)] }
    if sl.learn.length < 64 then d.slice s fun y => { y with learn := y.learn ++ [x] }
    else
      -- the count goes to the half of the table's owner (R340)
      d.bump (GZ_CNT_LEARN_DROP (d.get (GZ_TBL_CFG.OWNER 0 x.table)))

/-- A place of the overflow store that the range of a table takes in; the store ends at index 16,383 (R307). -/
def inOvfRange (t : GzTbl) (i : Nat) : Bool :=
  t.ovfEn && decide (t.ovfBase ≤ i) && decide (i < t.ovfBase + t.ovfCount) && decide (i < 16384)

/-- R326: the places of a lookup of a key that are found bad as it reads them. -/
def gzMeetBad (d : Dev) (h table : Nat) (t : GzTbl) (k : Nat) (bad : List GzPlace) : Dev :=
  bad.foldl (fun d x => match x with
    | .cand c => match (gzCandidates d h table t k)[c.val]? with
      | some b => gzBad d h table false b
      | none => d
    | .ovf i => if inOvfRange t i then gzBad d h table true i else d) d

/-- R326: a lookup of a key meets a place that is bad: a candidate bucket, or an entry of the overflow range. -/
def gzLookupMet (d : Dev) (h table : Nat) (t : GzTbl) (k : Nat) : Bool :=
  ((gzCandidates d h table t k).any fun b => d.gaz.badBuckets.contains (h, b))
    || d.gaz.badOvf.any fun x => decide (x.1 = h) && inOvfRange t x.2

/-- R329: what a lookup of an ingress stage that met no error teaches: a miss, or a hit of a learned entry on another
port. -/
def gzLearns (d : Dev) (h table inPort : Nat) (met : Bool) (hit : Option Nat) : Bool :=
  d.flag (GZ_TBL_CFG.LEARN_EN h table) && !met && match hit with
    | some hd => !hdrStatic hd && decide (hdrPort hd ≠ inPort)
    | none => true

/-- An exact-match lookup of a stage (R251, R300, R305, R306, R326, R329): the key's value and width, the places found bad
as it reads them. Answers whether it hit and the entry's value. A table with EN = 0 misses and reads nothing. -/
def gzLookup (d : Dev) (s : Nat) (ingress : Bool) (p : Pkt) (table key width : Nat) (bad : List GzPlace) :
    (Bool × Nat) × Dev :=
  let h := s / 16
  let t := gzTbl d h table
  let d := d.pmuEvent (halfPmu h) 0x03 1
  let k := if width ≤ t.kw then key * 2 ^ (t.kw - width) else key / 2 ^ (width - t.kw)
  let ev : Learn := ⟨table, BitVec.ofNat 512 k, p.inPort, p.epoch, s⟩
  let learn (met : Bool) (hit : Option Nat) (d : Dev) : Dev :=
    if ingress && gzLearns d h table p.inPort met hit then emitLearn d s ev else d
  if !t.en then ((false, 0), learn false none d) else
    let d := gzMeetBad d h table t k bad
    let met := gzLookupMet d h table t k
    match gzFind d h table k (some p.epoch) with
    | some x =>
      let lk := locKey h x.ovf x.loc
      let d := { d with gaz := { d.gaz with hits := d.gaz.hits.put false lk true } }
      let d := d.pmuEvent (halfPmu h) 0x04 1
      ((true, x.e), learn met (some (gzHeader t.width x.e)) d)
    | none => ((false, 0), learn met none d)

/-- R303, R255: result word i of a lookup's entry. -/
def resWord (t : GzTbl) (e i : Nat) : Word := if i < t.dw then BitVec.ofNat 32 (bits e (32 * i + 31) (32 * i)) else 0

/-! ### The associative search engine -/

/-- The banks a slice has (R342, R371). -/
def aseBanks (d : Dev) : Nat := 2 * d.get ID_CAP.ASE_BANKS_DIV2

/-- The key of an entry of slice s. -/
def aseKey (s bank row : Nat) : Nat := s * 2 ^ 15 + bank * 2048 + row

/-- Width of a bank in units (R342). -/
def aseWidth (d : Dev) (s b : Nat) : Nat := 2 ^ d.get (ASE_BANK_CFG.WIDTH s b)

/-- The banks a profile names. -/
def profBanks (d : Dev) (s bank p : Nat) : List Nat :=
  (List.range 16).filter fun b => bit (d.get (ASE_PROF.BANKS s bank p)) b

/-- R350: a profile that cannot be searched. -/
def profBad (d : Dev) (s bank p : Nat) : Bool :=
  let bs := profBanks d s bank p
  bs.any fun b => decide (b ≥ aseBanks d) || !d.flag (ASE_BANK_CFG.EN s b) || d.flag (ASE_BANK_CFG.MIRROR s b)
    || decide (aseWidth d s b ≠ aseWidth d s (bs.headD 0))

/-- R348: whether place (pri, index) a comes before b. -/
def before (a b : Nat × Nat) : Bool := decide (b.1 < a.1) || (decide (a.1 = b.1) && decide (a.2 < b.2))

/-- R364: value and mask as the ternary cells of a bank of w units hold them for an entry at a row. A search takes the primary
(DESIGN CHOICE, log entry 153). -/
def aseCells (d : Dev) (s w idx : Nat) (e : AseEntry) : BitVec 320 × BitVec 320 :=
  if d.aseFlips = [] then (e.v, e.m) else
    let flip (f : BitVec 80 × BitVec 80 → BitVec 80) : BitVec 320 :=
      BitVec.ofNat 320 ((List.range w).foldl (fun a q =>
        a + (f (d.aseFlips.get (0, 0) (s * 2 ^ 15 + idx + q))).toNat * 2 ^ (320 - 80 * (q + 1))) 0)
    (e.v ^^^ flip (·.1), e.m ^^^ flip (·.2))

/-- R367: a search with key kv, aligned at the top of 320 bits, enables a partition of a bank. -/
def asePartOn (d : Dev) (s b i : Nat) (kv : BitVec 320) : Bool :=
  let field := kv.toNat / 2 ^ (312 - d.get (ASE_BANK_CFG.PF_OFF s b)) % 256
  let mask := d.get (ASE_PF.MASK s b i)
  !d.flag (ASE_BANK_CFG.PF_EN s b) || decide (field &&& mask = d.get (ASE_PF.VALUE s b i) &&& mask)

/-- R346, R347, R367: the matches of a key in a profile's banks: priority, index, result word. -/
def aseMatches (d : Dev) (s : Nat) (bs : List Nat) (w key width : Nat) : List (Nat × Nat × Word) :=
  let n := 80 * w
  let k := if width ≤ n then key * 2 ^ (n - width) else key / 2 ^ (width - n)
  let kv := BitVec.ofNat 320 (k * 2 ^ (320 - n))
  d.ase.filterMap fun e =>
    let idx := e.1 % 2 ^ 15
    if e.1 / 2 ^ 15 = s ∧ bs.contains (idx / 2048) ∧ e.2.valid then
      let c := aseCells d s w idx e.2
      if (kv ^^^ c.1) &&& c.2 = 0 ∧ asePartOn d s (idx / 2048) (idx % 2048 / 64) kv then some (e.2.pri, idx, e.2.res)
      else none
    else none

/-- The first of a list of matches in R348's order. -/
def bestMatch (l : List (Nat × Nat × Word)) : Option (Nat × Nat × Word) :=
  l.foldl (fun b x => match b with
    | none => some x
    | some y => if before (x.1, x.2.1) (y.1, y.2.1) then some x else b) none

/-- What lookup C returns: RES_C0 and RES_C1 (R351), whether it hit, whether it searched, and whether the throttle counts the
search as best-effort (R369, R370). -/
structure AseRes where
  hit : Bool := false
  searched : Bool := false
  best : Bool := true
  c0 : Word := 0
  c1 : Word := 0
  deriving DecidableEq, Repr

/-- RES_C0's layout. -/
def aseC0 (multi : Bool) (low : Nat) : Word := BitVec.ofNat 32 (2 ^ 31 + (if multi then 2 ^ 30 else 0) + low)

/-- R349-R353, R370: lookup C of a packet with profile p. -/
def aseLookup (d : Dev) (s : Nat) (pk : Pkt) (p key width : Nat) : AseRes × Pkt × Dev :=
  let bank := if pk.bankB then 1 else 0
  if !d.flag (ASE_PROF.EN s bank p) then ({}, pk, d) else
    let mode := d.get (ASE_PROF.MODE s bank p)
    if mode = 2 ∧ pk.resumes ≥ 4 then ({}, pk, d.bump (ASE_CNT_RESUME_LIMIT s)) else
      let pk := if mode = 2 then { pk with resumes := pk.resumes + 1 } else pk
      if profBad d s bank p then ({}, pk, d.bump (ASE_CNT_PROF_ERR s)) else
        let bs := profBanks d s bank p
        let promised := d.flag (ASE_PROF.PROMISED s bank p)
        let exempt := promised && bs.all fun b => d.flag (ASE_BANK_CFG.PF_EN s b)
        let d := if promised && !exempt then d.bump (ASE_CNT_PROF_ERR s) else d
        let none' : AseRes := { searched := true, best := !exempt }
        let d := (d.bump (ASE_CNT_SEARCHES s)).pmuEvent (slicePmu s) 0x05 1
        let pk := pk.act 6 1
        let d := if mode = 2 then d.bump (ASE_CNT_RESUMES s) else d
        let all := aseMatches d s bs (aseWidth d s (bs.headD 0)) key width
        if mode = 2 then
          match pk.cursor with
          | none => (none', pk, d)
          | some cur =>
            let later := all.filter fun x => before cur (x.1, x.2.1)
            match bestMatch later with
            | none => (none', pk, d)
            | some b =>
              let multi := later.length ≥ 2
              let d := d.bump (ASE_CNT_HITS s)
              let d := if multi then d.bump (ASE_CNT_MULTI s) else d
              ({ none' with hit := true, c0 := aseC0 multi b.2.1, c1 := b.2.2 }, { pk with cursor := some (b.1, b.2.1) }, d)
        else
          match bestMatch all with
          | none => (none', pk, d)
          | some b =>
            let multi := decide (all.length ≥ 2)
            let d := d.bump (ASE_CNT_HITS s)
            let d := if multi then d.bump (ASE_CNT_MULTI s) else d
            if mode = 1 then ({ none' with hit := true, c0 := aseC0 multi (min all.length 4095), c1 := b.2.2 }, pk, d)
            else ({ none' with hit := true, c0 := aseC0 multi b.2.1, c1 := b.2.2 },
              { pk with cursor := some (b.1, b.2.1) }, d)

end Sys2Proof.Machine
end

