-- ==== Sys2Proof/Machine/Parser.lean ====
section
/-!
DEFINITION. The parser and the classifier (chapter 07, R221-R250): the walk of the parse graph over a frame's first
384 bytes, the checks, the classes, the two classifier lookups. What becomes of the packet stands in Ingress.
-/
namespace Sys2Proof.Machine

/-- A header that completed, and what the walk knew then (R244's boundaries). -/
structure Boundary where
  hdrCount : Nat
  endOff : Nat
  ptype : Nat
  deriving DecidableEq, Repr

/-- The walk's state. -/
structure Walk where
  state : Nat
  off : Nat := 0
  trans : Nat := 0
  /-- The enclosing end, and whether it is the frame end (R234). -/
  encl : Nat
  enclFrame : Bool := true
  ptype : Nat := 0
  hdrs : List (Nat × Nat × Nat) := []
  vec : SMap Word := []
  /-- The outermost datagram's end (R236), where one was seen. -/
  outer : Option Nat := none
  outerSeen : Bool := false
  /-- LONG_LEN tests put off (R237). -/
  ends : List Nat := []
  csum : Nat := 0
  frag : Bool := false
  last : Option Boundary := none
  lastOuter : Option Boundary := none
  /-- The entries bad in both copies that the lookups met: table and entry (R668). -/
  met : List (Nat × Nat) := []
  deriving DecidableEq, Repr

/-- How a walk went: it ended with a class and a cause, or waits for bytes. -/
inductive WalkEnd where
  | done (cls cause : Nat) (w : Walk)
  | wait
  deriving DecidableEq, Repr

/-- What the walk reads of the frame: its bytes up to the frame end and the window; of a whole frame its length, else how
many bytes are known to lie before the frame end; the frame end where it is known; whether end tests are put off (R229,
R237). -/
structure View where
  bytes : List Byte
  avail : Nat
  fe : Option Nat
  long : Bool
  deriving DecidableEq, Repr

/-- The view of a frame: a frame longer than 256 bytes puts its end tests off (R237). Of a frame still arriving at least one
byte is to come, so that all but the last 3 of its bytes are known to be no FCS (R221). -/
def viewOf (f : Frame) : View :=
  let n := f.bytes.length
  if f.complete then
    { bytes := f.bytes.take (min (n - 4) 384), avail := n, fe := some (n - 4), long := decide (n > 256) }
  else { bytes := f.bytes.take (min (n - 3) 384), avail := n - 3, fe := none, long := true }

/-- Bits [lo, lo + width) of the frame, counted from bit 0 of byte `off`, most significant first (R221); bits beyond the
frame end read 0. -/
def View.field (v : View) (off lo width : Nat) : Nat :=
  let b := beNat (bytesAt v.bytes (off + lo / 8) 4)
  b / 2 ^ (32 - lo % 8 - width) % 2 ^ width

/-- R227: transition entry `n` of slice s's bank. -/
def ttEntry (d : Dev) (s b n : Nat) : Nat := d.wget (wkey (mbxPrs s) (b * 65536 + n))

/-- R241: classifier entry `n`. -/
def clEntry (d : Dev) (s b n : Nat) : Nat := d.wget (wkey (mbxPrs s) (b * 65536 + 8192 + n))

/-- The entries a lookup reads: the bucket's two slots and the 32 overflow entries (R228). -/
def entriesOf (bucket slots : Nat) : List Nat := [2 * bucket, 2 * bucket + 1] ++ (List.range 32).map (slots + ·)

/-- The entries a lookup reads that are bad in both copies (R668): table 0 transition, 1 classifier, 2 the words of the bank window,
by their place in it (R247). -/
def meetsBad (d : Dev) (s b table : Nat) (es : List Nat) : List Nat :=
  if d.badEntries = [] then [] else es.filter fun e => d.badEntries.contains (s, 32, b, table, e)

/-- The window words of a state that its visit reads, those of an instance's extracts, and those of the classifier's key. -/
def stateWords (st : Nat) : List Nat := [4 * st, 4 * st + 1, 4 * st + 2]
def extWords (inst : Nat) : List Nat := if inst < 24 then (List.range 16).map fun j => 0x300 + 16 * inst + j else []
def keyWords (t : Nat) : List Nat := [0x202, 0x500 + t]

/-- The window words that are bad in both copies, as entries met. -/
def meetsWords (d : Dev) (s b : Nat) (ws : List Nat) : List (Nat × Nat) := (meetsBad d s b 2 ws).map fun w => (2, w)

/-- What a transition lookup gives: kind (1 goto, 2 ACCEPT, 3 REJECT) and next state. -/
inductive Trans where
  | to (kind next : Nat)
  | miss
  | bad (es : List (Nat × Nat))
  deriving DecidableEq, Repr

/-- R227, R228: look up (STATE, VALUE). -/
def ttLookup (d : Dev) (s b state value : Nat) : Trans :=
  let h := (crc32c (d.word (PRS_TT_SEED.word s b).addr) (beBytes 1 state ++ beBytes 4 value)).toNat
  let es := entriesOf (h % 1024) 2048
  match meetsWords d s b [0x201] ++ (meetsBad d s b 0 es).map fun e => (0, e) with
  | x :: l => .bad (x :: l)
  | [] => match es.findSome? fun n =>
        let e := ttEntry d s b n
        if bits e 47 46 ≠ 0 ∧ dataWord e 0 = value ∧ bits e 37 32 = state then some (bits e 47 46, bits e 45 40)
        else none with
    | some (k, n) => .to k n
    | none => .miss

/-- R230: the extracts of a recorded instance. -/
def extract (d : Dev) (s b inst off : Nat) (v : View) (vec : SMap Word) : SMap Word :=
  (List.range 16).foldl (fun vec j =>
    let c := d.get (PRS_EXT.CONT s b (inst * 16 + j))
    if c > 221 ∨ (152 ≤ c ∧ c ≤ 159) then vec else
      vec.put 0 c (BitVec.ofNat 32 (beNat (bytesAt v.bytes (off + d.get (PRS_EXT.OFF s b (inst * 16 + j))) (contWidth c)))))
    vec

/-- The byte up to which recording a header reads: its extracts, and of an IPv4 header the fragment fields and the
checksummed bytes, within the window (R223, R230, R235, R238). -/
def recordReach (d : Dev) (s b inst chk off : Nat) (v : View) : Nat :=
  let ext := if inst < 24 then (List.range 16).foldl (fun m j =>
      let c := d.get (PRS_EXT.CONT s b (inst * 16 + j))
      if c > 221 ∨ (152 ≤ c ∧ c ≤ 159) then m
      else max m (off + d.get (PRS_EXT.OFF s b (inst * 16 + j)) + contWidth c)) 0 else 0
  let ip := if chk = 1 then
      off + max 8 (if d.flag (PRS_CHECKS.CSUM_EN s b) then 4 * (beNat (bytesAt v.bytes off 1) % 16) else 0) else 0
  min 384 (max ext ip)

/-- R238: the ones-complement sum of an IPv4 header is right. -/
def csumOk (v : View) (off ihl : Nat) : Bool :=
  let sum := (List.range (2 * ihl)).foldl (fun a i => a + beNat (bytesAt v.bytes (off + 2 * i) 2)) 0
  let f1 := sum % 65536 + sum / 65536
  decide (f1 % 65536 + f1 / 65536 = 65535)

/-- What a check finds (R233-R235): a cause of MALFORMED, or the new enclosing end, the outermost end it names, a put-off
test, whether the header is a fragment, and whether its checksum is wrong. -/
structure Checked where
  cause : Nat := 0
  encl : Option Nat := none
  datagram : Option (Option Nat) := none
  put : List Nat := []
  frag : Bool := false
  csumBad : Bool := false
  deriving DecidableEq, Repr

/-- R233: the checks of a state's header at `off`. -/
def runCheck (d : Dev) (s b chk off : Nat) (v : View) (w : Walk) : Checked :=
  let byte (i : Nat) := beNat (bytesAt v.bytes (off + i) 1)
  let avail := w.encl - off
  let putOff := w.enclFrame && v.long
  match chk with
  | 1 =>
    let ihl := byte 0 % 16
    let tl := beNat (bytesAt v.bytes (off + 2) 2)
    if byte 0 / 16 ≠ 4 then { cause := 1 }
    else if ihl < 5 then { cause := 2 }
    else if tl < ihl * 4 then { cause := 3 }
    else if !putOff && decide (tl > avail) then { cause := 4 }
    else
      { encl := some (off + tl), datagram := some (some (off + tl)), put := if putOff then [off + tl] else []
        frag := decide (beNat (bytesAt v.bytes (off + 6) 2) % 0x4000 ≠ 0)
        csumBad := d.flag (PRS_CHECKS.CSUM_EN s b) && !csumOk v off ihl }
  | 2 =>
    let pl := beNat (bytesAt v.bytes (off + 4) 2)
    if byte 0 / 16 ≠ 6 then { cause := 1 }
    else if pl ≠ 0 ∧ !putOff ∧ 40 + pl > avail then { cause := 4 }
    else if pl ≠ 0 then
      { encl := some (off + 40 + pl), datagram := some (some (off + 40 + pl))
        put := if putOff then [off + 40 + pl] else [] }
    else { datagram := some (if w.enclFrame then none else some w.encl) }
  | 3 => { frag := true }
  | _ => {}

/-- R226: the key's VALUE and the byte it reaches to. -/
def stateKey (d : Dev) (s b st off : Nat) (v : View) : Option (Nat × Nat) :=
  let w0 := min 16 (d.get (PRS_STATE_KEY.K0_WIDTH s b st))
  let w1 := min 16 (d.get (PRS_STATE_KEY.K1_WIDTH s b st))
  if w0 = 0 ∧ w1 = 0 then none else
    let o0 := d.get (PRS_STATE_KEY.K0_OFF s b st)
    let o1 := d.get (PRS_STATE_KEY.K1_OFF s b st)
    let reach := max (if w0 = 0 then 0 else off + (o0 + w0 + 7) / 8) (if w1 = 0 then 0 else off + (o1 + w1 + 7) / 8)
    some (v.field off o0 w0 * 2 ^ w1 + v.field off o1 w1, reach)

/-- The frame end lies within the window's reach (R229's "frame end <= 384"). -/
def View.short (v : View) : Bool := match v.fe with
  | some f => decide (f ≤ 384)
  | none => false

/-- Bytes up to `need` have not arrived and may still come (R223); what lies past the window needs only that the frame end is
known to lie past it. -/
def View.waits (v : View) (need : Nat) : Bool := v.fe.isNone && decide (v.avail < min need 385)

/-- Past the frame end of a frame whose end lies within the window. -/
def View.past (v : View) (n : Nat) : Bool := match v.fe with
  | some f => decide (n > f) && decide (f ≤ 384)
  | none => false

/-- R229: one visit of a state after another; `fuel` bounds the 24 transitions. -/
def walk (d : Dev) (s b : Nat) (v : View) (fuel : Nat) (w : Walk) : WalkEnd :=
  match fuel with
  | 0 => .done 4 1 w
  | fuel + 1 =>
    let st := w.state
    let spoilt := meetsWords d s b (stateWords st)
    if spoilt ≠ [] then .done 2 5 { w with met := spoilt }
    else if !d.flag (PRS_STATE_HDR.VALID s b st) then .done 2 2 w else
      let lw := d.get (PRS_STATE_LEN.LF_WIDTH s b st)
      let lo := d.get (PRS_STATE_LEN.LF_OFF s b st)
      let chk := d.get (PRS_STATE_HDR.CHECK s b st)
      let need := w.off + max (if lw = 0 then 0 else (lo + lw + 7) / 8) (match chk with
        | 1 => 4
        | 2 => 6
        | _ => 0)
      if v.waits need then .wait
      else if v.past need then .done 2 3 w
      else if need > 384 then .done 4 2 w
      else
        let f := if lw = 0 then 0 else v.field w.off lo lw
        let len := d.get (PRS_STATE_LEN.FIXED s b st) + f * 2 ^ d.get (PRS_STATE_LEN.LF_SHIFT s b st)
        let fin := w.off + len
        if v.waits fin then .wait
        else if v.past fin then .done 2 3 w
        else if fin > 384 then .done 4 2 w
        else
          let inst := d.get (PRS_STATE_HDR.HDR s b st)
          if inst < 24 ∧ w.hdrs.any (fun h => decide (h.1 = inst)) then .done 2 4 w else
            let c := runCheck d s b chk w.off v w
            let spoilt := meetsWords d s b (extWords inst)
            if c.cause ≠ 0 then .done 3 c.cause w
            else if spoilt ≠ [] then .done 2 5 { w with met := spoilt }
            else if v.waits (recordReach d s b inst chk w.off v) then .wait
            else
              let pt := d.get (PRS_STATE_HDR.PTYPE s b st)
              let w' : Walk := { w with
                ptype := if pt = 0 then w.ptype else pt
                hdrs := if inst < 24 then w.hdrs ++ [(inst, w.off, len)] else w.hdrs
                vec := if inst < 24 then extract d s b inst w.off v w.vec else w.vec
                encl := match c.encl with
                  | some e => e
                  | none => w.encl
                enclFrame := w.enclFrame && c.encl.isNone
                outer := if w.outerSeen then w.outer else match c.datagram with
                  | some o => o
                  | none => none
                outerSeen := w.outerSeen || c.datagram.isSome
                ends := w.ends ++ c.put
                csum := if c.csumBad then w.csum + 1 else w.csum
                frag := c.frag }
              let bd : Boundary := ⟨w'.hdrs.length, fin, w'.ptype⟩
              let w' := { w' with
                last := some bd
                lastOuter := if d.flag (PRS_STATE_HDR.OUTER s b st) then some bd else w'.lastOuter }
              let stop := { w' with off := fin }
              if c.frag then .done 0 0 stop else
                let key := stateKey d s b st w.off v
                let reach := match key with
                  | some k => k.2
                  | none => 0
                if reach > 384 then .done 4 3 stop
                else if v.waits reach then .wait
                else
                  let r := match key with
                    | some k => ttLookup d s b st k.1
                    | none => .miss
                  let (kind, next) := match r with
                    | .to k n => (k, n)
                    | _ => (d.get (PRS_STATE_HDR.DEF_KIND s b st), d.get (PRS_STATE_HDR.DEF_NEXT s b st))
                  let met := match r with
                    | .bad es => es
                    | _ => []
                  if met ≠ [] then .done 2 5 { stop with met := met }
                  else if kind = 2 then .done 0 0 stop
                  else if kind ≠ 1 then .done 2 1 stop
                  else if w.trans = 24 then .done 4 1 stop
                  else walk d s b v fuel { stop with trans := w.trans + 1, state := next }

/-- R240: a selector's value for OKEY. -/
def okeySel (vec : SMap Word) (sel : Nat) : Nat :=
  if bit sel 15 then
    let c := sel % 256
    let x := (vec.get 0 c).toNat
    if c < 64 then x % 256 else if c < 160 then x % 65536 else if bit sel 8 then x / 65536 else x % 65536
  else 0

/-- R240: OKEY of a packet type. -/
def okey (d : Dev) (s b t : Nat) (vec : SMap Word) : Nat :=
  okeySel vec (d.get (PRS_OKEY.SEL1 s b t)) * 65536 + okeySel vec (d.get (PRS_OKEY.SEL0 s b t))

/-- A classifier lookup: hit with PROGRAM and CLASS_META, a miss, or a bad entry. -/
inductive Class where
  | hit (program cmeta : Nat)
  | miss
  | bad (es : List (Nat × Nat))
  deriving DecidableEq, Repr

/-- R240, R241: the classifier. -/
def classify (d : Dev) (s b portClass ptype key : Nat) : Class :=
  let h := (crc32c (d.word (PRS_CL_SEED.word s b).addr) (beBytes 1 portClass ++ beBytes 1 ptype ++ beBytes 4 key)).toNat
  let es := entriesOf (h % 2048) 4096
  match meetsWords d s b (keyWords ptype) ++ (meetsBad d s b 1 es).map fun e => (1, e) with
  | x :: l => .bad (x :: l)
  | [] => match es.findSome? fun n =>
        let e := clEntry d s b n
        let w := dataWord e 1
        if bit w 31 ∧ dataWord e 0 = key ∧ bits w 7 0 = portClass ∧ bits w 15 8 = ptype then
          some (bits w 23 16, dataWord e 2 % 65536) else none with
    | some (p, m) => .hit p m
    | none => .miss

/-- What the parser and classifier make of a packet. -/
structure Parsed where
  cls : Nat
  cause : Nat
  walk : Walk
  /-- The entry that runs: PROGRAM and CLASS_META; none for a default action. -/
  run : Option (Nat × Nat)
  outerFwd : Bool
  ptypeUsed : Nat
  ptypeParsed : Nat
  payload : Nat
  hdrs : List (Nat × Nat × Nat)
  hdrValid : Nat
  vec : SMap Word
  pad : Nat
  portClass : Nat
  defer : Option Deferred
  /-- The entries bad in both copies that its lookups met: table and entry (R668). -/
  met : List (Nat × Nat)
  /-- A second classifier lookup was made (R224, R244). -/
  second : Bool := false
  deriving DecidableEq, Repr

/-- R236: the trailing count of a parse that ended as OK. -/
def trailing (w : Walk) (fe : Nat) : Nat := match w.outer with
  | some e => fe - e
  | none => 0

/-- The HDR_VALID bits of a list of recorded instances. -/
def validBits (hs : List (Nat × Nat × Nat)) : Nat := hs.foldl (fun a h => a + 2 ^ h.1) 0

/-- Containers that the extracts of an instance write. -/
def instConts (d : Dev) (s b inst : Nat) : List Nat :=
  (List.range 16).filterMap fun j =>
    let c := d.get (PRS_EXT.CONT s b (inst * 16 + j))
    if c > 221 ∨ (152 ≤ c ∧ c ≤ 159) then none else some c

/-- R244, R245: a packet of a class other than OK takes its outer result where the default word of the class asks for
it: the entry found there runs. -/
def outerRun (d : Dev) (s b p : Nat) (base : Parsed) : Parsed :=
  let w := base.walk
  if d.get (PRS_DEF.ACTION s b p (base.cls - 1)) = 3 then
    match (if base.cls = 4 then w.last else w.lastOuter) with
    | none => base
    | some bd =>
      let keepH := w.hdrs.take bd.hdrCount
      let gone := (w.hdrs.drop bd.hdrCount).flatMap fun h => instConts d s b h.1
      let vec := gone.foldl (fun m c => m.put 0 c 0) w.vec
      match classify d s b base.portClass bd.ptype (okey d s b bd.ptype vec) with
      | .hit prog cm => { base with
          run := some (prog, cm), outerFwd := true, ptypeUsed := bd.ptype
          hdrs := w.hdrs, hdrValid := validBits keepH, vec := vec, second := true }
      | .miss => { base with second := true }
      | .bad es => { base with cls := 2, cause := 5, met := base.met ++ es, second := true }
  else base

/-- R229-R245: parse and classify a frame of slice s under port entry p of a bank; none while bytes are awaited. -/
def parse (d : Dev) (s b p : Nat) (f : Frame) : Option Parsed :=
  let v := viewOf f
  let w0 : Walk := { state := d.get (PRS_PORT.START s b p), encl := match v.fe with
    | some e => e
    | none => 0 }
  let spoilt := meetsWords d s b [0x100 + p, 0x203]
  match (if spoilt = [] then walk d s b v 26 w0 else .done 2 5 { w0 with met := spoilt }) with
  | .wait => none
  | .done cls cause w =>
    let pc := d.get (PRS_PORT.PORT_CLASS s b p)
    let tmax := d.get (PRS_CHECKS.TRAIL_MAX s b)
    -- R236: the trailing count of an OK parse, unless it is put off (R237)
    let tr := match v.fe with
      | some fe => trailing w fe
      | none => 0
    let badTrail := decide (cls = 0) && !v.long && decide (tr > tmax) && decide (v.avail ≠ 64)
    let (cls, cause) := if badTrail then (3, 5) else (cls, cause)
    let defer : Option Deferred := if v.long then
      some { ends := w.ends, outerEnd := if cls = 0 then w.outer else none, trailMax := tmax, slice := s } else none
    let ended := decide (cls = 0)
    let mk (cls cause : Nat) (run : Option (Nat × Nat)) (used : Nat) (bad : List (Nat × Nat)) : Parsed :=
      { cls := cls, cause := cause, walk := w, run := run, outerFwd := false, ptypeUsed := used, ptypeParsed := w.ptype
        payload := w.off, hdrs := w.hdrs, hdrValid := validBits w.hdrs, vec := w.vec
        pad := if ended then tr else 0, portClass := pc, defer := defer, met := w.met ++ bad }
    let first := if cls = 0 then classify d s b pc w.ptype (okey d s b w.ptype w.vec) else .miss
    match cls, first with
    | 0, .hit prog cm => some (mk 0 0 (some (prog, cm)) w.ptype [])
    | 0, .bad es => some (outerRun d s b p (mk 2 5 none 0 es))
    | 0, .miss => some (outerRun d s b p (mk 1 0 none 0 []))
    | c, _ => some (outerRun d s b p (mk c cause none 0 []))

/-- R224: the parser's cycles for a packet. -/
def parseCycles (p : Parsed) : Nat := 20 + (p.walk.trans - 12) + (if p.second then 4 else 0)

end Sys2Proof.Machine
end

