-- ==== Sys2Proof/Machine/Stages.lean ====
section
/-!
DEFINITION. The match-action stages (chapter 08, R251-R271, R285-R291): selectors, keys, the entry word, microwords,
stateful units, precise samples (R529, R530), and a whole pass of a pipeline with the replays of R288-R290.
-/
namespace Sys2Proof.Machine

/-! ### Selectors (R254-R256) -/

/-- The bits a descriptor field holds (R256); reserved fields hold none. -/
def descMask : Nat → Nat
  | 224 => 0x3FF
  | 225 => 0xFFF
  | 226 => 7
  | 227 => 0x3FFF
  | 228 => 7
  | 229 => 0xFFFFFFFF
  | 230 => 0xFF
  | 231 => 0xFF
  | 232 => 0xFFFFFFFF
  | 233 => 0xFFFFFFFF
  | 234 => 0xFFFF01FF
  | 235 => 0xFF
  | 236 => 0xFFFF
  | 237 => 0xFFFF
  | _ => 0

/-- The bits a destination holds: a container's width, or a descriptor field's bits. -/
def selMask (sel : Nat) : Nat := if sel < 224 then 2 ^ (8 * contWidth sel) - 1 else descMask sel

/-- The largest value of a destination (R262): the PTP field counts as 32 bits, and so does a result no selector
takes. -/
def selMax (sel : Nat) : Nat :=
  if sel = 234 ∨ sel ≥ 238 then 0xFFFFFFFF else selMask sel

/-- R256: the descriptor fields a microword of the egress pipeline may write. -/
def egWritable (sel : Nat) : Bool := [227, 228, 232, 233, 234, 235].contains sel

/-- R255: write a destination; selectors above 239 and fields that are not writable write nothing. -/
def writeSel (ig : Bool) (pk : Pkt) (sel : Nat) (v : Word) : Pkt :=
  if sel < 224 ∨ (sel < 240 ∧ (ig ∨ egWritable sel)) then
    { pk with vec := pk.vec.put 0 sel (BitVec.ofNat 32 (v.toNat % 2 ^ 32 &&& selMask sel)) }
  else pk

/-- A stage at work: slice, stage (0-15 ingress, 16-27 egress), bank, the low 32 bits of PTP ns at the stage's start, the
core cycles since the packet's first parser entry, whether the pass is a replay, the lookups' result words (selectors
240-249), and the stateful words the abandoned pass used (R289): stage, unit, word. -/
structure StgCtx where
  s : Nat
  g : Nat
  b : Nat
  time : Word
  cycles : Nat
  replay : Bool
  res : List Word
  past : List (Nat × Nat × Nat)
  suUncorr : List Nat
  deriving DecidableEq, Repr

/-- The stage is of the ingress pipeline. -/
def StgCtx.ig (c : StgCtx) : Bool := decide (c.g < 16)

/-- R254: read a source. -/
def srcVal (c : StgCtx) (imm : Nat) (pk : Pkt) (d : Dev) (sel : Nat) : Word × Dev :=
  if sel < 240 then (pk.vec.get 0 sel, d)
  else if sel < 250 then (c.res.getD (sel - 240) 0, d)
  else match sel with
    | 250 => (BitVec.ofNat 32 imm, d)
    | 251 => (BitVec.ofNat 32 (if bit imm 15 then imm + 0xFFFF0000 else imm), d)
    | 252 => (1, d)
    | 253 => let (r, d) := d.fresh; (r.truncate 32, d)
    | 254 => (c.time, d)
    | _ => (0, d)

/-! ### Key building (R258, R259) -/

/-- One slot of a key build: its value and width, none where it is not enabled. -/
def keySlot (pk : Pkt) (x : Nat) : Option (Nat × Nat) :=
  let sel := x % 256
  if bit x 15 ∧ sel < 240 then
    some ((pk.vec.get 0 sel).toNat, if sel < 224 then 8 * contWidth sel else 32)
  else none

/-- The key a descriptor builds: its value and its width in bits. -/
def buildKey (d : Dev) (s g b kb : Nat) (pk : Pkt) : Nat × Nat :=
  (List.range 6).foldl (fun (k : Nat × Nat) w =>
    let add (k : Nat × Nat) (x : Nat) := match keySlot pk x with
      | some (v, n) => (k.1 * 2 ^ n + v % 2 ^ n, k.2 + n)
      | none => k
    add (add k (d.get (STG_KBD.SLOT_LO s g b kb w))) (d.get (STG_KBD.SLOT_HI s g b kb w))) (0, 0)

/-! ### The ALUs (R262) -/

/-- R262: an ALU operation's result for a destination. -/
def aluResult (op dst : Nat) (a b : Word) : Word :=
  let m := selMax dst
  let x := a.toNat
  let y := b.toNat
  match op with
  | 1 => BitVec.ofNat 32 ((x + y) % (m + 1))
  | 2 => BitVec.ofNat 32 ((x + 2 ^ 32 - y) % 2 ^ 32 % (m + 1))
  | 3 => a &&& b
  | 4 => a ||| b
  | 5 => a ^^^ b
  | 6 => a <<< (y % 32)
  | 7 => a >>> (y % 32)
  | 8 => BitVec.ofNat 32 (min x y)
  | 9 => BitVec.ofNat 32 (max x y)
  | 10 => BitVec.ofNat 32 (min (x + y) m)
  | 11 => BitVec.ofNat 32 (x - y)
  | 12 => crc32c 0xFFFFFFFF (beBytes 4 x ++ beBytes 4 y)
  | 13 => if x = y then 1 else 0
  | 14 => if x < y then 1 else 0
  | _ => 0

/-- Whether an ALU code writes its destination. -/
def aluWrites (op : Nat) : Bool := decide (1 ≤ op ∧ op ≤ 14)

/-! ### Stateful units (R266-R270) -/

/-- R266: the word after an operation, and the value it returns. -/
def suResult (op word : Nat) (v e : Word) : Nat × Word :=
  let lo := word % 2 ^ 32
  let hi := word / 2 ^ 32 % 2 ^ 32
  let x := v.toNat
  let mk (h l : Nat) := h * 2 ^ 32 + l
  let w (n : Nat) : Word := BitVec.ofNat 32 n
  match op with
  | 1 => (word, w lo)
  | 2 => (word, w hi)
  | 3 => (mk hi x, w lo)
  | 4 => ((word + x) % 2 ^ 64, w (word + x))
  | 5 => (mk (min (hi + x) (2 ^ 32 - 1)) (min (lo + 1) (2 ^ 32 - 1)), w (min (lo + 1) (2 ^ 32 - 1)))
  | 6 => (mk hi (max lo x), w lo)
  | 7 => (mk hi (min lo x), w lo)
  | 8 => (mk hi (if lo = 0 then x else lo), w lo)
  | 9 => (mk hi (lo ||| x), w lo)
  | 10 => (mk hi (lo &&& x), w lo)
  | 11 => (mk e.toNat x, w hi)
  | 12 => (mk e.toNat lo, e - w hi)
  | _ => (word, 0)

/-- R267: the word a unit names. -/
def suWordOf (d : Dev) (s g b u : Nat) (idx : Word) : Nat :=
  (d.get (STG_SU_CFG.BASE s g b u) + idx.toNat % 2 ^ min 13 (d.get (STG_SU_CFG.SIZE_LOG2 s g b u))) % 8192

/-- The place of stateful word n of a stage (R294). -/
def suKey (s g n : Nat) : Nat := wkey (mbxStg s g) (8192 + n)

/-- What runs through a stage: the packet, the device, the units used in this stage, the stateful words used in the
pass, and the places whose single-bit error no read has met yet. -/
structure StgRun where
  pk : Pkt
  d : Dev
  used : List Nat := []
  done : List (Nat × Nat × Nat) := []
  fix : List (Nat × Nat) := []
  deriving DecidableEq, Repr

/-- R266-R270, R289: one operation of unit u. -/
def suOp (c : StgCtx) (u op dst : Nat) (idx v : Word) (r : StgRun) : StgRun :=
  if op = 0 ∨ 12 < op then r
  else if r.used.contains u then { r with d := r.d.bump (STG_CNT_SU_EXCESS c.s c.g) }
  else
    let old := c.past.find? fun x => decide (x.1 = c.g ∧ x.2.1 = u)
    let (n, op) := match old with
      | some x => (x.2.2, 1)
      | none => (suWordOf r.d c.s c.g c.b u idx, op)
    let d := r.d.pmuEvent (slicePmu c.s) 0x04 1
    let corr := r.fix.contains (c.g, 9)
    let d := if corr then d.bump (STG_CNT_SU_CORR c.s c.g) else d
    let d := if c.suUncorr.contains u ∧ old.isNone then
      ((((d.wput (suKey c.s c.g n) 0).event (STG_STATUS.SU_UNCORR c.s c.g)).bump (STG_CNT_SU_UNCORR c.s c.g)).report
        (srcStage c.s c.g) 0).rowFail (srcStage c.s c.g) n else d
    let (w, ret) := suResult op (d.wget (suKey c.s c.g n)) v (r.pk.epoch.truncate 32)
    let d := d.wput (suKey c.s c.g n) w
    { pk := (writeSel c.ig r.pk dst ret).act 8 1, d := d, used := u :: r.used, done := r.done ++ [(c.g, u, n)]
      fix := if corr then r.fix.erase (c.g, 9) else r.fix }

/-! ### Precise samples (R529-R531) -/

/-- An interval drawn afresh from INTERVAL / 2 to 3 * INTERVAL / 2 - 1 (R529). -/
def drawInterval (d : Dev) (interval : Nat) : Nat × Dev :=
  let (r, d) := d.fresh
  (interval / 2 + r.toNat % (3 * interval / 2 - interval / 2), d)

/-- R530: a slice sample. -/
def smpRecord (c : StgCtx) (pk : Pkt) (word prog : Nat) : BitVec 128 :=
  let w0 := c.g * 2 ^ 27 + (if pk.bankB then 2 ^ 26 else 0) + word * 2 ^ 17 + (if pk.second then 2 ^ 16 else 0)
    + (if c.replay then 2 ^ 15 else 0) + pk.inPort
  BitVec.ofNat 128 (w0 + (prog * 2 ^ 24 + pk.handle) * 2 ^ 32 + min c.cycles (2 ^ 32 - 1) * 2 ^ 64
    + c.time.toNat * 2 ^ 96)

/-- R529: a microword run by program `prog` is counted, and sampled where it completes an interval; SLICE_SAMPLE
records the sample. -/
def smpWord (c : StgCtx) (pk : Pkt) (word prog : Nat) (d : Dev) : Dev :=
  if d.flag (SMP_CFG.EN c.s) && (!d.flag (SMP_CFG.PROG_EN c.s) || decide (d.get (SMP_CFG.PROGRAM c.s) = prog)) then
    let iv := max 16 (d.get (SMP_CFG.INTERVAL c.s))
    let (left, d) := match (d.sl c.s).smpLeft with
      | some n => (n, d)
      | none => drawInterval d iv
    if left ≤ 1 then
      let (n, d) := drawInterval d iv
      let d := d.slice c.s fun y => { y with smpLeft := some n }
      d.slice c.s fun y => { y with smpDue := y.smpDue ++ [smpRecord c pk word prog] }
    else d.slice c.s fun y => { y with smpLeft := some (left - 1) }
  else d

/-! ### Microwords (R261-R264) -/

/-- R286: action word n of a stage in a bank. -/
def actionWord (d : Dev) (s g b n : Nat) : Nat :=
  let i := b * 2 ^ 17 + g * 2 ^ 10 + n
  d.wget (wkey (mbxAct s) (i + 2 ^ 16)) % 2 ^ 96 * 2 ^ 96 + d.wget (wkey (mbxAct s) i) % 2 ^ 96

/-- The flags, EGSEL, Q and TS of a word (R261, R263, R273), and its HIT. KEEP acts after DROP in one word. -/
def wordFlags (c : StgCtx) (w n : Nat) (pk : Pkt) : Pkt :=
  let f (hi lo : Nat) := bits w hi lo
  let pk := if c.ig ∧ f 16 15 ≠ 0 then { pk with egsel := f 16 15 } else pk
  let pk := if c.ig ∧ bit w 14 then { pk with vec := pk.vec.put 0 226 (BitVec.ofNat 32 (f 13 11)) } else pk
  let pk := { pk with
    drop := (pk.drop || bit w 10) && !bit w 9
    trap := pk.trap || bit w 8
    mirror := pk.mirror || bit w 7
    recirc := pk.recirc || bit w 6
    ts := if f 5 4 = 0 then pk.ts else f 5 4
    keyKbd := if bit w 180 then some (f 179 177) else pk.keyKbd }
  if bit w 3 then
    { pk with
      hits := pk.hits + 1
      hitFirst := if pk.hits = 0 then c.g * 512 + n else pk.hitFirst
      hitLast := c.g * 512 + n }
  else pk

/-- R263: one microword; answers whether ALU0's result is nonzero. -/
def runWord (c : StgCtx) (w n : Nat) (r : StgRun) : Bool × StgRun :=
  let f (hi lo : Nat) := bits w hi lo
  let rd (d : Dev) (sel : Nat) := srcVal c (f 88 73) r.pk d sel
  let (m0, d) := rd r.d (f 176 169)
  let (m1, d) := rd d (f 160 153)
  let (a0, d) := rd d (f 132 125)
  let (b0, d) := rd d (f 124 117)
  let (a1, d) := rd d (f 104 97)
  let (b1, d) := rd d (f 96 89)
  let (i0, d) := rd d (f 68 61)
  let (v0, d) := rd d (f 60 53)
  let (i1, d) := rd d (f 40 33)
  let (v1, d) := rd d (f 32 25)
  let x0 := aluResult (f 144 141) (f 140 133) a0 b0
  let x1 := aluResult (f 116 113) (f 112 105) a1 b1
  let pk := writeSel c.ig r.pk (f 168 161) m0
  let pk := writeSel c.ig pk (f 152 145) m1
  let pk := if aluWrites (f 144 141) then writeSel c.ig pk (f 140 133) x0 else pk
  let pk := if aluWrites (f 116 113) then writeSel c.ig pk (f 112 105) x1 else pk
  let r := suOp c 0 (f 72 69) (f 52 45) i0 v0 { r with pk := pk, d := d }
  let r := suOp c 1 (f 44 41) (f 24 17) i1 v1 r
  (decide (x0 ≠ 0), { r with pk := wordFlags c w n r.pk })

/-! ### Errors that stop a pass (R287-R291, R363, R668) -/

/-- Why a pass stops at a stage: header-vector parity (R288), a result word or a table entry restored (R363, R291), an
entry bad in both copies (R668). -/
inductive Stop where
  | parity | ase | table | bad
  deriving DecidableEq, Repr

/-- What a pass is under: slice, bank, time in 0.25 ns at which it began, core cycles before its stage 0 and those lost to
abandoned passes, the pipeline, what befalls the packet, whether it is a replay, the stateful words the abandoned passes
used, and the place at which an error stops it. A place is a stage (28 the end of the pipeline) and a point of it: the
program entry (0), the key build of a lookup (1 to 3), the result word of lookup C (4), the words run (5 to 8), the
stateful units (9); at the end the group entry (0), the member entries (from 1), the session (65), the deparser (66). -/
structure PassCtx where
  s : Nat
  b : Nat
  now : Nat
  before : Nat
  lag : Nat
  ig : Bool
  up : Upsets
  replay : Bool
  past : List (Nat × Nat × Nat)
  stop : Option ((Nat × Nat) × Stop)
  deriving DecidableEq, Repr

/-- The place of a table word (R291). -/
def tblAt : TblPlace → Nat × Nat
  | .prog g => (g, 0)
  | .kbd g l _ => (g, 1 + l)
  | .word g k => (g, 5 + k)
  | .group => (28, 0)
  | .member i => (28, 1 + i)
  | .session => (28, 65)

/-- Whether a place reads a table of the stage; the action words, groups, members and sessions are ACT's. -/
def stageTable (g pt : Nat) : Bool := decide (g < 28) && decide (pt < 4)

/-- R291: what a table error counts and reports: the stage's counters, status and source, or ACT's. -/
def tblCorrected (d : Dev) (s g pt : Nat) : Dev :=
  if stageTable g pt then d.bump (STG_CNT_TABLE_CORR s g) else d.bump (ACT_CNT_TABLE_CORR s)

def tblRestored (d : Dev) (s g pt row : Nat) : Dev :=
  if stageTable g pt then
    ((d.event (STG_STATUS.TABLE_UNCORR s g)).report (srcStage s g) 0).rowFail (srcStage s g) row
  else (d.report (srcSlice s 0x3E) 0).rowFail (srcSlice s 0x3E) row

def tblShadowBad (s g pt : Nat) (d : Dev) : Dev :=
  if stageTable g pt then (d.event (STG_STATUS.SHADOW_BAD s g)).report (srcStage s g) 0
  else d.report (srcSlice s 0x3E) 0

/-- A table word with the keys of the entries it may be bad under is read at a place: it is bad in both copies (R668), it
stops the pass (R291), or it is good, or corrected in the read. -/
def meetTable (x : PassCtx) (g pt : Nat) (keys : List (Nat × Nat × Nat × Nat × Nat)) (r : StgRun) :
    Option Stop × StgRun :=
  let struck := (x.up.tbl.filter fun y => decide (y.2 = .bad) && decide (tblAt y.1 = (g, pt))).filterMap fun y =>
    match y.1 with
    | .kbd _ _ w => keys[w.val]?
    | _ => keys.head?
  let bad := struck ++ keys.filter fun k => r.d.badEntries.contains k
  if bad ≠ [] then
    (some .bad, { r with d := bad.foldl (fun d k => d.noteBad k (tblShadowBad x.s g pt)) r.d })
  else if x.stop = some ((g, pt), .table) then
    (some .table, { r with d := tblRestored r.d x.s g pt ((keys.head?.map (·.2.2.2.2)).getD 0 % 2 ^ 24) })
  else if r.fix.contains (g, pt) then
    (none, { r with d := tblCorrected r.d x.s g pt, fix := r.fix.erase (g, pt) })
  else (none, r)

/-- Several table words are read one after another, each at its place. -/
def meetTables (x : PassCtx) (l : List ((Nat × Nat) × List (Nat × Nat × Nat × Nat × Nat))) (r : StgRun) :
    Option Stop × StgRun :=
  match l with
  | [] => (none, r)
  | (p, keys) :: l =>
    match meetTable x p.1 p.2 keys r with
    | (none, r) => meetTables x l r
    | y => y

/-- R264: run words from address n; `fuel` is how many may still run. `prog` is the stage's program. An error in a word, or in
what it reads, stops the pass before the word acts. -/
def runWords (x : PassCtx) (c : StgCtx) (prog fuel n : Nat) (r : StgRun) : Option Stop × StgRun :=
  match fuel with
  | 0 => (none, { r with d := r.d.bump (STG_CNT_WORD_LIMIT c.s c.g) })
  | fuel + 1 =>
    match meetTable x c.g (8 - fuel) [(c.s, 33, c.b, 0, c.g * 512 + n)] r with
    | (some k, r) => (some k, r)
    | (none, r) =>
      if x.stop = some ((c.g, 8 - fuel), .parity) then (some .parity, r) else
        let w := actionWord r.d c.s c.g c.b n
        let (nz, r) := runWord c w n r
        let r := { r with
          pk := r.pk.act 7 1
          d := smpWord c r.pk n prog (r.d.pmuEvent (slicePmu c.s) 0x03 1) }
        match bits w 191 190, nz with
        | 0, _ => (none, r)
        | 1, _ => runWords x c prog fuel (bits w 189 181) r
        | _, true => runWords x c prog fuel (bits w 189 181) r
        | 2, false => runWords x c prog fuel ((n + 1) % 512) r
        | _, false => (none, r)

/-! ### A stage (R251-R253, R260) -/

/-- R260: the order of the lookups. -/
def prioOrder : Nat → List Nat
  | 1 => [0, 2, 1]
  | 2 => [1, 0, 2]
  | 3 => [1, 2, 0]
  | 4 => [2, 0, 1]
  | 5 => [2, 1, 0]
  | _ => [0, 1, 2]

/-- What a stage's three lookups gave. -/
structure Looked where
  pk : Pkt
  d : Dev
  hit : List Nat := []
  a : List Word := [0, 0, 0, 0]
  b : List Word := [0, 0, 0, 0]
  c : List Word := [0, 0]
  searched : Bool := false
  deriving DecidableEq, Repr

/-- The key build descriptor a lookup of a stage uses (R258, R265). -/
def kbdOf (ovr : Option Nat) (ent l : Nat) : Nat := match ovr with
  | some k => k
  | none => bits (dataWord ent (l + 1)) 16 14

/-- One lookup L of a stage (0 A, 1 B, 2 C), its field set given. -/
def lookupOne (s g b : Nat) (up : Upsets) (ovr : Option Nat) (ent : Nat) (x : Looked) (l : Nat) : Looked :=
  let f := dataWord ent (l + 1)
  if !bit f 17 then x else
    let (key, width) := buildKey x.d s g b (kbdOf ovr ent l) x.pk
    let tbl := bits f 13 10
    if l < 2 then
      let bad := (up.gzParity.filter fun y => decide (y.1.val = g ∧ y.2.1.val = l)).map fun y => y.2.2
      let t := gzTbl x.d (s / 16) tbl
      let ((hit, e), d) := gzLookup x.d s (decide (g < 16)) x.pk tbl key width bad
      let ws := if hit then (List.range 4).map (resWord t e) else [0, 0, 0, 0]
      let d := if hit then d.bump (if l = 0 then STG_CNT_HIT_A s g else STG_CNT_HIT_B s g) else d
      let x := { x with pk := x.pk.act 5 1, d := d, hit := if hit then l :: x.hit else x.hit }
      if l = 0 then { x with a := ws } else { x with b := ws }
    else
      let (r, pk, d) := aseLookup x.d s x.pk tbl key width
      let d := if r.hit then d.bump (STG_CNT_HIT_C s g) else d
      let held := r.searched && r.best && decide (d.get (ASE_THR.LEVEL s) ≠ 0) && up.throttled.any fun y => decide (y.val = g)
      let d := if held then
        ((d.bump (ASE_CNT_THROTTLED s)).bump (ASE_CNT_SLIPS s)).pmuEvent (slicePmu s) 0x06 1 else d
      { x with pk := pk, d := d, hit := if r.hit then 2 :: x.hit else x.hit, c := [r.c0, r.c1], searched := r.searched }

/-- R260: the entry word of a stage. -/
def entryWord (ent : Nat) (x : Looked) : Nat :=
  match (prioOrder (bits (dataWord ent 0) 26 24)).find? fun l => x.hit.contains l with
  | none => bits (dataWord ent 0) 8 0
  | some l =>
    let f := dataWord ent (l + 1)
    if bit f 9 then
      (match l with
        | 0 => x.a.getD 0 0
        | 1 => x.b.getD 0 0
        | _ => x.c.getD 1 0).toNat % 512
    else bits f 8 0

/-- The program entry of a stage (R252, R294). -/
def progEntry (d : Dev) (s g b prog : Nat) : Nat := d.wget (wkey (mbxStg s g) (b * 2 ^ 16 + prog))

/-- The program of a packet at stage g (R252). -/
def progAt (pk : Pkt) (g : Nat) : Nat := (pk.vec.get 0 (if g < 16 then 231 else 230)).toNat % 256

/-- Core clock at an operating point, in units of 150 MHz (chapter 01). -/
def clockOf (point : Nat) : Nat := 13 - min point 5

/-- The operating point in force. -/
def pointNow (d : Dev) : Nat := d.get PWR_STATE.POINT

/-- Core cycles in a number of quarter nanoseconds at the point in force. -/
def cyclesIn (d : Dev) (q : Nat) : Nat := q * 15 * clockOf (pointNow d) / 400

/-- Quarter nanoseconds that core cycles take at the point in force. -/
def cyclesToQ (d : Dev) (c : Nat) : Nat := c * 400 / (15 * clockOf (pointNow d))

/-- The stage's place in its pipeline; the end of the pipeline comes after its last stage. -/
def stageNo (ig : Bool) (g : Nat) : Nat := if g = 28 then (if ig then 16 else 12) else g % 16

/-- Core cycles from the time a pipeline began to a stage's start: the parser's and 4 a stage (R224, R251, chapter 01), and
those of the passes abandoned before (log entry 150). -/
def PassCtx.cycles (x : PassCtx) (g : Nat) : Nat := x.before + x.lag + 4 * stageNo x.ig g

/-- R288: the cycles from a pass's start to the start of its replay, at most 92 and 56. -/
def PassCtx.lost (x : PassCtx) (g : Nat) : Nat := x.before + 4 * min (stageNo x.ig g + 1) (if x.ig then 16 else 12) + 8

/-- The register words of a key build descriptor, as entries that may be bad. -/
def kbdKeys (s g b kb : Nat) : List (Nat × Nat × Nat × Nat × Nat) :=
  (List.range 6).map fun w => regEntry (STG_KBD.word s g b kb w).addr

/-- The lookups of an entry that are enabled. -/
def lookupsOn (ent : Nat) : List Nat := (List.range 3).filter fun l => bit (dataWord ent (l + 1)) 17

/-- R265: KEY_KBD acts on the next stage alone. -/
def dropKeyKbd (r : StgRun) : StgRun := { r with pk := { r.pk with keyKbd := none } }

/-- The three lookups of a stage, with what they count: the stage's misses and the ASE's corrected result words. -/
def stageLookups (x : PassCtx) (g : Nat) (ovr : Option Nat) (ent : Nat) (r : StgRun) : Looked × StgRun :=
  let y := (List.range 3).foldl (lookupOne x.s g x.b x.up ovr ent) { pk := r.pk, d := r.d }
  let d := if lookupsOn ent ≠ [] ∧ y.hit = [] then y.d.bump (STG_CNT_MISS x.s g) else y.d
  let corr := y.searched && r.fix.contains (g, 4)
  let d := if corr then d.bump (ASE_CNT_RESULT_CORR x.s) else d
  (y, { r with pk := y.pk, d := d, fix := if corr then r.fix.erase (g, 4) else r.fix })

/-- The words of a stage run under its context. -/
def stageWords (x : PassCtx) (g prog ent : Nat) (y : Looked) (r : StgRun) : Option Stop × StgRun :=
  let c : StgCtx := {
    s := x.s, g := g, b := x.b, replay := x.replay
    time := BitVec.ofNat 32 ((x.now + cyclesToQ r.d (x.cycles g)) / 4)
    cycles := cyclesIn r.d (x.now - r.pk.entered) + x.cycles g
    res := y.a ++ y.b ++ y.c, past := x.past
    suUncorr := (x.up.suUncorr.filter fun z => decide (z.1.val = g)).map fun z => z.2.val }
  runWords x c prog 4 (entryWord ent y) { r with used := [] }

/-- One stage of a pass; answers why the pass stops here, if it does. -/
def runStage (x : PassCtx) (g : Nat) (r : StgRun) : Option Stop × StgRun :=
  let ovr := r.pk.keyKbd
  let r := { dropKeyKbd r with d := r.d.bump (STG_CNT_PKTS x.s g) }
  let prog := progAt r.pk g
  match meetTable x g 0 [(x.s, g, x.b, 0, prog)] r with
  | (some k, r) => (some k, r)
  | (none, r) =>
    let ent := progEntry r.d x.s g x.b prog
    if !bit (dataWord ent 0) 31 then (none, r) else
      let ls := lookupsOn ent
      match meetTables x (ls.map fun l => ((g, 1 + l), kbdKeys x.s g x.b (kbdOf ovr ent l))) r with
      | (some k, r) => (some k, r)
      | (none, r) =>
        if x.stop = some ((g, 1), .parity) ∧ ls ≠ [] then (some .parity, r) else
          let (y, r) := stageLookups x g ovr ent r
          if x.stop = some ((g, 4), .ase) ∧ y.searched then (some .ase, r) else stageWords x g prog ent y r

/-- The stages of a pass, one after another. -/
def runStages (x : PassCtx) (gs : List Nat) (r : StgRun) : Option (Nat × Stop) × StgRun :=
  match gs with
  | [] => (none, r)
  | g :: gs =>
    match runStage x g r with
    | (some k, r) => (some (g, k), r)
    | (none, r) => runStages x gs r

/-! ### The reads at a pipeline's end (R272-R277) -/

/-- The table words the fate of a packet reads, each at its place: the session of its mirror copy; the group and its
members. -/
def fateReads (ig : Bool) (d : Dev) (s : Nat) (pk : Pkt) : List ((Nat × Nat) × List (Nat × Nat × Nat × Nat × Nat)) :=
  let m := (pk.vec.get 0 228).toNat % 8
  let grp := (pk.vec.get 0 225).toNat % 4096
  let group := ig && !pk.drop && !pk.trap && !pk.recirc && decide (pk.egsel = 2)
  let base := d.get (ACT_GROUP.BASE s grp)
  (if pk.mirror then [((28, 65), [regEntry (ACT_MIRROR.word s m).addr])] else [])
    ++ (if group then [((28, 0), [regEntry (ACT_GROUP.word s grp).addr])] else [])
    ++ (if group && d.flag (ACT_GROUP.VALID s grp) then
      ((List.range (min 64 (d.get (ACT_GROUP.SIZE s grp)))).filter fun i => decide (base + i < 16384)).map fun i =>
        ((28, 1 + i), [regEntry (ACT_MEMBER.word s ((base + i) / 2)).addr]) else [])

/-- The end of a pass: the tables its packet's fate reads, and in egress the deparser. -/
def passEnd (x : PassCtx) (r : StgRun) : Option (Nat × Stop) × StgRun :=
  match meetTables x (fateReads x.ig r.d x.s r.pk) r with
  | (some k, r) => (some (28, k), r)
  | (none, r) =>
    if x.stop = some ((28, 66), .parity) ∧ !x.ig ∧ (!r.pk.drop ∨ r.pk.mirror) then (some (28, .parity), r) else (none, r)

/-! ### A pass with its replays (R288-R291) -/

/-- How a pipeline ended: the stages ran, a second parity error dropped the packet at a stage (R290), or an entry bad in
both copies made it PARSE_FAIL there (R668). -/
inductive PassEnd where
  | done
  | parityDrop (g : Nat)
  | bad (g : Nat)
  deriving DecidableEq, Repr

/-- A replay starts at stage g (R288, R246): what is counted and reported there. The deparser's counts with the last egress
stage (log entry 150). The restored entry of R291 has been reported where it was met. -/
def noteReplay (d : Dev) (s g : Nat) (k : Stop) : Dev :=
  let g := min g 27
  let d := ((d.event (STG_STATUS.REPLAY s g)).bump (STG_CNT_REPLAY s g)).pmuEvent (slicePmu s) 0x08 1
  match k with
  | .ase => (d.report (srcSlice s 0x40) 0).rowFail (srcSlice s 0x40) 0
  | .parity => (d.report (srcStage s g) 0).rowFail (srcStage s g) (2 ^ 24 - 1)
  | _ => d

/-- Run the stages until no upset is left: each upset abandons a pass, and the next begins from the packet as stage 0
found it (R288), with the parity errors it met so far (R290). -/
def passLoop (x : PassCtx) (gs : List Nat) (start : Pkt) (stops : List ((Nat × Nat) × Stop)) (r : StgRun) :
    PassEnd × StgRun :=
  let x := { x with stop := stops.head? }
  let once (r : StgRun) : Option (Nat × Stop) × StgRun :=
    match runStages x gs { r with pk := start } with
    | (none, r) => passEnd x r
    | y => y
  match stops with
  | [] =>
    match once r with
    | (some (g, _), r) => (.bad g, r)
    | (none, r) => (.done, r)
  | _ :: rest =>
    match once r with
    | (none, r) => (.done, r)
    | (some (g, .bad), r) => (.bad g, r)
    | (some (g, k), r) =>
      let start := { start with replayed := true, parErrs := start.parErrs + (if k = .parity then 1 else 0) }
      if k = .parity ∧ 2 ≤ start.parErrs then
        let d := (r.d.event (STG_STATUS.REPLAY_FAIL x.s (min g 27))).report (srcStage x.s (min g 27)) 0
        (.parityDrop g, { r with d := d, pk := { r.pk with parErrs := start.parErrs } })
      else
        passLoop { x with replay := true, lag := x.lag + x.lost g, past := r.done } gs start rest
          { r with d := noteReplay r.d x.s g k }

/-- The stages of a pipeline. -/
def pipeStages (ig : Bool) : List Nat := if ig then List.range 16 else (List.range 12).map (· + 16)

/-- A place belongs to a pipeline; the end of the ingress pipeline has no deparser. -/
def ofPipe (ig : Bool) (p : Nat × Nat) : Bool := decide (p.1 = 28) || decide (decide (p.1 < 16) = ig)

/-- The upsets that stop a pass of a pipeline, in the order they strike. -/
def stopsOf (up : Upsets) (ig : Bool) : List ((Nat × Nat) × Stop) :=
  let par := up.parity.map fun y =>
    ((y.1.val, if y.1.val = 28 then 66 else if y.2.val = 0 then 1 else 4 + y.2.val), Stop.parity)
  let tbl := (up.tbl.filter fun y => decide (y.2 = .restored)).map fun y => (tblAt y.1, Stop.table)
  let ase := up.aseUncorr.map fun y => ((y.val, 4), Stop.ase)
  (par ++ tbl ++ ase).filter fun y => ofPipe ig y.1

/-- The places whose single-bit errors a pipeline may meet. -/
def fixesOf (up : Upsets) : List (Nat × Nat) :=
  ((up.tbl.filter fun y => decide (y.2 = .corr)).map fun y => tblAt y.1)
    ++ (up.aseCorr.map fun y => (y.val, 4)) ++ (up.suCorr.map fun y => (y.val, 9))

/-- R364: ternary cells flip. -/
def flipCells (d : Dev) (s : Nat) (l : List (Fin 16 × Fin 2048 × BitVec 80 × BitVec 80)) : Dev :=
  l.foldl (fun d x =>
    let k := aseKey s x.1 x.2.1
    let old := d.aseFlips.get (0, 0) k
    { d with aseFlips := d.aseFlips.put (0, 0) k (old.1 ^^^ x.2.2.1, old.2 ^^^ x.2.2.2) }) d

/-- A whole pipeline of slice s for a packet: the ASE cursor is empty at its start (R352, R353), and the slips and held
issue cycles its searches met are counted (R357). -/
def runPipe (d : Dev) (s now : Nat) (ig : Bool) (up : Upsets) (pk : Pkt) : PassEnd × Pkt × Dev :=
  let pk := { pk with cursor := none, resumes := 0, keyKbd := none }
  let d := if up.slips = 0 then d else (d.addTo (ASE_CNT_SLIPS s) up.slips).pmuEvent (slicePmu s) 0x06 up.slips
  let d := if up.holds = 0 then d else (d.addTo (ASE_CNT_ISSUE_HOLD s) up.holds).pmuEvent (slicePmu s) 0x07 up.holds
  let d := flipCells d s up.aseFlips
  let x : PassCtx := { s := s, b := if pk.bankB then 1 else 0, now := now, before := if ig then pk.parseCyc else 0
                       lag := 0, ig := ig, up := up, replay := false, past := [], stop := none }
  let (e, r) := passLoop x (pipeStages ig) pk (stopsOf up ig) { pk := pk, d := d, fix := fixesOf up }
  (e, r.pk, r.d)

end Sys2Proof.Machine
end

