-- ==== Sys2Proof/Machine/Ingress.lean ====
section
/-!
DEFINITION. From the staging buffer to the end of the ingress pipeline: PARSE_START (R223, R48, R232, R242-R250), the
fates of R272-R277, punt rings (R81-R83, R388), the recirculation queue (R278-R280).
-/
namespace Sys2Proof.Machine

/-! ### Punt and inject rings -/

/-- Entries of a ring: LOG2_SIZE below 6 acts as 6, above 16 as 16 (R86). -/
def ringEntries (d : Dev) (n : Nat) : Nat := 2 ^ max 6 (min 16 (d.get (DMA_RING_CTL.LOG2_SIZE n)))

/-- Entries posted ahead of HEAD (R81). -/
def posted (d : Dev) (n : Nat) : Nat :=
  (d.dmaIdx.get 0 n + ringEntries d n - d.get (DMA_RING_HEAD.HEAD n) % ringEntries d n) % ringEntries d n

/-- The world of a ring: the function its messages and requests go out on (R85, R113). -/
def ringPf (d : Dev) (n : Nat) : Nat :=
  let w := if n < 32 then WLD_DMA_PUNT_LO.word else if n < 64 then WLD_DMA_PUNT_HI.word
    else if n < 96 then WLD_DMA_INJ_LO.word else WLD_DMA_INJ_HI.word
  if bit (d.word w.addr).toNat (n % 32) then 1 else 0

/-- An event of a ring's status register; rings signal their own vector (R78). -/
def Dev.ringEvent (d : Dev) (n : Nat) (f : Fld) : Dev :=
  let d := d.put ⟨f.addr, f.lo, f.lo⟩ 1
  let d := d.bump ⟨f.addr, 31, 24⟩
  d.signal (ringPf d n) n

/-- The punt frames of a ring that wait for their host write. -/
def puntsOf (d : Dev) (n : Nat) : List Punt := d.punts.filter fun p => decide (p.ring = n)

/-- A copy ends: its Cartouche completes and its frame may go. -/
def endCopy (g : Grid) (d : Dev) (c : Copy) (e : EndInfo) : Dev := dropFrame (complete g d c e) c.pkt.fid

/-- The PCIe link is up (R112). -/
def hostUp (d : Dev) : Bool := decide (d.get HIF_LINK.SPEED ≠ 0)

/-- R388, R76: a copy is handed to a punt ring with its bytes: the ring must run, and a free descriptor and a staging
buffer are needed. `half` and `slice` are the unit's that hands it over. -/
def toPuntRing (g : Grid) (d : Dev) (c : Copy) (ring code : Nat) (b : List Byte) (half slice : Nat) : Dev :=
  let runs := d.flag (DMA_RING_CTL.ENABLE ring) && hostUp d
  let free := decide ((puntsOf d ring).length < posted d ring)
  if !(runs && free) then
    let d := if runs then d.ringEvent ring (DMA_RING_STATUS.STARVED ring) else d
    let d := d.bump (DMA_RING_DROP.DROP ring)
    endCopy g d c { half := half, slice := slice, reason := drPuntStarved, trapped := true }
  else
    let (got, d) := bpmAlloc d 2 b.length
    if got.result ≠ 0 then
      let d := d.bump (DMA_RING_DROP.DROP ring)
      endCopy g d c { half := half, slice := slice, reason := drPuntNobuf, trapped := true }
    else
      let d := { d with punts := d.punts ++ [{ ring := ring, code := code, copy := c, bytes := b, buf := got.ptr }] }
      complete g d c { half := half, slice := slice, trapped := true }

/-! ### Copies for admission -/

/-- A copy waits for admission in the slice it leaves, in the order in which the packets ended their pass there (R13, R14): a
replica has its packet's place, every other copy takes the next one. -/
def pushAdmit (d : Dev) (s : Nat) (c : Copy) : Dev :=
  let c := { c with cid := d.nextCid, ord := if c.ord = 0 then d.nextCid else c.ord, leaves := s }
  let d := d.slice s fun x => { x with
    toAdmit := (x.toAdmit.takeWhile fun y => decide (y.ord ≤ c.ord)) ++ c :: x.toAdmit.dropWhile fun y => decide (y.ord ≤ c.ord) }
  { d with nextCid := d.nextCid + 1 }

/-- A multicast packet's transfers wait for replication in the halves that its group entry names (R26, R416), in the place of
their packet (R14). -/
def pushReplicas (d : Dev) (s : Nat) (hs : List Nat) (c : Copy) : Dev :=
  let c := { c with replica := true, ord := d.nextCid, leaves := s }
  { d with nextCid := d.nextCid + 1, buf := { d.buf with toRep := d.buf.toRep ++ hs.map fun h => (h, c) } }

/-- A plain copy of a packet. -/
def plainCopy (pk : Pkt) (port q : Nat) : Copy := { pkt := pk, port := port, q := q }

/-- A packet is dropped in its ingress pipeline: the half and slice are the ingress slice's (R481). -/
def dropIngress (g : Grid) (d : Dev) (s : Nat) (pk : Pkt) (reason : Nat) (stage : Nat := 0xFF)
    (out : Option Nat := none) : Dev :=
  endCopy g d (plainCopy pk 0 0) { half := s / 16, slice := s, reason := reason, stage := stage, out := out }

/-- R242, R277: a mirror copy goes to a port queue or a punt ring; a port that is none drops it with `reason` and counts
in `f`. `raw` copies leave as received. -/
def mirrorTo (g : Grid) (d : Dev) (s : Nat) (c : Copy) (reason : Nat) (f : Fld) : Dev :=
  if c.punt.isSome || isPort d c.port then pushAdmit d s c
  else complete g (d.bump f) c { half := s / 16, slice := s, reason := reason, out := some c.port }

/-- The session a packet's mirror copy goes to (R277). -/
def sessionCopy (d : Dev) (s : Nat) (pk : Pkt) : Copy :=
  let m := (pk.vec.get 0 228).toNat % 8
  let c := { plainCopy pk (d.get (ACT_MIRROR.PORT s m)) (d.get (ACT_MIRROR.QUEUE s m)) with
    mirror := true, raw := true, trunc := d.get (ACT_MIRROR.TRUNC s m) }
  if d.flag (ACT_MIRROR.KIND s m) then { c with punt := some (d.get (ACT_MIRROR.RING s m), 0) } else c

/-! ### The recirculation queue (R278-R280, R411) -/

/-- A slice's half gives or takes back cells of its shared part. -/
def sharedTake (d : Dev) (h k : Nat) : Dev := d.addTo (BUF_SHARED_USED.USED h) k
def sharedGive (d : Dev) (h k : Nat) : Dev := d.subFrom (BUF_SHARED_USED.USED h) k

/-- Cells of a copy whose frame holds n bytes, or that is charged for a whole MTU (R408). -/
def cellsFor (d : Dev) (pk : Pkt) (f : Frame) : Nat × Nat :=
  let rec' := recordCells pk
  let fc := if f.complete then frameCellsOf f.bytes.length else frameCellsOf (portMtu d pk.inPort)
  (rec' + fc, rec')

/-- Cells held in a slice's recirculation queue. -/
def recircCells (d : Dev) (s : Nat) : Nat := (d.sl s).recirc.foldl (fun a c => a + c.cells) 0

/-- R279, R280: a packet goes to its slice's recirculation queue; in a second pass it is dropped. `half` counts the drop. -/
def toRecirc (g : Grid) (d : Dev) (s : Nat) (c : Copy) (half : Nat) : Dev :=
  if c.pkt.second then
    endCopy g (d.bump (ACT_CNT_RECIRC_LIMIT s)) c { half := half, slice := s, reason := drRecircLimit }
  else
    match d.frame c.pkt.fid with
    | none => d
    | some f =>
      let (k, rc) := cellsFor d c.pkt f
      let h := s / 16
      if recircCells d s + k > d.get (ACT_RECIRC_CFG.LIMIT s)
          ∨ d.get (BUF_SHARED_USED.USED h) + k > d.get (BUF_SHARED.SHARED h) then
        endCopy g (d.bump (ACT_CNT_RECIRC_FULL s)) c { half := half, slice := s, reason := drRecircFull }
      else
        let d := (d.bump (ACT_CNT_RECIRC s)).pmuEvent (slicePmu s) 0x02 1
        let c := { c with cells := k, recCells := rc, early := !f.complete, cid := d.nextCid }
        let d := { d with nextCid := d.nextCid + 1 }
        let d := poolTake (sharedTake d h k) h c ⟨c.cid, 0, k⟩
        d.slice s fun x => { x with recirc := x.recirc ++ [c] }

/-! ### ECMP and LAG members (R275) -/

/-- Member entry i of slice s. -/
def memberPort (d : Dev) (s i : Nat) : Nat :=
  if i % 2 = 0 then d.get (ACT_MEMBER.PORT_EVEN s (i / 2)) else d.get (ACT_MEMBER.PORT_ODD s (i / 2))

/-- R275: the live member a packet's HASH chooses. -/
def chooseMember (d : Dev) (s grp hash : Nat) : Option Nat :=
  if !d.flag (ACT_GROUP.VALID s grp) then none else
    let base := d.get (ACT_GROUP.BASE s grp)
    let ms := ((List.range (min 64 (d.get (ACT_GROUP.SIZE s grp)))).filter fun i => decide (base + i < 16384)).map
      fun i => memberPort d s (base + i)
    let live := ms.filter fun p => d.flag (PT_LINK.LIVE p)
    live[hash / 65536 * live.length / 65536]?

/-! ### The end of the ingress pipeline (R272-R277) -/

/-- Group entry grp of half h (R415, R443). -/
def mcGroup (d : Dev) (h grp : Nat) : Nat := dataWord (d.wget (wkey (mbxBuf h) grp)) 0

/-- R272 rows 4 to 7: where a packet goes that is not dropped, trapped or recirculated. -/
def forward (g : Grid) (d : Dev) (s : Nat) (pk : Pkt) : Dev :=
  let q := (pk.vec.get 0 226).toNat % 8
  let toPort (p : Nat) : Dev :=
    if isPort d p then pushAdmit d s (plainCopy pk p q)
    else dropIngress g (d.bump (ACT_CNT_NO_EGRESS s)) s pk drNoEgress 0xFF (some p)
  match pk.egsel with
  | 1 => toPort ((pk.vec.get 0 224).toNat % 1024)
  | 2 =>
    match chooseMember d s ((pk.vec.get 0 225).toNat % 4096) (pk.vec.get 0 229).toNat with
    | some p => toPort p
    | none => dropIngress g (d.bump (ACT_CNT_GROUP_EMPTY s)) s pk drGroupEmpty
  | 3 =>
    let e := mcGroup d (s / 16) ((pk.vec.get 0 236).toNat % 65536)
    if !bit e 31 ∨ bits e 30 29 = 0 then dropIngress g (d.bump (ACT_CNT_GROUP_EMPTY s)) s pk drGroupEmpty
    else pushReplicas d s ((List.range 2).filter fun h => bit e (29 + h)) (plainCopy pk 0 q)
  | _ => dropIngress g (d.bump (ACT_CNT_NO_EGRESS s)) s pk drNoEgress

/-- R272: a packet's fate at the end of ingress, and its mirror copy. -/
def ingressEnd (g : Grid) (d : Dev) (s : Nat) (pk : Pkt) : Dev :=
  let pk := { pk with acct := (pk.vec.get 0 231).toNat % 256 }
  let d := flushActs d pk pk.inPort
  let pk := { pk with acts := [] }
  -- the mirror copy stands beside the packet from here on, so the frame is kept until both have ended
  let d := if pk.mirror then mirrorTo g d s (sessionCopy d s pk) drMirrorErr (ACT_CNT_MIRROR_ERR s) else d
  let pk := { pk with mirror := false }
  if pk.drop then dropIngress g d s pk drActionDrop
  else if pk.trap then
    let t := (pk.vec.get 0 227).toNat
    pushAdmit d s { plainCopy pk 0 0 with raw := true, punt := some (t / 256 % 64, t % 256) }
  else if pk.recirc then toRecirc g d s (plainCopy pk 0 0) (s / 16)
  else forward g d s pk

/-! ### Classes and default actions (R239, R242-R245, R250) -/

/-- The drop reason of a class (R239). -/
def classReason (cls : Nat) : Nat := match cls with
  | 1 => drNoMatch
  | 2 => drParseFail
  | 3 => drMalformed
  | _ => drDepth

/-- R242, R243: the default word of a class: its mirror copy, and the packet's fate; FWD_OUTER is reached here only
where the outer lookup missed (R245). -/
def defaultAction (g : Grid) (d : Dev) (s b p cls : Nat) (pk : Pkt) (ran : Bool) : Dev :=
  let c := cls - 1
  let reason := classReason cls
  let d := if d.flag (PRS_DEF.MIRROR s b p c) then
    mirrorTo g d s { plainCopy pk (d.get (PRS_MIRROR.PORT s b)) (d.get (PRS_MIRROR.QUEUE s b)) with
      mirror := true, raw := true } reason (PRS_CNT_DEF_ERR s) else d
  if ran then d else
    match d.get (PRS_DEF.ACTION s b p c) with
    | 1 => (mirrorTo g d s { plainCopy pk (d.get (PRS_DEF.PORT s b p c)) (d.get (PRS_DEF.QUEUE s b p c)) with raw := true }
        reason (PRS_CNT_DEF_ERR s) |> fun d => dropFrame d pk.fid)
    | 2 => pushAdmit d s { plainCopy pk 0 0 with
        raw := true, punt := some (d.get (PRS_DEF.RING s b p c), d.get (PRS_DEF.TRAP_CODE s b p c)) }
    | _ => dropIngress g d s pk reason

/-- R250: a packet whose class or FRAG matches an armed capture is captured. -/
def capture (d : Dev) (s : Nat) (pk : Pkt) (p : Parsed) (f : Frame) : Dev :=
  let mask := d.get (PRS_CAP_CTL.MASK s)
  let hit := (decide (p.cls ≠ 0) && bit mask (p.cls - 1)) || (p.walk.frag && bit mask 4)
  if d.flag (PRS_CAP_CTL.ARM s) && hit then
    let d := d.put (PRS_CAP_CTL.ARM s) 0
    let d := (d.put (PRS_CAP_INFO.CLASS s) p.cls).put (PRS_CAP_INFO.CAUSE s) p.cause
    let d := (d.put (PRS_CAP_INFO.STATE s) p.walk.state).put (PRS_CAP_INFO.OFFSET s) p.walk.off
    let d := (d.put (PRS_CAP_INFO.RECIRC s) (if pk.second then 1 else 0)).put (PRS_CAP_INFO.LANE s) (pk.inPort % 32)
    let d := d.setWord (PRS_CAP_EPOCH.word s).addr (pk.epoch.truncate 32)
    let b := (viewOf f).bytes
    let d := (List.range 16).foldl (fun d i =>
      d.setWord (PRS_CAP_DATA.word s i).addr (BitVec.ofNat 32 (beNat (bytesAt b (4 * i) 4)))) d
    d.event (PRS_STATUS.CAPTURED s)
  else d

/-- R232: the header vector and descriptor at stage 0. -/
def stageZero (pk : Pkt) (p : Parsed) (f : Frame) : SMap Word :=
  let len := (if f.complete then f.bytes.length else f.total) % 65536
  let (prog, cm) := match p.run with
    | some x => x
    | none => (0, 0)
  let flag (b : Bool) (k : Nat) := if b then 2 ^ k else 0
  let info := p.cls * 2 ^ 13 + p.cause * 2 ^ 9 + flag p.walk.frag 8 + flag (decide (p.walk.csum ≠ 0)) 7
    + flag pk.second 6 + flag p.outerFwd 5 + flag pk.bankB 0
  let set (v : SMap Word) (e : Nat × Nat) := v.put 0 e.1 (BitVec.ofNat 32 e.2)
  ([(152, p.pad), (153, cm), (154, prog * 256 + p.portClass), (155, p.ptypeUsed * 256 + p.ptypeParsed),
     (156, p.payload), (157, len), (158, info), (159, pk.inPort), (222, p.hdrValid),
     (223, pk.epoch.toNat % 2 ^ 32), (230, prog), (231, prog)] : List (Nat × Nat)).foldl set
      ([229, 232, 233].foldl (fun v k => v.put 0 k (pk.vec.get 0 k)) p.vec)

/-- R246: a parser entry is restored from its shadow; its row has failed once more (R32). -/
def ttRestored (s : Nat) (d : Dev) (x : Fin 3 × Nat) : Dev :=
  ((d.event (PRS_STATUS.TABLE_UNCORR s)).report (srcSlice s 0x21) 0).rowFail (srcSlice s 0x21) (x.1 * 2 ^ 16 + x.2)

/-- R668: the first lookup that meets an entry bad in both copies reports it. -/
def prsShadowBad (s : Nat) (d : Dev) : Dev := (d.event (PRS_STATUS.SHADOW_BAD s)).report (srcSlice s 0x21) 0

/-- The parser's own counters and events for a packet of bank b (R238, R246, R248, R668). -/
def parserCounts (d : Dev) (s b : Nat) (up : Upsets) (p : Parsed) : Dev :=
  let d := d.bump (PRS_CNT_OK.cnt s p.cls)
  let d := if p.walk.frag then d.bump (PRS_CNT_FRAG s) else d
  let d := d.addTo (PRS_CNT_CSUM_ERR s) p.walk.csum
  let d := d.addTo (PRS_CNT_TABLE_CORR s) up.ttCorr
  let d := up.ttUncorr.foldl (ttRestored s) d
  p.met.foldl (fun d x => d.noteBad (s, 32, b, x.1, x.2) (prsShadowBad s)) d

/-- Parser entries, and words of the bank window (table 2), that are bad in both copies from now on (R247). -/
def spoilEntries (d : Dev) (s b : Nat) (l : List (Fin 3 × Nat)) : Dev :=
  { d with badEntries := d.badEntries ++ ((l.map fun x => (s, 32, b, x.1.val, x.2)).filter fun k => !d.badEntries.contains k) }

/-- Run a program for a parsed packet, or take its default action; a stage entry bad in both copies makes the packet
PARSE_FAIL with cause TABLE_ERR, once (R291, R668). -/
def runIngress (g : Grid) (s b pi now : Nat) (up : Upsets) (f : Frame) (fuel : Nat) (p : Parsed) (pk : Pkt) (d : Dev) :
    Dev :=
  let pk := { pk with vec := stageZero pk p f, hdrs := p.hdrs, parseCyc := parseCycles p }
  match fuel, p.run with
  | fuel + 1, some _ =>
    let d := if p.cls = 0 then d else defaultAction g d s b pi p.cls pk true
    match runPipe d s now true up pk with
    | (.done, pk, d) => ingressEnd g d s pk
    | (.parityDrop st, pk, d) => dropIngress g (flushActs d pk pk.inPort) s pk drHvParity st
    | (.bad _, pk, d) =>
      let d := d.bump (PRS_CNT_PARSE_FAIL s)
      let p := outerRun d s b pi { p with cls := 2, cause := 5, run := none, outerFwd := false, ptypeUsed := 0 }
      runIngress g s b pi now up f fuel p 
        { pk with drop := false, trap := false, mirror := false, recirc := false, egsel := 0, ts := 0 } d
  | _, _ =>
    let d := flushActs d pk pk.inPort
    defaultAction g d s b pi p.cls { pk with acts := [] } false

/-! ### PARSE_START -/

/-- R47, R48: EPOCH as slice s holds it. -/
def epochAt (g : Grid) (s : Nat) : BitVec 64 := match g.copies.find? fun c => decide (c.1 = s) with
  | some c => c.2
  | none => g.epoch

/-- R48, R223, R256, R530: the packet is stamped at its first parser entry; a second pass keeps bank, epoch and
handle. -/
def stamp (g : Grid) (bk : Banks) (d : Dev) (s now : Nat) (pk : Pkt) : Pkt × Dev :=
  if pk.stamped then (pk, d) else
    let h := ((d.sl s).handle + 1) % 2 ^ 24
    ({ pk with stamped := true, bankB := bk.activeB, epoch := epochAt g s, handle := h, entered := now },
      (d.slice s fun x => { x with handle := h }).pmuEvent (slicePmu s) 0x01 1 (some pk.inPort))

/-- The port entry and bank window a packet is parsed under (R223). -/
def parsePort (pk : Pkt) : Nat := if pk.second then 32 else pk.inPort % 32
def bankNo (pk : Pkt) : Nat := if pk.bankB then 1 else 0

/-- R223: the parser can take a packet: its frame is whole or has its first 256 bytes; in the parser already, it has the
bytes its state awaits. -/
def parseReady (d : Dev) (s : Nat) (pk : Pkt) : Bool := match d.frame pk.fid with
  | some f => (f.complete || decide (256 ≤ f.bytes.length)) && (!pk.stamped || (parse d s (bankNo pk) (parsePort pk) f).isSome)
  | none => false

/-- R16: the packet the parser takes: arrivals come before recirculated packets, in the order of the staging buffer; of the
48 slots of 8 cycles a waiting recirculated packet has the last (log entry 151). -/
def nextParse (d : Dev) (s : Nat) : Option Pkt :=
  let l := (d.sl s).staging.filter (parseReady d s)
  match l.find? fun p => !p.second, l.find? fun p => p.second with
  | some a, some r => if 47 ≤ (d.sl s).passedBy then some r else some a
  | some a, none => some a
  | none, r => r

/-- R16: an arrival that passes a recirculated packet by is counted until that packet is served. -/
def countPassed (d : Dev) (s : Nat) (pk : Pkt) : Dev :=
  let waits := (d.sl s).staging.any fun p => p.second && parseReady d s p
  d.slice s fun x => { x with passedBy := if pk.second ∨ !waits then 0 else x.passedBy + 1 }

/-- PARSE_START's effect (R223): the parser takes a packet, which has its stamp from then on; while a state awaits bytes it
stays in the parser, and else its parse, its program and its fate follow. -/
def parseStart (g : Grid) (bk : Banks) (d : Dev) (s dt : Nat) (up : Upsets) : Dev :=
  match (if d.sliceUp s then nextParse d s else none) with
  | none => d
  | some pk =>
    match d.frame pk.fid with
    | none => d
    | some f =>
      let now := g.nowQ dt
      let (pk, d) := stamp g bk (countPassed d s pk) s now pk
      let d := spoilEntries d s (bankNo pk) up.ttBad
      let stage (l : List Pkt) := d.slice s fun x => { x with staging := l }
      match parse d s (bankNo pk) (parsePort pk) f with
      | none => stage ((d.sl s).staging.map fun y => if y.fid = pk.fid then pk else y)
      | some p =>
        let d := stage ((d.sl s).staging.filter fun y => decide (y.fid ≠ pk.fid))
        let d := match p.defer with
          | some q => d.setFrame pk.fid (some { f with defer := some q })
          | none => d
        let d := capture (parserCounts d s (bankNo pk) up p) s pk p f
        let cl := if pk.eclass ≠ 0 then pk.eclass else if pk.second then 1 else 0
        runIngress g s (bankNo pk) (parsePort pk) now up f 2 p (pk.act cl 1) d

/-- PARSE_START (R229). -/
def execParseStart (s : Fin 32) (dt : Nat) (up : Upsets) (st : State) : Outc :=
  st.withDev fun d => parseStart st.grid st.banks d s dt up

end Sys2Proof.Machine
end

