-- ==== Sys2Proof/Machine/Admission.lean ====
section
/-!
DEFINITION. Admission to the egress queues (chapters 12 and 13): the promise's meters (R463), policers (R454, R455), the
tests of R406, entry into spill (R420), the charge corrections of R408, multicast replication (R416), late tests of long
frames (R237).
-/
namespace Sys2Proof.Machine

/-! ### Lengths -/

/-- The length of a copy at admission: its frame's, or its ingress port's MTU while the frame still arrives (log entry
12). -/
def lengthAt (d : Dev) (c : Copy) : Nat :=
  match d.frame c.pkt.fid with
  | some f => if f.complete then (copyBytes c f).length else portMtu d c.pkt.inPort
  | none => 0

/-! ### The promise's meters (R463) -/

/-- The reservation of a pair of ports, in its egress slice's table. -/
def findResv (d : Dev) (inP egP : Nat) : Option (Nat × Resv) :=
  d.resv.findSome? fun e => match e.2 with
    | some r => if e.1 / 512 = egP / 32 ∧ r.ingress = inP ∧ r.egress = egP ∧ r.acts then some (e.1, r) else none
    | none => none

/-- R509: a copy is dropped at admission or by a policer, or demoted out of its queue. -/
def countQDrop (d : Dev) (c : Copy) : Dev :=
  (d.ctrAdd (qCtr (qid c.port c.q) 4) 1).ctrAdd (qCtr (qid c.port c.q) 5) (lengthAt d c)

/-- R463: a copy for q7 keeps its place, or moves to DEMOTE_Q. -/
def meterQ7 (d : Dev) (c : Copy) : Copy × Dev :=
  if c.q ≠ 7 then (c, d) else
    let s := c.port / 32
    let dq := d.get (EQ_PROM.DEMOTE_Q s (c.port % 32))
    match findResv d c.pkt.inPort c.port with
    | none => ({ c with q := dq, demoted := true }, ((countQDrop d c).bump (EQ_CNT_UNRESERVED s)).event (EQ_STATUS.UNRESERVED s))
    | some (k, r) =>
      let w := (lengthAt d c + 20) * 8000
      if w ≤ r.tokens then
        ({ c with reserved := true }, { d with resv := d.resv.put none k (some { r with tokens := r.tokens - w }) })
      else ({ c with q := dq, demoted := true }, (countQDrop d c).bump (EQ_CNT_DEMOTED s))

/-! ### Policers (R454, R455) -/

/-- A policer's settings (R476 KIND 1); PIR below CIR acts as CIR. -/
structure PolCfg where
  cir : Nat
  cbs : Nat
  pir : Nat
  ebs : Nat
  act : Nat
  yq : Nat
  aware : Bool
  two : Bool
  deriving DecidableEq, Repr

/-- The settings of policer i of slice s. -/
def polCfg (d : Dev) (s i : Nat) : PolCfg :=
  let v := d.wget (wkey (mbxEq s) (2 ^ 28 + i))
  let w3 := dataWord v 3
  { cir := bits (dataWord v 0) 20 0, cbs := bits (dataWord v 1) 23 0
    pir := max (bits (dataWord v 2) 20 0) (bits (dataWord v 0) 20 0)
    ebs := bits w3 23 0, act := bits w3 26 25, yq := bits w3 29 27, aware := bit w3 30, two := bit w3 31 }

/-- R454: the colour of a packet of n bytes at `now` ns (0 green, 1 yellow, 2 red) and the buckets after it: RFC 2697,
or RFC 2698. `pre` is the colour it came with, 0 in colour-blind mode. -/
def police (k : PolCfg) (p : Policer) (now n pre : Nat) : Nat × Policer :=
  let t := now - p.last
  let b := n * 8000
  if k.two then
    let tp := min (p.te + k.pir * t) (k.ebs * 8000)
    let tc := min (p.tc + k.cir * t) (k.cbs * 8000)
    if pre ≥ 2 ∨ tp < b then (2, ⟨tc, tp, now⟩)
    else if pre = 1 ∨ tc < b then (1, ⟨tc, tp - b, now⟩)
    else (0, ⟨tc - b, tp - b, now⟩)
  else
    let x := p.tc + k.cir * t
    let tc := min x (k.cbs * 8000)
    let te := min (p.te + (x - tc)) (k.ebs * 8000)
    if pre = 0 ∧ b ≤ tc then (0, ⟨tc - b, te, now⟩)
    else if pre ≤ 1 ∧ b ≤ te then (1, ⟨tc, te - b, now⟩)
    else (2, ⟨tc, te, now⟩)

/-- R455: police a copy: it keeps or changes its queue, or is dropped with a reason. -/
def policeCopy (d : Dev) (nowNs : Nat) (c : Copy) : Except Nat Copy × Dev :=
  let s := c.port / 32
  let j := 8 * (c.port % 32) + c.q
  if c.q = 7 ∨ !d.flag (EQ_QCFG.POL_EN s j) then (.ok c, d) else
    let i := d.get (EQ_QCFG.POLICER s j)
    let k := polCfg d s i
    let pre := if k.aware then (c.pkt.vec.get 0 233).toNat % 4 else 0
    let (colour, p) := police k (d.policers.get {} (s * 512 + i)) nowNs (lengthAt d c) pre
    let d := { d with policers := d.policers.put {} (s * 512 + i) p }
    match colour with
    | 0 => (.ok c, d)
    | 1 =>
      let d := d.bump (EQ_CNT_POL_YELLOW s)
      match k.act with
      | 1 => (.error drPolicerYellow, d)
      | 2 => (.ok { c with q := k.yq }, d)
      | _ => (.ok c, d)
    | _ => (.error drPolicerRed, d.bump (EQ_CNT_POL_RED s))

/-! ### The tests of R406 -/

/-- R419: the queue may spill. -/
def spillEligible (d : Dev) (n : Nat) : Bool :=
  spillPresent d && d.flag (SPL_CTL.EN (qHalf n)) && d.flag (BUF_QPROF.SPILL_EN (qHalf n) (qProf d n)) && decide (n % 8 ≠ 7)

/-- R407: the dynamic threshold of a queue. -/
def dynThreshold (d : Dev) (n : Nat) : Nat :=
  let h := qHalf n
  (d.get (BUF_SHARED.SHARED h) - d.get (BUF_SHARED_USED.USED h))
    * 2 ^ min 10 (d.get (BUF_QPROF.ALPHA h (qProf d n))) / 128

/-- R406: k cells toward queue n: the account they are drawn from, or the drop reason. A port with a lane in TEST stays in DOWN (R160). -/
def admitTest (d : Dev) (n k inP prio : Nat) : Except Nat Nat :=
  let h := qHalf n
  let p := n / 8
  let cls := n % 8
  let i := qProf d n
  let q := d.qu n
  if !isPort d p then .error drNoEgress
  else if d.get (LN_STATE.STATE p) = 0 ∨ d.get (LN_STATE.STATE p) = 2 ∨ d.get (LN_STATE.STATE p) = 6 then .error drLinkDown
  else if d.get (BUF_PORT_USED.USED h (p % 512)) + k > d.get (BUF_PORT_QUOTA.QUOTA h (p % 512)) then .error drPortQuota
  else if d.get (BUF_CLASS_USED.USED h cls) + k > d.get (BUF_CLASS_QUOTA.QUOTA h cls) then .error drClassQuota
  else if q.spill ∧ d.get (BUF_QPROF_MAX.SPILL_MAX h i) ≠ 0 ∧ q.mid.length ≥ d.get (BUF_QPROF_MAX.SPILL_MAX h i) then
    .error drSpillLimit
  else if q.rsv + k ≤ d.get (BUF_QPROF.RSV_MAX h i) ∧ rsvUse d h cls + k ≤ d.get (BUF_CLASS_RSV.RESERVE h cls) then .ok 0
  else if q.shr + k ≤ dynThreshold d n ∧ d.get (BUF_SHARED_USED.USED h) + k ≤ d.get (BUF_SHARED.SHARED h) then .ok 1
  else if lossless d inP prio ∧ d.get (BUF_HEADROOM_USED.USED h) + k ≤ d.get (BUF_POOL.HEADROOM h) then .ok 2
  else .error drQueueThreshold

/-- What a drop at admission counts in BUF (R442, R414). -/
def countAdmitDrop (d : Dev) (h inP prio reason : Nat) : Dev :=
  if reason = drPortQuota then d.bump (BUF_CNT_DROP_PORT_QUOTA h)
  else if reason = drClassQuota then d.bump (BUF_CNT_DROP_CLASS_QUOTA h)
  else if reason = drSpillLimit then d.bump (BUF_CNT_DROP_SPILL_LIMIT h)
  else if reason = drQueueThreshold then
    let d := d.bump (BUF_CNT_DROP_THRESHOLD h)
    if lossless d inP prio then d.bump (BUF_CNT_HEADROOM_EXHAUSTED h) else d
  else d

/-- A copy is dropped on its way into its queue, in the egress port's half (R481). -/
def dropAtAdmission (g : Grid) (d : Dev) (c : Copy) (reason : Nat) : Dev :=
  let h := halfOf c.port
  let d := countQDrop d c
  endCopy g d c { half := h, slice := c.port / 32, reason := reason, out := some c.port }

/-- R456: the depth of a queue: cells on chip, among them those of a write-down in flight (R422), and 63 for a page of the
middle, being read up or not (R424; DEDUCED, log entry 127). -/
def depthOf (d : Dev) (n : Nat) : Nat :=
  d.get (BUF_QDEPTH.ON_CHIP (qHalf n) (lq n)) + 63 * (d.qu n).mid.length

/-- R420: an admission that brings the cells on chip to SPILL_ON makes an eligible queue enter spill. -/
def enterSpill (d : Dev) (n : Nat) : Dev :=
  let h := qHalf n
  let i := qProf d n
  let q := d.qu n
  if q.spill ∨ !spillEligible d n
      ∨ d.get (BUF_QDEPTH.ON_CHIP h (lq n)) < d.get (BUF_QPROF_SPILL.SPILL_ON h i) then d
  else
    let (a, b) := splitRuns (max 1 (d.get (BUF_QPROF_SPILL.HEAD_LOW h i)) * 63) (q.head ++ q.tail)
    let d := (d.bump (SPL_CNT_ENTER h)).addTo (SPL_QUEUES.COUNT h) 1
    let d := d.put (BUF_QDEPTH.SPILLED h (lq n)) 1
    d.queue n fun q => { q with spill := true, head := a, tail := b, pageSeq := 0 }

/-- R466: a packet of wire length w enters q7 at t (1/64 ns): the calendar after it, and the time its due tick is the
first at or after. -/
def calendarAdd (speed v t w le : Nat) : Nat × Nat :=
  let v := max v t + w * 512 / speed
  (v, v + le * 512 / speed)

/-- R514: n cells of a packet go over the fabric from the half of the slice they leave to half h, unless it is the same. -/
def fabricCells (d : Dev) (src h n : Nat) : Dev :=
  if src = h then d else (d.pmuEvent (halfPmu (1 - h)) 0x05 n).pmuEvent (halfPmu h) 0x06 n

/-- An admitted copy joins its queue: cells, accounts, counters, spill, XOFF. -/
def enqueue (d : Dev) (nowQ : Nat) (c : Copy) (k rc acct : Nat) : Dev :=
  let n := qid c.port c.q
  let h := qHalf n
  let p := c.port
  let prio := pfcPrio d c.pkt.inPort c.q
  let early := match d.frame c.pkt.fid with
    | some f => !f.complete
    | none => false
  let bearing := decide (c.q = 7) && decide (d.get (EQ_PROM.DEADLINE (p / 32) (p % 32)) ≠ 0)
  let (v, due) := if bearing then
      calendarAdd (max 1 (portSpeed d p)) (d.po p).v (nowQ * 16) (lengthAt d c + 20) (portMtu d p + 20)
    else ((d.po p).v, 0)
  let d := d.port p fun x => { x with v := v }
  let c := { c with
    cells := k, recCells := rc, acct := acct, prio := prio, early := early, admitT := nowQ, enqDepth := depthOf d n
    spilled := (d.qu n).spill, due := due, occupancy := 786432 - d.get (BUF_FREE.FREE h) }
  let d := d.bump (BUF_CNT_ADMIT h)
  let d := match acct with
    | 0 => d.bump (BUF_CNT_ADMIT_RSV h)
    | 2 => d.bump (BUF_CNT_ADMIT_HEADROOM h)
    | _ => d
  let d := (d.pmuEvent (halfPmu h) 0x01 1 (some p)).charge 9 k p (acctGroup d c.pkt)
  let d := if c.replica then d else fabricCells d (c.leaves / 16) h k
  let d := (d.ctrAdd (qCtr n 0) 1).ctrAdd (qCtr n 1) (if early then 0 else lengthAt d c)
  let d := charge d n k acct c
  let d := poolTake d h c ⟨c.cid, 0, k⟩
  let d := d.queue n fun q => { q with
    pkts := q.pkts ++ [c]
    head := if q.spill then q.head else q.head ++ [⟨c.cid, 0, k⟩]
    tail := if q.spill then q.tail ++ [⟨c.cid, 0, k⟩] else q.tail }
  checkPause (enterSpill d n) c.pkt.inPort prio

/-- R463, R454, R406: a copy at admission is enqueued or dropped. -/
def admitCopy (g : Grid) (d : Dev) (nowQ : Nat) (c : Copy) : Dev :=
  let (c, d) := meterQ7 d c
  match policeCopy d (nowQ / 4) c with
  | (.error reason, d) => dropAtAdmission g d c reason
  | (.ok c, d) =>
    match d.frame c.pkt.fid with
    | none => d
    | some f =>
      let n := qid c.port c.q
      let rc := recordCells c.pkt
      let fc := if f.complete then frameCellsOf (copyBytes c f).length else frameCellsOf (portMtu d c.pkt.inPort)
      let prio := pfcPrio d c.pkt.inPort c.q
      match admitTest d n (rc + fc) c.pkt.inPort prio with
      | .ok acct => enqueue d nowQ c (rc + fc) rc acct
      | .error reason =>
        let d := d.pmuEvent (halfPmu (qHalf n)) 0x02 1 (some c.port)
        dropAtAdmission g (countAdmitDrop d (qHalf n) c.pkt.inPort prio reason) c reason

/-- The queues of its port that a copy may come to be enqueued in: its own, and those that the promise's meter and the
policers may move it to (R463, R455). -/
def mayJoin (d : Dev) (p q : Nat) : List Nat :=
  let s := p / 32
  let base := if q = 7 then [7, d.get (EQ_PROM.DEMOTE_Q s (p % 32))] else [q]
  base ++ (base.filter fun q => decide (q ≠ 7) && d.flag (EQ_QCFG.POL_EN s (8 * (p % 32) + q))).map fun q =>
    (polCfg d s (d.get (EQ_QCFG.POLICER s (8 * (p % 32) + q)))).yq

/-- R14: an earlier packet of the same ingress port may come to the same queue as copy c of slice s, and still waits. -/
def overtakes (d : Dev) (s : Nat) (c : Copy) : Bool :=
  let qs := mayJoin d c.port c.q
  let ahead (y : Copy) : Bool := decide (y.ord < c.ord) && decide (y.pkt.inPort = c.pkt.inPort)
    && (mayJoin d c.port y.q).any fun q => qs.contains q
  c.punt.isNone && (((d.sl s).toAdmit.any fun y => y.punt.isNone && decide (y.port = c.port) && ahead y)
    || d.buf.toRep.any fun x => decide (x.1 = halfOf c.port) && decide (x.2.leaves = s) && ahead x.2)

/-- A copy waits for a transfer over the fabric (R20); a replica has crossed with its packet. -/
def crossing (s : Nat) (c : Copy) : Bool := c.punt.isNone && !c.replica && decide (halfOf c.port ≠ s / 16)

/-- R22: the order in which the fabric serves transfers. -/
def fabricRank (c : Copy) : Nat :=
  if c.mirror ∨ c.replica then 3 else match c.q with
    | 7 => 0
    | 6 => 1
    | _ => 2

/-- A copy may be taken for admission: the slice that holds it is up, or it is a replica; one for a punt ring is whole; and it
overtakes none (R14). -/
def mayAdmit (d : Dev) (s : Nat) (c : Copy) : Bool :=
  (d.sliceUp s || c.replica) && !overtakes d s c && (c.punt.isNone || match d.frame c.pkt.fid with
    | some f => f.complete
    | none => true)

/-- The first class of R22 that waits for a transfer from half h, 4 for none. -/
def fabricBest (d : Dev) (h : Nat) : Nat :=
  d.slices.foldl (fun a e => if e.1 / 16 = h then
    ((e.2.toAdmit.filter fun c => crossing e.1 c && mayAdmit d e.1 c).map fabricRank).foldl min a else a) 4

/-- R13, R14, R22: the copy of slice s that comes to admission: its oldest, where it need not cross the fabric; else the oldest of
those that cross in the class the fabric serves, before copies that stay in the half. -/
def nextAdmit (d : Dev) (s : Nat) : Option Copy :=
  let l := (d.sl s).toAdmit.filter (mayAdmit d s)
  match l with
  | [] => none
  | c :: _ =>
    if !crossing s c then some c else
      match l.find? fun c => crossing s c && decide (fabricRank c = fabricBest d (s / 16)) with
      | some c => some c
      | none => l.find? fun c => !crossing s c

/-- ADMISSION's effect: the next copy of slice s is admitted or dropped (R13), or handed to its punt ring. -/
def admission (g : Grid) (d : Dev) (s dt : Nat) : Dev :=
  match nextAdmit d s with
  | none => d
  | some c =>
    let d := d.slice s fun x => { x with toAdmit := x.toAdmit.filter fun y => decide (y.cid ≠ c.cid) }
    match c.punt with
    | none => admitCopy g d (g.nowQ dt) c
    | some (ring, code) =>
      match d.frame c.pkt.fid with
      | some f => dropFrame (toPuntRing g d c ring code (copyBytes c f) (s / 16) s) c.pkt.fid
      | none => d

/-- ADMISSION (R406). -/
def execAdmission (s : Fin 32) (dt : Nat) (st : State) : Outc := st.withDev fun d => admission st.grid d s dt

/-! ### Charge correction (R408) -/

/-- Resize the last run of a copy in a list of runs. -/
def resizeRun (cid off new : Nat) (l : List Run) : List Run :=
  l.filterMap fun r =>
    if r.cid ≠ cid then some r
    else if r.off + r.n ≤ off ∧ r.off + r.n < new then some r
    else if new ≤ r.off then none else some { r with n := new - r.off }

/-- A queued copy's charge becomes its real cell count; with fewer cells its queue may leave spill (R421). -/
def correctQueued (d : Dev) (n : Nat) (c : Copy) (k : Nat) : Dev :=
  let h := qHalf n
  let upd (c : Copy) : Copy := { c with cells := k, early := false }
  let d := d.ctrAdd (qCtr n 1) (lengthAt d c)
  let d := if k < c.cells then releaseRuns d n c [⟨c.cid, k, c.cells - k⟩]
    else if c.cells < k then
      checkPause (poolTake (charge d n (k - c.cells) c.acct c) h c ⟨c.cid, c.cells, k - c.cells⟩) c.pkt.inPort c.prio
    else d
  let fix (l : List Run) := resizeRun c.cid c.cells k l
  let d := settleSpill (d.queue n fun q => { q with
    pkts := q.pkts.map fun x => if x.cid = c.cid then upd x else x
    head := fix q.head, tail := fix q.tail }) n
  d.port (n / 8) fun x => { x with tx := x.tx.map fun t =>
    if t.copy.cid = c.cid then { t with copy := upd t.copy } else t }

/-- A recirculated copy's charge becomes its real cell count. -/
def correctRecirc (d : Dev) (s : Nat) (c : Copy) (k : Nat) : Dev :=
  let h := s / 16
  let d := if k < c.cells then poolGive (sharedGive d h (c.cells - k)) h c ⟨c.cid, k, c.cells - k⟩
    else poolTake (sharedTake d h (k - c.cells)) h c ⟨c.cid, c.cells, k - c.cells⟩
  d.slice s fun x => { x with recirc := x.recirc.map fun y =>
    if y.cid = c.cid then { y with cells := k, early := false } else y }

/-- CHARGE_CORRECT's effect: every copy of a frame admitted before its last byte is charged its real cells. -/
def chargeCorrect (d : Dev) (fid : Nat) : Dev :=
  match d.frame fid with
  | some f =>
    if !f.complete then d else
      let mine (c : Copy) : Bool := decide (c.pkt.fid = fid) && c.early
      let real (c : Copy) : Nat := c.recCells + frameCellsOf (copyBytes c f).length
      let queued := d.queues.flatMap fun e => (e.2.pkts.filter mine).map fun c => (e.1, c)
      let sending := d.ports.filterMap fun e => match e.2.tx with
        | some t => if mine t.copy then some (qid e.1 t.copy.q, t.copy) else none
        | none => none
      let rec' := d.slices.flatMap fun e => (e.2.recirc.filter mine).map fun c => (e.1, c)
      let d := (queued ++ sending).foldl (fun d x => correctQueued d x.1 x.2 (real x.2)) d
      rec'.foldl (fun d x => correctRecirc d x.1 x.2 (real x.2)) d
  | none => d

/-- CHARGE_CORRECT (R408). -/
def execChargeCorrect (fid : Nat) (s : State) : Outc := s.withDev fun d => chargeCorrect d fid

/-! ### Replication (R416, R417) -/

/-- Replication entry i of half h. -/
def mcEntry (d : Dev) (h i : Nat) : Nat := dataWord (d.wget (wkey (mbxBuf h) (2 ^ 28 + i))) 0

/-- R416: one copy for a replication entry, or a drop where its port is not one of this half. -/
def replicaFor (g : Grid) (d : Dev) (h : Nat) (c : Copy) (e : Nat) : Dev :=
  let p := bits e 25 16
  let c := { c with port := p, replica := true, pkt := { c.pkt with vec := c.pkt.vec.put 0 237 (BitVec.ofNat 32 (bits e 15 0)) } }
  if isPort d p ∧ halfOf p = h then
    pushAdmit ((d.bump (BUF_CNT_MC_COPIES h)).pmuEvent (halfPmu h) 0x08 1) c.leaves c
  else
    let d := (d.bump (BUF_CNT_MC_DROP h)).event (BUF_STATUS.MC_ERR h)
    complete g d c { half := h, slice := p / 32, reason := drNoEgress, out := some p }

/-- R22: a multicast transfer into half h may go: it stays in the half, or no unicast transfer waits. -/
def mayReplicate (d : Dev) (h : Nat) (c : Copy) : Bool := decide (c.leaves / 16 = h) || decide (3 ≤ fabricBest d (c.leaves / 16))

/-- REPLICATE's effect: the first packet waiting for half h's replication whose transfer may go makes its copies, in list
order. -/
def replicate (g : Grid) (d : Dev) (h : Nat) : Dev :=
  match d.buf.toRep.find? fun x => decide (x.1 = h) && mayReplicate d h x.2 with
  | none => d
  | some (_, c) =>
    let d := { d with buf := { d.buf with toRep := d.buf.toRep.erase (h, c) } }
    let d := match d.frame c.pkt.fid with
      | some f => fabricCells d (c.leaves / 16) h (recordCells c.pkt + frameCellsOf (copyBytes c f).length)
      | none => d
    let e := mcGroup d h ((c.pkt.vec.get 0 236).toNat % 65536)
    let entries := if bit e 31 then (List.range (bits e 28 19)).map fun i => mcEntry d h (bits e 17 0 + i) else []
    let d := (entries.filter fun e => bit e 31).foldl (fun d e => replicaFor g d h c e) d
    dropFrame d c.pkt.fid

/-- REPLICATE (R416). -/
def execReplicate (h : Fin 2) (s : State) : Outc := s.withDev fun d => replicate s.grid d h

/-! ### Removing a frame's copies (R198, R237) -/

/-- Every copy of a frame whose transmission has not begun is dropped with a reason. -/
def dropFrameCopies (g : Grid) (d : Dev) (fid reason : Nat) : Dev :=
  let mine (c : Copy) : Bool := decide (c.pkt.fid = fid)
  -- staged for the parser
  let staged := d.slices.flatMap fun e => (e.2.staging.filter fun p => decide (p.fid = fid)).map fun p => (e.1, p)
  let d := staged.foldl (fun d x =>
    let d := d.slice x.1 fun y => { y with staging := y.staging.filter fun p => decide (p.fid ≠ fid) }
    complete g d (plainCopy x.2 0 0) { half := x.1 / 16, slice := x.1, reason := reason, parsed := x.2.second }) d
  -- waiting for admission
  let waiting := d.slices.flatMap fun e => (e.2.toAdmit.filter mine).map fun c => (e.1, c)
  let d := waiting.foldl (fun d x =>
    let d := d.slice x.1 fun y => { y with toAdmit := y.toAdmit.filter fun c => decide (c.cid ≠ x.2.cid) }
    complete g d x.2 { half := x.1 / 16, slice := x.1, reason := reason
                       out := if x.2.punt.isSome then none else some x.2.port }) d
  -- waiting for replication
  let reps := d.buf.toRep.filter fun x => mine x.2
  let d := { d with buf := { d.buf with toRep := d.buf.toRep.filter fun x => !mine x.2 } }
  let d := reps.foldl (fun d x => complete g d x.2 { half := x.1, slice := ingressSlice x.2.pkt, reason := reason }) d
  -- in the recirculation queues
  let recs := d.slices.flatMap fun e => (e.2.recirc.filter mine).map fun c => (e.1, c)
  let d := recs.foldl (fun d x =>
    let d := poolGive (sharedGive d (x.1 / 16) x.2.cells) (x.1 / 16) x.2 ⟨x.2.cid, 0, x.2.cells⟩
    let d := d.slice x.1 fun y => { y with recirc := y.recirc.filter fun c => decide (c.cid ≠ x.2.cid) }
    complete g d x.2 { half := x.1 / 16, slice := x.1, reason := reason }) d
  -- queued
  let queued := d.queues.flatMap fun e => (e.2.pkts.filter mine).map fun c => (e.1, c)
  queued.foldl (fun d x => dropQueued g d x.1 x.2 reason) d

/-! ### Late tests of long frames (R237) -/

/-- The put-off tests of a frame fail. -/
def lateFails (f : Frame) (q : Deferred) : Bool :=
  let fe := f.bytes.length - 4
  (q.ends.any fun e => decide (e > fe))
    || (match q.outerEnd with
      | some e => decide (fe - e > q.trailMax)
      | none => false)

/-- A frame and those built from it while its late tests were still to come. -/
def familyOf (d : Dev) (fid : Nat) : List Nat :=
  fid :: d.frames.filterMap fun e => if e.2.bind (·.origin) = some fid then some e.1 else none

/-- R18: a frame turns out bad. -/
def spoilFrame (d : Dev) (fid : Nat) : Dev := match d.frame fid with
  | some f => d.setFrame fid (some { f with bad := true, defer := none })
  | none => d

/-- LATE_MALFORMED's effect: with a long frame's last byte in, its put-off tests are made: a failure drops every copy
whose transmission has not begun, also of the frames built from it, and stomps the others. -/
def lateMalformed (g : Grid) (d : Dev) (fid : Nat) : Dev :=
  match d.frame fid with
  | some f =>
    match f.defer with
    | some q =>
      if !f.complete then d else
        let d := d.setFrame fid (some { f with defer := none })
        if lateFails f q then
          (familyOf d fid).foldl (fun d i => dropFrame (dropFrameCopies g (spoilFrame d i) i drMalformed) i)
            (d.bump (PRS_CNT_LATE_MALF q.slice))
        else dropFrame d fid
    | none => d
  | none => d

/-- LATE_MALFORMED (R237). -/
def execLateMalformed (fid : Nat) (s : State) : Outc := s.withDev fun d => lateMalformed s.grid d fid

end Sys2Proof.Machine
end

