-- ==== Sys2Proof/Machine/Deparser.lean ====
section
/-!
DEFINITION. The deparser (R281-R284) and what it and the MAC write into a frame: IOAM options (R491-R494), timestamps
(R217).
-/
namespace Sys2Proof.Machine

/-- Apply writes (offset, bytes) to a frame; bytes beyond its end are not written. -/
def applyEdits (b : List Byte) (es : List (Nat × List Byte)) : List Byte := es.foldl (fun b e => overwrite b e.1 e.2) b

/-- The received bytes of a frame without its FCS, as far as they are there. -/
def noFcs (f : Frame) : List Byte := if f.complete then f.bytes.take (f.bytes.length - 4) else f.bytes

/-! ### Headers (R281, R282) -/

/-- A container's bytes, from the most significant. -/
def contBytes (pk : Pkt) (c : Nat) : List Byte := beBytes (contWidth c) (pk.vec.get 0 c).toNat

/-- R281: an instance's bytes with every extract's range overwritten by its container; a range past the instance's end
is cut there. -/
def instBytes (d : Dev) (s b : Nat) (pk : Pkt) (inst : Nat) (base : List Byte) : List Byte :=
  (List.range 16).foldl (fun h j =>
    let c := d.get (PRS_EXT.CONT s b (inst * 16 + j))
    if c > 221 ∨ (152 ≤ c ∧ c ≤ 159) then h else
      overwrite h (d.get (PRS_EXT.OFF s b (inst * 16 + j))) (contBytes pk c)) base

/-- R282: an IPv4 header with its checksum recomputed. -/
def withCsum (h : List Byte) : List Byte :=
  if h.length < 12 then h else
    let z := overwrite h 10 [0, 0]
    let sum := (List.range ((z.length + 1) / 2)).foldl (fun a i => a + beNat (bytesAt z (2 * i) 2)) 0
    let f1 := sum % 65536 + sum / 65536
    let f2 := f1 % 65536 + f1 / 65536
    overwrite z 10 (beBytes 2 (65535 - f2 % 65536))

/-- R281: the instances the deparser emits, in DEP_ORDER's order: those listed, enabled, and valid. -/
def emitOrder (d : Dev) (s b : Nat) (pk : Pkt) : List Nat :=
  let valid := (pk.vec.get 0 222).toNat
  (List.range 24).filterMap fun e =>
    let x := bits (d.word (DEP_ORDER.word s b (e / 4)).addr).toNat (8 * (e % 4) + 7) (8 * (e % 4))
    let i := x % 32
    if bit x 7 ∧ i < 24 ∧ bit valid i then some i else none

/-- An emitted instance's bytes. -/
def emitInst (d : Dev) (s b : Nat) (pk : Pkt) (f : Frame) (i : Nat) : List Byte :=
  let base := match pk.hdrs.find? fun h => decide (h.1 = i) with
    | some h => bytesAt f.bytes h.2.1 h.2.2
    | none => List.replicate (bits (d.word (DEP_LEN.word s b (i / 4)).addr).toNat (8 * (i % 4) + 7) (8 * (i % 4))) 0
  let h := instBytes d s b pk i base
  if bit (d.get (DEP_CSUM.CSUM s b)) i then withCsum h else h

/-- The emitted headers and, for each instance, where it begins. -/
def emitHeaders (d : Dev) (s b : Nat) (pk : Pkt) (f : Frame) : List Byte × List (Nat × Nat) :=
  (emitOrder d s b pk).foldl (fun (a : List Byte × List (Nat × Nat)) i =>
    (a.1 ++ emitInst d s b pk f i, a.2 ++ [(i, a.1.length)])) ([], [])

/-! ### IOAM (R491-R494) -/

/-- What fills IOAM data (R492): the copy, its egress port, the receive timestamp, the transit delay. -/
structure IoamCtx where
  s : Nat
  pk : Pkt
  port : Nat
  depth : Nat
  occupancy : Nat
  rxTs : Nat
  delay : Nat
  deriving DecidableEq, Repr

/-- R492: the data of one trace-type bit; none for bits the device does not fill. -/
def ioamField (d : Dev) (x : IoamCtx) (i : Nat) : Option (List Byte) :=
  let hop := (x.pk.vec.get 0 (d.get (CTH_IOAM.HOPLIM_CONT x.s))).toNat % 256
  let node := (d.word (CTH_IOAM_NODE.word x.s).addr).toNat
  match i with
  | 0 => some (beBytes 1 hop ++ beBytes 3 node)
  | 1 => some (beBytes 2 x.pk.inPort ++ beBytes 2 x.port)
  | 2 => some (beBytes 4 (x.rxTs / 4000000000))
  | 3 => some (beBytes 4 (x.rxTs / 4 % 1000000000))
  | 4 => some (beBytes 4 (sat 32 x.delay))
  | 5 => some (beBytes 4 (x.pk.vec.get 0 232).toNat)
  | 6 => some (beBytes 4 x.depth)
  | 8 => some (beBytes 1 hop ++ beBytes 3 (d.get (CTH_IOAM_NODE_HI.NODE_HI x.s)) ++ beBytes 4 node)
  | 9 => some (beBytes 4 x.pk.inPort ++ beBytes 4 x.port)
  | 10 => some (beBytes 4 (x.pk.vec.get 0 233).toNat ++ beBytes 4 (x.pk.vec.get 0 232).toNat)
  | 11 => some (beBytes 4 x.occupancy)
  | _ => none

/-- The data of a trace type, its supported bits in order, with the offset of the transit delay in it. -/
def ioamData (d : Dev) (x : IoamCtx) (type : Nat) : List Byte × Option Nat :=
  (List.range 12).foldl (fun (a : List Byte × Option Nat) i =>
    if bit type (23 - i) then
      match ioamField d x i with
      | some b => (a.1 ++ b, if i = 4 then some a.1.length else a.2)
      | none => a
    else a) ([], none)

/-- What the deparser does for IOAM: its writes, the MAC's writes, whether data was written. -/
structure IoamOut where
  edits : List (Nat × List Byte) := []
  mac : List (Nat × List Byte) := []
  wrote : Bool := false
  deriving DecidableEq, Repr

/-- The namespace is the device's (R491). -/
def ourNamespace (d : Dev) (s ns : Nat) : Bool := decide (ns = 0) || decide (ns = d.get (CTH_IOAM_NS.NAMESPACE s))

/-- R493: the trace option of a frame, its header at byte `at`. -/
def ioamTrace (d : Dev) (x : IoamCtx) (body : List Byte) (at' : Nat) : IoamOut × Dev :=
  let h := bytesAt body at' 8
  let w := beNat ((h.drop 2).take 2)
  let type := beNat ((h.drop 4).take 3)
  if !ourNamespace d x.s (beNat (h.take 2)) then ({}, d) else
    let nodeLen := w / 2048
    let remain := w % 128
    let (data, tdelay) := ioamData d x type
    if bit type 16 ∨ bit type 1 ∨ data.length ≠ 4 * nodeLen then
      ({}, (d.event (CTH_STATUS.IOAM_ERR x.s)).bump (CTH_CNT_IOAM_ERR x.s))
    else if remain < nodeLen then
      ({ edits := [(at' + 2, beBytes 2 (if bit w 10 then w else w + 1024))] }, d.bump (CTH_CNT_IOAM_OVERFLOW x.s))
    else
      let pos := at' + 8 + 4 * (remain - nodeLen)
      let mac := match tdelay with
        | some o => [(pos + o, (data.drop o).take 4)]
        | none => []
      -- the MAC writes the transit delay; the deparser leaves those bytes as they are
      let edits := match tdelay with
        | some o => [(pos, data.take o), (pos + o + 4, data.drop (o + 4))]
        | none => [(pos, data)]
      ({ edits := edits ++ [(at' + 2, beBytes 2 (w - nodeLen))], mac := mac, wrote := true },
        d.bump (CTH_CNT_IOAM_WRITTEN x.s))

/-- R494, R498: the DEX record of a direct export option at byte `at'`, without its Cartouche: Extension-Flags bits 0 and
1 announce Flow ID and Sequence Number. -/
def dexFields (d : Dev) (x : IoamCtx) (body : List Byte) (at' : Nat) : List Byte :=
  let h := bytesAt body at' 8
  let ext := beNat ((h.drop 3).take 1)
  let type := beNat ((h.drop 4).take 3)
  let flow := if bit ext 7 then bytesAt body (at' + 8) 4 else beBytes 4 0
  let seq := if bit ext 6 then bytesAt body (at' + 8 + (if bit ext 7 then 4 else 0)) 4 else beBytes 4 0
  h.take 4 ++ beBytes 4 (type * 256) ++ flow ++ seq ++ bytesAt (ioamData d x type).1 0 56

/-! ### Building a frame -/

/-- What the deparser makes of a copy: the headers, where the payload begins, the writes, the DEX fields to export. -/
structure Built where
  hdr : List Byte
  off : Nat
  edits : List (Nat × List Byte)
  mac : List (Nat × List Byte)
  ioam : Bool
  dex : Option (List Byte)
  deriving DecidableEq, Repr

/-- R281-R283, R491: the deparser of slice s for a copy; none where the headers exceed 448 bytes. -/
def deparse (d : Dev) (b : Nat) (x : IoamCtx) (f : Frame) : Option (Built × Dev) :=
  let s := x.s
  let (hdr, places) := emitHeaders d s b x.pk f
  if hdr.length > 448 then none else
    let off := (x.pk.vec.get 0 156).toNat
    let body := hdr ++ (noFcs f).drop off
    let placeOf (i : Nat) := (places.find? fun y => decide (y.1 = i)).map (·.2)
    let (io, d) := match (if d.flag (CTH_IOAM.EN s) then placeOf (d.get (CTH_IOAM.INSTANCE s)) else none) with
      | some p => ioamTrace d x body p
      | none => ({}, d)
    let dex := match (if d.flag (CTH_IOAM.DEX_EN s) then placeOf (d.get (CTH_IOAM.DEX_INSTANCE s)) else none) with
      | some p => if ourNamespace d s (beNat (bytesAt body p 2)) then some (dexFields d x body p) else none
      | none => none
    some (⟨hdr, off, io.edits, io.mac, io.wrote, dex⟩, d)

/-- The bytes built from a frame, without FCS: headers, payload, the deparser's writes, padding to 60 (R283). -/
def builtBody (hdr : List Byte) (off : Nat) (edits : List (Nat × List Byte)) (f : Frame) : List Byte :=
  let b := applyEdits (hdr ++ (noFcs f).drop off) edits
  b ++ List.replicate (if f.complete then 60 - b.length else 0) 0

/-- The bytes a frame built from another comes to, FCS included, as far as they have arrived: with the frame still arriving, one more
at least (R283). -/
def builtLen (hdr : List Byte) (off : Nat) (edits : List (Nat × List Byte)) (f : Frame) : Nat :=
  (builtBody hdr off edits f).length + (if f.complete then 4 else 1)

/-- A frame the deparser built, as a frame of its own (R274, R278); one built from a frame still arriving is finished
with it. A bad source gives a stomped FCS (R18). -/
def derive (d : Dev) (src : Nat) (f : Frame) (b : Built) : Nat × Dev :=
  let body := builtBody b.hdr b.off (b.edits ++ b.mac) f
  d.newFrame { inPort := f.inPort, complete := f.complete, bad := f.bad, rxTs := f.rxTs
               bytes := if f.complete then body ++ (if f.bad then stompedFcs body else ethFcs body) else body
               total := f.total - 4 - b.off + b.hdr.length + 4
               origin := match f.origin with
                 | some i => some i
                 | none => if f.complete ∧ f.defer.isNone then none else some src
               built := if f.complete then none else some (src, b.hdr, b.off, b.edits ++ b.mac) }

/-- The frames built from a frame that is now complete are finished. -/
def settle (d : Dev) (src : Nat) (f : Frame) : Dev :=
  { d with frames := d.frames.map fun e => match e.2 with
      | some x => match x.built with
        | some (fid, hdr, off, edits) =>
          if fid = src then
            let body := builtBody hdr off edits f
            (e.1, some { x with complete := true, bad := f.bad, built := none
                                bytes := body ++ (if f.bad then stompedFcs body else ethFcs body) })
          else e
        | none => e
      | none => e }

/-! ### Transmit timestamps (R216, R217) -/

/-- A signed 16-bit number. -/
def signed16 (n : Nat) : Int := if n % 65536 < 32768 then (n % 65536 : Nat) else (n % 65536 : Nat) - 65536

/-- R216: the transmit timestamp of a frame dequeued at `now`, in 0.25 ns: 64 cycles of egress path (chapter 01), the
egress latency and the adjustment. -/
def txTimestamp (d : Dev) (p now : Nat) : Nat :=
  ((now + cyclesToQ d 64 + 4 * portEgressNs d p : Nat) + signed16 (d.get (PT_TS_ADJ.TX_ADJ p))).toNat

/-- R217: the MAC's writes into a frame: TS 1 origin timestamp, 2 correction field. `body` is the frame as the deparser
built it. -/
def ptpEdits (d : Dev) (p : Nat) (pk : Pkt) (ts rxTs : Nat) (body : List Byte) : List (Nat × List Byte) :=
  let off := (pk.vec.get 0 234).toNat % 512
  if !d.flag (PT_CFG.PTP_EN p) then [] else
    match pk.ts with
    | 1 => [(off + 34, beBytes 6 (ts / 4000000000) ++ beBytes 4 (ts / 4 % 1000000000))]
    | 2 => [(off + 8, beBytes 8 (beNat (bytesAt body (off + 8) 8) + (ts - rxTs) * 16384))]
    | _ => []

/-- R217: a two-step capture into the port's timestamp FIFO of 64. -/
def tsCapture (d : Dev) (p : Nat) (pk : Pkt) (ts : Nat) : Dev :=
  if pk.ts = 3 ∧ d.flag (PT_CFG.PTP_EN p) then
    if (d.po p).tsFifo.length < 64 then
      d.port p fun x => { x with tsFifo := x.tsFifo ++
        [(ts / 4000000000, ts / 4 % 1000000000, (pk.vec.get 0 234).toNat / 65536)] }
    else (d.ctrAdd (ptCtr p 27) 1).event (PT_STATUS.TS_FIFO_OVF p)
  else d

end Sys2Proof.Machine
end

