-- ==== Sys2Proof/Machine/Egress.lean ====
section
/-!
DEFINITION. Scheduling and transmission (R17, R445-R453, R457, R466-R470): SCHEDULER_DECISION, TX_COMPLETE,
RECIRC_DEQUEUE and the timing wheels; the egress pipeline and its fates (R273, R274, R278-R284, R439).
-/
namespace Sys2Proof.Machine

/-! ### Shapers and the wheels (R450-R453) -/

/-- A shaper's credit at `now` (0.25 ns): it accrues at RATE and is capped at BURST. -/
def creditAt (q : Queue) (now : Nat) : Int :=
  min (q.credit + (q.shRate : Int) * ((now - q.creditT : Nat) : Int)) ((q.shBurst * 32000 : Nat) : Int)

/-- R450: the wheel slot (16 ns) a credit below 0 is next eligible at, and whether it lies beyond the fine wheel. -/
def wheelSlot (rate : Nat) (credit : Int) (now : Nat) : Nat × Bool :=
  let wait := ((-credit).toNat + rate - 1) / rate
  let slot := (now + wait + 63) / 64
  (slot, decide (slot * 64 ≥ now + 65536 * 4))

/-- R450, R453: a queue waits on the wheel while its credit lies below 0. -/
def placeOnWheel (q : Queue) (now : Nat) : Queue :=
  if q.shOn ∧ q.shRate ≠ 0 ∧ q.credit < 0 then
    let (slot, coarse) := wheelSlot q.shRate q.credit now
    { q with wheel := some slot, coarse := coarse }
  else { q with wheel := none, coarse := false }

/-- R450: a frame of wire length w leaves a shaped queue. -/
def shaperSpend (q : Queue) (now w : Nat) : Queue :=
  if q.shOn then
    placeOnWheel { q with credit := creditAt q now - (w * 32000 : Nat), creditT := now } now
  else q

/-- R450, R452: the shaper lets queue class c send; a shaper on q7 has no effect. -/
def shaperOpen (q : Queue) (c now : Nat) : Bool :=
  decide (c = 7) || !q.shOn || (decide (q.shRate ≠ 0) && q.wheel.isNone && decide (0 ≤ creditAt q now))

/-! ### Eligibility (R17, R445, R426) -/

/-- R17, R200: a copy may start before its frame's last byte. -/
def mayCut (d : Dev) (n : Nat) (c : Copy) : Bool :=
  let q := d.qu n
  decide (q.pkts.length = 1) && !q.spill && decide (portSpeed d (n / 8) ≤ portSpeed d c.pkt.inPort)
    && d.flag (PT_CFG.CT_EN (n / 8)) && d.flag (PT_CFG.CT_EN c.pkt.inPort)

/-- The copy a queue would send next: its oldest, with its first cell in the head, whole or cutting through. -/
def headCopy (d : Dev) (n : Nat) : Option Copy :=
  let q := d.qu n
  match q.pkts, q.head with
  | c :: _, r :: _ =>
    if r.cid ≠ c.cid then none else
      match d.frame c.pkt.fid with
      | some f => if f.complete ∨ mayCut d n c then some c else none
      | none => none
  | _, _ => none

/-- The priority of a queue class is paused by the partner, and the watchdog does not ignore it (R212, R215). -/
def pausedQ (d : Dev) (p q now : Nat) : Bool :=
  let prio := pfcPrio d p q
  ((d.po p).pausedUntil.any fun x => decide (x.1 = prio) && decide (now < x.2.2)) && !(d.po p).wdLifted.contains prio

/-- Link time of an epoch in bytes at a port's rate. -/
def epochBytes (d : Dev) (p : Nat) : Nat := 128 * portSpeed d p

/-- R595: q0-q6 have some of their paced share left. -/
def paceOpen (d : Dev) (p : Nat) : Bool :=
  let fr := d.get PWR_PACE_BE.FRACTION
  decide (fr ≥ 256) || decide ((d.po p).beUsed * 256 < fr * epochBytes d p)

/-- A queue q0-q6 may be served. -/
def beEligible (d : Dev) (p q now : Nat) : Bool :=
  (headCopy d (qid p q)).isSome && !pausedQ d p q now && shaperOpen (d.qu (qid p q)) q now && paceOpen d p

/-- Wire length of a queue's next frame (R447), by the bytes that have arrived. -/
def headWire (d : Dev) (n : Nat) : Nat := match headCopy d n with
  | some c => lengthAt d c + 20
  | none => 0

/-! ### The choice of a queue (R445, R448) -/

/-- Visits a DWRR queue needs before its head frame fits its deficit, at least one. -/
def visits (w deficit quantum : Nat) : Nat := max 1 ((w - deficit + quantum - 1) / quantum)

/-- R448: the DWRR set's choice: the queue, and the deficits and places after it. -/
def dwrr (d : Dev) (p : Nat) (set : List Nat) : Option (Nat × Dev) :=
  let po := d.po p
  let w (q : Nat) := headWire d (qid p q)
  let df (q : Nat) := (d.qu (qid p q)).deficit
  let qm (q : Nat) := d.get (EQ_QCFG.QUANTUM (p / 32) (8 * (p % 32) + q))
  if !po.drrFresh ∧ set.contains po.drr ∧ w po.drr ≤ df po.drr then some (po.drr, d) else
    -- the cyclic order of visits from here on: the queue being visited comes last
    let from' := if po.drrFresh then po.drr else po.drr + 1
    let order := ((List.range 6).map fun i => (from' + i) % 6).filter fun q => set.contains q
    match order with
    | [] => none
    | q0 :: _ =>
      let best := order.foldl (fun b q => if visits (w q) (df q) (qm q) < visits (w b) (df b) (qm b) then q else b) q0
      let n := visits (w best) (df best) (qm best)
      let pos := order.idxOf best
      let d := (List.range order.length).foldl (fun d i =>
        let q := order.getD i 0
        let k := if i ≤ pos then n else n - 1
        d.queue (qid p q) fun x => { x with deficit := x.deficit + k * qm q }) d
      some (best, d.port p fun x => { x with drr := best, drrFresh := false })

/-- R445: the queue a port serves. -/
def chooseQueue (d : Dev) (p now : Nat) : Option (Nat × Dev) :=
  let s := p / 32
  let q7 := (headCopy d (qid p 7)).isSome && !pausedQ d p 7 now
  let credit := match (d.po p).credit with
    | some c => decide (0 < c)
    | none => true
  if q7 && credit then some (7, d)
  else if beEligible d p 6 now then some (6, d)
  else
    let el := (List.range 6).filter fun q => beEligible d p q now
    let sp := d.get (EQ_PORT.SP_MASK s (p % 32))
    let quantum (q : Nat) := d.get (EQ_QCFG.QUANTUM s (8 * (p % 32) + q))
    match (el.filter fun q => bit sp q).reverse with
    | q :: _ => some (q, d)
    | [] =>
      match dwrr d p (el.filter fun q => !bit sp q && decide (quantum q ≠ 0)) with
      | some x => some x
      | none =>
        let sc := el.filter fun q => !bit sp q && decide (quantum q = 0)
        match (((List.range 6).map fun i => ((d.po p).rr + i) % 6).filter fun q => sc.contains q) with
        | q :: _ => some (q, d.port p fun x => { x with rr := (q + 1) % 6 })
        | [] => if q7 then some (7, d) else none

/-! ### Dequeue (R457, R469, R470) -/

/-- R457: a queue's sojourn statistics take a dequeued copy's sojourn in ns. -/
def sojournStats (d : Dev) (n soj : Nat) : Dev :=
  let sh := d.get (EQ_CFG.EWMA_SHIFT (n / 256))
  let d := d.queue n fun q => { q with
    sojMax := max q.sojMax (sat 32 soj)
    sojEwma := ((q.sojEwma : Int) + Int.tdiv ((soj : Int) - q.sojEwma) ((2 ^ sh : Nat) : Int)).toNat }
  let bin := if soj < 256 then 0 else min 15 (Nat.log2 soj - 7)
  let k := n * 16 + bin
  { d with tel := { d.tel with sojHist := d.tel.sojHist.put 0 k (BitVec.ofNat 32 (sat 32 ((d.tel.sojHist.get 0 k).toNat + 1))) } }

/-- A copy leaves the front of its queue for egress stage 0: its deficit, shaper, pace and calendar credit are charged
its wire length, unless its length is not yet known. Link time that q0-q6 leave unused charges no credit (R468). -/
def chargeSent (d : Dev) (p q now w : Nat) : Dev :=
  let d := d.queue (qid p q) fun x =>
    let x := { x with deficit := if x.pkts = [] then 0 else x.deficit - w }
    if q = 7 then x else shaperSpend x now w
  d.port p fun x => { x with
    beUsed := if q = 7 then x.beUsed else x.beUsed + w
    credit := if q = 7 then x.credit.map (fun c => if 0 < c then c - (w : Int) else c) else x.credit }

/-- R469: a q7 copy whose transmission starts after its due tick is late. `tick` is the last tick in 1/64 ns. -/
def promiseLate (d : Dev) (p tick : Nat) (c : Copy) : Dev :=
  let s := p / 32
  if c.q = 7 ∧ c.due ≠ 0 ∧ c.due ≤ tick then
    let d := (d.bump (EQ_CNT_PROM_LATE s)).event (EQ_STATUS.PROM_LATE s)
    match d.get (EQ_PROM_CAUSE.CAUSE s (p % 32)) with
    | 1 => d.bump (EQ_CNT_LATE_PAUSE s)
    | 2 => d.bump (EQ_CNT_LATE_LINK s)
    | 3 => d.bump (EQ_CNT_LATE_CAPACITY s)
    | _ => d
  else d

/-- R470: a reserved copy misses its deadline. -/
def missed (d : Dev) (p ts rxTs : Nat) (c : Copy) : Bool :=
  c.reserved && decide (c.q = 7)
    && decide (ts - rxTs > d.get (EQ_PROM.DEADLINE (p / 32) (p % 32)) * 4096)

/-! ### The egress pipeline (R273, R274) -/

/-- How a copy left the egress pipeline: it ended, or it is to be transmitted with what the deparser made of it. -/
inductive EgEnd where
  | gone (d : Dev)
  | send (c : Copy) (b : Built) (d : Dev)

/-- A copy ends in the egress slice s. -/
def endEgress (g : Grid) (d : Dev) (s : Nat) (c : Copy) (soj reason : Nat) (trapped : Bool) (stage : Nat)
    (out : Option Nat) : Dev :=
  complete g d c { half := s / 16, slice := s, reason := reason, trapped := trapped, sojourn := soj
                   queued := out.isSome, stage := stage, out := out }

/-- R509: a copy is transmitted, or handed on as a recirculation or punt. -/
def countDeq (d : Dev) (c : Copy) (len : Nat) (out : Option Nat) : Dev := match out with
  | some _ => (d.ctrAdd (qCtr (qid c.port c.q) 2) 1).ctrAdd (qCtr (qid c.port c.q) 3) len
  | none => d

/-- R494: the DEX record of a transmitted copy, where a token is left. -/
def sendDex (d : Dev) (s : Nat) (c : Copy) (fields : Option (List Byte)) (rxTs : Nat) (e : EndInfo) : Dev :=
  match fields with
  | none => d
  | some x =>
    if (d.sl s).dexTokens = 0 then d.bump (CTH_CNT_DEX_SUPPRESSED s) else
      let d := (d.bump (CTH_CNT_DEX s)).slice s fun y => { y with dexTokens := y.dexTokens - 1 }
      let flow := (flowKey d c.pkt).isSome && d.flag (TEL_FLOW_CTL.EN e.half)
      exportRecord d e.half 3 (x ++ cartouche d c rxTs e flow)

/-- A packet re-enters the parser of slice s for its second pass (R257, R278). -/
def reenter (d : Dev) (s : Nat) (c : Copy) (fid : Nat) : Dev :=
  let old := c.pkt
  let keep := [229, 232, 233].foldl (fun (v : SMap Word) k => v.put 0 k (old.vec.get 0 k)) []
  let pk : Pkt := { fid := fid, inPort := old.inPort, stamped := old.stamped, bankB := old.bankB, epoch := old.epoch
                    second := true, handle := old.handle, entered := old.entered, vec := keep, hits := old.hits
                    hitFirst := old.hitFirst, hitLast := old.hitLast, replayed := old.replayed, parErrs := old.parErrs, acct := old.acct
                    eclass := max 1 (energyClass c) }
  d.slice s fun y => { y with staging := y.staging ++ [pk] }

/-- R273: the egress stages, the deparser, and the fate of a copy in slice s: `out` is its port, none from the
recirculation queue. -/
def egressPass (g : Grid) (d : Dev) (s now : Nat) (up : Upsets) (c : Copy) (f : Frame) (out : Option Nat) (soj ts : Nat) :
    EgEnd :=
  let p := out.getD c.pkt.inPort
  let v := c.pkt.vec
  let v := match out with
    | some o => ((v.put 0 224 (BitVec.ofNat 32 o)).put 0 226 (BitVec.ofNat 32 c.q)).put 0 237
        (if c.replica then v.get 0 237 else 0)
    | none => v
  let pk := { c.pkt with vec := v, drop := false, trap := false, mirror := false, recirc := false, acts := [] }
  let (e, pk, d) := runPipe d s now false up pk
  let d := flushActs d pk p
  let c := { c with pkt := { pk with acts := [] } }
  let len := (copyBytes c f).length
  match e with
  | .parityDrop st => .gone (endEgress g d s c soj drHvParity false st out)
  | .bad st => .gone (endEgress g d s c soj drParseFail false st out)
  | .done =>
    let x : IoamCtx := { s := s, pk := pk, port := p, depth := c.enqDepth, occupancy := c.occupancy, rxTs := f.rxTs
                         delay := (ts - f.rxTs) / 4 }
    let (built, d) := match (if pk.drop && !pk.mirror then none else deparse d (if pk.bankB then 1 else 0) x f) with
      | some (b, d) => (some b, d)
      | none => (none, d)
    -- the mirror copy leaves as the deparser built the frame, or as received where it cannot
    let d := if pk.mirror then
      let m := sessionCopy d s pk
      match built with
      | some b =>
        let (fid, d) := derive d pk.fid f b
        mirrorTo g d s { m with pkt := { m.pkt with fid := fid, mirror := false } } drMirrorErr (ACT_CNT_MIRROR_ERR s)
      | none => mirrorTo g d s { m with pkt := { m.pkt with mirror := false } } drMirrorErr (ACT_CNT_MIRROR_ERR s)
    else d
    if pk.drop then .gone (endEgress g d s c soj drActionDrop false 0xFF out)
    else
      match built with
      | none => .gone (endEgress g (d.bump (ACT_CNT_DEPARSE_ERR s)) s c soj drDeparseErr false 0xFF out)
      | some b =>
        if pk.trap then
          let t := (pk.vec.get 0 227).toNat
          let (fid, d) := derive d pk.fid f b
          let d := countDeq d c len out
          .gone (pushAdmit d s { c with
            raw := true, punt := some (t / 256 % 64, t % 256), ord := 0, pkt := { c.pkt with fid := fid } })
        else if pk.recirc ∨ out.isNone then
          if pk.recirc ∧ pk.second then
            .gone (endEgress g (d.bump (ACT_CNT_RECIRC_LIMIT s)) s c soj drRecircLimit false 0xFF out)
          else
            let (fid, d) := derive d pk.fid f b
            let d := if out.isSome then (d.bump (ACT_CNT_RECIRC s)).pmuEvent (slicePmu s) 0x02 1 else d
            .gone (reenter (countDeq d c len out) s c fid)
        else if portMtu d p < builtLen b.hdr b.off b.edits f then
          .gone (endEgress g d s c soj drOversize false 0xFF out)
        else .send c b d

/-! ### SCHEDULER_DECISION -/

/-- R438, R439: a cell of a copy fails its code as it is read. -/
def cellErr (d : Dev) (n : Nat) : Dev :=
  let h := qHalf n
  ((((d.put (BUF_CELL_ERR_INFO.QUEUE h) (lq n)).event (BUF_STATUS.CELL_ERR h)).bump (BUF_CNT_CELL_ERR h))).report
    (srcHalf h 0x48) (d.word (BUF_CELL_ERR_INFO.word h).addr).toNat

/-- The cell of a copy that fails its code as it is read for transmission (R438). -/
def badNow (up : Upsets) : Option Nat := match up.badCell with
  | some e => if codeFails e then some e.place else none
  | none => none

/-- The first failed cell of a copy: known from its pages, or met now. -/
def firstBad (c : Copy) (up : Upsets) : Option Nat := match c.badAt, badNow up with
  | some a, some b => some (min a b)
  | some a, none => some a
  | none, b => b

/-- A cell of a copy changed in a way that its code does not find: a frame cell is sent as it then stands, by every copy that
shares it (R402); of a record cell nothing changes (DESIGN CHOICE, log entry 170). -/
def passCell (d : Dev) (c : Copy) (off : Nat) (e : CellErr) : Dev :=
  if off < c.recCells then d else
    match d.frame c.pkt.fid with
    | some f => d.setFrame c.pkt.fid (some (f.flipCell (off - c.recCells) e))
    | none => d

/-- What befell a copy's cells and its code does not find. -/
def metCell (d : Dev) (c : Copy) (up : Upsets) : Dev := match up.badCell with
  | some e => if codeFails e then d else passCell d c e.place e
  | none => d

/-- The port may start a frame: it is a port, UP, idle, and its slice is not in reset, its
transmitter not idled. -/
def canStart (d : Dev) (p : Nat) : Bool :=
  isPort d p && linkUp d p && (d.po p).tx.isNone && d.sliceUp (p / 32) && !d.silent

/-- The copy at the front of queue q of port p is dequeued and sent, or ends in the egress pipeline. -/
def serve (g : Grid) (d : Dev) (p q now : Nat) (up : Upsets) (c : Copy) (f : Frame) : Dev :=
  let n := qid p q
  let s := p / 32
  let soj := (now - c.admitT) / 4
  let cut := !f.complete
  let w := if cut then 0 else (copyBytes c f).length + 20
  let d := d.queue n fun x => { x with pkts := x.pkts.drop 1 }
  let d := sojournStats d n soj
  let d := promiseLate d p (g.base / (4 * fineQ / 64)).toNat c
  let ts := txTimestamp d p now
  let c := { c with cut := cut }
  let bad := firstBad c up
  let d := if bad.isSome then cellErr d n else d
  let finish (d : Dev) : Dev := dropFrame (releaseCopy d n c) c.pkt.fid
  match c.lost, bad.map fun k => decide (k ≤ c.recCells) with
  | true, _ =>
    finish (endEgress g (d.ctrAdd (qCtr n 6) 1) s c soj drSpillLost false 0xFF (some p))
  | false, some true =>
    let d := d.bump (BUF_CNT_CELL_ERR_DROP (qHalf n))
    let d := d.ctrAdd (qCtr n 6) 1
    finish (endEgress g d s c soj drCellErr false 0xFF (some p))
  | _, _ =>
    let c := { c with badAt := bad }
    let miss := missed d p ts f.rxTs c
    let start (d : Dev) (c : Copy) (asIs : Bool) (b : Built) (mac : List (Nat × List Byte)) : Dev :=
      let d := if miss then (d.bump (EQ_CNT_PROM_MISS s)).event (EQ_STATUS.PROM_MISS s) else d
      let d := if c.cut then d.pmuEvent (slicePmu s) 0x0B 1 (some p) else d
      let d := if q = 7 then (d.bump (EQ_CNT_PROM_TX s)).pmuEvent (slicePmu s) 0x0C 1 (some p) else d
      let d := chargeSent d p q now w
      let t : Tx := { copy := c, asIs := asIs, hdr := b.hdr, off := b.off, edits := b.edits, mac := mac, start := now
                      ts := ts, sojourn := soj, miss := miss, ioam := b.ioam, dex := b.dex }
      d.port p fun x => { x with tx := some t }
    if c.raw then start d c true ⟨[], 0, [], [], false, none⟩ [] else
      match egressPass g d s now up c f (some p) soj ts with
      | .gone d => finish (chargeSent d p q now 0)
      | .send c b d =>
        let mac := b.mac ++ ptpEdits d p c.pkt ts f.rxTs (builtBody b.hdr b.off b.edits f)
        let d := tsCapture d p c.pkt ts
        start d c false b mac

/-- SCHEDULER_DECISION's effect: control frames first, then the chosen queue's front copy. -/
def schedule (g : Grid) (d : Dev) (p dt : Nat) (up : Upsets) : Dev :=
  if !canStart d p then d else
    let d := drainControl d p
    let now := g.nowQ dt
    match chooseQueue d p now with
    | none => d
    | some (q, d) =>
      match headCopy d (qid p q) with
      | none => d
      | some c =>
        let d := metCell d c up
        match d.frame c.pkt.fid with
        | none => d
        | some f => serve g d p q now up c f

/-- SCHEDULER_DECISION (R445). -/
def execSchedulerDecision (p : Fin 1024) (dt : Nat) (up : Upsets) (s : State) : Outc :=
  s.withDev fun d => schedule s.grid d p dt up

/-! ### TX_COMPLETE -/

/-- The bytes of a frame in transmission, without FCS. -/
def txBody (t : Tx) (f : Frame) : List Byte :=
  if t.asIs then
    let b := noFcs f
    if t.copy.trunc = 0 ∨ b.length + 4 ≤ 64 * t.copy.trunc then b else b.take (64 * t.copy.trunc - 4)
  else applyEdits (builtBody t.hdr t.off t.edits f) t.mac

/-- R18, R217, R439: the frame ends with a stomped FCS. -/
def txStomped (t : Tx) (f : Frame) : Bool :=
  f.bad || t.copy.badAt.isSome || (t.copy.cut && t.mac != [])

/-- TX_COMPLETE's effect: a port's frame has left whole (R402, R218, R477). While bytes of it are still to come, or cells of
it lie in pages, nothing changes. -/
def txComplete (g : Grid) (d : Dev) (p dt : Nat) : Dev :=
  match (d.po p).tx with
  | none => d
  | some t =>
    match d.frame t.copy.pkt.fid with
    | none => d
    | some f =>
      let n := qid p t.copy.q
      if !f.complete ∨ inPages (d.qu n) t.copy.cid then d else
        let s := p / 32
        let body := txBody t f
        let bad := txStomped t f
        let b := body ++ (if bad then stompedFcs body else ethFcs body)
        let d := txOut d p b bad
        let d := if bad then d.ctrAdd (ptCtr p 19) 1 else countFrame d p 14 b
        let d := if t.copy.badAt.isSome then d.bump (BUF_CNT_CELL_ERR_STOMP (qHalf n)) else d
        let units := (b.length + 63) / 64
        let d := ((d.pmuEvent (slicePmu s) 0x09 1 (some p)).pmuEvent (slicePmu s) 0x0A units (some p)).charge 4 units p
          (acctGroup d t.copy.pkt)
        let d := countDeq d t.copy (copyBytes t.copy f).length (some p)
        let d := if t.copy.cut then chargeSent d p t.copy.q (g.nowQ dt) (b.length + 20) else d
        let d := releaseCopy d n t.copy
        let d := d.port p fun x => { x with tx := none }
        let e : EndInfo := { half := s / 16, slice := s, txDelta := (t.ts - f.rxTs) / 4, sojourn := t.sojourn
                             queued := true, miss := t.miss, out := some p, stomped := bad, ioam := t.ioam }
        let d := complete g (sendDex d s t.copy t.dex f.rxTs e) t.copy e
        drainControl (dropFrame d t.copy.pkt.fid) p

/-- TX_COMPLETE (R150). -/
def execTxComplete (p : Fin 1024) (dt : Nat) (s : State) : Outc := s.withDev fun d => txComplete s.grid d p dt

/-! ### RECIRC_DEQUEUE (R278, R280) -/

/-- RECIRC_DEQUEUE's effect: the first packet of the recirculation queue, once whole, runs the egress pipeline and
re-enters the parser. -/
def recircDequeue (g : Grid) (d : Dev) (s dt : Nat) (up : Upsets) : Dev :=
  match d.sliceUp s, (d.sl s).recirc with
  | true, c :: rest =>
    match d.frame c.pkt.fid with
    | none => d.slice s fun y => { y with recirc := rest }
    | some f =>
      if !f.complete then d else
        let h := s / 16
        let d := d.slice s fun y => { y with recirc := rest }
        let d := poolGive (sharedGive d h c.cells) h c ⟨c.cid, 0, c.cells⟩
        match egressPass g d s (g.nowQ dt) up c f none 0 f.rxTs with
        | .gone d => dropFrame d c.pkt.fid
        | .send _ _ d => dropFrame d c.pkt.fid
  | _, _ => d

/-- RECIRC_DEQUEUE (R280). -/
def execRecircDequeue (s : Fin 32) (dt : Nat) (up : Upsets) (st : State) : Outc :=
  st.withDev fun d => recircDequeue st.grid d s dt up

/-! ### The wheels (R453) -/

/-- R453: the queues of a slice whose slot has come are released, in ascending local queue number. -/
def wheelRelease (d : Dev) (s now : Nat) : Dev :=
  (List.range 256).foldl (fun d j =>
    let n := 256 * s + j
    let q := d.qu n
    match q.wheel with
    | some slot =>
      if !q.coarse ∧ slot * 64 ≤ now then
        d.queue n fun q => { q with credit := creditAt q now, creditT := now, wheel := none }
      else d
    | none => d) d

/-- WHEEL_SLOT_RELEASE (R453). -/
def execWheelSlotRelease (s : Fin 32) (dt : Nat) (st : State) : Outc :=
  st.withDev fun d => if d.sliceUp s then wheelRelease d s (st.grid.nowQ dt) else d

/-- R453: entries of the coarse wheel whose slot has come within the fine wheel's span move there. -/
def wheelMove (d : Dev) (s now : Nat) : Dev :=
  (List.range 256).foldl (fun d j =>
    let n := 256 * s + j
    let q := d.qu n
    match q.wheel with
    | some slot =>
      if q.coarse ∧ slot * 64 / 262144 * 262144 < now + 262144 then
        (d.bump (EQ_CNT_COARSE s)).queue n fun q => { q with coarse := false }
      else d
    | none => d) d

/-- WHEEL_COARSE_MOVE (R453). -/
def execWheelCoarseMove (s : Fin 32) (dt : Nat) (st : State) : Outc :=
  st.withDev fun d => if d.sliceUp s then wheelMove d s (st.grid.nowQ dt) else d

end Sys2Proof.Machine
end

