-- ==== Sys2Proof/Machine/Spill.lean ====
section
/-!
DEFINITION. The spill tier and its GDDR7 devices (R418-R437): write-downs, read-ups, lost pages, exclusion and
retraining. On a device without the tier (R440) none of these events happens and nothing changes.
-/
namespace Sys2Proof.Machine

/-! ### Devices -/

/-- R432: the device a page lies on. -/
def pageDev (ptr : Nat) : Nat := ptr % 2 ^ 38 / 16384 % 6

/-- A device is excluded (R436). -/
def devOut (d : Dev) (h k : Nat) : Bool := bit (d.get (SPL_DEV.OUT h)) k

/-- Set or clear bit k of a field. -/
def putBit (d : Dev) (f : Fld) (k : Nat) (on : Bool) : Dev :=
  let v := d.get f
  d.put f (if bit v k then (if on then v else v - 2 ^ k) else if on then v + 2 ^ k else v)

/-- n CRC errors of a device, each reported (R434, R624). -/
def crcErrors (d : Dev) (h k n : Nat) (f : Fld) : Dev :=
  (List.range n).foldl (fun d _ => d.report (srcMem h k) 0) (d.addTo f n)

/-- A retry failure of a device (R434, R436). -/
def retryFail (d : Dev) (h k : Nat) : Dev :=
  let d := d.bump (MEM_CNT_RETRY_FAIL h k)
  { d with buf := { d.buf with memFail := d.buf.memFail.put 0 (h * 6 + k) (d.buf.memFail.get 0 (h * 6 + k) + 1) } }

/-- Bytes written (i = 0) or read (i = 1) on a half's devices (R444). -/
def spillBytes (d : Dev) (h i : Nat) : Dev := d.wput (wkey (mbxSpl h) i) ((d.wget (wkey (mbxSpl h) i) + 16384) % 2 ^ 64)

/-- The energy of a page moved for queue n (R600), charged to its port and the group of the copy its first cell is of. -/
def pageEnergy (d : Dev) (n : Nat) (rs : List Run) : Dev :=
  let grp := match rs with
    | r :: _ => match copyOf d n r.cid with
      | some c => acctGroup d c.pkt
      | none => 0
    | [] => 0
  d.charge 10 1 (n / 8) grp

/-! ### Write-downs (R422, R427, R428) -/

/-- Cells of a frame still arriving lie among the first cells of a list. -/
def arriving (d : Dev) (n : Nat) (rs : List Run) : Bool :=
  rs.any fun r => match copyOf d n r.cid with
    | some c => c.early
    | none => false

/-- The cells of the tail that no write-down has taken. -/
def Queue.rest (q : Queue) : List Run := (splitRuns (q.down.foldl (fun a w => a + sumRuns w.runs) 0) q.tail).2

/-- The write-down a queue makes next, still without a page: one that failed and younger ones follow (R434), or its 63 oldest cells
that none has taken. -/
def Queue.nextDown (q : Queue) : WriteDown :=
  match q.down.find? (·.again) with
  | some w => w
  | none => { ptr := 0, seq := (q.pageSeq + q.down.length) % 65536, runs := (splitRuns 63 q.rest).1, bad := [], again := true }

/-- A queue may start a write-down. -/
def wantsDown (d : Dev) (n : Nat) : Bool :=
  let q := d.qu n
  q.spill && d.flag (SPL_CTL.EN (qHalf n)) && d.flag (BUF_QPROF.SPILL_EN (qHalf n) (qProf d n))
    && (q.down.any (·.again) || (decide (63 ≤ sumRuns q.rest) && !arriving d n (splitRuns 63 q.rest).1))

/-- A write-down that has its page takes its place among its queue's: that of the one that failed, or the last. -/
def placeDown (w : WriteDown) (l : List WriteDown) : List WriteDown := match l with
  | [] => [w]
  | x :: r => if x.again then w :: r else x :: placeDown w r

/-- The queues of half h that are listed, from queue id `start` on, cyclically. -/
def fromPlace (d : Dev) (h start : Nat) : List Nat :=
  let l := (d.queues.map (·.1)).filter fun n => decide (qHalf n = h)
  (l.filter fun n => decide (start ≤ n)) ++ l.filter fun n => decide (n < start)

/-- R391, R444: SPL_POOL names a pool of 16 KiB buffers in this half's location. -/
def spillPoolOk (d : Dev) (h : Nat) : Bool :=
  let p := d.get (SPL_POOL.POOL h)
  decide (d.get (BPM_POOL_CFG.LOCATION p) = h + 1) && decide (poolSize d p = 16384)

/-- R436: a page for half h, none of an excluded device; `fuel` bounds the pages handed back. -/
def allocPage (d : Dev) (h fuel : Nat) : Option Nat × Dev :=
  match fuel with
  | 0 => (none, d)
  | fuel + 1 =>
    if !spillPoolOk d h then (none, d) else
    let (g, d) := bpmAlloc d h 16384 true (some (d.get (SPL_POOL.POOL h)))
    if g.result ≠ 0 then (none, d)
    else if devOut d h (pageDev g.ptr) then allocPage (bpmFree d h g.ptr).2 h fuel
    else (some g.ptr, d)

/-- The descriptor of cell `off` of a copy, as it enters a page (R418). A record's bytes have no stated places, so that its code is
a free value (log entry 170). -/
def cellDesc (d : Dev) (c : Copy) (off : Nat) (bad : Bool) : Word × Dev :=
  let rest := (if bad then 2 ^ 15 else 0) + (if off < c.recCells then 2 ^ 14 else 0) + (if off = 0 then 2 ^ 13 else 0)
  if off < c.recCells then
    let (v, d) := d.fresh
    (BitVec.ofNat 32 (v.toNat % 2 ^ 16 * 2 ^ 16 + rest), d)
  else
    let b := match d.frame c.pkt.fid with
      | some f => f.bytes
      | none => []
    (BitVec.ofNat 32 ((cellCode (frameCell b (off - c.recCells))).toNat * 2 ^ 16 + rest), d)

/-- Cell number j of a list of runs: the copy and the cell's place in it. -/
def cellAt (rs : List Run) (j : Nat) : Option (Nat × Nat) :=
  match rs with
  | [] => none
  | r :: rest => if j < r.n then some (r.cid, r.off + j) else cellAt rest (j - r.n)

/-- The descriptors of the cells of a page of queue n. -/
def pageDescs (d : Dev) (n : Nat) (rs : List Run) (bad : List Nat) : List Word × Dev :=
  (List.range (sumRuns rs)).foldl (fun (r : List Word × Dev) j =>
    match cellAt rs j with
    | none => r
    | some (cid, off) =>
      match copyOf r.2 n cid with
      | none => (r.1 ++ [0], r.2)
      | some c =>
        let x := cellDesc r.2 c off (bad.contains j)
        (r.1 ++ [x.1], x.2)) ([], d)

/-- R438: the cells of a page, by place, that fail their codes as they are read; errors that a code does not find pass. -/
def checkCells (d : Dev) (n : Nat) (rs : List Run) (bad : List CellErr) : List Nat × Dev :=
  bad.foldl (fun (r : List Nat × Dev) e =>
    match cellAt rs e.place with
    | none => r
    | some (cid, off) =>
      if codeFails e then (r.1 ++ [e.place], r.2) else
        match copyOf r.2 n cid with
        | some c => (r.1, passCell r.2 c off e)
        | none => r) ([], d)

/-- WRITE_DOWN_START's effect: the next queue in turn takes a page and copies the cells of its next write-down, each one's code
checked; `bad` is what befell them, by place in the page. -/
def writeDownStart (d : Dev) (h : Nat) (bad : List CellErr) : Dev :=
  if !spillPresent d then d else
    match (fromPlace d h (d.buf.rrDown.get 0 h)).find? (wantsDown d) with
    | none => d
    | some n =>
      let d := { d with buf := { d.buf with rrDown := d.buf.rrDown.put 0 h (n + 1) } }
      match allocPage d h 7 with
      | (none, d) =>
        let d := d.bump (SPL_CNT_PAGE_WAIT h)
        if (d.qu n).pageWait then d else (d.event (SPL_STATUS.PAGE_WAIT h)).queue n fun q => { q with pageWait := true }
      | (some ptr, d) =>
        let w := (d.qu n).nextDown
        let (new, d) := checkCells d n w.runs (bad.filter fun e => !w.bad.contains e.place)
        let bad := w.bad ++ new
        let d := bad.foldl (fun d _ => cellErr d n) d
        let (desc, d) := pageDescs d n w.runs bad
        let d := d.emit (.gddr h (pageDev ptr) true ptr)
        let d := { d with buf := { d.buf with downs := d.buf.downs ++ [(n, ptr)] } }
        d.queue n fun q => { q with down := placeDown { w with ptr := ptr, bad := bad, desc := desc, again := false } q.down }

/-- WRITE_DOWN_START (R422). -/
def execWriteDownStart (h : Fin 2) (badCells : List CellErr) (s : State) : Outc := s.withDev fun d => writeDownStart d h badCells

/-- The oldest write-down in flight to device k of half h, and its queue. -/
def downOn (d : Dev) (h k : Nat) : Option (Nat × WriteDown) :=
  d.buf.downs.findSome? fun x =>
    if qHalf x.1 = h ∧ pageDev x.2 = k then
      ((d.qu x.1).down.find? fun w => decide (w.ptr = x.2) && w.paged && !w.done).map fun w => (x.1, w)
    else none

/-- Change the write-down of queue n that holds a page. -/
def mapDown (d : Dev) (n ptr : Nat) (f : WriteDown → WriteDown) : Dev :=
  { d with buf := { d.buf with downs := d.buf.downs.filter fun x => decide (x ≠ (n, ptr)) } }.queue n fun q =>
    { q with down := q.down.map fun (w : WriteDown) => if w.ptr = ptr ∧ w.paged = true then f w else w }

/-- R434, R436: a write-down is abandoned: its page is freed, its cells stay in the tail. Where younger ones follow it, it waits for
another page in its place, since the middle keeps the order of the cells (R424; DEDUCED, log entry 166). -/
def abandonDown (d : Dev) (n ptr : Nat) : Dev :=
  let d := mapDown (bpmFree d (qHalf n) ptr).2 n ptr fun w => { w with done := false, again := true }
  settleSpill (d.queue n fun q => { q with down := (q.down.reverse.dropWhile (·.again)).reverse }) n

/-- R422: the oldest write-down of a queue, accepted, becomes a page of the middle, and its cells leave the chip. -/
def joinMiddle (d : Dev) (n : Nat) (w : WriteDown) : Dev :=
  ((releaseAny d n w.runs).addTo (SPL_PAGES.COUNT (qHalf n)) 1).queue n fun q => { q with
    tail := (splitRuns (sumRuns w.runs) q.tail).2, down := q.down.drop 1, pageSeq := q.pageSeq + 1
    mid := q.mid ++ [{ ptr := w.ptr, seq := w.seq, runs := w.runs, bad := w.bad, desc := w.desc }] }

/-- WRITE_DOWN_DONE's effect: after at most three resends the device has accepted the page, which joins the middle behind older ones,
and its cells leave the chip; a write that still fails is abandoned (R434). -/
def writeDownDone (d : Dev) (h k errs : Nat) : Dev :=
  match downOn d h k with
  | none => d
  | some (n, w) =>
    let d := crcErrors d h k errs (MEM_CNT_WR_CRC h k)
    if errs > 3 then abandonDown (retryFail d h k) n w.ptr
    else
      let d := pageEnergy d n w.runs
      let d := (spillBytes d h 0).pmuEvent (halfPmu h) 0x09 1
      let d := (mapDown d n w.ptr fun w => { w with done := true }).bump (SPL_CNT_PAGES_WRITTEN h)
      let d := d.queue n fun q => { q with pageWait := false }
      ((d.qu n).down.takeWhile (·.done)).foldl (fun d w => joinMiddle d n w) d

/-- WRITE_DOWN_DONE (R422). -/
def execWriteDownDone (h : Fin 2) (k : Fin 6) (errs : Fin 5) (s : State) : Outc :=
  s.withDev fun d => writeDownDone d h k errs

/-! ### Read-ups (R423, R435, R430) -/

/-- The oldest page of a middle that no read-up has been requested for. -/
def nextPage (q : Queue) : Option Page := q.mid.find? fun p => !p.reading

/-- A queue may request a read-up. -/
def wantsUp (d : Dev) (n : Nat) : Bool :=
  let q := d.qu n
  decide (sumRuns q.head < headTarget d n) && decide ((q.mid.filter (·.reading)).length < 4)
    && (match nextPage q with
      | some p => !d.buf.retraining.contains (qHalf n * 6 + pageDev p.ptr)
      | none => false)

/-- READ_UP_REQUEST's effect. -/
def readUpRequest (d : Dev) (h : Nat) : Dev :=
  if !spillPresent d ∨ d.get (BUF_SHARED_USED.USED h) + 63 > d.get (BUF_SHARED.SHARED h) then d else
    match (fromPlace d h (d.buf.rrUp.get 0 h)).find? (wantsUp d) with
    | none => d
    | some n =>
      match nextPage (d.qu n) with
      | none => d
      | some p =>
        let d := { d with buf := { d.buf with rrUp := d.buf.rrUp.put 0 h (n + 1) } }
        let d := d.emit (.gddr h (pageDev p.ptr) false p.ptr)
        d.queue n fun q => { q with mid := q.mid.map fun x => if x.ptr = p.ptr then { x with reading := true } else x }

/-- READ_UP_REQUEST (R423). -/
def execReadUpRequest (h : Fin 2) (s : State) : Outc := s.withDev fun d => readUpRequest d h

/-- Change the waiting copies of a queue, and the one in transmission from it, by number. -/
def mapCopy (d : Dev) (n cid : Nat) (f : Copy → Copy) : Dev :=
  let g (c : Copy) : Copy := if c.cid = cid then f c else c
  let d := d.queue n fun q => { q with pkts := q.pkts.map g }
  d.port (n / 8) fun x => { x with tx := x.tx.map fun t => { t with copy := g t.copy } }

/-- The runs of a copy leave the pages of a queue but for its `keep` oldest; answers how many cells. -/
def stripPages (d : Dev) (n cid keep : Nat) : Nat × Dev :=
  let k := ((d.qu n).mid.drop keep).foldl (fun a p => a + sumRuns (p.runs.filter fun r => decide (r.cid = cid))) 0
  (k, d.queue n fun q => { q with mid := q.mid.take keep ++ (q.mid.drop keep).map fun p =>
    { p with runs := p.runs.filter fun r => decide (r.cid ≠ cid) } })

/-- R430: a packet that meets a mark is discarded as its record is read up. -/
def discardMarked (g : Grid) (d : Dev) (n : Nat) (c : Copy) : Dev :=
  let reason := if (d.qu n).markBank = some c.pkt.bankB then drBankRetired else drTableRetired
  let (k, d) := stripPages d n c.cid 0
  dropQueued g (d.addTo (SPL_CNT_DEAD_CELLS (qHalf n)) k) n c reason

/-- Failed cells of a page, by place, are noted against their copies. -/
def noteBadCells (d : Dev) (n : Nat) (rs : List Run) (bad : List Nat) : Dev :=
  bad.foldl (fun d j => match cellAt rs j with
    | some (cid, off) => mapCopy d n cid fun c => { c with badAt := match c.badAt with
        | some a => some (min a off)
        | none => some off }
    | none => d) d

/-- The oldest page of a queue's middle leaves it. -/
def popPage (d : Dev) (n : Nat) (p : Page) : Dev :=
  let h := qHalf n
  let d := (bpmFree d h p.ptr).2
  (d.subFrom (SPL_PAGES.COUNT h) 1).queue n fun q => { q with mid := q.mid.filter fun x => decide (x.ptr ≠ p.ptr) }

/-- A page that has arrived joins the head, in middle order; its cells come back on chip from the shared part (R423). -/
def bringUp (g : Grid) (d : Dev) (n : Nat) (p : Page) : Dev :=
  let h := qHalf n
  let d := noteBadCells d n p.runs p.bad
  let d := pageEnergy d n p.runs
  let d := (d.bump (SPL_CNT_PAGES_READ h)).pmuEvent (halfPmu h) 0x0A 1
  let marked := (d.qu n).pkts.filter fun c => c.marked && p.runs.any fun r => decide (r.cid = c.cid)
  let d := marked.foldl (fun d c => discardMarked g d n c) d
  let live := p.runs.filter fun r => (copyOf d n r.cid).isSome
  let d := live.foldl (fun d r => match copyOf d n r.cid with
    | some c => checkPause (poolTake (charge d n r.n 1 c) h c r) c.pkt.inPort c.prio
    | none => d) d
  popPage (d.queue n fun q => { q with head := q.head ++ live }) n p

/-- Pages at the front of the middle that have arrived join the head; `fuel` bounds them. -/
def drainUp (g : Grid) (d : Dev) (n fuel : Nat) : Dev :=
  match fuel with
  | 0 => d
  | fuel + 1 =>
    match (d.qu n).mid with
    | p :: _ => if p.arrived then drainUp g (bringUp g d n p) n fuel else d
    | [] => d

/-- R435: a page is lost. -/
def losePage (g : Grid) (d : Dev) (n : Nat) (p : Page) : Dev :=
  let h := qHalf n
  let q := d.qu n
  let sending := match (d.po (n / 8)).tx with
    | some t => if t.copy.q = n % 8 then some t.copy.cid else none
    | none => none
  -- the pages before this one, and the cells a copy has in them
  let before := q.mid.takeWhile fun x => decide (x.ptr ≠ p.ptr)
  let outside := before.flatMap (·.runs)
  let cids := p.runs.foldl (fun (l : List Nat) r => if l.contains r.cid then l else l ++ [r.cid]) []
  let d := popPage d n p
  let d := (((d.event (SPL_STATUS.SPILL_LOST h)).bump (SPL_CNT_PAGES_LOST h)).addTo (SPL_CNT_FRAMES_LOST h) cids.length).report
    (srcHalf h 0x50) 0
  let d := cids.foldl (fun d cid =>
    let d := (stripPages d n cid before.length).2
    match copyOf d n cid with
    | none => d
    | some c =>
      if sending = some cid then mapCopy d n cid fun c => { c with badAt := some (c.badAt.getD c.cells) }
      else if (q.head ++ outside).any fun r => decide (r.cid = cid) then mapCopy d n cid fun c => { c with lost := true }
      else dropQueued g d n c drSpillLost) d
  settleSpill (drainUp g d n 65536) n

/-- A page of half h by its pointer, being read: its queue and the page. -/
def pageOf (d : Dev) (h ptr : Nat) : Option (Nat × Page) :=
  d.queues.findSome? fun e =>
    if qHalf e.1 ≠ h then none else (e.2.mid.find? fun p => decide (p.ptr = ptr) && p.reading && !p.arrived).map fun p => (e.1, p)

/-- READ_UP_ARRIVE's effect. -/
def readUpArrive (g : Grid) (d : Dev) (h buf errs : Nat) (corr uncorr : Bool) (bad : List CellErr) : Dev :=
  match pageOf d h buf with
  | none => d
  | some (n, p) =>
    let k := pageDev buf
    let d := crcErrors d h k errs (MEM_CNT_RD_CRC h k)
    let d := spillBytes d h 1
    let d := if corr then d.bump (MEM_CNT_ECC_CORR h k) else d
    let d := if uncorr then (d.bump (MEM_CNT_ECC_UNCORR h k)).event (MEM_STATUS.ECC_UNCORR h k) else d
    let d := if errs > 3 then retryFail d h k else d
    if errs > 3 ∨ uncorr then losePage g d n p
    else
      let (bad, d) := checkCells d n p.runs (bad.filter fun e => !p.bad.contains e.place)
      let d := bad.foldl (fun d _ => cellErr d n) d
      let d := d.queue n fun q => { q with mid := q.mid.map fun x =>
        if x.ptr = buf then { x with arrived := true, bad := x.bad ++ bad } else x }
      settleSpill (drainUp g d n 8) n

/-- READ_UP_ARRIVE (R423). -/
def execReadUpArrive (h : Fin 2) (buf : Nat) (errs : Fin 5) (corr uncorr : Bool) (bad : List CellErr) (s : State) : Outc :=
  s.withDev fun d => readUpArrive s.grid d h buf errs corr uncorr bad

/-! ### Exclusion and retraining (R433, R436, R437) -/

/-- R436: exclude a device: its write-downs are abandoned uncounted, its pages in middles are lost. -/
def excludeDev (g : Grid) (d : Dev) (h k : Nat) : Dev :=
  if devOut d h k then d else
    let d := ((putBit d (SPL_DEV.OUT h) k true).event (MEM_STATUS.OUT h k)).shadow 3 (h * 6 + k)
    let d := d.event (SPL_STATUS.DEVICE_OUT h)
    let mine := d.queues.flatMap fun e => if qHalf e.1 ≠ h then [] else
      (e.2.down.filter fun w => w.paged && decide (pageDev w.ptr = k)).map fun w => (e.1, w.ptr)
    let d := mine.foldl (fun d x => abandonDown d x.1 x.2) d
    let pages := d.queues.flatMap fun e => if qHalf e.1 ≠ h then [] else
      (e.2.mid.filter fun p => decide (pageDev p.ptr = k)).map fun p => (e.1, p)
    pages.foldl (fun d x => losePage g d x.1 x.2) d

/-- DEVICE_EXCLUDE (R436): retry failures of the frame have reached the limit. -/
def execDeviceExclude (h : Fin 2) (k : Fin 6) (s : State) : Outc :=
  s.withDev fun d =>
    let lim := d.get (MEM_CRC_CFG.LIMIT h k)
    if spillPresent d && decide (lim ≠ 0) && decide (lim ≤ d.buf.memFail.get 0 (h.val * 6 + k.val)) then excludeDev s.grid d h k
    else d

/-- EXCLUDE (R436), by MEM_CMD. -/
def execExclude (h : Fin 2) (k : Fin 6) (s : State) : Outc :=
  s.withDev fun d => if spillPresent d then excludeDev s.grid d h k else d

/-- A device's reads and writes wait while it retrains (R437). -/
def retrainStart (d : Dev) (h k : Nat) : Dev :=
  if !spillPresent d ∨ d.buf.retraining.contains (h * 6 + k) then d else
    { d.shadow 3 (h * 6 + k) with buf := { d.buf with retraining := d.buf.retraining ++ [h * 6 + k] } }

/-- MEM_RETRAIN (R437). -/
def execMemRetrain (h : Fin 2) (k : Fin 6) (s : State) : Outc := s.withDev fun d => retrainStart d h k

/-- R431: a half with mixed densities is refused. -/
def mixedDensity (d : Dev) (h k density : Nat) : Bool :=
  (List.range 6).any fun j => decide (j ≠ k) && bit (d.get (SPL_DEV.TRAINED h)) j && decide (d.get (MEM_CFG.DENSITY h j) ≠ density)

/-- Training of a device ends (R433): trained with a density, or failed and excluded. -/
def trainEnd (g : Grid) (d : Dev) (h k : Nat) (trained : Bool) (density : Nat) : Dev :=
  if trained ∧ !mixedDensity d h k density then
    let d := (putBit d (SPL_DEV.TRAINED h) k true).put (MEM_CFG.DENSITY h k) density
    d.event (MEM_STATUS.TRAINED h k)
  else
    let d := (putBit d (SPL_DEV.TRAINED h) k false).event (MEM_STATUS.TRAIN_FAIL h k)
    excludeDev g d h k

/-- DEVICE_RETRAIN_DONE (R437, R433). -/
def execDeviceRetrainDone (h : Fin 2) (k : Fin 6) (trained : Bool) (density : Fin 3) (s : State) : Outc :=
  s.withDev fun d =>
    if spillPresent d then
      let d := { d with buf := { d.buf with retraining := d.buf.retraining.filter (· ≠ h.val * 6 + k.val) } }
      trainEnd s.grid d h k trained density
    else d

/-- RESTORE (R436): an excluded device is retrained and returns to use. -/
def execRestore (h : Fin 2) (k : Fin 6) (trained : Bool) (s : State) : Outc :=
  s.withDev fun d =>
    if spillPresent d && devOut d h k then
      if trained then (putBit (putBit d (SPL_DEV.OUT h) k false) (SPL_DEV.TRAINED h) k true).event (MEM_STATUS.TRAINED h k)
      else d.event (MEM_STATUS.TRAIN_FAIL h k)
    else d

/-- DRIFT_COMPENSATION (R433). -/
def execDriftCompensation (h : Fin 2) (k : Fin 6) (s : State) : Outc :=
  s.withDev fun d => if spillPresent d then d.bump (MEM_CNT_DRIFT_COMP h k) else d

/-! ### Removals (R151, R311, R430) -/

/-- The packets of queue n that a removal names go: at once where their records lie on chip, else they are marked and leave at
read-up (R430). Answers how many. -/
def retireQueue (g : Grid) (d : Dev) (n reason : Nat) (p : Pkt → Bool) (mark : Queue → Queue) : Nat × Dev :=
  let q := d.qu n
  let mine := q.pkts.filter fun c => p c.pkt && !c.marked
  let begins (rs : List Run) (c : Copy) : Bool := rs.any fun r => decide (r.cid = c.cid) && decide (r.off = 0)
  let deep (c : Copy) : Bool := (q.mid.any fun p => begins p.runs c) || q.down.any fun w => begins w.runs c
  let d := mine.foldl (fun d c =>
    if deep c then mapCopy d n c.cid fun c => { c with marked := true }
    else dropQueued g (stripPages d n c.cid 0).2 n c reason) d
  (mine.length, if mine.any deep then d.queue n mark else d)

/-- R280: the packets of slice s's recirculation queue that a removal names go. Answers how many. -/
def retireRecirc (g : Grid) (d : Dev) (s reason : Nat) (p : Pkt → Bool) : Nat × Dev :=
  let mine := (d.sl s).recirc.filter fun c => p c.pkt
  let d := d.slice s fun x => { x with recirc := x.recirc.filter fun c => !p c.pkt }
  let h := s / 16
  (mine.length, mine.foldl (fun d c =>
    endCopy g (poolGive (sharedGive d h c.cells) h c ⟨c.cid, 0, c.cells⟩) c { half := h, slice := s, reason := reason }) d)

/-- A removal in every queue of the device, the recirculation queues among them (R280); answers how many packets went. -/
def retireAll (g : Grid) (d : Dev) (reason : Nat) (p : Pkt → Bool) (mark : Queue → Queue) : Nat × Dev :=
  let r := (d.queues.map (·.1)).foldl (fun r n =>
    let x := retireQueue g r.2 n reason p mark
    (r.1 + x.1, x.2)) (0, d)
  (d.slices.map (·.1)).foldl (fun r s =>
    let x := retireRecirc g r.2 s reason p
    (r.1 + x.1, x.2)) r

end Sys2Proof.Machine
end

