-- ==== Sys2Proof/Machine/Promise.lean ====
section
/-!
DEFINITION. The delivery promise's commands (R458-R465): ADD, REMOVE, SET_PORT, their completion, and the check of R462.
-/
namespace Sys2Proof.Machine

/-! ### The admission arithmetic -/

/-- a / b rounded up. -/
def ceilDiv (a b : Nat) : Nat := (a + b - 1) / b

/-- The admitted reservations toward egress port p. -/
def resvOf (d : Dev) (p : Nat) : List Resv := d.resv.filterMap fun e => match e.2 with
  | some r => if r.egress = p then some r else none
  | none => none

/-- The path term of a reservation in ps (R461's table). -/
def pathTerm (d : Dev) (i e : Nat) : Nat :=
  portIngressNs d i * 1000 + ceilDiv ((portMtu d i + 20) * 8000) (portSpeed d i)
    + (if halfOf i = halfOf e then 156667 else 166667) + portEgressNs d e * 1000

/-- The bound of egress port e for a reservation set, in ps. -/
def promBound (d : Dev) (e : Nat) (rs : List Resv) : Nat :=
  let sigma := rs.foldl (fun a r => a + r.sigma) 0
  ceilDiv ((sigma + portMtu d e + 20) * 8000) (portSpeed d e)
    + rs.foldl (fun m r => max m (pathTerm d r.ingress e)) 0 + 1024000

/-- The rate sum of a reservation set. -/
def rateSum (rs : List Resv) : Nat := rs.foldl (fun a r => a + r.rho) 0

/-- Σρ is within SHARE / 256 of the port rate (test 6). -/
def shareOk (d : Dev) (e share : Nat) (rs : List Resv) : Bool := decide (rateSum rs * 256 ≤ share * portSpeed d e * 1000)

/-- The staged command (R474). -/
def staged (d : Dev) : Nat := d.wget (wkey mbxSch 0)

/-- SCH mailbox KIND 0 index 1 shows the last check. -/
def noteCheck (d : Dev) (e deadline : Nat) (rs : List Resv) : Dev :=
  d.wput (wkey mbxSch 1) (promBound d e rs % 2 ^ 32 + deadline * 1024000 * 2 ^ 32 + rateSum rs % 2 ^ 32 * 2 ^ 64
    + rs.foldl (fun a r => a + r.sigma) 0 % 2 ^ 32 * 2 ^ 96)

/-- R465: the floor point for a smallest frame: P5 to P2. -/
def floorFor (frameMin : Nat) : Nat :=
  let n := max 64 (min 9416 frameMin)
  if 92 ≤ n then 5 else if 79 ≤ n then 4 else if 69 ≤ n then 3 else 2

/-- R465: what follows the set of admitted reservations: their count, the floor point, and a port's Σρ. -/
def promUpdate (d : Dev) (e : Nat) : Dev :=
  let n := (d.resv.filter fun x => x.2.isSome).length
  let d := d.put SCH_RESV_COUNT.COUNT n
  let d := (d.put SCH_PROM_FLOOR.ACTIVE (if n = 0 then 0 else 1)).put SCH_PROM_FLOOR.POINT
    (if n = 0 then 5 else floorFor (d.get SCH_PROM_CFG.FRAME_MIN))
  let d := d.put PWR_STATE.FLOOR (d.get SCH_PROM_FLOOR.POINT)
  d.put (EQ_PROM_RATE.RATE (e / 32) (e % 32)) (rateSum (resvOf d e))

/-! ### The check of R462 -/

/-- ρ of every reservation of a set is within the rate of its ingress port (test 6). -/
def rhosOk (d : Dev) (rs : List Resv) : Bool := rs.all fun r => decide (r.rho ≤ portSpeed d r.ingress * 1000)

/-- Check an egress port against its current set: UNSOUND is marked, or clears. -/
def checkPort (d : Dev) (e : Nat) : Dev :=
  let s := e / 32
  let n := e % 32
  let set := resvOf d e
  let ok := set.isEmpty || (shareOk d e (d.get (EQ_PROM.SHARE s n)) set
    && decide (promBound d e set ≤ d.get (EQ_PROM.DEADLINE s n) * 1024000)
    && rhosOk d set)
  if ok then d.put (EQ_PROM.UNSOUND s n) 0
  else if d.flag (EQ_PROM.UNSOUND s n) then d
  else ((d.put (EQ_PROM.UNSOUND s n) 1).event (EQ_STATUS.UNSOUND s)).event SCH_STATUS.UNSOUND

/-- A command was accepted, so the check of its port passed: a mark of UNSOUND is judged again (DEDUCED, log entry 178). -/
def acceptCheck (d : Dev) (e : Nat) : Dev := if d.flag (EQ_PROM.UNSOUND (e / 32) (e % 32)) then checkPort d e else d

/-! ### The commands -/

/-- RESULT codes (R473). -/
def resRate := 1
def resDeadline := 2
def resBurst := 3
def resNoPort := 4
def resFull := 5
def resNotFound := 6
def resNoPromise := 7
def resBadValue := 8
def resDuplicate := 9
def resInUse := 10

/-- The lowest free entry of slice s's reservation table. -/
def freeEntry (d : Dev) (s : Nat) : Option Nat :=
  (List.range 512).find? fun i => (d.resv.get none (s * 512 + i)).isNone

/-- R461: ADD's tests, in order, and its effect: RESULT, reservation id. -/
def schAdd (d : Dev) (v : Nat) : Nat × Nat × Dev :=
  let i := bits (dataWord v 0) 9 0
  let e := bits (dataWord v 0) 25 16
  let rho := dataWord v 1
  let sigma := bits (dataWord v 2) 23 0
  let deadline := d.get (EQ_PROM.DEADLINE (e / 32) (e % 32))
  let r : Resv := { ingress := i, egress := e, rho := rho, sigma := sigma, tokens := sigma * 8000, acts := false }
  let set := resvOf d e ++ [r]
  if !(isPort d i && isPort d e) then (resNoPort, 0, d)
  else if deadline = 0 then (resNoPromise, 0, d)
  else if (resvOf d e).any fun x => decide (x.ingress = i) then (resDuplicate, 0, d)
  else if rho = 0 then (resBadValue, 0, d)
  else if sigma < portMtu d i + 20 then (resBurst, 0, d)
  else
    let d := noteCheck d e deadline set
    if portSpeed d i * 1000 < rho ∨ !shareOk d e (d.get (EQ_PROM.SHARE (e / 32) (e % 32))) set then (resRate, 0, d)
    else if deadline * 1024000 < promBound d e set then (resDeadline, 0, d)
    else
      match freeEntry d (e / 32) with
      | none => (resFull, 0, d)
      | some k =>
        let id := e / 32 * 512 + k
        (0, id, acceptCheck (promUpdate { d with resv := d.resv.put none id (some r) } e) e)

/-- R459, R461: REMOVE's effect. -/
def schRemove (d : Dev) (v : Nat) : Nat × Nat × Dev :=
  let id := bits (dataWord v 3) 13 0
  match d.resv.get none id with
  | none => (resNotFound, id, d)
  | some r => (0, id, promUpdate { d with resv := d.resv.put none id none } r.egress)

/-- R461: SET_PORT's tests and effect. -/
def schSetPort (d : Dev) (v : Nat) : Nat × Nat × Dev :=
  let e := bits (dataWord v 0) 25 16
  let deadline := bits (dataWord v 1) 8 0
  let share := bits (dataWord v 1) 23 16
  let dq := bits (dataWord v 1) 26 24
  let set := resvOf d e
  let s := e / 32
  let n := e % 32
  let apply (d : Dev) : Dev :=
    ((d.put (EQ_PROM.DEADLINE s n) deadline).put (EQ_PROM.SHARE s n) share).put (EQ_PROM.DEMOTE_Q s n) dq
  if !isPort d e then (resNoPort, 0, d)
  else if deadline = 1 ∨ 488 < deadline ∨ 192 < share ∨ 5 < dq then (resBadValue, 0, d)
  else if deadline = 0 then (if set = [] then (0, 0, apply d) else (resInUse, 0, d))
  else
    let d := noteCheck d e deadline set
    if !rhosOk d set ∨ !shareOk d e share set then (resRate, 0, d)
    else if deadline * 1024000 < promBound d e set then (resDeadline, 0, d)
    else (0, 0, acceptCheck (apply d) e)

/-- R459, R461: what an SCH command does: RESULT, reservation id. An OP that names none is BAD_VALUE (DEDUCED, log entry 84). -/
def schBody (d : Dev) (op v : Nat) : Nat × Nat × Dev :=
  match op with
  | 1 => schAdd d v
  | 2 => schRemove d v
  | 3 => schSetPort d v
  | _ => (resBadValue, 0, d)

/-- The engine a command is carried out by: that of its egress port's half (R459). -/
def schEngine (op v : Nat) : Nat :=
  if op = 2 then bits (dataWord v 3) 13 0 / 8192 else bits (dataWord v 0) 25 16 / 512

/-- The engine carries out a command. -/
def schRun (d : Dev) (op v : Nat) : Dev :=
  let (res, id, d) := schBody d op v
  (d.put SCH_CMD_STAT.RESULT res).put SCH_CMD_STAT.ID id

/-- SCH_CMD is written with GO: with a command running it is discarded (R459); an engine that serves carries it out, and
BUSY stays set until SCH_CMD_DONE. -/
def schCommand (d : Dev) (op : Nat) : Dev :=
  if d.flag SCH_CMD_STAT.BUSY then d.event SCH_STATUS.CMD_LOST else
    let d := d.put SCH_CMD_STAT.BUSY 1
    if d.serves (schEngine op (staged d)) then schRun d op (staged d)
    else { d with hk := { d.hk with sch := some (op, BitVec.ofNat 128 (staged d)) } }

/-- ADD (R461). -/
def execAdd (s : State) : Outc := s.withDev fun d => schCommand d 1

/-- REMOVE (R459). -/
def execRemove (s : State) : Outc := s.withDev fun d => schCommand d 2

/-- SET_PORT (R461). -/
def execSetPort (s : State) : Outc := s.withDev fun d => schCommand d 3

/-- R602: the point in force lies deeper than the promise floor. -/
def belowFloor (d : Dev) : Bool :=
  d.flag SCH_PROM_FLOOR.ACTIVE && decide (d.get SCH_PROM_FLOOR.POINT < d.get PWR_STATE.POINT)

/-- Every reservation's meter acts. -/
def metersAct (d : Dev) : Dev :=
  { d with resv := d.resv.map fun (e : Nat × Option Resv) => (e.1, e.2.map fun (r : Resv) => { r with acts := true }) }

/-- R459: BUSY clears, once the engine has carried out the command and the point has reached the floor (R602); an accepted
reservation's meter acts from here. -/
def schDone (d : Dev) : Dev :=
  if !d.flag SCH_CMD_STAT.BUSY then d else
    let d := match d.hk.sch with
      | some (op, v) =>
        if d.serves (schEngine op v.toNat) then schRun { d with hk := { d.hk with sch := none } } op v.toNat else d
      | none => d
    if d.hk.sch.isSome ∨ belowFloor d then d else
      let d := (metersAct (d.put SCH_CMD_STAT.BUSY 0)).event SCH_STATUS.CMD_DONE
      if d.get SCH_CMD_STAT.RESULT ≠ 0 then d.event SCH_STATUS.REFUSED else d

/-- SCH_CMD_DONE (R459). -/
def execSchCmdDone (s : State) : Outc := s.withDev schDone

/-! ### Lost ports (R462) -/

/-- R474: a reservation as SCH mailbox KIND 1 shows it. -/
def resvWord (r : Resv) : Nat :=
  2 ^ 31 + r.egress * 2 ^ 16 + r.ingress + r.rho * 2 ^ 32 + r.sigma * 2 ^ 64 + r.tokens / 8000 % 2 ^ 32 * 2 ^ 96

/-- R462: reservations that name a port that has ceased to exist are removed, and RESV_LOST is set. -/
def dropLostResv (d : Dev) : Dev :=
  let gone := d.resv.filter fun e => match e.2 with
    | some r => !(isPort d r.ingress && isPort d r.egress)
    | none => false
  if gone = [] then d else
    let d := gone.foldl (fun d e => match e.2 with
      | some r => (promUpdate { d with resv := d.resv.put none e.1 none } r.egress).hostEvent 2 (halfOf r.egress) (resvWord r)
      | none => d) d
    d.event SCH_STATUS.RESV_LOST

/-- R462: every egress port whose reservations name port p is checked again. -/
def recheck (d : Dev) (p : Nat) : Dev :=
  let es := d.resv.filterMap fun e => match e.2 with
    | some r => if r.ingress = p ∨ r.egress = p then some r.egress else none
    | none => none
  (sortNat es).foldl checkPort (dropLostResv d)

/-- RESERVATION_RECHECK (R462). -/
def execReservationRecheck (p : Fin 1024) (s : State) : Outc := s.withDev fun d => recheck d p

end Sys2Proof.Machine
end

