-- ==== Sys2Proof/Machine/Lanes.lean ====
section
/-!
DEFINITION. Serial lanes and the link side of ports (chapters 05 and 06): bring-up, Survey, figure of merit, eye
scans, test patterns, octet modes, link state, LIVE. One meaning per row of the table, over shared operations.
-/
namespace Sys2Proof.Machine

/-! ### Which lanes form a port (R194, R160) -/

/-- The port that lane l belongs to in its octet's mode. -/
def portOf (d : Dev) (l : Nat) : Option Nat :=
  let m := laneMode d l
  if m.lanes = 0 then none else some (l - l % 8 % m.lanes)

/-- The lanes of port p. -/
def portLanes (d : Dev) (p : Nat) : List Nat := (List.range (laneMode d p).lanes).map (p + ·)

/-- The eight lanes of octet k of slice s. -/
def octetLanes (s k : Nat) : List Nat := (List.range 8).map (s * 32 + k * 8 + ·)

/-- Lane states (R158's table). -/
def laneState (d : Dev) (l : Nat) : Nat := d.get (LN_STATE.STATE l)

/-- Change the hidden bring-up record of a lane. -/
def Dev.lane (d : Dev) (l : Nat) (f : LaneHid → LaneHid) : Dev :=
  { d with lanes := d.lanes.put {} l (f (d.lanes.get {} l)) }

/-- The hidden bring-up record of a lane. -/
def laneHid (d : Dev) (l : Nat) : LaneHid := d.lanes.get {} l

/-! ### Freezes and scans (R175, R177, R180, R185-R187) -/

/-- Show a set of freeze reasons: going from none to some counts LN_CNT_FREEZE, and the time of a set is the freeze time
(R180). -/
def setFreeze (d : Dev) (l m : Nat) : Dev :=
  let old := d.get (LN_STATE.FREEZE l)
  let d := d.put (LN_STATE.FREEZE l) m
  if old = 0 ∧ m ≠ 0 then (d.bump (LN_CNT_FREEZE l)).lane l fun h => { h with frozenAt := d.ticks }
  else if old ≠ 0 ∧ m = 0 then d.lane l fun h => { h with freezeTicks := h.freezeTicks + (d.ticks - h.frozenAt) }
  else d

/-- R180: the freeze time in us. It is counted in whole ticks (DESIGN CHOICE, log entry 157). -/
def freezeUs (d : Dev) (l : Nat) : Nat :=
  let h := laneHid d l
  (h.freezeTicks + (if d.get (LN_STATE.FREEZE l) = 0 then 0 else d.ticks - h.frozenAt)) * 1024 / 1000

/-- The freeze reasons of a lane whose windows give reasons `low`, TD and FOM: these and HOST hold in EXCHANGE and ACTIVE
(R177), SCAN for the length of a scan on a lane in EYE mode (R186). -/
def showFreeze (d : Dev) (l low : Nat) : Dev :=
  let st := laneState d l
  let ruled := decide (st = 4) || decide (st = 5)
  let scan := decide (3 ≤ st) && d.flag (LN_EYE_STAT.RUNNING l) && d.flag (LN_STATE.ADAPT_EYE l)
  let host := ruled && decide (d.get (LN_CTL.ADAPT_MODE l) = 3)
  setFreeze d l ((if ruled then low else 0) + (if scan then 4 else 0) + (if host then 8 else 0))

/-- The freeze reasons judged anew, with TD and FOM as the last window left them. -/
def refreeze (d : Dev) (l : Nat) : Dev := showFreeze d l (d.get (LN_STATE.FREEZE l) % 4)

/-- Set the bring-up state of every lane of a list; lanes in TEST stay there (R160). -/
def setLaneStates (d : Dev) (ls : List Nat) (st : Nat) : Dev :=
  ls.foldl (fun d l => if laneState d l = 6 then d else refreeze (d.put (LN_STATE.STATE l) st) l) d

/-- R175: whether a lane adapts in EYE mode; a lane that holds keeps the mode it is in. -/
def eyeMode (d : Dev) (l : Nat) : Bool :=
  match d.get (LN_CTL.ADAPT_MODE l) with
  | 1 => false
  | 2 => true
  | 3 => d.flag (LN_STATE.ADAPT_EYE l)
  | _ => !(decide (d.get (LN_STATE.RATE l) ≤ 2) && decide (d.get (LN_LOSS.LOSS l) ≤ 40))

/-- The mode a lane adapts in from TRAIN onward (R175), and the freezes that hang on it. -/
def adapt (d : Dev) (l : Nat) : Dev :=
  refreeze (if laneState d l < 2 then d else d.put (LN_STATE.ADAPT_EYE l) (if eyeMode d l then 1 else 0)) l

/-- A lane's symbol rate in units of 10 kBd (R156). -/
def symbolRate (d : Dev) (l : Nat) : Nat :=
  match d.get (LN_STATE.RATE l) with
  | 0 => 2578125
  | 1 => 2656250
  | 2 => 5312500
  | _ => 10625000

/-- Points a running scan has measured: each takes 2^DWELL_LOG2 symbols and 100 ns of settling (R185). -/
def scannedPoints (d : Dev) (l : Nat) : Nat :=
  let h := laneHid d l
  let u := symbolRate d l
  min 4095 ((d.ticks - h.scanAt) * 1024 * u / (2 ^ h.scanDwell * 100000 + 100 * u))

/-- LN_EYE_STAT.POINTS. -/
def eyePoints (d : Dev) (l : Nat) : Nat :=
  if d.flag (LN_EYE_STAT.RUNNING l) then scannedPoints d l else d.get (LN_EYE_STAT.POINTS l)

/-- The count of point i of a lane's map: 0 where it is not yet measured (R187). The counts of a scan in progress or aborted,
which no command brings, are free values (DESIGN CHOICE, log entry 158). -/
def eyeCount (d : Dev) (l i : Nat) : Nat :=
  if d.flag (LN_EYE_STAT.VALID l) then (d.eye.get 0 (l * 4096 + i)).toNat
  else if i < eyePoints d l then (Config.freeWord ((laneHid d l).scanSeed + i)).toNat % 65536 else 0

/-- An eye scan in progress is aborted (R184): its map is incomplete. -/
def scanAbort (d : Dev) (l : Nat) : Dev :=
  if d.flag (LN_EYE_STAT.RUNNING l) then
    (refreeze ((d.put (LN_EYE_STAT.POINTS l) (scannedPoints d l)).put (LN_EYE_STAT.RUNNING l) 0) l).event (LN_STATUS.SCAN_ABORT l)
  else d

/-! ### Link state and pruning (R205-R209) -/

/-- The link state that R205 gives: 1 UP, 2 FAULT, 0 DOWN. -/
def linkStateOf (d : Dev) (p : Nat) : Nat :=
  let st := laneState d p
  let ok := d.flag (PT_LINK.FEC_ALIGN p) && !d.flag (PT_LINK.LF p) && !d.flag (PT_LINK.RF p)
  if st = 5 ∧ ok then 1 else if (st = 5 ∨ st = 4) ∧ ¬ ok then 2 else 0

/-- R206: what a port that receives answers: Remote Fault to Local Fault or to the loss of FEC alignment, Idle to Remote
Fault. -/
def faultSignal (d : Dev) (p : Nat) : OrdSet :=
  if d.flag (PT_LINK.LF p) || !d.flag (PT_LINK.FEC_ALIGN p) then .remoteFault
  else if d.flag (PT_LINK.RF p) then .idle else .none

/-- R213: a port that comes UP pauses its partner for every priority whose threshold holds. -/
def pauseAgain (d : Dev) (p : Nat) : Dev := (d.po p).xoffSent.foldl (fun d i => pauseOn d p i) d

/-- R205-R208: report the port's link state; leaving UP clears LIVE, counts LINK_DOWNS and raises DOWN, and the control frames
that wait are not sent (R206). -/
def updateLink (d : Dev) (p : Nat) : Dev :=
  let old := d.get (PT_LINK.STATE p)
  let new := linkStateOf d p
  if old = new then d else
    let d := d.put (PT_LINK.STATE p) new
    let d := if old = 1 then (((d.put (PT_LINK.LIVE p) 0).ctrAdd (ptCtr p 25) 1).event (PT_STATUS.DOWN p)).port p
        fun x => { x with ctlFrames := [] }
      else d
    if new = 1 then pauseAgain (d.event (PT_STATUS.UP p)) p
    else if new = 2 then d.event (PT_STATUS.FAULT p) else d

/-- R207: clear the LIVE bit. -/
def prune (d : Dev) (p : Nat) : Dev := d.put (PT_LINK.LIVE p) 0

/-- R173: forget the partner's Survey. -/
def clearSurvey (d : Dev) (p : Nat) : Dev :=
  let d := ((d.setWord (LN_SURVEY_STATE.word p).addr 0).setWord (LN_SURVEY_PEER.word p).addr 0).setWord (LN_SURVEY_PEER2.word p).addr 0
  (d.wput (wkey (mbxLn p) 1) 0).wput (wkey (mbxLn p) 2) 0

/-- What every departure from service does to a port: scans end, lock and faults are forgotten, the link state is
reported and LIVE clears (R184, R181, R205, R207). -/
def leaveService (d : Dev) (p : Nat) : Dev :=
  let d := (portLanes d p).foldl scanAbort d
  let d := if d.get (PT_LINK.STATE p) = 2 then d.emit (.ordered p .none) else d
  let d := (((d.put (PT_LINK.FEC_ALIGN p) 0).put (PT_LINK.LF p) 0).put (PT_LINK.RF p) 0)
  prune (updateLink d p) p

/-- The exit conditions of a state are judged afresh on entry (R184). -/
def freshLane (d : Dev) (l : Nat) : Dev :=
  d.lane l fun h => { h with sig := false, term := false, ready := false, partnerReady := false, anDone := false }

/-- A port enters TRAIN: its Survey is forgotten (R173) and its queues are flushed (R209). -/
def enterTrain (g : Grid) (d : Dev) (p : Nat) : Dev :=
  let ls := portLanes d p
  let d := setLaneStates d ls 2
  let d := ls.foldl (fun d l => adapt (freshLane d l) l) d
  let d := leaveService (clearSurvey d p) p
  let d := d.lane p fun h => { h with lostIn := 0, txAck := false, ackSent := false, rxAck0 := false }
  flushPort g d p drLinkDown

/-- One lane goes to DOWN (any state but TEST, R159). -/
def laneDown (d : Dev) (l : Nat) : Dev :=
  if laneState d l = 6 then d else
    let was := laneState d l
    let d := (freshLane (scanAbort d l) l).lane l fun h => { h with anFec := none }
    let d := refreeze (d.put (LN_STATE.STATE l) 0) l
    if was = 0 then d else d.event (LN_STATUS.DOWN l)

/-- A port goes to DOWN: every lane, pruned and flushed with LINK_DOWN (R159, R207, R209). -/
def portDown (g : Grid) (d : Dev) (p : Nat) : Dev :=
  let d := (portLanes d p).foldl laneDown d
  let d := leaveService (clearSurvey d p) p
  let d := d.lane p fun h => { h with lostIn := 0, txAck := false, ackSent := false, rxAck0 := false }
  flushPort g d p drLinkDown

/-- The port of lane l goes to DOWN, or the lane alone where it is no lane of a port (R159, R615). -/
def laneToDown (g : Grid) (d : Dev) (l : Nat) : Dev :=
  match portOf d l with
  | some p => portDown g d p
  | none => laneDown d l

/-! ### Bring-up (R158-R168) -/

/-- The boot state lets lanes come up: TRAIN or RUNNING (R126, R133); none does with every transmitter idle (R618, R648). -/
def lanesMayRun (d : Dev) : Bool :=
  (decide (d.get BOOT_STATE.STATE = 4) || decide (d.get BOOT_STATE.STATE = 5)) && !d.silent

/-- The reference clock of lane l's die is present (R183). -/
def refclkOk (d : Dev) (l : Nat) : Bool := !d.pins.refclkLost.contains (l / 64)

/-- The FEC abilities a port advertises (R201), by PT_CFG.FEC's codes. -/
def fecAbilities (mode : Nat) : List Nat :=
  match mode with
  | 12 => [0, 3]
  | 14 => [0, 2, 3]
  | _ => [0]

/-- R163: auto-negotiation of a port in DETECT starts, or starts again: what was resolved is void, and with AN_EN the port
advertises the technology of its octet's mode. -/
def anStart (d : Dev) (p : Nat) : Dev :=
  let d := d.lane p fun h => { h with anDone := false, anFec := none }
  let m := laneMode d p
  if d.flag (LN_CTL.AN_EN p) then d.emit (.autoneg p m.lanes m.rate (fecAbilities (octModeOf d p))) else d

/-- DOWN to DETECT (R159 row 1): ADMIN_UP on the first lane, no lane asked for or in TEST; every lane is powered
first (R162). -/
def detectStart (d : Dev) (p : Nat) : Dev :=
  let ls := portLanes d p
  if isPort d p && decide (laneState d p = 0) && d.flag (LN_CTL.ADMIN_UP p) && lanesMayRun d && refclkOk d p &&
      ls.all (fun l => !d.flag (LN_CTL.TEST_MODE l) && decide (laneState d l ≠ 6)) then
    let d := ls.foldl (fun d l => freshLane (d.put (LN_STATE.POWERED l) 1) l) d
    anStart ((setLaneStates d ls 1).bump (LN_CNT_DETECT p)) p
  else d

/-- DETECT to TRAIN once every lane has signal, termination where sensed, and AN is done where enabled (R158, R159). -/
def tryTrain (g : Grid) (d : Dev) (p : Nat) : Dev :=
  let ls := portLanes d p
  if laneState d p = 1 ∧ (ls.all fun l => (laneHid d l).sig && (!d.flag (LN_CTL.FETS_EN l) || (laneHid d l).term)) ∧
      (d.flag (LN_CTL.AN_EN p) = false ∨ (laneHid d p).anDone) then
    flushPort g (ls.foldl (fun d l => adapt (freshLane d l) l) (setLaneStates d ls 2)) p drLinkDown
  else d

/-- TRAIN to LOCK once every lane's receiver is ready and, with TRAIN_EN, its partner's (R159, R164, R165). -/
def tryLock (d : Dev) (p : Nat) : Dev :=
  let ls := portLanes d p
  if laneState d p = 2 ∧ (ls.all fun l =>
      (laneHid d l).ready && (!d.flag (LN_CTL.TRAIN_EN p) || (laneHid d l).partnerReady)) then
    setLaneStates d ls 3
  else d

/-- The port enters ACTIVE: the event; scans end where it leaves EXCHANGE (R184). -/
def enterActive (d : Dev) (p : Nat) : Dev :=
  let ls := portLanes d p
  let d := if laneState d p = 4 then ls.foldl scanAbort d else d
  let d := setLaneStates d ls 5
  updateLink (ls.foldl (fun d l => d.event (LN_STATUS.ACTIVE l)) d) p

/-- LOCK_FOM takes the FOM of the moment (R176). -/
def takeLockFom (d : Dev) (p : Nat) : Dev :=
  (portLanes d p).foldl (fun d l => d.put (LN_FOM.LOCK_FOM l) (d.get (LN_FOM.FOM l))) d

/-- R203, R204: the port takes its measured skew at lock. -/
def takeSkew (d : Dev) (p skew : Nat) : Dev :=
  (d.put (PT_LINK.SKEW p) (if (laneMode d p).lanes = 1 then 0 else min skew 40)).lane p fun h => { h with lockedOnce := true }

/-- LOCK to TRAIN (R159): the lock or relock was not reached in time. -/
def lockFail (g : Grid) (d : Dev) (p l : Nat) : Dev :=
  enterTrain g (d.bump (LN_CNT_LOCK_FAIL l)) p

/-- R188: the modulation of lane l carries a pattern: the Q patterns and SSPRBS are PAM4's, the other codes every
modulation's, and codes above 9 are off. -/
def carries (d : Dev) (l pat : Nat) : Bool :=
  decide (pat ≤ 9) && !(decide (6 ≤ pat) && decide (pat ≤ 8) && decide (d.get (LN_STATE.RATE l) = 0))

/-- R188, R192: CHK_RUN, and SYNC while the checker stops or is aligned by hand. -/
def checkerRun (d : Dev) (l : Nat) : Dev :=
  let on := decide (laneState d l = 6) && d.flag (LN_TEST_CTL.CHK_EN l) && carries d l (d.get (LN_TEST_CTL.RX_PAT l))
  let d := d.put (LN_PRBS_STAT.CHK_RUN l) (if on then 1 else 0)
  if on && !d.flag (LN_CTL.MANUAL_ALIGN l) && decide (d.get (LN_TEST_CTL.RX_PAT l) < 9) then d
  else d.put (LN_PRBS_STAT.SYNC l) 0

/-- R188: what the generator sends in TEST: a pattern, USER with its word. -/
def generatorSends (d : Dev) (l : Nat) : Option (Nat × Nat) :=
  let pat := d.get (LN_TEST_CTL.TX_PAT l)
  if decide (laneState d l = 6) && d.flag (LN_TEST_CTL.GEN_EN l) && carries d l pat then
    some (pat, if pat = 9 then d.wget (wkey (mbxLn l) 3) else 0)
  else none

/-- R188: generator and checker of a lane after a change of its state, its controls or its USER word. -/
def patternRun (d : Dev) (l : Nat) : Dev :=
  let d := checkerRun d l
  let new := generatorSends d l
  if (laneHid d l).gen = new then d else (d.lane l fun h => { h with gen := new }).emit (.pattern l new)

/-- LANE_DETECT_START (R159, R160, R162). -/
def execLaneDetectStart (p : Fin 1024) (s : State) : Outc := s.withDev fun d => detectStart d p

/-- DOWN to TEST (R159): with TEST_MODE set. -/
def enterTest (d : Dev) (l : Nat) : Dev :=
  if laneState d l = 0 ∧ d.flag (LN_CTL.TEST_MODE l) then
    patternRun (adapt ((d.put (LN_STATE.STATE l) 6).put (LN_STATE.POWERED l) 1) l) l
  else d

/-- ENTER_TEST (R159). -/
def execEnterTest (l : Fin 1024) (s : State) : Outc := s.withDev fun d => enterTest d l

/-- TEST to DOWN (R159, R160). -/
def leaveTest (d : Dev) (l : Nat) : Dev :=
  if laneState d l = 6 ∧ d.flag (LN_CTL.TEST_MODE l) = false then
    patternRun ((refreeze ((scanAbort d l).put (LN_STATE.STATE l) 0) l).event (LN_STATUS.DOWN l)) l
  else d

/-- LEAVE_TEST (R159, R160). -/
def execLeaveTest (l : Fin 1024) (s : State) : Outc := s.withDev fun d => leaveTest d l

/-- SIGNAL_DETECTED (R158, R159): signal without a break for 1 ms on one lane; the port leaves DETECT when all have met
the exit condition. -/
def execSignalDetected (l : Fin 1024) (s : State) : Outc := s.withDev fun d =>
  match portOf d l with
  | some p => if laneState d l = 1 then tryTrain s.grid (d.lane l fun h => { h with sig := true }) p else d
  | none => d

/-- TERMINATION_SENSE (R163's DETECT text): with FETS_EN the far-end termination is sensed every 10 ms. -/
def execTerminationSense (l : Fin 1024) (present : Bool) (s : State) : Outc := s.withDev fun d =>
  match portOf d l with
  | some p =>
    if laneState d l = 1 ∧ d.flag (LN_CTL.FETS_EN l) then
      tryTrain s.grid (d.lane l fun h => { h with term := present }) p
    else d
  | none => d

/-- R163: the octet's mode allows the technology that auto-negotiation resolved. -/
def anAllowed (d : Dev) (p : Nat) (r : AnResult) : Bool :=
  let m := laneMode d p
  decide (r.lanes = m.lanes) && decide (r.rate.val = m.rate)

/-- AN_COMPLETE (R163, R201): a resolved technology the octet mode does not allow counts as not complete; the resolved
FEC ability overrides PT_CFG.FEC. -/
def execAnComplete (p : Fin 1024) (r : AnResult) (s : State) : Outc := s.withDev fun d =>
  if isPort d p ∧ laneState d p = 1 ∧ d.flag (LN_CTL.AN_EN p) ∧ anAllowed d p r then
    tryTrain s.grid ((d.lane p fun h => { h with anDone := true, anFec := some r.fec.val })) p
  else d

/-- AN_RESTART (R159): AN not complete within 500 ms. -/
def execAnRestart (p : Fin 1024) (s : State) : Outc := s.withDev fun d =>
  if isPort d p ∧ laneState d p = 1 ∧ d.flag (LN_CTL.AN_EN p) ∧ (laneHid d p).anDone = false then
    anStart (d.bump (LN_CNT_AN_RESTART p)) p
  else d

/-- RECEIVER_READY (R158, R159, R164-R166): one lane's receiver is ready, with the partner's readiness, the precoding
agreed and the loss estimate. -/
def execReceiverReady (l : Fin 1024) (partner precodeTx precodeRx : Bool) (loss : BitVec 8) (s : State) : Outc :=
  s.withDev fun d =>
  match portOf d l with
  | some p =>
    if laneState d l = 2 then
      let train := d.flag (LN_CTL.TRAIN_EN p)
      let d := d.put (LN_LOSS.LOSS l) loss.toNat
      let d := d.put (LN_STATE.PRECODE_TX l) (if train && precodeTx then 1 else 0)
      let d := d.put (LN_STATE.PRECODE_RX l)
        (if train && precodeRx && decide (d.get (LN_STATE.RATE l) ≠ 0) then 1 else 0)
      let d := adapt d l
      tryLock (d.lane l fun h => { h with ready := true, partnerReady := h.partnerReady || partner }) p
    else d
  | none => d

/-- TRAIN back to DETECT (R159): the shared failure of a port in TRAIN. -/
def trainFail (d : Dev) (l : Nat) : Dev :=
  match portOf d l with
  | some p =>
    if laneState d l = 2 then
      let ls := portLanes d p
      let d := anStart (ls.foldl freshLane (setLaneStates d ls 1)) p
      (d.bump (LN_CNT_TRAIN_FAIL l)).event (LN_STATUS.TRAIN_FAIL l)
    else d
  | none => d

/-- TRAIN_TIMEOUT (R159, R166). -/
def execTrainTimeout (l : Fin 1024) (s : State) : Outc := s.withDev fun d => trainFail d l

/-- TRAIN_SIGNAL_LOST (R159): signal lost for more than 100 us in TRAIN. -/
def execTrainSignalLost (l : Fin 1024) (s : State) : Outc := s.withDev fun d => trainFail d l

/-- LOCK_HELD (R159, R176, R182, R203, R204): lock held for 100 us on every lane of the port. A port that lost lock in
EXCHANGE returns there with its Survey and LOCK_FOM; otherwise EXCHANGE with SURVEY_EN, else ACTIVE. -/
def execLockHeld (p : Fin 1024) (skew : Nat) (s : State) : Outc := s.withDev fun d =>
  if isPort d p ∧ laneState d p = 3 ∧ skew ≤ 40 ∧ (laneHid d p).lostIn ≠ 5 then
    let h := laneHid d p
    let d := d.put (PT_LINK.FEC_ALIGN p) 1
    let d := takeSkew d p skew
    let d := recheck d p
    if h.lostIn = 4 then
      let d := (d.bump (LN_CNT_RELOCK h.lostLane)).lane p fun h => { h with lostIn := 0 }
      updateLink (setLaneStates d (portLanes d p) 4) p
    else
      let d := takeLockFom d p
      if d.flag (LN_CTL.SURVEY_EN p) then
        let d := d.lane p fun h => { h with txAck := false, ackSent := false, rxAck0 := false }
        updateLink (setLaneStates d (portLanes d p) 4) p
      else enterActive d p
  else d

/-- RELOCK (R182): every lane of a port that lost lock in ACTIVE regained lock within RELOCK ms; the port returns
directly to ACTIVE and keeps its Survey record and LOCK_FOM. -/
def execRelock (p : Fin 1024) (s : State) : Outc := s.withDev fun d =>
  let h := laneHid d p
  if isPort d p ∧ laneState d p = 3 ∧ h.lostIn = 5 ∧ d.flag (LN_CTL.RELOCK_EN p) then
    let d := d.put (PT_LINK.FEC_ALIGN p) 1
    let d := (d.bump (LN_CNT_RELOCK h.lostLane)).lane p fun h => { h with lostIn := 0 }
    enterActive d p
  else d

/-- LOCK_TIMEOUT (R159): lock not reached in 10 ms, or relock not reached in RELOCK ms. -/
def execLockTimeout (l : Fin 1024) (s : State) : Outc := s.withDev fun d =>
  match portOf d l with
  | some p => if laneState d l = 3 then lockFail s.grid d p l else d
  | none => d

/-! ### The Survey (R167-R173, R667) -/

/-- The Survey LLDPDU of R169 and R170, without its FCS. -/
def surveyFrame (g : Grid) (d : Dev) (p : Nat) : List Byte :=
  let m := laneMode d p
  let ser := beBytes 8 d.serial.toNat
  let fl := (if (laneHid d p).txAck then 1 else 0) + (if g.state = .aligned then 2 else 0)
    + (if d.get GRT_GSYNC_CTL.ROLE = 1 ∨ (d.get GRT_GSYNC_CTL.ROLE = 2 ∧ d.flag GRT_GSYNC_STATUS.LOCKED) then 4 else 0)
    + 8 * d.get (LN_SURVEY_TX.PACE p) + 16 * d.get (LN_SURVEY_TX.PROMISE p) + 32 * d.get (LN_SURVEY_TX.Q7_NOPAUSE p)
  let tlv (t n : Nat) := beBytes 2 (t * 512 + n)
  beBytes 6 0x0180C200000E ++ beBytes 6 (portMac d p) ++ beBytes 2 0x88CC
    ++ tlv 1 9 ++ beBytes 1 7 ++ ser
    ++ tlv 2 3 ++ beBytes 1 7 ++ beBytes 2 p
    ++ tlv 3 2 ++ beBytes 2 1
    ++ tlv 127 36 ++ beBytes 3 0x5AD731 ++ beBytes 1 1 ++ beBytes 1 1 ++ beBytes 1 fl
    ++ beBytes 2 (d.get ID_IDENT.PART) ++ beBytes 2 (d.get ID_SILICON.word) ++ ser ++ beBytes 2 p
    ++ beBytes 1 (m.lanes * 16 + m.rate) ++ beBytes 1 (d.get (LN_SURVEY_TX.PCP p))
    ++ beBytes 2 (d.get (LN_SURVEY_TX.DEADLINE p)) ++ beBytes 8 g.epoch.toNat ++ beBytes 4 0
    ++ tlv 0 0

/-- Send one Survey on a port in EXCHANGE (R167); in FAULT the port transmits no frames (R206). -/
def sendSurvey (g : Grid) (d : Dev) (p : Nat) : Dev :=
  if d.get (PT_LINK.STATE p) = 2 then d else
    let d := txOwnFrame d p (surveyFrame g d p)
    d.lane p fun h => { h with ackSent := h.ackSent || h.txAck }

/-- The information string of the first valid Survey TLV (R172: type 127, Ndervo's CID and SUBTYPE 1, a VERSION of 1 or
greater, a length of at least 36), by walking an LLDPDU's TLVs; `fuel` bounds the walk. -/
def findSurvey (fuel : Nat) (b : List Byte) : Option (List Byte) :=
  match fuel with
  | 0 => none
  | fuel + 1 =>
    if b.length < 2 then none else
      let h := beNat (b.take 2)
      let t := h / 512
      let n := h % 512
      let body := (b.drop 2).take n
      if t = 0 then none
      else if t = 127 ∧ beNat (body.take 4) = 0x5AD73101 ∧ 36 ≤ body.length ∧ beNat ((body.drop 4).take 1) ≠ 0 then some body
      else findSurvey fuel (b.drop (2 + n))

/-- SURVEY_TX (R167): every 1 ms in EXCHANGE, starting at entry. -/
def execSurveyTx (p : Fin 1024) (s : State) : Outc := s.withDev fun d =>
  if isPort d p ∧ laneState d p = 4 then sendSurvey s.grid d p else d

/-- SURVEY_RX's effect (R168, R172, R173): a valid Survey is recorded, turns ACK on, and completes the exchange when it carries
ACK and one Survey with ACK has been sent; any other LLDPDU is discarded. -/
def surveyRx (g : Grid) (d : Dev) (p : Nat) (frame : List Byte) : Dev :=
  if isPort d p ∧ laneState d p = 4 ∧ beNat ((frame.drop 12).take 2) = 0x88CC then
    match findSurvey frame.length (frame.drop 14) with
    | none => d
    | some b =>
      let fld (o n : Nat) := beNat ((b.drop o).take n)
      let ack := decide (fld 5 1 % 2 = 1)
      let d := (d.put (LN_SURVEY_STATE.FLAGS p) (fld 5 1)).put (LN_SURVEY_STATE.VERSION p) (fld 4 1)
      let d := (d.put (LN_SURVEY_PEER.PART p) (fld 6 2)).put (LN_SURVEY_PEER.PORT p) (fld 18 2)
      let d := ((d.put (LN_SURVEY_PEER2.WIDTH p) (fld 20 1)).put (LN_SURVEY_PEER2.PCP p) (fld 21 1)).put
        (LN_SURVEY_PEER2.DEADLINE p) (fld 22 2)
      let d := (d.wput (wkey (mbxLn p) 1) (fld 10 8)).wput (wkey (mbxLn p) 2) (fld 24 8)
      let d := if ack then d else d.lane p fun h => { h with rxAck0 := true }
      let d := if (laneHid d p).txAck then d
        else sendSurvey g (d.lane p fun h => { h with txAck := true }) p
      if ack ∧ (laneHid d p).ackSent then enterActive (d.put (LN_SURVEY_STATE.KIND p) 1) p else d
  else d

/-- EXCH_TIMEOUT (R168): the port enters ACTIVE with KIND 2 where a valid Survey with ACK = 0 came, else 0. -/
def execExchTimeout (p : Fin 1024) (s : State) : Outc := s.withDev fun d =>
  if isPort d p ∧ laneState d p = 4 then
    let d := d.put (LN_SURVEY_STATE.KIND p) (if (laneHid d p).rxAck0 then 2 else 0)
    enterActive ((d.bump (LN_CNT_EXCH_TO p)).event (LN_STATUS.EXCH_TO p)) p
  else d

/-! ### Loss of lock, faults, retraining, resets (R179-R184, R205-R207) -/

/-- LOSS_OF_LOCK (R181, R182, R207): the port goes to LOCK, is pruned, and the lane's source reports; with
RELOCK_EN = 0 it goes on to TRAIN at once. -/
def execLossOfLock (l : Fin 1024) (s : State) : Outc := s.withDev fun d =>
  match portOf d l with
  | none => d
  | some p =>
    let st := laneState d l
    if st = 4 ∨ st = 5 then
      let d := (d.bump (LN_CNT_LOL l)).event (LN_STATUS.LOL l)
      let d := d.report (srcLane l) 0
      let d := setLaneStates d (portLanes d p) 3
      let d := leaveService d p
      let d := d.lane p fun h => { h with lostIn := st, lostLane := l }
      if d.flag (LN_CTL.RELOCK_EN p) then d else lockFail s.grid d p l
    else d

/-- FEC_ALIGN_LOSS (R205, R206): a port event that leaves the lane state alone; FAULT, and Remote Fault is sent. -/
def execFecAlignLoss (p : Fin 1024) (s : State) : Outc := s.withDev fun d =>
  if isPort d p ∧ (laneState d p = 4 ∨ laneState d p = 5) ∧ d.flag (PT_LINK.FEC_ALIGN p) then
    let d := (d.put (PT_LINK.FEC_ALIGN p) 0).event (PT_STATUS.FEC_LOSS p)
    let d := d.report (srcOctet p) 0
    let d := updateLink d p
    d.emit (.ordered p (faultSignal d p))
  else d

/-- FEC_ALIGN_REGAINED (R205, R206). -/
def execFecAlignRegained (p : Fin 1024) (s : State) : Outc := s.withDev fun d =>
  if isPort d p ∧ (laneState d p = 4 ∨ laneState d p = 5) then
    let d := updateLink (d.put (PT_LINK.FEC_ALIGN p) 1) p
    d.emit (.ordered p (faultSignal d p))
  else d

/-- FAULT_ORDERED_SET_RX (R206): Local Fault is answered with Remote Fault, Remote Fault with Idle. -/
def execFaultOrderedSetRx (p : Fin 1024) (remote : Bool) (s : State) : Outc := s.withDev fun d =>
  if isPort d p ∧ (laneState d p = 4 ∨ laneState d p = 5) then
    let d := updateLink (if remote then d.put (PT_LINK.RF p) 1 else d.put (PT_LINK.LF p) 1) p
    d.emit (.ordered p (faultSignal d p))
  else d

/-- LINK_FAULT_CLEARED (R205, R206). -/
def execLinkFaultCleared (p : Fin 1024) (s : State) : Outc := s.withDev fun d =>
  if isPort d p ∧ (d.flag (PT_LINK.LF p) ∨ d.flag (PT_LINK.RF p)) then
    let d := updateLink ((d.put (PT_LINK.LF p) 0).put (PT_LINK.RF p) 0) p
    d.emit (.ordered p (faultSignal d p))
  else d

/-- ACTIVE to TRAIN (R159, R179, R184). -/
def retrainPort (g : Grid) (d : Dev) (p l : Nat) : Dev :=
  if laneState d p = 5 then enterTrain g ((d.bump (LN_CNT_RETRAIN l)).shadow 1 p) p else d

/-- RETRAIN (R159): LN_CMD.RETRAIN on a lane of an ACTIVE port. -/
def execRetrain (l : Fin 1024) (s : State) : Outc := s.withDev fun d =>
  match portOf d l with
  | some p => retrainPort s.grid d p l
  | none => d

/-- PARTNER_RETRAIN (R159). -/
def execPartnerRetrain (l : Fin 1024) (s : State) : Outc := s.withDev fun d =>
  match portOf d l with
  | some p => retrainPort s.grid d p l
  | none => d

/-- LN_CMD.LANE_RESET (R159, R615): the port goes to DOWN, in its shadow (R622), and the lane's analog state is reset. -/
def laneReset (g : Grid) (d : Dev) (l : Nat) : Dev :=
  laneToDown g (match portOf d l with
    | some p => d.shadow 1 p
    | none => d) l

/-- LANE_RESET (R159). -/
def execLaneReset (l : Fin 1024) (s : State) : Outc := s.withDev fun d => laneReset s.grid d l

/-- REFCLK_LOSS (R183, R609): all 64 lanes of the die go to DOWN; the events at the other lanes are consequential. -/
def execRefclkLoss (die : Fin 16) (s : State) : Outc := s.withDev fun d =>
  if d.pins.refclkLost.contains die then d else
    let ls := (List.range 64).map (64 * die.val + ·)
    let d := { d with pins := { d.pins with refclkLost := die.val :: d.pins.refclkLost } }
    let d := ls.foldl (fun d l => if isPort d l then portDown s.grid d l else laneDown d l) d
    let d := ls.foldl (fun d l => d.event (LN_STATUS.REFCLK_LOSS l)) d
    ls.foldl (fun d l => if l = 64 * die.val then d.report (srcLane l) 0 else d.reportConseq (srcLane l) 0) d

/-- REFCLK_RETURN (R183): 1 ms after the clock is back the die's lanes return to DETECT where ADMIN_UP is still 1. -/
def execRefclkReturn (die : Fin 16) (s : State) : Outc := s.withDev fun d =>
  if d.pins.refclkLost.contains die then
    let d := { d with pins := { d.pins with refclkLost := d.pins.refclkLost.filter (· ≠ die.val) } }
    ((List.range 64).map (64 * die.val + ·)).foldl detectStart d
  else d

/-! ### Figure of merit and the idle-wander rule (R174-R180) -/

/-- R177: the reasons TD (bit 0) and FOM (bit 1) after a window with figure of merit `fom`, where they were `was`; the 1 ms
before it is its 15 windows, the newest first. -/
def windowReasons (d : Dev) (l fom td was : Nat) (hist : List Nat) : Nat :=
  let tdMin := d.get (LN_FOM_CFG.TD_MIN l)
  let b0 := if td < tdMin then 1 else if td ≥ tdMin + 4 then 0 else was % 2
  let drop := d.get (LN_FOM_CFG.DROP l)
  let b1 := if fom + drop ≥ d.get (LN_FOM.LOCK_FOM l) then 0
    else if hist.any (fun f => decide (f > fom + drop)) then 1 else was / 2 % 2
  b0 + 2 * b1

/-- R188: the checker's bit errors since CHK_CLEAR, saturating. -/
def checkerErrs (d : Dev) (l n : Nat) : Dev :=
  if d.flag (LN_PRBS_STAT.CHK_RUN l) then
    d.setWord (LN_PRBS_ERR.word l).addr (BitVec.ofNat 32 (sat 32 ((d.word (LN_PRBS_ERR.word l).addr).toNat + n)))
  else d

/-- R218: the FEC counters of a port, which its first lane's windows bring. -/
def fecCounts (d : Dev) (l : Nat) (w : LaneWindow) : Dev :=
  if isPort d l ∧ 3 ≤ laneState d l then
    ((d.ctrAdd (ptCtr l 22) w.fecCorr).ctrAdd (ptCtr l 23) w.fecUncorr).ctrAdd (ptCtr l 24) w.fecSym
  else d

/-- FOM_WINDOW (R174, R177, R188, R218): at the end of a 64 us window of a lane from TRAIN onward, FOM = min(255, floor(4 x SNR))
with the SNR given in 1/64 dB, the transition density, the checker's errors in TEST, and the freeze reasons. -/
def execFomWindow (l : Fin 1024) (w : LaneWindow) (s : State) : Outc := s.withDev fun d =>
  let st := laneState d l
  if st = 0 ∨ st = 1 then d else
    let fom := min 255 (4 * w.snrQ / 64)
    let low := windowReasons d l fom w.td.toNat (d.get (LN_STATE.FREEZE l)) (laneHid d l).fomHist
    let d := (d.put (LN_FOM.FOM l) fom).put (LN_FOM.TD l) w.td.toNat
    let d := d.lane l fun h => { h with fomHist := (fom :: h.fomHist).take 15 }
    let d := if st = 6 then checkerErrs d l w.errs else fecCounts d l w
    showFreeze d l low

/-- FOM_REBASE (R178): reason FOM alone held for 16 ms and FOM at least FLOOR. -/
def execFomRebase (l : Fin 1024) (s : State) : Outc := s.withDev fun d =>
  if (laneState d l = 4 ∨ laneState d l = 5) ∧ d.get (LN_STATE.FREEZE l) = 2 ∧
      d.get (LN_FOM.FOM l) ≥ d.get (LN_FOM_CFG.FLOOR l) then
    (setFreeze (d.put (LN_FOM.LOCK_FOM l) (d.get (LN_FOM.FOM l))) l 0).bump (LN_CNT_REBASE l)
  else d

/-- RETRAIN_REQ (R179): FOM below FLOOR for 100 ms; with AUTO_RETRAIN on the port's first lane the port retrains. -/
def execRetrainReq (l : Fin 1024) (s : State) : Outc := s.withDev fun d =>
  if laneState d l ≥ 2 ∧ laneState d l ≤ 5 ∧ d.get (LN_FOM.FOM l) < d.get (LN_FOM_CFG.FLOOR l) then
    let d := d.event (LN_STATUS.RETRAIN_REQ l)
    match portOf d l with
    | some p => if d.flag (LN_CTL.AUTO_RETRAIN p) then retrainPort s.grid d p l else d
    | none => d
  else d

/-! ### Eye scans, test patterns (R185-R189) -/

/-- EYE_START (R186, R187): from LOCK onward and in TEST; a start while one runs, or elsewhere, is ignored. On a lane in
EYE mode adaptation freezes for reason SCAN (R177). DWELL_LOG2 below 10 acts as 10, above 30 as 30 (R192). -/
def startEye (d : Dev) (l : Nat) : Dev :=
  if d.flag (LN_EYE_STAT.RUNNING l) ∨ laneState d l < 3 then d.event (LN_STATUS.CMD_IGNORED l) else
    let d := { d with eye := d.eye.keep fun k => decide (k / 4096 ≠ l) }
    let d := ((d.put (LN_EYE_STAT.RUNNING l) 1).put (LN_EYE_STAT.VALID l) 0).put (LN_EYE_STAT.POINTS l) 0
    let dwell := max 10 (min 30 (d.get (LN_EYE_CTL.DWELL_LOG2 l)))
    let d := { d with free := d.free + 4096 }.lane l fun h => { h with
      scanAt := d.ticks, scanDwell := dwell, scanSeed := d.free }
    refreeze d l

/-- EYE_START. -/
def execEyeStart (l : Fin 1024) (s : State) : Outc := s.withDev fun d => startEye d l

/-- EYE_SCAN_DONE (R185, R187): the last of the 4,096 points is measured; the map holds the counts. -/
def execEyeScanDone (l : Fin 1024) (points : List (BitVec 16)) (s : State) : Outc := s.withDev fun d =>
  if d.flag (LN_EYE_STAT.RUNNING l) then
    let m := (points.take 4096).foldl
      (fun (a : SMap (BitVec 16) × Nat) v => (a.1.put 0 (l.val * 4096 + a.2) v, a.2 + 1)) (d.eye, 0)
    let d := { d with eye := m.1 }
    let d := ((d.put (LN_EYE_STAT.RUNNING l) 0).put (LN_EYE_STAT.VALID l) 1).put (LN_EYE_STAT.POINTS l) 4096
    (refreeze d l).event (LN_STATUS.SCAN_DONE l)
  else d

/-- BITSLIP (R189): one UI later, modulo 64 on PAM4 and 128 on NRZ; ignored outside TEST or without manual
alignment (the USER pattern always compares at the boundary as it stands). -/
def doBitslip (d : Dev) (l : Nat) : Dev :=
  if laneState d l = 6 ∧ d.flag (LN_CTL.MANUAL_ALIGN l) then
    d.put (LN_PRBS_STAT.SLIP_POS l)
      ((d.get (LN_PRBS_STAT.SLIP_POS l) + 1) % (if d.get (LN_STATE.RATE l) = 0 then 128 else 64))
  else d.event (LN_STATUS.CMD_IGNORED l)

/-- BITSLIP. -/
def execBitslip (l : Fin 1024) (s : State) : Outc := s.withDev fun d => doBitslip d l

/-- CHK_CLEAR (R188): zero LN_PRBS_ERR. -/
def execChkClear (l : Fin 1024) (s : State) : Outc := s.withDev fun d => d.setWord (LN_PRBS_ERR.word l).addr 0

/-- CHECKER_SELF_ALIGNED (R189): with MANUAL_ALIGN 0 and a PRBS pattern (codes 0-8, not USER) the checker aligns. -/
def execCheckerSelfAligned (l : Fin 1024) (s : State) : Outc := s.withDev fun d =>
  if laneState d l = 6 ∧ d.flag (LN_CTL.MANUAL_ALIGN l) = false ∧ d.flag (LN_PRBS_STAT.CHK_RUN l) ∧
      d.get (LN_TEST_CTL.RX_PAT l) < 9 then
    d.put (LN_PRBS_STAT.SYNC l) 1
  else d

/-! ### Octet modes (R194-R196, R204) -/

/-- A write that changes PT_OCT_MODEk (R195, R160, R194, R204): the octet's lanes go to DOWN, the old ports leave their
groups and lose their queued packets with PORT_REMOVED, and the lanes take the new mode's rate, with its FLOOR and its
VRANGE, a free value (log entry 1). -/
def changeOctetMode (g : Grid) (d : Dev) (s k mode : Nat) : Dev :=
  let m' := if mode = 15 then 0 else mode
  if octModeOf d (s * 32 + k * 8) = m' then d.put (PT_OCT_MODE.MODE s k) m' else
    let ls := octetLanes s k
    let d := ls.foldl (fun d l => if isPort d l then
        flushPort g (leaveService (clearSurvey (laneDown d l) l) l) l drPortRemoved
      else laneDown d l) d
    let d := d.put (PT_OCT_MODE.MODE s k) m'
    let row := modeRow m'
    ls.foldl (fun d l =>
      let d := d.put (LN_STATE.FIRST l) (if isPort d l then 1 else 0)
      let d := if d.get (LN_STATE.RATE l) = row.rate then d else
        let (v, d) := d.fresh
        ((d.put (LN_STATE.RATE l) row.rate).put (LN_FOM_CFG.FLOOR l) (if row.rate = 0 then 56 else 70)).put
          (LN_EYE_STAT.VRANGE l) (v.toNat % 256)
      let d := patternRun ((d.setWord (PT_LINK.word l).addr 0).lane l fun h => { h with
        lockedOnce := false, anFec := none, lostIn := 0, lostLane := 0, txAck := false, ackSent := false, rxAck0 := false
        fomHist := [] }) l
      recheck d l) d

/-- OCTET_MODE_CHANGE. -/
def execOctetModeChange (sl : Fin 32) (k : Fin 4) (mode : Fin 16) (s : State) : Outc :=
  s.withDev fun d => changeOctetMode s.grid d sl k mode

/-- LIVE_SET (R208, R210): UP with DRAIN = 0 for UP_HOLD us, the slice not in reset. -/
def execLiveSet (p : Fin 1024) (s : State) : Outc := s.withDev fun d =>
  if isPort d p ∧ d.get (PT_LINK.STATE p) = 1 ∧ d.flag (PT_CFG.DRAIN p) = false ∧
      d.sliceUp (p.val / 32) then d.put (PT_LINK.LIVE p) 1 else d

end Sys2Proof.Machine
end

