-- ==== Sys2Proof/Machine/Ports.lean ====
section
/-!
DEFINITION. The MAC of a port (chapter 06): frames received and their faults (R198), MAC control frames and pause
(R211-R215), the statistics' clearing (R195) and the transmit timestamp FIFO (R217, R220).
-/
namespace Sys2Proof.Machine

/-! ### MAC control frames and pause (R211, R212, R215) -/

/-- Paused time of a priority: RX_PAUSED_US counts it, and keeps what is below a microsecond (R212). -/
def pausedFor (d : Dev) (p prio start stop : Nat) : Dev :=
  let t := (d.po p).pausedRem.get 0 prio + (stop - start)
  (d.ctrAdd (ptCtr p (36 + prio)) (t / 4000)).port p fun x => { x with pausedRem := x.pausedRem.put 0 prio (t % 4000) }

/-- RX_PAUSED_US of the pauses that run is brought up to a tick at `now` (R212). -/
def pausesTick (now : Nat) (d : Dev) : Dev :=
  (d.ports.filter fun e => decide (e.2.pausedUntil ≠ [])).foldl (fun d e =>
    let d := e.2.pausedUntil.foldl (fun d x => pausedFor d e.1 x.1 x.2.1 (min now x.2.2)) d
    d.port e.1 fun y => { y with pausedUntil := y.pausedUntil.map fun x => (x.1, max x.2.1 (min now x.2.2), x.2.2) }) d

/-- Pause time of `quanta` units of 512 bit times at a port's speed, in 0.25 ns. -/
def quantaQ (d : Dev) (p quanta : Nat) : Nat := (quanta * 2048 + portSpeed d p - 1) / portSpeed d p

/-- A received pause of one priority, its last byte at `now` (R212): a later frame restarts the time, zero quanta ends
it; while the watchdog ignores pause for the priority nothing changes (R215). A pause whose time is over is a new one. -/
def pauseRx (now : Nat) (d : Dev) (p prio quanta : Nat) : Dev :=
  let h := d.po p
  if h.wdLifted.contains prio then d else
    let rest := h.pausedUntil.filter fun x => decide (x.1 ≠ prio)
    match h.pausedUntil.find? fun x => decide (x.1 = prio) with
    | some (_, start, stop) =>
      if quanta = 0 then pausedFor (d.port p fun x => { x with pausedUntil := rest }) p prio start (min now stop)
      else if now ≤ stop then d.port p fun x => { x with pausedUntil := (prio, start, now + quantaQ d p quanta) :: rest }
      else (pausedFor d p prio start stop).port p fun x => { x with
        pausedUntil := (prio, now, now + quantaQ d p quanta) :: rest }
    | none =>
      if quanta = 0 then d
      else d.port p fun x => { x with pausedUntil := (prio, now, now + quantaQ d p quanta) :: rest }

/-- A MAC control frame at a port is obeyed where the port's mode uses its opcode, else counted in RX_DISCARD (R211, R212); its
last byte came at `now`. A PAUSE carries its quanta first and acts on all eight priorities. -/
def obeyControl (d : Dev) (now p : Nat) (b : List Byte) : Dev :=
  let opcode := beNat (bytesAt b 14 2)
  if opcode = 1 ∧ fcMode d p = 1 then
    (List.range 8).foldl (fun d i => pauseRx now d p i (beNat (bytesAt b 16 2))) d
  else if opcode = 0x0101 ∧ fcMode d p = 2 then
    let vec := beNat (bytesAt b 16 2) % 256
    (List.range 8).foldl (fun d i =>
      if bit vec i && bit (d.get (PT_PFC_CFG.RX_MASK p)) i then pauseRx now d p i (beNat (bytesAt b (18 + 2 * i) 2)) else d) d
  else d.ctrAdd (ptCtr p 10) 1

/-- Each MAC control frame is counted (R211). -/
def countControl (d : Dev) (p : Nat) (b : List Byte) : Dev :=
  match beNat (bytesAt b 14 2) with
  | 1 => d.ctrAdd (ptCtr p 12) 1
  | 0x0101 => d.ctrAdd (ptCtr p 13) 1
  | _ => d

/-- A MAC control frame (R211). -/
def isControl (b : List Byte) : Bool := decide (beNat (bytesAt b 12 2) = 0x8808)

/-- The RX_SIZE counter of a frame of n bytes (R218). -/
def sizeBin (n : Nat) : Nat :=
  if n ≤ 64 then 28 else if n < 128 then 29 else if n < 256 then 30 else if n < 512 then 31 else if n < 1024 then 32
  else if n ≤ 1518 then 33 else if n < 2048 then 34 else 35

/-- R218: a received frame of legal length counts by its size. -/
def countSize (d : Dev) (p n : Nat) : Dev :=
  if 64 ≤ n ∧ n ≤ portMtu d p then d.ctrAdd (ptCtr p (sizeBin n)) 1 else d

/-- A port that receives: its lanes are in EXCHANGE or ACTIVE (R205). -/
def receives (d : Dev) (p : Nat) : Bool := isPort d p && (decide (laneState d p = 4) || decide (laneState d p = 5))

/-- PAUSE_EXPIRE (R212): the pause time of a priority is over. -/
def execPauseExpire (p : Fin 1024) (prio : Fin 8) (dt : Nat) (s : State) : Outc := s.withDev fun d =>
  match (d.po p).pausedUntil.find? fun x => decide (x.1 = prio.val) with
  | some (_, start, stop) =>
    if s.grid.nowQ dt < stop then d else
      pausedFor (d.port p fun x => { x with pausedUntil := x.pausedUntil.filter fun y => decide (y.1 ≠ prio.val) })
        p prio start stop
  | none => d

/-- PAUSE_REFRESH (R213): while XOFF holds the frame is sent again. -/
def execPauseRefresh (p : Fin 1024) (prio : Fin 8) (s : State) : Outc := s.withDev fun d =>
  if (d.po p).xoffSent.contains prio.val then pauseOn d p prio else d

/-- PFC_WATCHDOG (R215): a priority paused for WD_MS ms without a break is no longer obeyed. -/
def execPfcWatchdog (p : Fin 1024) (prio : Fin 8) (s : State) : Outc := s.withDev fun d =>
  let h := d.po p
  if (h.pausedUntil.any fun x => decide (x.1 = prio.val)) ∧ h.wdLifted.contains prio.val = false ∧
      d.get (PT_PFC_CFG.WD_MS p) ≠ 0 then
    let d := d.port p fun x => { x with wdLifted := prio.val :: x.wdLifted }
    (d.ctrAdd (ptCtr p 26) 1).event (PT_STATUS.PFC_WD p)
  else d

/-- PFC_WATCHDOG_END (R215): 10 ms without a pause received for the priority. -/
def execPfcWatchdogEnd (p : Fin 1024) (prio : Fin 8) (s : State) : Outc := s.withDev fun d =>
  d.port p fun x => { x with wdLifted := x.wdLifted.filter (· ≠ prio.val) }

/-! ### Frames received (R197-R199, R205, R210) -/

/-- A whole frame that ends at the MAC: its Cartouche carries the reason; the frames above the slice's rate have a counter of
their own (R34), the others count in RX_DISCARD (R198, R172). -/
def macDrop (g : Grid) (d : Dev) (f : Frame) (reason : Nat) : Dev :=
  let p := f.inPort
  let (fid, d) := d.newFrame f
  let d := d.ctrAdd (ptCtr p (if reason = drRateExceeded then 11 else 10)) 1
  let d := complete g d (plainCopy { fid := fid, inPort := p } 0 0)
    { half := halfOf p, slice := p / 32, reason := reason, parsed := false }
  dropFrame d fid

/-- The frame still arriving on a port, if any. -/
def halfRx (d : Dev) (p : Nat) : Option (Nat × Frame) :=
  d.frames.findSome? fun e => match e.2 with
    | some f => if f.inPort = p ∧ f.complete = false ∧ f.built = none then some (e.1, f) else none
    | none => none

/-- R198: the drop reason and the statistic of a faulty frame of n bytes. -/
def rxFault (d : Dev) (p n : Nat) (good : Bool) : Option (Nat × Nat) :=
  if n < 64 then some (drUndersize, if good then 6 else 7)
  else if n > portMtu d p then some (drOversize, if good then 8 else 9)
  else if good then none else some (drFcsErr, 5)

/-- Why a port that receives cannot take a frame now: EXCHANGE (R205), FAULT (R206), the slice's rate (R34). -/
def rxBarred (d : Dev) (p : Nat) (rate : Bool) : Option Nat :=
  if laneState d p = 4 then some drNotReady
  else if !linkUp d p then some drLinkDown
  else if rate then some drRateExceeded else none

/-- The receive timestamp of a frame: the time of its message timestamp point with RX_ADJ (R216). -/
def rxStamp (d : Dev) (p now : Nat) : Nat := ((now : Int) + signed16 (d.get (PT_TS_ADJ.RX_ADJ p))).toNat

/-- A whole frame f has come to a port that receives, its last byte at `now`; `bar` says why the port cannot take it. First the
faults of R198; a MAC control frame is consumed, counted (R211) and, unless the port is in FAULT, obeyed; an LLDPDU in EXCHANGE
is the Survey's (R172); the rest goes to the slice (DEDUCED where two apply, log entry 159). -/
def rxWhole (g : Grid) (d : Dev) (f : Frame) (now : Nat) (bar : Option Nat) : Dev :=
  let p := f.inPort
  let b := f.bytes
  let d := countSize d p b.length
  match rxFault d p b.length (!f.bad) with
  | some (r, k) => macDrop g (d.ctrAdd (ptCtr p k) 1) f r
  | none =>
    let d := countFrame d p 0 b
    if isControl b then
      let d := countControl d p b
      if bar = some drLinkDown then macDrop g d f drLinkDown else obeyControl d now p b
    else if laneState d p = 4 ∧ beNat (bytesAt b 12 2) = 0x88CC then surveyRx g d p (noFcs f)
    else match bar with
      | some r => macDrop g d f r
      | none =>
        let (fid, d) := d.newFrame f
        d.slice (p / 32) fun x => { x with staging := x.staging ++ [{ fid := fid, inPort := p }] }

/-- The first bytes of a long frame: staged for cut-through, or, where the port cannot take it or it is a MAC control frame, kept
until its last byte shows what it is. -/
def rxHead (d : Dev) (p now : Nat) (b : List Byte) (rate : Bool) (total : Nat) : Dev :=
  let bar := rxBarred d p rate
  let kept := bar.isSome || isControl b
  let (fid, d) := d.newFrame
    { inPort := p, bytes := b, complete := false, bad := kept, doom := bar, rxTs := rxStamp d p now, total := total }
  if kept then d else d.slice (p / 32) fun x => { x with staging := x.staging ++ [{ fid := fid, inPort := p }] }

/-- Whether a frame, or one built from it, is in transmission. -/
def cutting (d : Dev) (fids : List Nat) : Bool :=
  d.ports.any fun e => match e.2.tx with
    | some t => fids.contains t.copy.pkt.fid
    | none => false

/-- The rest of a long frame, its last byte at `now`: a fault drops every copy whose transmission has not begun, and stomps the others (R18,
R198); a good frame is counted. A frame that ends short of, or past, the length its first bytes came with was cut off by an
error block (log entry 152). -/
def rxTail (g : Grid) (d : Dev) (p now : Nat) (b : List Byte) (good : Bool) : Dev :=
  match halfRx d p with
  | none => d
  | some (fid, f) =>
    let bytes := f.bytes ++ b
    let n := bytes.length
    let good := good && decide (n = f.total)
    if f.bad ∧ !d.sliceUp (p / 32) then (d.setFrame fid none).port p fun x => { x with heldDiscard := x.heldDiscard + 1 }
    else if f.bad then
      rxWhole g (d.setFrame fid none) { f with bytes := bytes, complete := true, bad := !good, doom := none } now f.doom
    else
      let d := countSize d p n
      let fids := familyOf d fid
      match rxFault d p n good with
      | some (r, k) =>
        let f' := { f with bytes := bytes, complete := true, bad := true }
        let d := settle (d.setFrame fid (some f')) fid f'
        let d := if cutting d fids then d.ctrAdd (ptCtr p (if r = drOversize then 8 else k)) 1
          else (d.ctrAdd (ptCtr p k) 1).ctrAdd (ptCtr p 10) 1
        fids.foldl (fun d i => dropFrame (dropFrameCopies g d i r) i) d
      | none =>
        let f' := { f with bytes := bytes, complete := true }
        let d := settle (d.setFrame fid (some f')) fid f'
        dropFrame (countFrame d p 0 bytes) fid

/-- n byte times at a port's speed, in 0.25 ns. -/
def wireQ (d : Dev) (p n : Nat) : Nat := n * 32 / portSpeed d p

/-- The whole frame of bytes b whose message timestamp point a port saw at `now`. -/
def arrives (g : Grid) (d : Dev) (p now : Nat) (b : List Byte) (good rate : Bool) : Dev :=
  rxWhole g d { inPort := p, bytes := b, complete := true, bad := !good, rxTs := rxStamp d p now } (now + wireQ d p b.length)
    (rxBarred d p rate)

/-- What a port's MAC does with what its partner sends (R197): outside a port, or while its lanes are not in EXCHANGE or ACTIVE,
nothing; while its slice is in reset the frame is only counted (R210); in loopback `own` happens, with the frames the port sent
(R219); else `take`, where a frame whose rest never came has ended in an error block. -/
def fromPartner (g : Grid) (d : Dev) (p now : Nat) (own take : Dev → Dev) : Dev :=
  if !receives d p then d
  else if !d.sliceUp (p / 32) then d.port p fun x => { x with heldDiscard := x.heldDiscard + 1 }
  else if d.flag (PT_CFG.LOOP p) then own d
  else take (if (halfRx d p).isSome then rxTail g d p now [] false else d)

/-- In loopback the port receives the oldest frame it sent. -/
def loopRx (g : Grid) (d : Dev) (p now : Nat) (rate : Bool) : Dev :=
  match (d.po p).looped with
  | [] => d
  | (b, stomped) :: rest => arrives g (d.port p fun x => { x with looped := rest }) p now b (!stomped) rate

/-- FRAME_RX's effect. -/
def frameRx (g : Grid) (d : Dev) (r : RxFrame) : Dev :=
  let p := r.port.val
  let now := g.nowQ r.dt
  match r.part with
  | .tail => rxTail g d p now r.bytes (receives d p && d.sliceUp (p / 32) && r.fcsOk && !r.errBlock)
  | .head => fromPartner g d p now (fun d => loopRx g d p now r.rateExceeded)
      (fun d => rxHead d p now r.bytes r.rateExceeded r.total)
  | .whole => fromPartner g d p now (fun d => loopRx g d p now r.rateExceeded)
      (fun d => arrives g d p now r.bytes (r.fcsOk && !r.errBlock) r.rateExceeded)

/-- FRAME_RX (R198). -/
def execFrameRx (r : RxFrame) (s : State) : Outc := s.withDev fun d => frameRx s.grid d r

/-- SURVEY_RX (R172): an LLDPDU reaches the port's MAC. -/
def execSurveyRx (p : Fin 1024) (frame : List Byte) (s : State) : Outc := s.withDev fun d =>
  let now := s.grid.nowQ 0
  fromPartner s.grid d p now id fun d => arrives s.grid d p now (withFcs frame) true false

/-- The 64 bytes of a MAC control frame from a partner: opcode, then a PAUSE's quanta, or a PFC frame's enable vector and
quanta (R211). -/
def partnerControl (opcode vec : Nat) (quanta : List Nat) : List Byte :=
  withFcs (beBytes 6 0x0180C2000001 ++ beBytes 6 0 ++ beBytes 2 0x8808 ++ beBytes 2 opcode
    ++ (if opcode = 1 then [] else beBytes 2 vec) ++ (quanta.take 8).flatMap (beBytes 2))

/-- MAC_CONTROL_RX (R211). -/
def execMacControlRx (p : Fin 1024) (opcode : BitVec 16) (vec : BitVec 8) (quanta : List (BitVec 16)) (dt : Nat)
    (s : State) : Outc := s.withDev fun d =>
  let now := s.grid.nowQ dt
  let b := partnerControl opcode.toNat vec.toNat (quanta.map (·.toNat))
  fromPartner s.grid d p now id fun d =>
    rxWhole s.grid d { inPort := p, bytes := b, complete := true, rxTs := rxStamp d p (now - wireQ d p 64) } now (rxBarred d p false)

/-! ### Statistics and timestamps -/

/-- R195: PT_CMD.CLEAR_STATS zeroes all statistics of port p. -/
def clearStats (d : Dev) (p : Nat) : Dev := (List.range 44).foldl (fun d k => d.ctrPut (ptCtr p k) 0) d

/-- CLEAR_STATS (R195): the port named in PT_CMD_PORT. A lane that is no first lane of a port has no effect (R196). -/
def execClearStats (sl : Fin 32) (s : State) : Outc := s.withDev fun d =>
  let p := sl.val * 32 + d.get (PT_CMD_PORT.LANE sl)
  if isPort d p then clearStats d p else d

/-- R220: the head of the transmit timestamp FIFO and the device without it. -/
def tsPop (d : Dev) (p : Nat) : Option (Nat × Dev) :=
  match (d.po p).tsFifo with
  | (sec, ns, tag) :: r => some (sec + ns * 2 ^ 64 + tag * 2 ^ 96, d.port p fun x => { x with tsFifo := r })
  | [] => none

end Sys2Proof.Machine
end

