-- ==== Sys2Proof/Machine/Hif.lean ====
section
/-!
DEFINITION. The host's side (chapter 03): bus errors (R101), function-level reset, the PCIe link and PERST_N (R75, R76,
R649), doorbells, punt and inject rings (R80-R84, R388, R389).
-/
namespace Sys2Proof.Machine

/-! ### Bus errors (R101) -/

/-- SOURCE of an access (R112). -/
def srcCode : Src → Nat
  | .pf0 => 0
  | .pf1 => 1
  | .oob => 2

/-- An access is secure through PF1 and the out-of-band path (R74, R88). -/
def srcSecure : Src → Bool
  | .pf0 => false
  | _ => true

/-- R101's kinds. -/
def beSize := 0
def beAlign := 1
def beReserved := 2
def beWorld := 3
def beLocked := 4
def beReadonly := 5
def beMbx := 6
def beTimeout := 7
def beBar2Write := 8

/-- R101: a bus error of a kind is logged in HIF_BUSERR and raised as a fault event. -/
def busError (d : Dev) (src : Src) (kind bar off : Nat) (write : Bool) : Dev :=
  let d := ((d.put HIF_BUSERR.SOURCE (srcCode src)).put HIF_BUSERR.DIR (if write then 1 else 0)).put HIF_BUSERR.KIND kind
  let d := (d.put HIF_BUSERR_ADDR.BAR bar).put HIF_BUSERR_ADDR.OFFSET off
  let d := (d.event HIF_BUSERR.PENDING).bump HIF_BUSERR_CNT.COUNT
  d.report kind 0

/-! ### Resets of functions, the link (R75, R76, R112, R649) -/

/-- R75, R390: a ring stops, its posted entries go, and the frames it abandons free their staging buffers; HEAD stays, since no
register block is reset. -/
def stopRing (d : Dev) (n : Nat) : Dev :=
  let mine := puntsOf d n
  let d := { d with punts := d.punts.filter fun p => decide (p.ring ≠ n), dmaIdx := d.dmaIdx.put 0 n (d.get (DMA_RING_HEAD.HEAD n)) }
  let d := mine.foldl (fun d p => dropFrame (bpmFree d 2 p.buf).2 p.copy.pkt.fid) d
  d.put (DMA_RING_CTL.ENABLE n) 0

/-- R75: what a function's reset does: its MSI-X table resets, the rings of its world stop and are emptied, running or not. -/
def resetFunction (d : Dev) (pf : Nat) : Dev :=
  let d := { d with msix := d.msix.keep fun k => decide (k / 65536 ≠ pf), pba := d.pba.keep fun k => decide (k / 65536 ≠ pf) }
  (List.range 128).foldl (fun d n => if ringPf d n = pf then stopRing d n else d) d

/-- FLR (R75). -/
def execFlr (pf : Fin 2) (s : State) : Outc := s.withDev fun d =>
  (resetFunction d pf).event (if pf = 0 then HIF_STATUS.FLR0 else HIF_STATUS.FLR1)

/-- The link leaves L0 (R112). -/
def linkLost (d : Dev) : Dev :=
  if hostUp d then
    (((d.put HIF_LINK.SPEED 0).put HIF_LINK.WIDTH 0).put HIF_LINK.FLIT 0).event HIF_STATUS.LINK_DOWN
  else d

/-- PCIE_LINK_DOWN (R76). -/
def execPcieLinkDown (s : State) : Outc := s.withDev linkLost

/-- PCIE_LINK_UP (R112): the link trains to a speed, a width and a mode, not while PERST_N is low. -/
def execPcieLinkUp (speed : Fin 7) (width : BitVec 8) (flit : Bool) (s : State) : Outc := s.withDev fun d =>
  if speed.val = 0 ∨ d.pins.perst then d else
    let d := ((d.put HIF_LINK.SPEED speed).put HIF_LINK.WIDTH width.toNat).put HIF_LINK.FLIT (if flit then 1 else 0)
    if speed.val < 4 then d.event HIF_STATUS.LOW_RATE else d

/-- PERST_N_ASSERT (R649): link, MSI-X tables and rings of both functions; no register block. -/
def execPerstAssert (s : State) : Outc := s.withDev fun d =>
  resetFunction (resetFunction (linkLost { d with pins := { d.pins with perst := true } }) 0) 1

/-- PERST_N_RELEASE (R649): the link may train again. -/
def execPerstRelease (s : State) : Outc := s.withDev fun d => { d with pins := { d.pins with perst := false } }

/-! ### Doorbells and rings (R80-R84, R658) -/

/-- R81: ring n's doorbell brings a producer index. -/
def doorbell (d : Dev) (n idx : Nat) : Dev :=
  let size := ringEntries d n
  let head := d.get (DMA_RING_HEAD.HEAD n)
  let ahead (i : Nat) := (i + size - head % size) % size
  if idx < size ∧ ahead (d.dmaIdx.get 0 n) ≤ ahead idx then
    { d with dmaIdx := d.dmaIdx.put 0 n idx }
  else d.ringEvent n (DMA_RING_STATUS.DB_ERR n)

/-- A write in BAR4's doorbell range: R658's checks, then the doorbell. The out-of-band path does not reach BAR4 (R88). -/
def doorbellWrite (d : Dev) (src : Src) (off : Nat) (shape : Shape) (v : Word) : Dev :=
  if src = .oob then d
  else if shape ≠ .dword ∨ off % 4 ≠ 0 then busError d src beSize 2 off true
  else if 0x80000 ≤ off ∨ off % 0x1000 ≠ 0 then busError d src beReserved 2 off true
  else
    let n := off / 0x1000
    if ringPf d n = 1 ∧ srcSecure src = false then busError d src beWorld 2 off true
    else doorbell d n (v.toNat % 65536)

/-- The function an access comes through. -/
def pfOf (src : Src) : Nat := if srcSecure src then 1 else 0

/-- The reset value of a DW of the MSI-X table: every vector is masked (PRESUMED, PCIe Base 6.0, log entry 51). -/
def msixReset (i : Nat) : Word := if i % 4 = 3 then 1 else 0

/-- A write of a DW of the function's MSI-X table: clearing a mask sends the pending message. -/
def msixWrite (d : Dev) (pf i : Nat) (v : Word) : Dev :=
  let k := pf * 65536 + i
  let v := if i % 4 = 3 then v &&& 1 else v
  let d := { d with msix := d.msix.put (msixReset i) k v }
  let n := pf * 65536 + i / 4
  if i % 4 = 3 ∧ v = 0 ∧ d.pba.get false n then { d with pba := d.pba.put false n false }.emit (.msix pf (i / 4)) else d

/-- A write to BAR4 (R658): a doorbell, the MSI-X table; the PBA takes no writes, and a write of the table is one aligned DW
(PRESUMED, PCIe Base 6.0, log entry 51). -/
def bar4Write (d : Dev) (src : Src) (off : Nat) (shape : Shape) (v : Word) : Dev :=
  if 0xF0000 ≤ off ∧ off < 0x100000 then
    if src ≠ .oob ∧ off < 0xF1000 ∧ shape = .dword ∧ off % 4 = 0 then msixWrite d (pfOf src) ((off - 0xF0000) / 4) v else d
  else doorbellWrite d src off shape v

/-- DOORBELL_WRITE (R81). -/
def execDoorbellWrite (src : Src) (off : BitVec 27) (shape : Shape) (v : Word) (s : State) : Outc :=
  s.withDev fun d => bar4Write d src off.toNat shape v

/-- A running ring that the host reaches and that has an entry posted. -/
def ringReady (d : Dev) (n : Nat) : Bool :=
  d.flag (DMA_RING_CTL.ENABLE n) && hostUp d && decide (posted d n ≠ 0)

/-- A descriptor as its 16 bytes lay it out (R82). -/
structure Desc where
  addr : BitVec 64
  len : Nat
  port : Nat
  queue : Nat
  /-- Byte 13, with DONE, and TRUNC or PIPELINE. -/
  mark : Nat
  reservedZero : Bool
  deriving DecidableEq, Repr

/-- R82: the fields of a descriptor. -/
def descOf (v : BitVec 128) : Desc :=
  let n := v.toNat
  { addr := BitVec.ofNat 64 n, len := bits n 79 64, port := bits n 95 80, queue := bits n 103 96, mark := bits n 111 104
    reservedZero := decide (bits n 127 112 = 0) }

/-- R82: PIPELINE of an inject descriptor. -/
def Desc.pipeline (x : Desc) : Bool := bit x.mark 1

/-- R82, R86: a descriptor that is skipped: length 0, or reserved bytes not 0. -/
def Desc.bad (x : Desc) : Bool := decide (x.len = 0) || !x.reservedZero

/-- Byte 13 as the device writes it back: DONE is set, and in a punt descriptor TRUNC says whether the frame was cut; PIPELINE
and the bits above stay (R82). -/
def Desc.puntMark (x : Desc) (trunc : Bool) : Nat := x.mark / 4 * 4 + (if trunc then 3 else 1)
def Desc.injectMark (x : Desc) : Nat := x.mark / 2 * 2 + 1

/-- The device reads the descriptor at HEAD of ring n, under the ring's requester ID (R85). -/
def fetchDesc (d : Dev) (n : Nat) : Dev :=
  d.emit (.hostRead (ringPf d n) (BitVec.ofNat 64 (d.wget (wkey mbxDma n) + 16 * d.get (DMA_RING_HEAD.HEAD n))) 16)

/-- Write back a consumed descriptor (R82), advance HEAD, and signal the ring's vector where IRQ_EN asks for it (R86). -/
def consume (d : Dev) (n : Nat) (back : List Byte) (off : Nat) : Dev :=
  let head := d.get (DMA_RING_HEAD.HEAD n)
  let base := d.wget (wkey mbxDma n)
  let d := d.emit (.hostWrite (ringPf d n) (BitVec.ofNat 64 (base + 16 * head + off)) back)
  let d := d.put (DMA_RING_HEAD.HEAD n) ((head + 1) % ringEntries d n)
  if d.flag (DMA_RING_CTL.IRQ_EN n) then d.signal (ringPf d n) n else d

/-- PUNT_DELIVER (R83, R388): the oldest frame of punt ring n goes to the buffer of the descriptor at HEAD: data, then
the descriptor, then the message; a descriptor of length 0 or with nonzero reserved bytes is skipped with DONE. The length
written back is that of the bytes delivered (DESIGN CHOICE, log entry 138). -/
def execPuntDeliver (n : Fin 64) (desc : BitVec 128) (s : State) : Outc := s.withDev fun d =>
  let desc := descOf desc
  match ringReady d n, puntsOf d n with
  | true, p :: _ =>
    let d := fetchDesc d n
    if desc.bad then
      (consume d n (leBytes 1 (desc.puntMark false)) 13).ringEvent n (DMA_RING_STATUS.DESC_ERR n)
    else
      let len := min p.bytes.length desc.len
      let d := ({ d with punts := d.punts.erase p }).pmuEvent 0 0x05 1
      let d := d.emit (.hostWrite (ringPf d n) desc.addr (p.bytes.take len))
      let d := consume d n (leBytes 2 len ++ leBytes 2 p.copy.pkt.inPort ++ leBytes 1 p.code
        ++ leBytes 1 (desc.puntMark (decide (len < p.bytes.length)))) 8
      dropFrame (bpmFree d 2 p.buf).2 p.copy.pkt.fid
  | _, _ => d

/-- INJECT_FRAME (R84, R149, R389): the descriptor at HEAD of inject ring n and its frame, with a staging buffer. With
PIPELINE the frame enters the named port's slice as if it had arrived there; else its copy goes to the named queue,
stamped with the active bank. Without a buffer HEAD stays. A port above 1,023 counts modulo 1,024 and a queue above 7 modulo
8 (DESIGN CHOICE, log entry 139). -/
def execInjectFrame (n : Fin 64) (desc : BitVec 128) (bytes : List Byte) (dt : Nat) (s : State) : Outc := s.withDev fun d =>
  let desc := descOf desc
  let r := 64 + n.val
  if !ringReady d r then d else
  let d := fetchDesc d r
  if desc.bad then
    (consume d r (leBytes 1 desc.injectMark) 13).ringEvent r (DMA_RING_STATUS.DESC_ERR r)
  else
    let (got, d) := bpmAlloc d 3 desc.len
    if got.result ≠ 0 then d else
      let d := d.emit (.hostRead (ringPf d r) desc.addr desc.len)
      let p := desc.port % 1024
      let now := s.grid.nowQ dt
      let (fid, d) := (d.pmuEvent 0 0x06 1).newFrame { inPort := p, bytes := bytesAt bytes 0 desc.len, complete := true, rxTs := now }
      let pk : Pkt := { fid := fid, inPort := p }
      let d := if desc.pipeline then d.slice (p / 32) fun x => { x with staging := x.staging ++ [pk] }
        else
          let pk := { pk with stamped := true, bankB := s.banks.activeB, epoch := epochAt s.grid (p / 32), entered := now }
          pushAdmit d (p / 32) (plainCopy pk p (desc.queue % 8))
      let d := (bpmFree d 3 got.ptr).2
      consume d r (leBytes 1 desc.injectMark) 13

end Sys2Proof.Machine
end

