-- ==== Sys2Proof/Machine/Time.lean ====
section
/-!
DEFINITION. The Graticule and the PTP clock (chapter 02) but for the ticks' own work: the state and the phase error,
steps and offsets, GSYNC words, PPS, LATE_LIMIT and JUMP_REQ.
-/
namespace Sys2Proof.Machine

/-! ### Phase error and state (R36, R39, R45, R46, R68) -/

/-- Fine units of a nanosecond. -/
def fineNs : Int := 4 * fineQ

/-- The phase error of a Graticule in fine units: PTP time at the last tick less EPOCH * 1,024 ns. -/
def Grid.err (g : Grid) : Int := g.base - (g.epoch.toNat : Int) * 1024 * fineNs

/-- A frame of PTP time in fine units. -/
def fineFrame : Int := 1048576 * fineNs

/-- R39: TRIM_MAX in ns, 0 where trimming is disabled; values above 8 act as 8. -/
def trimMax (d : Dev) : Nat := if d.flag GRT_EPOCH_CTL.TRIM_EN then min 8 (d.get GRT_EPOCH_CTL.TRIM_MAX) else 0

/-- R68: the state that a phase error and the settings give. -/
def grtState (d : Dev) (hold : Bool) (err : Int) : GrtState :=
  if !d.flag GRT_EPOCH_CTL.TRACK_EN then .free
  else if hold then .holdover
  else if err.natAbs ≤ (4 * fineNs).natAbs then .aligned
  else if err > fineFrame then .ahead
  else if err < -fineFrame then .behind
  else if trimMax d = 0 then .openS
  else .trimming

/-- PHASE_ERR and GRT_STATE are computed at a tick, and where a step or a leader's time is applied, at PTP time `now` in
fine units (R68); PHASE_ERR drops the fraction of a nanosecond toward minus infinity (DESIGN CHOICE, log entry 132). Entering
AHEAD or BEHIND is an event. A jump is due from the moment at which the state is AHEAD and either AUTO_JUMP is set or a
JUMP_REQ was written, for as long as both hold (R41). -/
def judge (now : Int) (g : Grid) (d : Dev) : Grid × Dev :=
  let st := grtState d (decide (g.state = .holdover)) g.err
  let d := if st = .ahead ∧ g.state ≠ .ahead then d.event GRT_STATUS.AHEAD
    else if st = .behind ∧ g.state ≠ .behind then d.event GRT_STATUS.BEHIND
    else d
  let wanted := st = .ahead ∧ (d.flag GRT_EPOCH_CTL.AUTO_JUMP ∨ g.jumpAsked)
  ({ g with phaseErr := g.err / fineNs, state := st
            jumpAsked := g.jumpAsked && decide (st = .ahead)
            jumpFrom := if wanted then some (g.jumpFrom.getD now) else none }, d)

/-- GRT_EPOCH_CTL is written, `dt` after the last tick: state and jump are judged by the new settings in the cycle of the
write (DESIGN CHOICE, log entry 133). -/
def epochCtlWrite (a dt : Nat) (v : Word) (g : Grid) (d : Dev) : Grid × Dev := judge (g.base + dt * fineQ) g (d.setWord a v)

/-- JUMP_REQ (R41): acted on in state AHEAD only; the jump tick is then due. -/
def jumpReq (dt : Nat) (g : Grid) (d : Dev) : Grid × Dev :=
  if g.state = .ahead then judge (g.base + dt * fineQ) { g with jumpAsked := true } d else (g, d)

/-- JUMP_REQ (R41). -/
def execJumpReq (dt : Nat) (s : State) : Outc := s.withAll fun g b d =>
  let r := jumpReq dt g d
  (r.1, b, r.2)

/-! ### The PTP clock (R70-R72) -/

/-- The layout of TIME's mailbox index 0x0 (R71): a PTP time in quarter ns as nanoseconds, seconds, quarters. -/
def timeLayout (q : Nat) : Nat :=
  let ns := q / 4
  ns % 1000000000 + ns / 1000000000 % 2 ^ 48 * 2 ^ 32 + q % 4 * 2 ^ 96

/-- A value in that layout as a PTP time in quarter ns. -/
def ofTimeLayout (v : Nat) : Nat := (bits v 79 32 * 1000000000 + bits v 29 0) * 4 + bits v 97 96

/-- R65: the adjustment registers are locked while the chip is a follower. -/
def follower (d : Dev) : Bool := decide (d.get GRT_GSYNC_CTL.ROLE = 2)

/-- PTP time becomes `t` fine units, `dt` after the last tick: the calendars of R466 take the time of the step, and due
ticks move with the clock (log entry 20). -/
def setClock (t : Int) (dt : Nat) (g : Grid) (d : Dev) : Grid × Dev :=
  let base := t - dt * fineQ
  let moved := (base - g.base) / (fineNs / 64)
  let d := { d with
    ports := d.ports.map fun e => (e.1, { e.2 with v := (t / (fineNs / 64)).toNat })
    queues := d.queues.map fun e => (e.1, { e.2 with
      pkts := e.2.pkts.map fun c => if c.q = 7 then { c with due := ((c.due : Int) + moved).toNat } else c }) }
  judge t { g with base := base, frameBase := g.frameBase + (base - g.base) } d

/-- TIME_STEP's effect (R71, R72): a write of mailbox index 0x2. -/
def timeStep (v : BitVec 128) (dt : Nat) (g : Grid) (d : Dev) : Grid × Dev :=
  let d := (d.event TIME_STATUS.STEPPED).bump TIME_CNT_STEPS
  setClock (ofTimeLayout v.toNat * fineQ) dt { g with stepWritten := v } d

/-- TIME_OFFSET's effect (R71, R72): a write of mailbox index 0x3; PTP time never goes below 0. -/
def timeOffset (v : BitVec 64) (dt : Nat) (g : Grid) (d : Dev) : Grid × Dev :=
  let d := (d.event TIME_STATUS.STEPPED).bump TIME_CNT_OFFSETS
  setClock (max 0 (g.base + dt * fineQ + v.toInt * fineNs)) dt { g with offsetWritten := v } d

/-- A refused mailbox write of TIME: a bus error of kind LOCKED, and the mailbox reports ERR = 2 (R72). -/
def timeLocked (d : Dev) (src : Src) : Dev :=
  let ctl : Fld := ⟨mbxTime + 0x14, 15, 12⟩
  busError ((d.put ctl 2).put ⟨ctl.addr, 0, 0⟩ 0) src beLocked 0 ctl.addr true

/-- TIME_STEP (R72): a follower's clock takes none (R65). -/
def execTimeStep (src : Src) (v : BitVec 128) (dt : Nat) (s : State) : Outc := s.withAll fun g b d =>
  if follower d then (g, b, timeLocked d src) else
    let r := timeStep v dt g d
    (r.1, b, r.2)

/-- TIME_OFFSET (R71). -/
def execTimeOffset (src : Src) (v : BitVec 64) (dt : Nat) (s : State) : Outc := s.withAll fun g b d =>
  if follower d then (g, b, timeLocked d src) else
    let r := timeOffset v dt g d
    (r.1, b, r.2)

/-- PPS_IN_EDGE (R70): each rising edge of PPS_IN is timestamped where enabled. -/
def execPpsInEdge (dt : Nat) (s : State) : Outc := s.withAll fun g b d =>
  if d.flag TIME_CTL.PPS_IN_EN then
    ({ g with ppsIn := BitVec.ofNat 128 (timeLayout (g.nowQ dt)) }, b,
      (d.event TIME_STATUS.PPS_IN).bump TIME_CNT_PPS_IN)
  else (g, b, d)

/-- PPS_IN_LOST (R70): no edge for 2 s while enabled. -/
def execPpsInLost (s : State) : Outc := s.withDev fun d =>
  if d.flag TIME_CTL.PPS_IN_EN then d.event TIME_STATUS.PPS_IN_LOST else d

/-- The device drives PPS_OUT to a level. -/
def setPpsOut (d : Dev) (level : Bool) : Dev :=
  if d.pins.ppsOut = level then d
  else { d with pins := { d.pins with ppsOut := level } }.emit (.pin "PPS_OUT" level)

/-- PPS_OUT_PULSE (R650): PPS_OUT rises at a whole second of PTP time and falls 1 ms later, where enabled; PPS_OUT_EN = 0
holds it low (R70). -/
def execPpsOutPulse (_dt : Nat) (rise : Bool) (s : State) : Outc := s.withDev fun d =>
  setPpsOut d (rise && d.flag TIME_CTL.PPS_OUT_EN)

/-- TIME_FREQ in force, in units of 2^-10 ppb (R70). -/
def freqAdj (d : Dev) : Int := max (-204800000) (min 204800000 (d.word TIME_FREQ.word.addr).toInt)

/-- TIME_FREQ changes `dt` after the last tick: the epoch so far ran at the old rate (R72); its core-reference time is kept to
a fine unit, rounded down (DESIGN CHOICE, log entry 134). -/
def freqMark (dt : Nat) (g : Grid) (d : Dev) : Grid :=
  let ptp : Int := dt * fineQ
  { g with freqAt := ptp, coreAt := g.coreAt + (ptp - g.freqAt) * fineNs / (fineNs + freqAdj d) }

/-! ### GSYNC (R59-R67) -/

/-- R60: the CRC of a word's bits [111:0], taken from bit 111 down (log entry 21). -/
def gsyncCrc (w : Nat) : Nat := (crc16 0x1021 0xFFFF 112 (w % 2 ^ 112)).toNat

/-- A word of the fields below its CRC, with the CRC. -/
def gsyncWord (body : Nat) : BitVec 128 := BitVec.ofNat 128 (body % 2 ^ 112 + gsyncCrc body * 2 ^ 112)

/-- R599: the chip's own bit of PACE_MAP, set while its own depth is above 0. -/
def ownPace (d : Dev) : Nat :=
  if d.get PWR_STATE.PACE_OUT = 0 then 0 else 2 ^ d.get GRT_GSYNC_CTL.CHIP_ID

/-- The word a leader sends for a frame tick (R60); `last` is the PACE_MAP that came back, if one did. -/
def leaderWord (g : Grid) (d : Dev) (last : Option Nat) : BitVec 128 :=
  gsyncWord (g.epoch.toNat + d.get GRT_GSYNC_CTL.CHIP_ID * 2 ^ 64 + ownPace d * 2 ^ 72
    + (match last with
      | some m => m
      | none => ownPace d) * 2 ^ 88)

/-- The word a follower sends on: HOP one more, its own bit in PACE_MAP. -/
def forwardWord (d : Dev) (w : Nat) : BitVec 128 :=
  gsyncWord (w % 2 ^ 68 + (bits w 71 68 + 1) % 16 * 2 ^ 68 + (bits w 87 72 ||| ownPace d) * 2 ^ 72
    + bits w 103 88 * 2 ^ 88)

/-- A valid word at a follower (R61, R64, R66): TIME takes the leader's time, by the marker's edge, which lies
6,656 ns before the word's end, less 40 ns for each hop of the previous word and the trace delay; the word goes on. In
holdover two valid words in a row are needed; a frame without a word between them does not start the count anew (DESIGN
CHOICE, log entry 135). `now` is PTP time in fine units at the word's end. -/
def followWord (dt : Nat) (w : Nat) (g : Grid) (d : Dev) : Grid × Dev :=
  let hop := d.get GRT_GSYNC_STATUS.HOP
  let lead := (bits w 63 0 : Int) * 1024 * fineNs + 6656 * fineNs + (40 * hop : Nat) * fineNs
    + d.get GRT_GSYNC_TRACE.TRACE * (fineNs / 16)
  let d := d.emit (.gsync (forwardWord d w))
  let g := { g with good := g.good + 1, missed := 0, gsyncWord := BitVec.ofNat 128 w }
  if g.state = .holdover ∧ g.good < 2 then (g, d) else
    let d := d.put GRT_GSYNC_STATUS.LOCKED 1
    let g := if g.state = .holdover then { g with state := .trimming } else g
    let base := lead - dt * fineQ
    judge lead { g with base := base, frameBase := g.frameBase + (base - g.base) } d

/-- A leader measures the round trip of its marker (R67), which returned 6,656 ns before the word's end. -/
def markerBack (dt : Nat) (g : Grid) (d : Dev) : Grid × Dev :=
  ({ g with missed := 0 }, d.put GRT_GSYNC_RTT.RTT ((g.base + dt * fineQ - g.frameBase) / fineNs - 6656).toNat)

/-- GSYNC_WORD_RX's effect: a leader measures the ring's round trip by the marker (R67); a word with a bad CRC is ignored
(R68); a follower follows a valid one. -/
def gsyncRx (w dt : Nat) (g : Grid) (d : Dev) : Grid × Dev :=
  let role := d.get GRT_GSYNC_CTL.ROLE
  if role = 0 ∨ role = 3 then (g, d)
  else
  let (g, d) := if role = 1 then markerBack dt g d else (g, d)
  if gsyncCrc w ≠ bits w 127 112 then ({ g with good := 0 }, d.event GRT_GSYNC_STATUS.CRC_ERR)
  else
    let r := if role = 2 then followWord dt w g d else ({ g with gsyncWord := BitVec.ofNat 128 w, wordBack := true }, d)
    let orig := if role = 2 then (if bits w 103 88 = 0 then bits w 87 72 ||| ownPace d else bits w 103 88)
      else bits w 87 72
    (r.1, ((r.2.put GRT_GSYNC_STATUS.LEADER_ID (bits w 67 64)).put GRT_GSYNC_STATUS.HOP (bits w 71 68)).put
      PWR_PACE_STAT.ORIG orig)

/-- GSYNC_WORD_RX (R61). -/
def execGsyncWordRx (word : BitVec 128) (dt : Nat) (s : State) : Outc := s.withAll fun g b d =>
  let r := gsyncRx word.toNat dt g d
  (r.1, b, r.2)

/-- GSYNC_HOLDOVER (R66): a follower that missed four frames' words enters HOLDOVER; the first of the frame ticks counted
ends a frame that had one. In free run (TRACK_EN = 0) neither the state nor its report comes (DESIGN CHOICE, log entry
136). -/
def execGsyncHoldover (s : State) : Outc := s.withAll fun g b d =>
  if follower d ∧ 5 ≤ g.missed ∧ g.state ≠ .holdover ∧ d.flag GRT_EPOCH_CTL.TRACK_EN then
    let d := ((d.put GRT_GSYNC_STATUS.LOCKED 0).event GRT_GSYNC_STATUS.LOST).event GRT_STATUS.GSYNC_LOST
    ({ g with state := .holdover, good := 0, jumpAsked := false, jumpFrom := none }, b, d.report 0x023 0)
  else (g, b, d)

/-! ### Late work (R58) -/

/-- LATE_LIMIT (R58): the run of late ticks of class c has reached its limit; raised once a run. -/
def execLateLimit (c : Fin 3) (s : State) : Outc := s.withDev fun d =>
  let lim := d.get (GRT_LATE_CFG.LATE_LIMIT c)
  if lim ≠ 0 ∧ lim ≤ d.get (GRT_LATE_RUN.LATE_NOW c) ∧ d.lateRaised.contains c.val = false then
    let d := { d with lateRaised := c.val :: d.lateRaised }
    (d.event GRT_STATUS.LATE_LIMIT).report (0x020 + c) 0
  else d

end Sys2Proof.Machine
end

