-- ==== Sys2Proof/Machine/Gaz.lean ====
section
/-!
DEFINITION. The Gazetteer's changes (chapter 09, R298-R300, R308-R341): the plan of what the replicas will hold, placement
and moves, commands, batches and their application at a tick, learning, aging, migration, bad buckets.
-/
namespace Sys2Proof.Machine

/-! ### The plan (R308, R309) -/

/-- Engine e's Gazetteer work. -/
def Dev.ge (d : Dev) (e : Nat) : GzEng := d.gaz.eng.get {} e

/-- Change engine e's Gazetteer work. -/
def Dev.setGe (d : Dev) (e : Nat) (f : GzEng → GzEng) : Dev :=
  { d with gaz := { d.gaz with eng := d.gaz.eng.put {} e (f (d.ge e)) } }

/-- What the replicas will hold once every queued and armed write is applied: slots by bucket * 4 + slot, overflow
entries by index. -/
structure GzPlan where
  slots : SMap (BitVec 128)
  ovf : SMap (BitVec 512)
  deriving DecidableEq, Repr

/-- A write on a plan. -/
def GzPlan.write (p : GzPlan) : GzWr → GzPlan
  | .ent false loc v _ _ => { p with slots := p.slots.put 0 loc (v.truncate 128) }
  | .ent true loc v _ _ => { p with ovf := p.ovf.put 0 loc v }
  | _ => p

/-- Writes on a plan. -/
def GzPlan.writes (p : GzPlan) (l : List GzWr) : GzPlan := l.foldl GzPlan.write p

/-- What the replicas hold now: half 0's copy, and half 1's of what is bad in half 0. -/
def gzNow (d : Dev) : GzPlan :=
  let bad0 (k : Nat) := d.gaz.badBuckets.contains (0, k / 4)
  let badO (i : Nat) := d.gaz.badOvf.contains (0, i)
  { slots := d.gaz.slots.filterMap fun e =>
      let k := e.1 % 2 ^ 22
      if (e.1 / 2 ^ 22 = 0 ∧ !bad0 k) ∨ (e.1 / 2 ^ 22 = 1 ∧ bad0 k) then some (k, e.2) else none
    ovf := d.gaz.ovf.filterMap fun e =>
      let i := e.1 % 2 ^ 14
      if (e.1 / 2 ^ 14 = 0 ∧ !badO i) ∨ (e.1 / 2 ^ 14 = 1 ∧ badO i) then some (i, e.2) else none }

/-- The writes an engine still owes, oldest first. -/
def owed (x : GzEng) : List GzWr := x.batches.flatMap (·.2) ++ x.steps.flatMap (·.writes)

/-- The plan. -/
def gzPlan (d : Dev) : GzPlan := ((gzNow d).writes (owed (d.ge 0))).writes (owed (d.ge 1))

/-- A slot of a plan. -/
def GzPlan.slot (p : GzPlan) (b s : Nat) : Nat := (p.slots.get 0 (b * 4 + s)).toNat

/-- The value of w slots of a plan (R301). -/
def GzPlan.entry (p : GzPlan) (b s w : Nat) : Nat := (List.range w).foldl (fun a k => a * 2 ^ 128 + p.slot b (s + k)) 0

/-- A place: overflow or bucket, index, slot. -/
abbrev GzLoc := Bool × Nat × Nat

/-- Queue writes as steps of engine e, the second and later ones each in a batch after the one before; answers the last
step's number. -/
def gzQueue (d : Dev) (e : Nat) (bs : List (List GzWr)) : Nat × Dev :=
  let steps := bs.zipIdx.map fun x => ({ writes := x.1, later := decide (0 < x.2) } : GzStep)
  let d := d.setGe e fun x => { x with steps := x.steps ++ steps, queued := x.queued + bs.length }
  ((d.ge e).queued, d)

/-- The owner engine of a table. -/
def ownerOf (d : Dev) (t : Nat) : Nat := d.get (GZ_TBL_CFG.OWNER 0 t)

/-- A location field [23:0]: OVF, SLOT, INDEX. -/
def locBits (l : GzLoc) : Nat := (if l.1 then 2 ^ 23 else 0) + l.2.2 * 2 ^ 20 + l.2.1 % 2 ^ 20

/-- A location field where an outcome or an event may have none: it is then a free value. -/
def locField (d : Dev) (l : Option GzLoc) : Nat × Dev := match l with
  | some l => (locBits l, d)
  | none => let (r, d) := d.fresh; (r.toNat % 2 ^ 20 + r.toNat / 2 ^ 20 % 4 * 2 ^ 20 + r.toNat / 2 ^ 22 % 2 * 2 ^ 23, d)

/-- GZ_EVENT names the newest event of half h: its table, its bit in GZ_STATUS, its location (R340), which is a free value where
the event has none (DESIGN CHOICE, log entry 155). -/
def gzNote (d : Dev) (h t kind : Nat) (l : Option GzLoc) : Dev :=
  let (loc, d) := locField d l
  d.setWord (GZ_EVENT.word h).addr (BitVec.ofNat 32 (t * 2 ^ 28 + kind * 2 ^ 24 + loc))

/-- R299, R300, R322: a refused write sets CFG_REJECT. -/
def gzReject (d : Dev) (h t : Nat) : Dev := (gzNote d h t 8 none).event (GZ_STATUS.CFG_REJECT h)

/-! ### Entries -/

/-- The writes of an entry of w slots at a place. -/
def entryWrites (w : Nat) (l : GzLoc) (e : Nat) (side : GzMeta) : List GzWr :=
  if l.1 then [.ent true l.2.1 (BitVec.ofNat 512 e) w side]
  else (List.range w).map fun k =>
    .ent false (l.2.1 * 4 + l.2.2 + k) (BitVec.ofNat 512 (bits e ((w - k) * 128 - 1) ((w - k - 1) * 128))) 1
      (if k = 0 then side else .keep)

/-- The writes that free an entry's place. -/
def freeWrites (w : Nat) (l : GzLoc) : List GzWr := entryWrites w l 0 .fresh

/-- The map location of a place. -/
def locOf (l : GzLoc) : Nat := if l.1 then l.2.1 else l.2.1 * 4 + l.2.2

/-- A place's position in NEXT's order (R317). -/
def posOf (l : GzLoc) : Nat := (if l.1 then 2 ^ 24 else 0) + l.2.1 * 4 + l.2.2

/-- Insert an entry by its position. -/
def insertLoc (x : GzLoc × Nat) (l : List (GzLoc × Nat)) : List (GzLoc × Nat) := match l with
  | [] => [x]
  | y :: r => if posOf x.1 ≤ posOf y.1 then x :: y :: r else y :: insertLoc x r

/-- Entries by position. -/
def sortLocs (l : List (GzLoc × Nat)) : List (GzLoc × Nat) := l.foldr insertLoc []

/-- Whether a value is an entry of a table (R305). -/
def isEntry (t : GzTbl) (table e : Nat) : Bool :=
  let x := gzHeader t.width e
  hdrValid x && decide (hdrTable x = table) && decide (hdrWidth x = t.width)

/-- Every entry of a table that a plan holds: its place and value, in NEXT's order. -/
def GzPlan.entries (p : GzPlan) (t : GzTbl) (table : Nat) : List (GzLoc × Nat) :=
  let a := p.slots.filterMap fun x =>
    let b := x.1 / 4
    let s := x.1 % 4
    if s % t.width = 0 then
      let e := p.entry b s t.width
      if isEntry t table e then some ((false, b, s), e) else none
    else none
  let o := p.ovf.filterMap fun x => if isEntry t table x.2.toNat then some ((true, x.1, 0), x.2.toNat) else none
  sortLocs (a ++ o)

/-- The distinct keys of a list of entries. -/
def distinctKeys (t : GzTbl) (l : List (GzLoc × Nat)) : List Nat :=
  l.foldl (fun a x => let k := gzKey t.width t.kw x.2; if a.contains k then a else k :: a) []

/-- ENTRIES of a half's GZ_TBL_STATE (R340): entries of the table, a moved entry's two copies counting once. -/
def gzCount (d : Dev) (h table : Nat) : Nat :=
  let t := gzTbl d h table
  let p : GzPlan := { slots := d.gaz.slots.filterMap fun e => if e.1 / 2 ^ 22 = h then some (e.1 % 2 ^ 22, e.2) else none
                      ovf := d.gaz.ovf.filterMap fun e => if e.1 / 2 ^ 14 = h then some (e.1 % 2 ^ 14, e.2) else none }
  (distinctKeys t (p.entries t table)).length

/-- Every copy of a key's entry in a plan. -/
def GzPlan.find (p : GzPlan) (t : GzTbl) (table key : Nat) : List (GzLoc × Nat) :=
  (p.entries t table).filter fun x => decide (gzKey t.width t.kw x.2 = key)

/-! ### Placement and relocation (R318, R319) -/

/-- A partition and its seed. -/
structure GzPart where
  seed : Word
  base : Nat
  rows : Nat
  deriving DecidableEq, Repr

/-- The partition a table stands in. -/
def partOf (t : GzTbl) : GzPart := ⟨t.seed, t.base, t.rows⟩

/-- Candidate bucket c of a key in a partition. -/
def GzPart.bucket (q : GzPart) (kw key c : Nat) : Nat := gzBucket q.seed q.base q.rows kw key c

/-- The aligned free runs of a bucket. -/
def GzPlan.freeRuns (p : GzPlan) (w b : Nat) : List Nat :=
  ((List.range (4 / w)).map (· * w)).filter fun s => !bit (p.slot b s) 127

/-- The bucket that the entry at a place may move to. -/
def otherBucket (p : GzPlan) (t : GzTbl) (q : GzPart) (n : Nat × Nat) : Option Nat :=
  let key := gzKey t.width t.kw (p.entry n.1 n.2 t.width)
  let o := if q.bucket t.kw key 0 = n.1 then q.bucket t.kw key 1 else q.bucket t.kw key 0
  if o = n.1 then none else some o

/-- R318 step 2: the first move path, breadth-first: `level` holds the paths of one length, each newest place first;
answers the path and the free run its last entry moves into. -/
def movePath (p : GzPlan) (t : GzTbl) (q : GzPart) (fuel : Nat) (level : List (List (Nat × Nat)))
    (seen : List (Nat × Nat)) : Option (List (Nat × Nat) × Nat × Nat) :=
  match fuel with
  | 0 => none
  | fuel + 1 =>
    match level.findSome? fun path => (path.head?.bind (otherBucket p t q)).bind fun o =>
        ((p.freeRuns t.width o).head?).map fun s => (path, o, s) with
    | some r => some r
    | none =>
      let r := level.foldl (fun (r : List (List (Nat × Nat)) × List (Nat × Nat)) path =>
        match path.head?.bind (otherBucket p t q) with
        | none => r
        | some o =>
          ((List.range (4 / t.width)).map (· * t.width)).foldl (fun r s =>
            if r.2.contains (o, s) then r else (r.1 ++ [(o, s) :: path], (o, s) :: r.2)) r) ([], seen)
      movePath p t q fuel r.1 r.2

/-- Where an entry is placed: the batches it takes, its place, the moves. -/
structure GzPlaced where
  batches : List (List GzWr)
  loc : GzLoc
  moves : Nat
  deriving DecidableEq, Repr

/-- The table an entry names. -/
def tableOf (w e : Nat) : Nat := hdrTable (gzHeader w e)

/-- The batches of a move path (newest place first), freeing its first place for the entry; each move counts with its batch (R319). -/
def moveBatches (p : GzPlan) (w : Nat) (path : List (Nat × Nat)) (free : Nat × Nat) (e : Nat) (side : GzMeta) :
    List (List GzWr) :=
  match path with
  | [] => [entryWrites w (false, free.1, free.2) e side]
  | n :: rest =>
    (entryWrites w (false, free.1, free.2) (p.entry n.1 n.2 w) (.from false (n.1 * 4 + n.2)) ++ [.moved (tableOf w e)])
      :: moveBatches p w rest n e side

/-- R318: place an entry; none is FULL. -/
def gzPlace (p : GzPlan) (t : GzTbl) (kicks : Nat) (q : GzPart) (e : Nat) (side : GzMeta) : Option GzPlaced :=
  let w := t.width
  let key := gzKey w t.kw e
  let b0 := q.bucket t.kw key 0
  let b1 := q.bucket t.kw key 1
  let f0 := p.freeRuns w b0
  let f1 := p.freeRuns w b1
  let (b, f) := if f0.length < f1.length then (b1, f1) else (b0, f0)
  match f with
  | s :: _ => some ⟨[entryWrites w (false, b, s) e side], (false, b, s), 0⟩
  | [] =>
    let starts := (if b0 = b1 then [b0] else [min b0 b1, max b0 b1]).flatMap fun b =>
      (List.range (4 / w)).map fun i => (b, i * w)
    match movePath p t q kicks (starts.map ([·])) starts with
    | some (path, o, s) =>
      let first := path.getLastD (b0, 0)
      some ⟨moveBatches p w path (o, s) e side, (false, first.1, first.2), path.length⟩
    | none =>
      if t.ovfEn then
        ((List.range t.ovfCount).find? fun i => inOvfRange t (t.ovfBase + i)
            && !bit (p.ovf.get 0 (t.ovfBase + i)).toNat (128 * w - 1)).map fun i =>
          ⟨[entryWrites w (true, t.ovfBase + i, 0) e side], (true, t.ovfBase + i, 0), 0⟩
      else none

/-- A place in overflow counts (R340). -/
def countPlaced (d : Dev) (t : Nat) (x : GzPlaced) : Dev := if x.loc.1 then d.bump (GZ_CNT_OVF_PLACED (ownerOf d t)) else d

/-- A move of a table counts as its batch takes effect: in the table's relocation count and its owner's counter (R317, R319). -/
def countMoved (d : Dev) (t : Nat) : Dev :=
  let k := wkey (mbxGz 0) (4 * 2 ^ 28 + t)
  (d.bump (GZ_CNT_RELOCATIONS (ownerOf d t))).wput k ((d.wget k + 1) % 2 ^ 64)

/-- R321: a table that found no place asks for a rehash. -/
def rehashReq (d : Dev) (t : Nat) : Dev :=
  let o := ownerOf d t
  (gzNote d o t 1 none).event (GZ_STATUS.REHASH_REQ o)

/-- R335: a removal of a key closes its window without writing. -/
def closeWindow (d : Dev) (t key : Nat) : Dev :=
  { d with gaz := { d.gaz with windows := d.gaz.windows.filter fun w => !(decide (w.table = t) && decide (w.key.toNat = key)) } }

/-- Entries in order, at most 256 to a part: what one batch can erase (R308). -/
def parts (l : List (GzLoc × Nat)) : List (List (GzLoc × Nat)) :=
  (List.range ((l.length + 255) / 256)).map fun i => (l.drop (256 * i)).take 256

/-- Delete entries: steps of at most 256 of them, their windows closed. Answers the number of the last step. -/
def gzDelete (d : Dev) (t : Nat) (w : Nat) (kw : Nat) (l : List (GzLoc × Nat)) : Nat × Dev :=
  let d := l.foldl (fun d x => closeWindow d t (gzKey w kw x.2)) d
  let e := ownerOf d t
  (parts l).foldl (fun r c => gzQueue r.2 e [c.flatMap fun x => freeWrites w x.1]) ((d.ge e).queued, d)

/-! ### Aging (R336-R338) -/

/-- A place's hit bit in a half. -/
def hitAt (d : Dev) (h : Nat) (l : GzLoc) : Bool := d.gaz.hits.get false (locKey h l.1 (locOf l))

/-- Clear a place's hit bits in both halves. -/
def clearHits (d : Dev) (l : GzLoc) : Dev :=
  { d with gaz := { d.gaz with
    hits := (d.gaz.hits.put false (locKey 0 l.1 (locOf l)) false).put false (locKey 1 l.1 (locOf l)) false } }

/-- A place's age. -/
def ageAt (d : Dev) (l : GzLoc) : Nat := d.gaz.ages.get 0 (locKey 0 l.1 (locOf l))

/-- Set a place's age. -/
def setAge (d : Dev) (l : GzLoc) (a : Nat) : Dev :=
  { d with gaz := { d.gaz with ages := d.gaz.ages.put 0 (locKey 0 l.1 (locOf l)) a } }

/-- R324, R336: one age step on a table; answers the entries deleted and the number of the last step. It visits every entry that is
in the replicas, is not static, and is not to be deleted or made static by a change under way; every copy of it counts, those that a
move or a migration has yet to write included. -/
def gzAge (d : Dev) (table : Nat) : Nat × Nat × Dev :=
  let t := gzTbl d 0 table
  let now := (gzNow d).entries t table
  let plan := (gzPlan d).entries t table
  let key (x : GzLoc × Nat) := gzKey t.width t.kw x.2
  let static (x : GzLoc × Nat) : Bool := hdrStatic (gzHeader t.width x.2)
  let all := plan.filter fun x => !static x && now.any fun y => decide (key y = key x) && !static y
  let copies (x : GzLoc × Nat) : List GzLoc := ((now ++ plan).filter fun y => decide (key y = key x)).map (·.1)
  let hit (x : GzLoc × Nat) : Bool := (copies x).any fun l => hitAt d 0 l || hitAt d 1 l
  let age (x : GzLoc × Nat) : Nat := match now.find? fun y => decide (key y = key x) with
    | some y => ageAt d y.1
    | none => 0
  let limit := max 1 (d.get (GZ_TBL_AGE.AGE_LIMIT 0 table))
  let live := all.filter hit
  let idle := all.filter fun x => !hit x
  let old := idle.filter fun x => decide (limit ≤ age x + 1)
  let aged := idle.map fun x => (copies x, age x + 1)
  let d := live.foldl (fun d x => (copies x).foldl (fun d l => setAge (clearHits d l) l 0) d) d
  let d := aged.foldl (fun d x => x.1.foldl (fun d l => setAge d l x.2) d) d
  let n := (distinctKeys t old).length
  let (k, d) := gzDelete d table t.width t.kw old
  (n, k, d.addTo (GZ_CNT_AGED (ownerOf d table)) n)

/-! ### Commands (R313-R317) -/

/-- Fields of a GZ_CMD word. -/
def gcOp (w : Word) : Nat := bits w.toNat 31 28
def gcTable (w : Word) : Nat := bits w.toNat 27 24
def gcReplace (w : Word) : Bool := bit w.toNat 23
def gcStatic (w : Word) : Bool := bit w.toNat 22
def gcAll (w : Word) : Bool := bit w.toNat 21
def gcPort (w : Word) : Nat := bits w.toNat 9 0

/-- RESULT codes (R340). -/
def gzOk := 0
def gzHIT := 1
def gzMiss := 2
def gzExists := 3
def gzFull := 4
def gzEnd := 5
def gzBadTable := 6
def gzBadOp := 7
def gzRehashing := 8

/-- R314: INSERT's plan. -/
def planInsert (d : Dev) (c : GzCmd) : GzCmd × Dev :=
  let table := gcTable c.word
  let t := gzTbl d c.half table
  let e := ownerOf d table
  if d.get (GZ_TBL_STATE.STATE c.half table) = 1 then ({ c with result := gzRehashing }, d) else
    let img := c.image.toNat % 2 ^ (128 * t.width)
    let key := gzKey t.width t.kw img
    let ent := gzEntry t.width t.kw (gcStatic c.word) table (gcPort c.word) key (img % 2 ^ (32 * t.dw))
    let p := gzPlan d
    match p.find t table key with
    | x :: _ =>
      if gcReplace c.word then
        let (n, d) := gzQueue d e [entryWrites t.width x.1 ent (if gcStatic c.word then .ageless else .keep)]
        ({ c with result := gzOk, loc := some x.1, wait := some (e, n) }, d.bump (GZ_CNT_INSERTS e))
      else ({ c with result := gzExists, loc := some x.1 }, d)
    | [] =>
      match gzPlace p t (d.get (GZ_TBL_CFG.MAX_KICKS 0 table)) (partOf t) ent .fresh with
      | none => ({ c with result := gzFull }, (rehashReq d table).bump (GZ_CNT_INSERT_FULL e))
      | some x =>
        let (n, d) := gzQueue (countPlaced d table x) e x.batches
        ({ c with result := gzOk, loc := some x.loc, wait := some (e, n) }, d.bump (GZ_CNT_INSERTS e))

/-- R314: DELETE's plan: every copy of the entry. -/
def planDelete (d : Dev) (c : GzCmd) : GzCmd × Dev :=
  let table := gcTable c.word
  let t := gzTbl d c.half table
  let key := gzKey t.width t.kw (c.image.toNat % 2 ^ (128 * t.width))
  match (gzPlan d).find t table key with
  | [] => ({ c with result := gzMiss }, d)
  | x :: r =>
    let (n, d) := gzDelete d table t.width t.kw (x :: r)
    let e := ownerOf d table
    ({ c with result := gzOk, loc := some x.1, wait := some (e, n) }, d.bump (GZ_CNT_DELETES e))

/-- R314: FLUSH_BY_PORT's plan. -/
def planFlush (d : Dev) (c : GzCmd) : GzCmd × Dev :=
  let table := gcTable c.word
  let t := gzTbl d c.half table
  let l := ((gzPlan d).entries t table).filter fun x =>
    let hd := gzHeader t.width x.2
    decide (hdrPort hd = gcPort c.word) && (gcAll c.word || !hdrStatic hd)
  let n := (distinctKeys t l).length
  let (k, d) := gzDelete d table t.width t.kw l
  let e := ownerOf d table
  ({ c with result := gzOk, loc := some (false, min n (2 ^ 20 - 1), 0), wait := if l = [] then none else some (e, k) },
    d.addTo (GZ_CNT_DELETES e) n)

/-- R314: AGE's plan. -/
def planAge (d : Dev) (c : GzCmd) : GzCmd × Dev :=
  let table := gcTable c.word
  let (n, k, d) := gzAge d table
  ({ c with result := gzOk, loc := some (false, min n (2 ^ 20 - 1), 0)
            wait := if n = 0 then none else some (ownerOf d table, k) }, d)

/-- Write a result image of a port (R314, R341). -/
def resultImage (d : Dev) (p half : Nat) (e : Nat) : Dev :=
  if p < 2 then
    (List.range 4).foldl (fun d q => d.wput (wkey (mbxGz half) (4 + q)) (bits e (128 * q + 127) (128 * q))) d
  else d

/-- GZ_CMD_INFO after a SEARCH or NEXT (R317, R340); with no entry returned, AGE and the hit bits are a free value. -/
def noteInfo (d : Dev) (p half table : Nat) (l : Option GzLoc) : Dev :=
  if 2 ≤ p then d else
    let reloc := d.wget (wkey (mbxGz 0) (4 * 2 ^ 28 + table)) % 65536
    match l with
    | some l => d.setWord (GZ_CMD_INFO.word half).addr (BitVec.ofNat 32 (ageAt d l % 16 * 2 ^ 28
        + (if hitAt d 0 l then 2 ^ 27 else 0) + (if hitAt d 1 l then 2 ^ 26 else 0) + reloc))
    | none =>
      let (r, d) := d.fresh
      d.setWord (GZ_CMD_INFO.word half).addr (BitVec.ofNat 32 (r.toNat % 64 * 2 ^ 26 + reloc))

/-- SEARCH (R314, R316) on the half's replica; answers the entry too. -/
def planSearch (d : Dev) (p : Nat) (c : GzCmd) : GzCmd × Nat × Dev :=
  let table := gcTable c.word
  let t := gzTbl d c.half table
  let key := gzKey t.width t.kw (c.image.toNat % 2 ^ (128 * t.width))
  match gzFind d c.half table key none with
  | some x =>
    let l : GzLoc := (x.ovf, x.index, x.slot)
    ({ c with result := gzHIT, loc := some l }, x.e, noteInfo (resultImage d p c.half x.e) p c.half table (some l))
  | none => ({ c with result := gzMiss }, 0, noteInfo d p c.half table none)

/-- NEXT (R317): the next entry after the cursor in the half's replica. -/
def planNext (d : Dev) (p : Nat) (c : GzCmd) : GzCmd × Nat × Dev :=
  let table := gcTable c.word
  let h := c.half
  let t := gzTbl d h table
  let own : GzPlan := {
    slots := d.gaz.slots.filterMap fun e =>
      let b := e.1 % 2 ^ 22 / 4
      if e.1 / 2 ^ 22 = h ∧ 1024 * t.base ≤ b ∧ b < 1024 * (t.base + t.rows) ∧ !d.gaz.badBuckets.contains (h, b) then
        some (e.1 % 2 ^ 22, e.2) else none
    ovf := d.gaz.ovf.filterMap fun e =>
      if e.1 / 2 ^ 14 = h ∧ !d.gaz.badOvf.contains (h, e.1 % 2 ^ 14) then some (e.1 % 2 ^ 14, e.2) else none }
  -- a moved entry's old copy, which a later batch frees, is passed over
  let all := own.entries t table
  let plan := gzPlan d
  let key (x : GzLoc × Nat) := gzKey t.width t.kw x.2
  let leaving (x : GzLoc × Nat) : Bool :=
    (all.any fun y => decide (y.1 ≠ x.1) && decide (key y = key x)) && !(plan.find t table (key x)).any fun y => decide (y.1 = x.1)
  let w := c.cursor.toNat
  let from_ := if bit w 31 then 0 else posOf (bit w 23, bits w 19 0, bits w 21 20) + 1
  let d := if p < 2 then d.put (GZ_CMD_CURSOR.START h) 0 else d
  match all.find? fun x => decide (from_ ≤ posOf x.1) && !leaving x with
  | some (l, e) =>
    let d := if p < 2 then d.setWord (GZ_CMD_CURSOR.word h).addr
      (BitVec.ofNat 32 ((if l.1 then 2 ^ 23 else 0) + l.2.2 * 2 ^ 20 + l.2.1)) else d
    ({ c with result := gzHIT, loc := some l }, e, noteInfo (resultImage d p h e) p h table (some l))
  | none => ({ c with result := gzEnd }, 0, noteInfo d p h table none)

/-- Whether a command reads only (R316). -/
def readsOnly (c : GzCmd) : Bool := decide (gcOp c.word = 3) || decide (gcOp c.word = 4)

/-- A bucket of a partition of rows. -/
def inRows (base rows b : Nat) : Bool := decide (1024 * base ≤ b) && decide (b < 1024 * (base + rows)) && decide (b < 655360)

/-- The partitions a table's entries may stand in: its own, and while it migrates or is released the target's or the old one (R323). -/
def tblParts (d : Dev) (h t : Nat) : List (Nat × Nat) :=
  let x := gzTbl d h t
  let j := dataWord (d.wget (wkey (mbxGz h) (3 * 2 ^ 28 + t))) 2
  (x.base, x.rows) :: match d.get (GZ_TBL_STATE.STATE h t) with
    | 0 => []
    | 2 => [d.gaz.oldPart.get (0, 0) t]
    | _ => [(bits j 9 0, bits j 25 16)]

/-- A bucket, or an overflow index, of a table. -/
def ofTable (d : Dev) (h t : Nat) (ovf : Bool) (i : Nat) : Bool :=
  let x := gzTbl d h t
  if ovf then decide (x.ovfBase ≤ i ∧ i < x.ovfBase + x.ovfCount ∧ i < 16384)
  else (tblParts d h t).any fun p => inRows p.1 p.2 i

/-- The tables that a bucket or an overflow index belongs to: those enabled or migrating, and where there are none, those with EN = 0 whose
settings take it in. -/
def tablesAt (d : Dev) (h : Nat) (ovf : Bool) (i : Nat) : List Nat :=
  let all := (List.range 16).filter fun t => ofTable d h t ovf i
  match all.filter fun t => (gzTbl d h t).en || decide (d.get (GZ_TBL_STATE.STATE h t) ≠ 0) with
  | [] => all
  | l => l

/-- The table whose partition holds a bucket, or whose overflow range holds an index. -/
def tableAt (d : Dev) (h : Nat) (ovf : Bool) (i : Nat) : Nat := (tablesAt d h ovf i).headD 0

/-- R326, R327: places of a table that an engine's reads find with bad parity. -/
def engineMeets (d : Dev) (table : Nat) (bad : List (Fin 2 × Bool × Nat)) : Dev :=
  bad.foldl (fun d x => if ofTable d x.1 table x.2.1 x.2.2 then gzBad d x.1 table x.2.1 x.2.2 else d) d

/-- R326, R327: places of its table that a command's reads find with bad parity in its half. -/
def gzMeets (d : Dev) (c : GzCmd) (bad : List (Bool × Nat)) : Dev :=
  bad.foldl (fun d x =>
    if ofTable d c.half (gcTable c.word) x.1 x.2 then gzBad d c.half (gcTable c.word) x.1 x.2 else d) d

/-- Plan a command that changes the table, where its engine serves. -/
def gzPlanCmd (d : Dev) (c : GzCmd) (bad : List (Bool × Nat)) : GzCmd × Dev :=
  if c.planned ∨ readsOnly c ∨ !d.serves (ownerOf d (gcTable c.word)) then (c, d) else
    let d := gzMeets d c bad
    let c := { c with planned := true }
    match gcOp c.word with
    | 1 => planInsert d c
    | 2 => planDelete d c
    | 5 => planFlush d c
    | _ => planAge d c

/-- The command of a port. -/
def Dev.gcmd (d : Dev) (p : Nat) : Option GzCmd := d.gaz.cmds.get none p

/-- Set a port's command. -/
def Dev.setGcmd (d : Dev) (p : Nat) (c : Option GzCmd) : Dev := { d with gaz := { d.gaz with cmds := d.gaz.cmds.put none p c } }

/-- Plan the command of a port. -/
def planPort (d : Dev) (p : Nat) : Dev := match d.gcmd p with
  | some c => let r := gzPlanCmd d c []; r.2.setGcmd p (some r.1)
  | none => d

/-- R339: engine e plans the commands that wait for it and arrived before number n, in the order of their arrival. -/
def planBefore (d : Dev) (e n : Nat) : Dev :=
  let l := [0, 1, 2].filterMap fun p => match d.gcmd p with
    | some c => if !c.planned && !readsOnly c && decide (ownerOf d (gcTable c.word) = e) && decide (c.seq < n) then some (c.seq, p) else none
    | none => none
  (sortNat (l.map (·.1))).foldl (fun d k => (l.filter fun x => decide (x.1 = k)).foldl (fun d x => planPort d x.2) d) d

/-- A command enters its port, numbered by its arrival; its engine plans it after those that came before (R339). -/
def gzIssue (d : Dev) (p : Nat) (c : GzCmd) : Dev :=
  let n := d.gaz.arrivals
  let d := { d with gaz := { d.gaz with arrivals := n + 1 } }
  let d := d.setGcmd p (some { c with seq := n })
  if readsOnly c then d else planBefore d (ownerOf d (gcTable c.word)) (n + 1)

/-- A command that is answered at once: RESULT, and nothing else (R315, R340). -/
def gzAtOnce (d : Dev) (h t result : Nat) : Dev :=
  (gzNote (d.put (GZ_CMD_STAT.RESULT h) result) h t 0 none).event (GZ_STATUS.CMD_DONE h)

/-- GZ_CMD of half h is written with an OP (R313). -/
def gzCommand (d : Dev) (src : Src) (h op : Nat) (cmd : Word) : Dev :=
  let t := gcTable cmd
  let cmd := BitVec.ofNat 32 (op * 2 ^ 28 + cmd.toNat % 2 ^ 28)
  if srcSecure src = false ∧ bit (d.word WLD_GZ_TABLE.word.addr).toNat t then
    busError d src beWorld 0 (GZ_CMD.word h).addr true
  else if d.flag (GZ_CMD_STAT.BUSY h) then (gzNote d h t 9 none).event (GZ_STATUS.CMD_LOST h)
  else if !d.flag (GZ_TBL_CFG.EN h t) then gzAtOnce d h t gzBadTable
  else if op = 0 ∨ 6 < op then gzAtOnce d h t gzBadOp
  else
    let img := (List.range 4).foldl (fun a q => a + d.wget (wkey (mbxGz h) q) * 2 ^ (128 * q)) 0
    let c : GzCmd := { half := h, word := cmd, image := BitVec.ofNat 512 img, cursor := d.word (GZ_CMD_CURSOR.word h).addr }
    gzIssue (d.put (GZ_CMD_STAT.BUSY h) 1) h c

/-- INSERT (R318). -/
def execInsert (src : Src) (h : Fin 2) (cmd : Word) (s : State) : Outc := s.withDev fun d => gzCommand d src h 1 cmd

/-- DELETE (R314). -/
def execDelete (src : Src) (h : Fin 2) (cmd : Word) (s : State) : Outc := s.withDev fun d => gzCommand d src h 2 cmd

/-- SEARCH (R316). -/
def execSearch (src : Src) (h : Fin 2) (cmd : Word) (s : State) : Outc := s.withDev fun d => gzCommand d src h 3 cmd

/-- NEXT (R317). -/
def execNext (src : Src) (h : Fin 2) (cmd : Word) (s : State) : Outc := s.withDev fun d => gzCommand d src h 4 cmd

/-- FLUSH_BY_PORT (R314). -/
def execFlushByPort (src : Src) (h : Fin 2) (cmd : Word) (s : State) : Outc :=
  s.withDev fun d => gzCommand d src h 5 cmd

/-- AGE (R314). -/
def execAge (src : Src) (h : Fin 2) (cmd : Word) (s : State) : Outc := s.withDev fun d => gzCommand d src h 6 cmd

/-- GZ_BAD_OP (R340): a GZ_CMD whose OP is none of R314's. -/
def execGzBadOp (src : Src) (h : Fin 2) (cmd : Word) (s : State) : Outc :=
  s.withDev fun d => gzCommand d src h (if 1 ≤ gcOp cmd ∧ gcOp cmd ≤ 6 then 0 else gcOp cmd) cmd

/-- Bring a port's command as far as it can go: answers its outcome and result entry where that is fixed (R315). -/
def gzAdvance (g : Grid) (d : Dev) (p : Nat) (c : GzCmd) (bad : List (Bool × Nat)) : Option (GzCmd × Nat) × Dev :=
  if !c.planned ∧ readsOnly c then
    if d.serves (ownerOf d (gcTable c.word)) ∧ d.gaz.portTarget.get 0 p ≤ g.epoch then
      let d := gzMeets d c bad
      let (c, e, d) := if gcOp c.word = 3 then planSearch d p c else planNext d p c
      (some (c, e), d)
    else (none, d)
  else
    let d := planBefore d (ownerOf d (gcTable c.word)) c.seq
    let (c, d) := gzPlanCmd d c bad
    let d := d.setGcmd p (some c)
    if !c.planned then (none, d) else
      match c.wait with
      | none => (some (c, 0), d)
      | some (e, n) => (if n ≤ (d.ge e).armed then some (c, 0) else none, d)

/-- R315: a port's command completes once its outcome is fixed; GZ_CMD_TARGET takes the target of its last batch. -/
def gzDone (g : Grid) (d : Dev) (p : Nat) (bad : List (Bool × Nat)) : Dev :=
  match d.gcmd p with
  | none => d
  | some c =>
    match gzAdvance g d p c bad with
    | (none, d) => d
    | (some (c, e), d) =>
      let (loc, d) := locField d c.loc
      let d := match c.target with
        | some t => { d with gaz := { d.gaz with portTarget := d.gaz.portTarget.put 0 p t } }
        | none => d
      let d := d.setGcmd p none
      if p < 2 then
        let d := d.setWord (GZ_CMD_STAT.word p).addr (BitVec.ofNat 32 (c.result * 2 ^ 24 + loc))
        let d := match c.target with
          | some t => d.put (GZ_CMD_TARGET.TARGET p) (t.toNat % 2 ^ 32)
          | none => d
        let named := if gcOp c.word = 5 ∨ gcOp c.word = 6 then none else c.loc
        (gzNote d p (gcTable c.word) 0 named).event (GZ_STATUS.CMD_DONE p)
      else
        let tg : Word := match c.target with
          | some t => t.truncate 32
          | none => 0
        { d with hk := { d.hk with cur := d.hk.cur.map fun r =>
          { r with answer := some (c.result, BitVec.ofNat 32 loc, tg, BitVec.ofNat 512 e) } } }

/-- GZ_CMD_DONE (R315). -/
def execGzCmdDone (p : Fin 3) (bad : List (Bool × Nat)) (s : State) : Outc := s.withDev fun d => gzDone s.grid d p bad

/-! ### Batches (R308-R312) -/

/-- Slot writes that a write counts as. -/
def GzWr.weight : GzWr → Nat
  | .ent _ _ _ w _ => w
  | _ => 0

/-- Slot writes of a list. -/
def weights (l : List GzWr) : Nat := l.foldl (fun a x => a + x.weight) 0

/-- The steps that go into the next batch: the first, and those after it that may join, up to 1,024 slot writes. -/
def batchSteps (steps : List GzStep) : List GzStep := match steps with
  | [] => []
  | x :: r =>
    let (l, _, _) := r.foldl (fun (a : List GzStep × Nat × Bool) y =>
      if a.2.2 ∧ !y.later ∧ a.2.1 + weights y.writes ≤ 1024 then (a.1 ++ [y], a.2.1 + weights y.writes, true)
      else (a.1, a.2.1, false)) ([x], weights x.writes, true)
    l

/-- Version records a half holds (GZ_LOG.RECORDS). -/
def logHeld (d : Dev) (h : Nat) : Nat := d.gaz.log.foldl (fun a r => if r.half = h then a + r.w else a) 0

/-- Records that armed batches will take. -/
def logPromised (d : Dev) : Nat :=
  [0, 1].foldl (fun a e => a + weights ((d.ge e).batches.flatMap (·.2))) 0

/-- R311: an engine's next batch fits in the free records of half h. -/
def logFits (d : Dev) (e h : Nat) : Bool :=
  decide (weights ((batchSteps (d.ge e).steps).flatMap (·.writes)) + logPromised d + logHeld d h ≤ 65536)

/-- R311: an engine's next batch fits in the free records of both halves. -/
def batchFits (d : Dev) (e : Nat) : Bool := logFits d e 0 && logFits d e 1

/-- R311, R340: a tick at which engine e's next batch waits counts in each half whose records it waits for. -/
def batchWaits (d : Dev) (e : Nat) : Dev :=
  if (d.ge e).steps = [] then d else
    [0, 1].foldl (fun d h => if logFits d e h then d else d.bump (GZ_CNT_BATCH_WAIT h)) d

/-- GZ_BATCH_ARM's effect (R50, R308, R557): at most once per epoch. -/
def batchArm (g : Grid) (d : Dev) (e : Nat) : Dev :=
  let x := d.ge e
  if x.steps = [] ∨ !d.serves e ∨ x.lastArm = some g.epoch ∨ !batchFits d e then d else
    let take := batchSteps x.steps
    let target := g.epoch + 2
    let armed := x.armed + take.length
    let d := d.setGe e fun x => { x with
      steps := x.steps.drop take.length, armed := armed, lastArm := some g.epoch, lastTarget := target
      batches := x.batches ++ [(target, take.flatMap (·.writes))] }
    let d := { d with gaz := { d.gaz with cmds := d.gaz.cmds.map fun (c : Nat × Option GzCmd) => (c.1, c.2.map fun (c : GzCmd) =>
      match c.wait with
      | some (e', n) => if e' = e ∧ n ≤ armed ∧ c.target.isNone then { c with target := some target } else c
      | none => c) } }
    d.pmuEvent 0 0x0B 1

/-- GZ_BATCH_ARM (R311). -/
def execGzBatchArm (e : Fin 2) (s : State) : Outc := s.withDev fun d => batchArm s.grid d e

/-- A place is no longer bad in a half. -/
def gzHealed (d : Dev) (h : Nat) (ovf : Bool) (i : Nat) : Dev := { d with gaz := { d.gaz with
  badOvf := if ovf then d.gaz.badOvf.filter (· ≠ (h, i)) else d.gaz.badOvf
  badBuckets := if ovf then d.gaz.badBuckets else d.gaz.badBuckets.filter (· ≠ (h, i)) } }

/-- Apply one write in half h for a batch of a target (R306, R310). -/
def applyWrite (target : BitVec 64) (h : Nat) (d : Dev) : GzWr → Dev
  | .switch _ | .moved _ | .cursor _ _ => d
  | .heal ovf i => gzHealed d h ovf i
  | .ent ovf loc v w side =>
    let lk := locKey h ovf loc
    let prev : BitVec 512 := if ovf then d.gaz.ovf.get 0 (ovfKey h loc)
      else (d.gaz.slots.get 0 (h * 2 ^ 22 + loc)).zeroExtend 512
    let g : Gaz := d.gaz
    let g : Gaz := { g with
      log := g.log ++ [{ half := h, ovf := ovf, loc := loc, prev := prev, target := target, held := 0, w := w }] }
    let g : Gaz := if ovf then { g with ovf := g.ovf.put 0 (ovfKey h loc) v }
      else { g with slots := g.slots.put 0 (h * 2 ^ 22 + loc) (v.truncate 128) }
    let age (n : Nat) : SMap Nat := if h = 0 then g.ages.put 0 lk n else g.ages
    let g : Gaz := match side with
      | .keep => g
      | .fresh => { g with hits := g.hits.put false lk false, ages := age 0 }
      | .ageless => { g with ages := age 0 }
      | .from o l => { g with hits := g.hits.put false lk (g.hits.get false (locKey h o l))
                              ages := age (g.ages.get 0 (locKey 0 o l)) }
    let d : Dev := { d with gaz := g }
    d.pmuEvent (halfPmu h) 0x0C w

/-- The journal's and GZ_REHASH_PROG's cursor: buckets copied or erased so far (R325, R340). -/
def setCursor (d : Dev) (t n : Nat) : Dev :=
  [0, 1].foldl (fun d h =>
    let k := wkey (mbxGz h) (3 * 2 ^ 28 + t)
    let j := d.wget k
    let d := d.wput k (j % 2 ^ 96 + n % 2 ^ 20 * 2 ^ 96 + j / 2 ^ 126 * 2 ^ 126)
    d.setWord (GZ_REHASH_PROG.word h).addr (BitVec.ofNat 32 (t * 2 ^ 28 + n % 2 ^ 20))) d

/-- The journal keeps the partition a migrating table leaves (R325). -/
def noteOldPart (d : Dev) (t : Nat) : Dev :=
  let old := (d.get (GZ_TBL_PART.BASE_ROW 0 t), d.get (GZ_TBL_PART.ROWS 0 t))
  { d with gaz := { d.gaz with oldPart := d.gaz.oldPart.put (0, 0) t old } }

/-- R323: a table switches to its target seed and partition, in both halves; of the old partition nothing is erased yet. -/
def applySwitch (d : Dev) (t : Nat) : Dev :=
  let j := d.wget (wkey (mbxGz 0) (3 * 2 ^ 28 + t))
  let d := setCursor (noteOldPart d t) t 0
  [0, 1].foldl (fun d h =>
    let d := d.put (GZ_TBL_SEED.SEED h t) (dataWord j 0)
    let d := (d.put (GZ_TBL_PART.ROWS h t) (bits (dataWord j 2) 25 16)).put (GZ_TBL_PART.BASE_ROW h t)
      (bits (dataWord j 2) 9 0)
    let d := d.put (GZ_TBL_STATE.STATE h t) 2
    let k := wkey (mbxGz h) (3 * 2 ^ 28 + t)
    d.wput k (d.wget k % 2 ^ 126 + 2 * 2 ^ 126)) d

/-- What takes effect with a batch once, for both halves. -/
def batchEffect (d : Dev) : GzWr → Dev
  | .switch t => applySwitch d t
  | .moved t => countMoved d t
  | .cursor t n => setCursor d t n
  | _ => d

/-- The first place a batch names, with its table. -/
def firstPlace (d : Dev) (h : Nat) (l : List GzWr) : Nat × Option GzLoc :=
  match l.findSome? fun w => match w with
    | .ent true i _ _ _ => some (true, i, 0)
    | .ent false k _ _ _ => some (false, k / 4, k % 4)
    | _ => none with
  | some x => (tableAt d h x.1 x.2.1, some x)
  | none => (0, none)

/-- R312: a half did not receive a batch of engine e: every bucket it names is bad there. In the engine's reset shadow the
event is consequential (R622). -/
def batchLost (d : Dev) (e h : Nat) (l : List GzWr) : Dev :=
  let x := firstPlace d h l
  let d := (gzNote d h x.1 7 x.2).event (GZ_STATUS.BATCH_LOST h)
  let d := if d.flt.shadows.contains (2, e) then d.reportConseq (srcHalf h 0x41) 0 else d.report (srcHalf h 0x41) 0
  l.foldl (fun d w => match w with
    | .ent ovf loc _ _ _ => let i := if ovf then loc else loc / 4; gzBad d h (tableAt d h ovf i) ovf i
    | _ => d) d

/-- The batches due at a tick are applied together in both halves (R50-R52, R308); `lost` names the batches that a half did
not receive. -/
def applyBatches (g : Grid) (jump : Bool) (lost : List (Nat × Nat)) (d : Dev) : Dev :=
  [0, 1].foldl (fun d e =>
    let isDue (b : BitVec 64 × List GzWr) : Bool := jump || decide (b.1 ≤ g.epoch)
    let now := (d.ge e).batches.filter isDue
    let d := d.setGe e fun x => { x with batches := x.batches.filter fun b => !isDue b }
    now.foldl (fun d b =>
      let d := [0, 1].foldl (fun d h =>
        if lost.contains (e, h) then batchLost d e h b.2 else b.2.foldl (applyWrite b.1 h) d) d
      b.2.foldl batchEffect d) d) d

/-- R298: GZ_TBL writes due at a tick reach both halves. -/
def applyTblWrites (g : Grid) (jump : Bool) (d : Dev) : Dev :=
  let isDue (x : Nat × Nat × Word × BitVec 64) : Bool := jump || decide (x.2.2.2 ≤ g.epoch)
  let now := d.gaz.tblWrites.filter isDue
  let d := { d with gaz := { d.gaz with tblWrites := d.gaz.tblWrites.filter fun x => !isDue x } }
  now.foldl (fun d x => [0, 1].foldl (fun d h => d.setWord ((GZ_TBL_CFG.word h x.1).addr + x.2.1) x.2.2.1) d) d

/-- VERSION_RECORD_RETIRE (R310): records go whose target no packet in the device precedes. -/
def execVersionRecordRetire (s : State) : Outc := s.withDev fun d =>
  let keep (r : VerRec) : Bool := match oldestEpoch d with
    | some e => decide (e < r.target.toNat)
    | none => false
  { d with gaz := { d.gaz with log := d.gaz.log.filter keep } }

/-- GZ_PIN_EXPIRE's effect (R311): with the log full and its oldest record held PIN_LIMIT frame ticks, the packets stamped
before that record's target leave every queue. -/
def pinExpire (g : Grid) (d : Dev) (h : Nat) : Dev :=
  let lim := d.get (GZ_UPD_CFG.PIN_LIMIT h)
  match d.gaz.log.find? fun r => decide (r.half = h) with
  | none => d
  | some r =>
    if lim = 0 ∨ r.held < lim ∨ logHeld d h < 65536 ∨ !d.serves h then d else
      let (n, d) := retireAll g d drTableRetired (fun p => decide (p.epoch < r.target))
        fun q => { q with markEpoch := some r.target }
      d.addTo (GZ_CNT_RETIRED h) n

/-- GZ_PIN_EXPIRE (R311). -/
def execGzPinExpire (h : Fin 2) (s : State) : Outc := s.withDev fun d => pinExpire s.grid d h

/-! ### GZ_TBL writes (R298-R300) -/

/-- A GZ_TBL register of a table as it will stand once the writes that wait are applied. -/
def tblEff (d : Dev) (t off : Nat) : Word :=
  d.gaz.tblWrites.foldl (fun w x => if x.1 = t ∧ x.2.1 = off then x.2.2.1 else w) (d.word ((GZ_TBL_CFG.word 0 t).addr + off))

/-- The settings of a table as they will stand. -/
def tblSoon (d : Dev) (t : Nat) (cfg : Word) : GzTbl :=
  let c := cfg.toNat
  let p := (tblEff d t 4).toNat
  let o := (tblEff d t 0xC).toNat
  { en := bit c 31, width := 2 ^ bits c 29 28, kw := bits c 24 16, dw := bits c 15 13, rows := bits p 25 16, base := bits p 9 0
    seed := tblEff d t 8, ovfEn := bit c 26, ovfBase := bits o 13 0, ovfCount := bits o 30 16 }

/-- Two ranges, each a start and a length, overlap. -/
def overlap (a n b m : Nat) : Bool := decide (a < b + m) && decide (b < a + n) && decide (0 < n) && decide (0 < m)

/-- The partitions in use besides the tables' own: those being released or erased, and migrations' targets (R300, R322). -/
def partsInUse (d : Dev) : List (Nat × Nat) :=
  (List.range 16).filterMap fun t =>
    let j := dataWord (d.wget (wkey (mbxGz 0) (3 * 2 ^ 28 + t))) 2
    match d.get (GZ_TBL_STATE.STATE 0 t) with
    | 0 => none
    | 2 => some (d.gaz.oldPart.get (0, 0) t)
    | _ => some (bits j 9 0, bits j 25 16)

/-- R300: enabling a table with these settings is refused. -/
def enRefused (d : Dev) (t : Nat) (x : GzTbl) : Bool :=
  decide (640 < x.base + x.rows)
    || (List.range 16).any (fun u => decide (u ≠ t) &&
        (let y := tblSoon d u (tblEff d u 0)
         y.en && (overlap x.base x.rows y.base y.rows || overlap x.ovfBase x.ovfCount y.ovfBase y.ovfCount)))
    || (partsInUse d).any (fun y => overlap x.base x.rows y.1 y.2)
    || decide (x.kw < 8) || decide (464 < x.kw) || decide (4 < x.dw) || decide (x.width = 8)
    || decide (128 * x.width < 24 + x.kw + 32 * x.dw)

/-- R298-R300: a write to register `off` of table t's set through half h. -/
def tblWrite (g : Grid) (d : Dev) (h t off : Nat) (v : Word) : Dev :=
  let reject := gzReject d h t
  let cur := tblEff d t 0
  let idle := !bit cur.toNat 31 && decide (gzCount d h t = 0)
  -- the fields of GZ_TBL_CFG that may change at any time: EN, LEARN_EN, OVF_EN, MAX_KICKS
  let free := 2 ^ 31 + 2 ^ 27 + 2 ^ 26 + 0x1C00
  let fixed (w : Word) : Word := w &&& ~~~ (BitVec.ofNat 32 free) &&& 0xFDFFFC00
  let apply (v : Word) : Dev := { d with gaz := { d.gaz with tblWrites := d.gaz.tblWrites ++ [(t, off, v, g.epoch + 2)] } }
  match off with
  | 0 =>
    let v := v &&& 0xFDFFFC00
    if bits v.toNat 29 28 = 3 then reject
    else if fixed v ≠ fixed cur ∧ !idle then reject
    else if bit v.toNat 31 ∧ !bit cur.toNat 31 ∧ enRefused d t (tblSoon d t v) then reject
    else apply v
  | 4 => if idle then apply (v &&& 0x03FF03FF) else reject
  | 8 => if idle then apply v else reject
  | 0xC => if idle then apply (v &&& 0x7FFF3FFF) else reject
  | 0x10 => apply (v &&& 0xFFFF0F00)
  | 0x14 => apply (v &&& 0xFFFFFF00)
  | 0x18 => apply (v &&& 0x003FFFFF)
  | _ => d

/-! ### Migration (R321-R325) -/

/-- Set a table's state in both halves and in its journal. -/
def setTblState (d : Dev) (t st : Nat) : Dev :=
  [0, 1].foldl (fun d h =>
    let k := wkey (mbxGz h) (3 * 2 ^ 28 + t)
    (d.put (GZ_TBL_STATE.STATE h t) st).wput k (d.wget k % 2 ^ 126 + st * 2 ^ 126)) d

/-- R322: GZ_REHASH_CMD.GO of half h. A table whose accepted EN = 1 still waits for its tick counts as enabled (R297). -/
def rehashStart (d : Dev) (h : Nat) (cmd : Word) : Dev :=
  let t := gcTable cmd
  let part := (d.word (GZ_REHASH_PART.word h).addr).toNat
  let rows := bits part 25 16
  let base := bits part 9 0
  let clash := (List.range 16).any (fun u => [gzTbl d h u, tblSoon d u (tblEff d u 0)].any fun y =>
      y.en && overlap base rows y.base y.rows) || (partsInUse d).any fun y => overlap base rows y.1 y.2
  if d.get (GZ_TBL_STATE.STATE h t) ≠ 0 ∨ 640 < base + rows ∨ clash then gzReject d h t
  else
    let j := (d.word (GZ_REHASH_SEED.word h).addr).toNat + (d.word (GZ_TBL_SEED.word h t).addr).toNat * 2 ^ 32
      + (rows * 2 ^ 16 + base) * 2 ^ 64
    let d := [0, 1].foldl (fun d h => d.wput (wkey (mbxGz h) (3 * 2 ^ 28 + t)) j) d
    let d := { d with gaz := { d.gaz with moved := d.gaz.moved.filter (· ≠ t) } }
    setCursor (setTblState (noteOldPart d t) t 1) t 0

/-- REHASH_START (R322). -/
def execRehashStart (h : Fin 2) (cmd : Word) (s : State) : Outc := s.withDev fun d => rehashStart d h cmd

/-- R323: the copies of a migration, placed one after another in the target; none where one finds no place. -/
def copyAll (t : GzTbl) (kicks : Nat) (q : GzPart) (l : List (GzLoc × Nat)) (p : GzPlan)
    (acc : List (GzPlaced)) : Option (List GzPlaced) :=
  match l with
  | [] => some acc
  | x :: r =>
    match gzPlace p t kicks q x.2 (.from x.1.1 (locOf x.1)) with
    | none => none
    | some y => copyAll t kicks q r (p.writes y.batches.flatten) (acc ++ [y])

/-- The batches that erase a list of entries of a partition from row `base` on, each with the buckets erased once it applies. -/
def eraseBatches (table w base rows : Nat) (l : List (GzLoc × Nat)) : List (List GzWr) :=
  let ps := parts l
  (ps.zipIdx.map fun x =>
    let upTo := if x.2 + 1 = ps.length then 1024 * rows else match x.1.getLast? with
      | some y => y.1.2.1 + 1 - 1024 * base
      | none => 0
    x.1.flatMap (fun y => freeWrites w y.1) ++ [.cursor table upTo])

/-- The copies of a migration as steps, in the order of the old partition, each with the buckets copied once it applies. -/
def queueCopies (d : Dev) (table base : Nat) (old : List (GzLoc × Nat)) (ys : List GzPlaced) : Dev :=
  (old.zip ys).foldl (fun d x =>
    let upTo : GzWr := .cursor table (x.1.1.2.1 + 1 - 1024 * base)
    let n := x.2.batches.length
    (gzQueue (countPlaced d table x.2) (ownerOf d table)
      (x.2.batches.zipIdx.map fun b => if b.2 + 1 = n then b.1 ++ [upTo] else b.1)).2) d

/-- REHASH_SWITCH's effect (R323): the walker's copies, the switch, and the erase of the old partition are queued; without
a place for an entry the table rolls back, and the erase of the target begins. -/
def rehashSwitch (d : Dev) (table : Nat) (bad : List (Fin 2 × Bool × Nat)) : Dev :=
  let t := gzTbl d 0 table
  let e := ownerOf d table
  if d.get (GZ_TBL_STATE.STATE 0 table) ≠ 1 ∨ d.gaz.moved.contains table ∨ !d.serves e then d else
    let d := engineMeets d table bad
    let j := d.wget (wkey (mbxGz 0) (3 * 2 ^ 28 + table))
    let q : GzPart := ⟨BitVec.ofNat 32 (dataWord j 0), bits (dataWord j 2) 9 0, bits (dataWord j 2) 25 16⟩
    let p := gzPlan d
    let old := (p.entries t table).filter fun x => !x.1.1
    match copyAll t (d.get (GZ_TBL_CFG.MAX_KICKS 0 table)) q old p [] with
    | none => setCursor (setTblState d table 3) table 0
    | some ys =>
      let d := queueCopies d table t.base old ys
      let d := (gzQueue d e [[.cursor table (1024 * t.rows)], [.switch table]]).2
      let d := (gzQueue d e ([] :: eraseBatches table t.width t.base t.rows old)).2
      { d with gaz := { d.gaz with moved := table :: d.gaz.moved } }

/-- REHASH_SWITCH (R323). -/
def execRehashSwitch (t : Fin 16) (bad : List (Fin 2 × Bool × Nat)) (s : State) : Outc := s.withDev fun d => rehashSwitch d t bad

/-- REHASH_DONE's effect (R323): the old partition is erased in both replicas, and the table is NORMAL. -/
def rehashDone (d : Dev) (table : Nat) : Dev :=
  let e := ownerOf d table
  let (base, rows) := d.gaz.oldPart.get (0, 0) table
  let inOld (loc : Nat) : Bool := decide (1024 * base ≤ loc / 4) && decide (loc / 4 < 1024 * (base + rows))
  let left := d.gaz.slots.any (fun x => inOld (x.1 % 2 ^ 22)) || (owed (d.ge e)).any fun w => match w with
    | .ent false loc _ _ _ => inOld loc
    | _ => false
  if d.get (GZ_TBL_STATE.STATE 0 table) ≠ 2 ∨ left then d else
    let d := { d with gaz := { d.gaz with moved := d.gaz.moved.filter (· ≠ table) } }
    (gzNote (setCursor (setTblState d table 0) table (1024 * rows)) e table 2 none).event (GZ_STATUS.REHASH_DONE e)

/-- REHASH_DONE (R323). -/
def execRehashDone (t : Fin 16) (s : State) : Outc := s.withDev fun d => rehashDone d t

/-- REHASH_FAIL (R323): the target is erased, and the rolled-back table is NORMAL on its old seed and partition. -/
def execRehashFail (t : Fin 16) (s : State) : Outc := s.withDev fun d =>
  if d.get (GZ_TBL_STATE.STATE 0 t) ≠ 3 then d else
    let e := ownerOf d t
    let rows := bits (dataWord (d.wget (wkey (mbxGz 0) (3 * 2 ^ 28 + t))) 2) 25 16
    (gzNote (setCursor (setTblState d t 0) t (1024 * rows)) e t 3 none).event (GZ_STATUS.REHASH_FAIL e)

/-! ### Bad buckets (R326-R328) -/

/-- The entries of a bucket or overflow index as a plan has them. -/
def entriesIn (p : GzPlan) (t : GzTbl) (table : Nat) (ovf : Bool) (i : Nat) : List (GzLoc × Nat) :=
  (p.entries t table).filter fun x => decide (x.1.1 = ovf) && decide (x.1.2.1 = i)

/-- BUCKET_RESTORE_DONE's effect (R327, R328): the place is restored from the other replica; where that is bad too, the owner
engine's next batch erases it in both, and until then it stays absent. -/
def restoreDone (d : Dev) (h : Nat) (ovf : Bool) (i : Nat) (otherBad : Bool) : Dev :=
  let isBad (h : Nat) : Bool := if ovf then d.gaz.badOvf.contains (h, i) else d.gaz.badBuckets.contains (h, i)
  let e := ownerOf d (tableAt d h ovf i)
  if !isBad h || (owed (d.ge e)).contains (.heal ovf i) then d
  else if !isBad (1 - h) && !otherBad then
    let g := d.gaz
    let g := if ovf then { g with ovf := g.ovf.put 0 (ovfKey h i) (g.ovf.get 0 (ovfKey (1 - h) i)) }
      else { g with slots := (List.range 4).foldl (fun m s => m.put 0 (slotKey h i s) (m.get 0 (slotKey (1 - h) i s))) g.slots }
    (gzHealed { d with gaz := g } h ovf i).bump (GZ_CNT_RESTORED h)
  else
    let table := tableAt d h ovf i
    let t := gzTbl d h table
    let d := gzBad d (1 - h) table ovf i
    let lost := entriesIn (gzPlan d) t table ovf i
    let d := (gzNote d h table 5 (some (ovf, i, 0))).event (GZ_STATUS.REPLICA_BAD h)
    let w := (d.word (GZ_EVENT.word h).addr).toNat
    let d := (d.report (srcHalf h 0x40) w).addTo (GZ_CNT_LOST h) lost.length
    let d := d.hostEvent 4 e w
    let erase : List GzWr := if ovf then [.ent true i 0 t.width .fresh]
      else (List.range 4).map fun s => .ent false (i * 4 + s) 0 1 .fresh
    (gzQueue d e [erase ++ [.heal ovf i]]).2

/-- BUCKET_RESTORE_DONE (R327). -/
def execBucketRestoreDone (h : Fin 2) (ovf : Bool) (index : Nat) (otherBad : Bool) (s : State) : Outc :=
  s.withDev fun d => restoreDone d h ovf index otherBad

/-! ### Learning (R329-R335) -/

/-- R334: a key's move is counted; answers whether it is the fourth of the frame. -/
def countMove (d : Dev) (e t : Nat) (key : BitVec 512) : Bool × Dev :=
  let d := d.bump (GZ_CNT_MOVES e)
  let l := d.gaz.moves
  match l.find? fun m => decide (m.1 = e ∧ m.2.1 = t ∧ m.2.2.1 = key) with
  | some m => (decide (m.2.2.2 + 1 = 4), { d with gaz := { d.gaz with
      moves := l.map fun x => if x = m then (e, t, key, m.2.2.2 + 1) else x } })
  | none =>
    if (l.filter fun m => decide (m.1 = e)).length < 4096 then
      (false, { d with gaz := { d.gaz with moves := l ++ [(e, t, key, 1)] } })
    else (false, d)

/-- R334: a key flaps: its window closes without writing, and its learning is held. -/
def flap (d : Dev) (e t : Nat) (key : BitVec 512) : Dev :=
  let d := closeWindow d t key.toNat
  let hold := d.get (GZ_TBL_LEARN.HOLD 0 t)
  let d := if hold = 0 then d else { d with gaz := { d.gaz with holds := d.gaz.holds ++ [(t, key, hold)] } }
  let x := gzTbl d 0 t
  let (l, img) : GzLoc × Nat := match (gzPlan d).find x t key.toNat with
    | y :: _ => y
    | [] => ((false, 0, 0), 0)
  let d := ((gzNote d e t 6 (some l)).event (GZ_STATUS.FLAP e)).bump (GZ_CNT_FLAPS e)
  d.hostEvent 3 e ((d.word (GZ_EVENT.word e).addr).toNat + img * 2 ^ 32)

/-- One learn event at its table's engine (R332). -/
def learnOne (d : Dev) (x : Learn) : Dev :=
  let t := x.table
  let e := ownerOf d t
  let tb := gzTbl d 0 t
  if d.get (GZ_TBL_STATE.STATE 0 t) = 1
      ∨ d.gaz.holds.any (fun y => decide (y.1 = t ∧ y.2.1 = x.key ∧ 0 < y.2.2)) then d.bump (GZ_CNT_HELD e)
  else
    let moved (d : Dev) : Dev :=
      let (four, d) := countMove d e t x.key
      if four then flap d e t x.key else d
    let openW (d : Dev) : Dev := { d with gaz := { d.gaz with windows := d.gaz.windows ++
      [{ table := t, key := x.key, cand := x.port, left := max 1 (d.get (GZ_TBL_LEARN.SETTLE 0 t)) }] } }
    match d.gaz.windows.find? fun w => decide (w.table = t ∧ w.key = x.key) with
    | some w =>
      if w.cand = x.port then d else
        moved { d with gaz := { d.gaz with
          windows := d.gaz.windows.map fun y => if y = w then { y with cand := x.port } else y } }
    | none =>
      match (gzPlan d).find tb t x.key.toNat with
      | y :: _ =>
        let hd := gzHeader tb.width y.2
        if hdrStatic hd then d.bump (GZ_CNT_HELD e)
        else if hdrPort hd = x.port then d
        else moved (openW d)
      | [] => openW d

/-- R331: engine e works through the events that arrived. -/
def learnServe (d : Dev) (e : Nat) : Dev :=
  if d.serves e ∧ (d.ge e).learn ≠ [] then
    let l := (d.ge e).learn
    l.foldl learnOne (d.setGe e fun x => { x with learn := [] })
  else d

/-- An engine that serves again takes up the commands and the learn events that waited for it (R332, R339). -/
def gzResume (d : Dev) : Dev := [0, 1].foldl (fun d e => learnServe (planBefore d e d.gaz.arrivals) e) d

/-- LEARN_EVENT_ARRIVE (R331, R332): the oldest event of slice s reaches its table's engine. While both engines are DEAD
it is dropped (R572). -/
def execLearnEventArrive (sl : Fin 32) (bad : List (Fin 2 × Bool × Nat)) (s : State) : Outc := s.withDev fun d =>
  match (d.sl sl).learn with
  | [] => d
  | x :: r =>
    let d := d.slice sl fun y => { y with learn := r }
    let e := ownerOf d x.table
    let dead := decide (d.get (HK_ENGINE.STATE 0) = 4) && decide (d.get (HK_ENGINE.STATE 1) = 4)
    if dead ∨ 4096 ≤ (d.ge e).learn.length then d.bump (GZ_CNT_LEARN_DROP e)
    else
      let d := if d.serves e then engineMeets d x.table bad else d
      learnServe (d.setGe e fun y => { y with learn := y.learn ++ [x] }) e

/-- R332, R333: a window closes. -/
def settleWin (d : Dev) (w : GzWin) : Dev :=
  let t := w.table
  let tb := gzTbl d 0 t
  let e := ownerOf d t
  let d := { d with gaz := { d.gaz with windows := d.gaz.windows.erase w } }
  let ent := gzEntry tb.width tb.kw false t w.cand w.key.toNat (if tb.dw = 0 then 0 else w.cand)
  let p := gzPlan d
  if d.get (GZ_TBL_STATE.STATE 0 t) = 1 then d.bump (GZ_CNT_HELD e)
  else if !tb.en then d
  else
    match p.find tb t w.key.toNat with
    | y :: _ =>
      let hd := gzHeader tb.width y.2
      if hdrStatic hd ∨ hdrPort hd = w.cand then d
      else ((gzQueue d e [entryWrites tb.width y.1 ent .keep]).2).bump (GZ_CNT_LEARNED e)
    | [] =>
      let lim := d.get (GZ_TBL_LIMIT.LEARN_MAX 0 t)
      if lim ≠ 0 ∧ lim ≤ (distinctKeys tb (p.entries tb t)).length then d.bump (GZ_CNT_LEARN_DROP e)
      else
        match gzPlace p tb (d.get (GZ_TBL_CFG.MAX_KICKS 0 t)) (partOf tb) ent .fresh with
        | none => (rehashReq d t).bump (GZ_CNT_LEARN_DROP e)
        | some x => ((gzQueue (countPlaced d t x) e x.batches).2).bump (GZ_CNT_LEARNED e)

/-- SETTLE_WINDOW_CLOSE (R332): the oldest window whose ticks are over closes. -/
def execSettleWindowClose (bad : List (Fin 2 × Bool × Nat)) (s : State) : Outc := s.withDev fun d =>
  match d.gaz.windows.find? fun w => decide (w.left = 0) && d.serves (ownerOf d w.table) with
  | some w => settleWin (engineMeets d w.table bad) w
  | none => d

/-- FLAP_HOLD_END (R334): holds whose frames are over end. -/
def execFlapHoldEnd (s : State) : Outc := s.withDev fun d =>
  { d with gaz := { d.gaz with holds := d.gaz.holds.filter fun h => decide (h.2.2 ≠ 0) } }

/-! ### Aging's schedule and overflow (R320, R336, R337) -/

/-- AGE_STEP_DUE (R336, R337): the table's frames are over and a step falls due; at most one waits. A step runs within one command
(DESIGN CHOICE, log entry 156), so that none is running as another falls due. -/
def execAgeStepDue (t : Fin 16) (s : State) : Outc := s.withDev fun d =>
  let n := d.get (GZ_TBL_AGE.AGE_FRAMES 0 t)
  if n = 0 ∨ d.gaz.ageCnt.get 0 t < n then d else
    { d with gaz := { d.gaz with
      ageCnt := d.gaz.ageCnt.put 0 t 0, ageDue := d.gaz.ageDue.put 0 t 1 } }

/-- AGE_STEP (R324, R336): a due step runs in the owner engine once the table is NORMAL. -/
def execAgeStep (t : Fin 16) (bad : List (Fin 2 × Bool × Nat)) (s : State) : Outc := s.withDev fun d =>
  if d.gaz.ageDue.get 0 t = 0 ∨ d.get (GZ_TBL_STATE.STATE 0 t) ≠ 0 ∨ !d.flag (GZ_TBL_CFG.EN 0 t)
      ∨ !d.serves (ownerOf d t) then d else
    let d := { d with gaz := { d.gaz with ageDue := d.gaz.ageDue.put 0 t (d.gaz.ageDue.get 0 t - 1) } }
    (gzAge (engineMeets d t bad) t).2.2

/-- OVERFLOW_MOVE_BACK (R320): an overflow entry moves into a free run of a candidate bucket. -/
def overflowMoveBack (d : Dev) (table i : Nat) : Dev :=
  let t := gzTbl d 0 table
  let p := gzPlan d
  match (entriesIn p t table true i).head? with
  | none => d
  | some x =>
    let key := gzKey t.width t.kw x.2
    let b0 := t.seed
    let q : GzPart := ⟨b0, t.base, t.rows⟩
    let room := [q.bucket t.kw key 0, q.bucket t.kw key 1].findSome? fun b =>
      (p.freeRuns t.width b).head?.map fun s => (b, s)
    match room with
    | none => d
    | some (b, s) =>
      if !d.serves (ownerOf d table) ∨ d.get (GZ_TBL_STATE.STATE 0 table) ≠ 0 then d else
        (gzQueue d (ownerOf d table)
          [entryWrites t.width (false, b, s) x.2 (.from true i) ++ [.moved table], freeWrites t.width x.1]).2

/-- OVERFLOW_MOVE_BACK (R320). -/
def execOverflowMoveBack (t : Fin 16) (i : Nat) (bad : List (Fin 2 × Bool × Nat)) (s : State) : Outc :=
  s.withDev fun d => overflowMoveBack (if d.serves (ownerOf d t) then engineMeets d t bad else d) t i

end Sys2Proof.Machine
end

