-- ==== Sys2Proof/Machine/Ase.lean ====
section
/-!
DEFINITION. The associative search engine's changes (chapter 10, R344, R345, R359-R368): updates, the scrub, and writes of
bank and partition settings; and the buffer pool manager's software commands (chapter 11, R378, R379, R393-R395).
-/
namespace Sys2Proof.Machine

/-! ### Entries (R342-R347) -/

/-- The bank that holds a bank's entries: itself, or the primary it mirrors (R344). -/
def aseHome (d : Dev) (s b : Nat) : Nat :=
  if d.flag (ASE_BANK_CFG.MIRROR s b) then d.get (ASE_BANK_CFG.PRIMARY s b) else b

/-- Valid entries of a bank (ASE_BANK_ENTRIES). -/
def aseEntries (d : Dev) (s b : Nat) : Nat :=
  let h := aseHome d s b
  (d.ase.filter fun e => decide (e.1 / 2048 = s * 16 + h) && e.2.valid).length

/-- A bank is mirrored, or a mirror (R366). -/
def aseMirrored (d : Dev) (s b : Nat) : Bool :=
  d.flag (ASE_BANK_CFG.MIRROR s b) || (List.range (aseBanks d)).any fun m =>
    decide (m ≠ b) && d.flag (ASE_BANK_CFG.EN s m) && d.flag (ASE_BANK_CFG.MIRROR s m)
      && decide (d.get (ASE_BANK_CFG.PRIMARY s m) = b)

/-- An event of ASE_STATUS, bit number `kind`, with ASE_EVENT (R373). -/
def aseEvent (d : Dev) (s kind bank row : Nat) : Dev :=
  let d := d.setWord (ASE_EVENT.word s).addr (BitVec.ofNat 32 (kind * 2 ^ 28 + bank * 2 ^ 11 + row))
  d.event ⟨(ASE_STATUS.word s).addr, kind, kind⟩

/-- The entry staged in the mailbox for a bank of w units (R346, R347, R374): value and mask aligned at the top of 320
bits, the value masked. -/
def aseStaged (d : Dev) (s w : Nat) : AseEntry :=
  let unit (q : Nat) : Nat := d.wget (wkey (mbxAse s) q) % 2 ^ 80
  let join (o : Nat) : Nat := (List.range w).foldl (fun a q => a + unit (o + q) * 2 ^ (320 - 80 * (q + 1))) 0
  let m : BitVec 320 := BitVec.ofNat 320 (join 4)
  let meta_ := d.wget (wkey (mbxAse s) 8)
  { v := BitVec.ofNat 320 (join 0) &&& m, m := m, pri := bits meta_ 47 32, res := BitVec.ofNat 32 meta_
    valid := bit meta_ 48 }

/-- R368: an entry breaks the pre-filter of its partition. -/
def breaksFilter (d : Dev) (s b row : Nat) (e : AseEntry) : Bool :=
  let off := d.get (ASE_BANK_CFG.PF_OFF s b)
  let mask := d.get (ASE_PF.MASK s b (row / 64))
  let value := d.get (ASE_PF.VALUE s b (row / 64))
  d.flag (ASE_BANK_CFG.PF_EN s b) && (List.range 8).any fun j =>
    let i := 319 - (off + 7 - j)
    bit mask j && !(e.m.getLsbD i && (e.v.getLsbD i == bit value j))

/-- ASE_UPDATE's effect (R359, R361). -/
def aseUpdate (d : Dev) (s : Nat) (cmd : Word) : Dev :=
  let b := bits cmd.toNat 14 11
  let row := bits cmd.toNat 10 0
  let w := aseWidth d s b
  let e := aseStaged d s w
  let reject (r : Nat) : Dev :=
    aseEvent ((d.put (ASE_UPD_STAT.BUSY s) 0).put (ASE_UPD_STAT.RESULT s) r) s 1 b row
  if d.flag (ASE_UPD_STAT.BUSY s) then aseEvent d s 2 b row
  else if aseBanks d ≤ b ∨ !d.flag (ASE_BANK_CFG.EN s b) ∨ d.flag (ASE_BANK_CFG.MIRROR s b) then reject 1
  else if row % w ≠ 0 then reject 2
  else if e.valid ∧ breaksFilter d s b row e then reject 3
  else (d.put (ASE_UPD_STAT.BUSY s) 1).slice s fun x => { x with aseUpd := some (b, row, e) }

/-- ASE_UPDATE (R361). -/
def execAseUpdate (s : Fin 32) (cmd : Word) (st : State) : Outc := st.withDev fun d => aseUpdate d s cmd

/-- The ternary cells of a bank's row hold what was written (R365). -/
def restoreCells (d : Dev) (s b row : Nat) : Dev :=
  { d with aseFlips := d.aseFlips.put (0, 0) (aseKey s b row) (0, 0) }

/-- A bank and its mirrors. -/
def aseReplicas (d : Dev) (s b : Nat) : List Nat :=
  (List.range (aseBanks d)).filter fun m => decide (m = b)
    || (d.flag (ASE_BANK_CFG.EN s m) && d.flag (ASE_BANK_CFG.MIRROR s m) && decide (d.get (ASE_BANK_CFG.PRIMARY s m) = b))

/-- ASE_UPDATE_COMMIT (R359, R360): primary, mirrors and shadow change in one cycle, once the slice is out of reset; the cells
of the entry's rows hold what is written. -/
def execAseUpdateCommit (s : Fin 32) (st : State) : Outc := st.withDev fun d =>
  match d.sliceUp s, (d.sl s).aseUpd with
  | true, some (b, row, e) =>
    let d := { d with ase := d.ase.put {} (aseKey s b row) e }
    let d := (aseReplicas d s b).foldl (fun d m =>
      (List.range (aseWidth d s b)).foldl (fun d q => restoreCells d s m (row + q)) d) d
    let d := (d.slice s fun x => { x with aseUpd := none }).bump (ASE_CNT_UPDATES s)
    aseEvent ((d.put (ASE_UPD_STAT.BUSY s) 0).put (ASE_UPD_STAT.RESULT s) 0) s 0 b row
  | _, _ => d

/-- R365: a row that differs from its shadow is rewritten. -/
def scrubFix (d : Dev) (s b row : Nat) : Dev :=
  let d := (aseEvent d s 3 b row).bump (ASE_CNT_SCRUB_FIX s)
  d.report (srcSlice s 0x40) (d.word (ASE_EVENT.word s).addr).toNat

/-- R366: a shadow word is bad: a mirror restores it; without one the entry goes. -/
def shadowBad (d : Dev) (s b row : Nat) : Dev :=
  let d := if aseMirrored d s b then d else
    let k := aseKey s b (row - row % aseWidth d s b)
    { d with ase := d.ase.put {} k { d.ase.get {} k with valid := false } }
  let d := aseEvent d s 4 b row
  d.report (srcSlice s 0x40) (d.word (ASE_EVENT.word s).addr).toNat

/-- R364-R366: every bank of a slice scrubs a row. A row differs from its shadow where its cells flipped, some of them since the
last search (`wrong`); `bad` are the banks whose shadow word is uncorrectable. -/
def scrubRow (d : Dev) (s row : Nat) (wrong bad : List (Fin 16)) : Dev :=
  (List.range (aseBanks d)).foldl (fun d b =>
    let has (l : List (Fin 16)) : Bool := l.any fun x => decide (x.val = b)
    let differs := has wrong || decide (d.aseFlips.get (0, 0) (aseKey s b row) ≠ (0, 0))
    let d := if has bad then shadowBad d s b row else if differs then scrubFix d s b row else d
    restoreCells d s b row) d

/-- ASE_SCRUB_ROW (R364-R366): a row falls due every 32 ticks. -/
def execAseScrubRow (s : Fin 32) (wrong bad : List (Fin 16)) (st : State) : Outc := st.withDev fun d =>
  if !d.sliceUp s ∨ d.ticks / 32 ≤ (d.sl s).scrubDone then d else
    let row := d.get (ASE_SCRUB.ROW s)
    let d := scrubRow d s row wrong bad
    (d.put (ASE_SCRUB.ROW s) (row + 1)).slice s fun x => { x with scrubDone := x.scrubDone + 1 }

/-! ### Bank and partition settings -/

/-- A refused bank or partition write. -/
def aseCfgReject (d : Dev) (s b row : Nat) : Dev := aseEvent d s 5 b row

/-- R344, R345: a write to ASE_BANK_CFG of bank b. -/
def aseBankWrite (d : Dev) (s b : Nat) (v : Word) : Dev :=
  let x := v.toNat
  let named := (List.range 16).any fun m => decide (m ≠ b) && d.flag (ASE_BANK_CFG.EN s m)
    && d.flag (ASE_BANK_CFG.MIRROR s m) && decide (d.get (ASE_BANK_CFG.PRIMARY s m) = b)
  let p := bits x 29 26
  let badMirror := bit x 30 && (decide (b ≤ p) || !d.flag (ASE_BANK_CFG.EN s p) || d.flag (ASE_BANK_CFG.MIRROR s p))
  let w := 2 ^ bits x 25 24
  if aseEntries d s b ≠ 0 ∨ named ∨ badMirror ∨ bits x 25 24 = 3 ∨ 80 * w - 8 < bits x 8 0 then aseCfgReject d s b 0
  else d.setWord (ASE_BANK_CFG.word s b).addr (v &&& 0xFF8001FF)

/-- R368: a write to ASE_PF of partition i of bank b. -/
def asePfWrite (d : Dev) (s b i : Nat) (v : Word) : Dev :=
  let h := aseHome d s b
  let full := d.ase.any fun e => decide (e.1 / 2048 = s * 16 + h) && decide (e.1 % 2048 / 64 = i) && e.2.valid
  if full then aseCfgReject d s b (64 * i) else d.setWord (ASE_PF.word s b i).addr (v &&& 0xFFFF)

/-! ### The buffer pool manager's commands (R393-R395) -/

/-- The requester a software access acts under (R393). -/
def swRequester (src : Src) : Nat := if srcSecure src then 8 else 7

/-- A pool belongs to the secure world (R393). -/
def poolSecure (d : Dev) (p : Nat) : Bool := bit (d.word WLD_BPM_POOL.word.addr).toNat p

/-- BPM_ALLOC's effect (R394); after a refusal POOL and INDEX are free values. BUSY lasts to the next tick, and a GO that finds it is lost
(DESIGN CHOICE, log entry 38). -/
def bpmAllocCmd (d : Dev) (src : Src) (cmd : Word) (tags : TagErrors := {}) : Dev :=
  let x := cmd.toNat
  let force := if bit x 20 then some (bits x 19 17) else none
  if srcSecure src = false ∧ bit x 20 ∧ poolSecure d (bits x 19 17) then busError d src beWorld 0 BPM_ALLOC.word.addr true
  else if d.flag BPM_ALLOC_STAT.BUSY then d.event BPM_STATUS.CMD_LOST
  else
    let (g, d) := bpmAlloc (tagErrors d tags) (swRequester src) (bits x 16 0) (srcSecure src) force
    let stat (d : Dev) (pool index : Nat) : Dev :=
      d.setWord BPM_ALLOC_STAT.word.addr (BitVec.ofNat 32 (2 ^ 31 + pool * 2 ^ 28 + g.result * 2 ^ 22 + index))
    if g.result = 0 then (stat d g.pool g.index).wput (wkey mbxBpm 1) g.ptr
    else
      let (r, d) := d.fresh
      stat d (r.toNat % 8) (r.toNat / 8 % 2 ^ 22)

/-- BPM_ALLOC (R394). -/
def execBpmAlloc (src : Src) (cmd : Word) (tags : TagErrors) (s : State) : Outc :=
  s.withDev fun d => bpmAllocCmd d src cmd tags

/-- BPM_FREE's effect (R393, R394): the pointer staged at mailbox index 0x0; BUSY as for BPM_ALLOC. -/
def bpmFreeCmd (d : Dev) (src : Src) (tags : TagErrors := {}) : Dev :=
  let ptr := d.wget (wkey mbxBpm 0) % 2 ^ 40
  let secret := match poolAt d ptr with
    | some p => poolSecure d p
    | none => false
  if srcSecure src = false ∧ secret = true then busError d src beWorld 0 BPM_FREE.word.addr true
  else if d.flag BPM_FREE_STAT.BUSY then d.event BPM_STATUS.CMD_LOST
  else
    let (k, d) := bpmFree (tagErrors d tags) (swRequester src) ptr
    (d.put BPM_FREE_STAT.RESULT k).put BPM_FREE_STAT.BUSY 1

/-- BPM_FREE (R385). -/
def execBpmFree (src : Src) (tags : TagErrors) (s : State) : Outc := s.withDev fun d => bpmFreeCmd d src tags

/-- BPM_RECLAIM (R395); requesters 9 to 14 hold nothing. -/
def execBpmReclaim (cmd : Word) (tags : TagErrors) (s : State) : Outc :=
  s.withDev fun d => bpmReclaim (tagErrors d tags) (bits cmd.toNat 2 0) (bits cmd.toNat 7 4)

/-- R378: enabling a pool with these settings is refused. -/
def poolRefused (d : Dev) (p : Nat) (v : Nat) : Bool :=
  let loc := bits v 30 29
  let code := bits v 27 24
  let n := bits v 21 0
  let base := d.get (BPM_POOL_BASE.BASE p)
  let size := 2 ^ (8 + code)
  decide (loc = 3) || !locPresent d loc || decide (8 < code) || decide (n = 0) || decide (locBytes d loc < (base + n) * size)
    || (List.range 8).any fun q => decide (q ≠ p) && d.flag (BPM_POOL_CFG.EN q)
      && decide (d.get (BPM_POOL_CFG.LOCATION q) = loc)
      && overlap (base * size) (n * size) (d.get (BPM_POOL_BASE.BASE q) * poolSize d q)
        (d.get (BPM_POOL_CFG.COUNT q) * poolSize d q)

/-- R378, R379: a write to BPM_POOL_CFG of pool p. -/
def poolCfgWrite (d : Dev) (p : Nat) (v : Word) : Dev :=
  let v := v &&& 0xEF3FFFFF
  let a := (BPM_POOL_CFG.word p).addr
  let old := d.word a
  let fixed := decide (v.toNat % 2 ^ 31 = old.toNat % 2 ^ 31)
  let reject := d.event BPM_STATUS.CFG_REJECT
  if !fixed ∧ (bit old.toNat 31 ∨ poolHeld d p) then
    -- the fields keep their values; EN may be cleared at any time
    if bit v.toNat 31 then reject else (d.put (BPM_POOL_CFG.EN p) 0).event BPM_STATUS.CFG_REJECT
  else if bit v.toNat 31 ∧ !bit old.toNat 31 then
    if poolRefused d p v.toNat then reject else poolEnable (d.setWord a v) p
  else d.setWord a v

/-- R379: a write to BPM_POOL_BASE of pool p. -/
def poolBaseWrite (d : Dev) (p : Nat) (v : Word) : Dev :=
  if d.flag (BPM_POOL_CFG.EN p) ∨ poolHeld d p then d.event BPM_STATUS.CFG_REJECT
  else d.setWord (BPM_POOL_BASE.word p).addr v

end Sys2Proof.Machine
end

