-- ==== Sys2Proof/Machine/Export.lean ====
section
/-!
DEFINITION. Telemetry's timed work and export (chapter 14, R486, R487, R495-R503): flow expiry and flush, IPFIX messages,
the rings by UDP, DMA and archive, archive copies.
-/
namespace Sys2Proof.Machine

/-! ### Flow cache (R486, R487) -/

/-- The flow at a place of half h's cache. -/
def flowAt (d : Dev) (h n : Nat) : Option Flow := d.tel.flows.get none (h * 2 ^ 18 + n)

/-- R487: an entry with an uncorrectable error is freed without export. -/
def flowEcc (d : Dev) (h n : Nat) : Dev :=
  (((d.setFlow (h * 2 ^ 18 + n) none).event TEL_STATUS.FLOW_ECC).bump TEL_CNT_FLOW_ECC).report (srcHalf h 0x88) 0

/-- FLOW_IDLE_EXPIRE (R486): entry n (set * 4 + way) of half h. -/
def execFlowIdleExpire (h : Fin 2) (n : Nat) (bad : Bool) (s : State) : Outc := s.withDev fun d =>
  let lim := d.get (TEL_FLOW_CFG.IDLE_FRAMES h)
  match (if n < 2 ^ 18 then flowAt d h n else none) with
  | some f =>
    if bad then flowEcc d h n
    else if lim ≠ 0 ∧ lim ≤ f.idle then (exportFlow d h f 1).setFlow (h * 2 ^ 18 + n) none else d
  | none => d

/-- R486: what an active timeout leaves of an entry. -/
def Flow.restart (f : Flow) : Flow :=
  { f with active := 0, firstTs := f.lastTs, demoted := 0, octets := 0, copies := 0, sojourn := 0, dropped := 0, reason := 0 }

/-- FLOW_ACTIVE_EXPIRE (R486). -/
def execFlowActiveExpire (h : Fin 2) (n : Nat) (bad : Bool) (s : State) : Outc := s.withDev fun d =>
  let lim := d.get (TEL_FLOW_CFG.ACTIVE_FRAMES h)
  match (if n < 2 ^ 18 then flowAt d h n else none) with
  | some f =>
    if bad then flowEcc d h n
    else if lim ≠ 0 ∧ lim ≤ f.active then (exportFlow d h f 2).setFlow (h * 2 ^ 18 + n) (some f.restart) else d
  | none => d

/-- FLOW_FLUSH's effect (R487). -/
def flowFlush (d : Dev) (h : Nat) (bad : List Nat := []) : Dev :=
  d.tel.flows.foldl (fun d e =>
    if e.1 / 2 ^ 18 = h then
      match e.2 with
      | some f => if bad.contains (e.1 % 2 ^ 18) then flowEcc d h (e.1 % 2 ^ 18) else (exportFlow d h f 4).setFlow e.1 none
      | none => d
    else d) d

/-- FLOW_FLUSH (R487). -/
def execFlowFlush (h : Fin 2) (bad : List (Fin 262144)) (s : State) : Outc :=
  s.withDev fun d => flowFlush d h (bad.map (·.val))

/-- TEL_FLOW_CTL: clearing EN drops every entry without export (R505). -/
def flowCtlWrite (d : Dev) (h : Nat) (v : Word) : Dev :=
  let d := d.put (TEL_FLOW_CTL.EN h) (v.toNat % 2)
  if v.toNat % 2 = 1 then d
  else { d with tel := { d.tel with flows := d.tel.flows.keep fun k => decide (k / 2 ^ 18 ≠ h) } }

/-! ### Messages (R498, R499) -/

/-- TEMPLATE_SEND (R499): a ring whose Template Set is due queues it. -/
def execTemplateSend (r : Fin 16) (s : State) : Outc := s.withDev fun d =>
  if d.flag (TEL_RING_CFG.EN r) && (d.ri r).templateDue then
    d.ring r fun x => { x with msgs := x.msgs ++ [.templates], templateDue := false }
  else d

/-- MESSAGE_FLUSH_TIMEOUT (R499): the open message closes. -/
def execMessageFlushTimeout (r : Fin 16) (s : State) : Outc := s.withDev fun d =>
  if (d.ri r).staged = [] then d
  else d.ring r fun x => { x with msgs := x.msgs ++ [.records x.staged], staged := [] }

/-- The row lengths of record kind k (R485, R498). -/
def rowLens : Nat → List Nat
  | 0 => [16, 1, 1, 2, 2, 2, 2, 6, 6, 2, 8, 8, 4, 3, 1]
  | 1 => [32, 16, 1, 1, 1, 1, 64]
  | 2 => [16, 1, 1, 2, 4, 8]
  | 3 => [2, 1, 1, 4, 4, 4, 56, 32]
  | _ => [32, 16]

/-- The template of kind k: id, field count, and one enterprise element per row. -/
def template (pen k : Nat) : List Byte :=
  beBytes 2 (256 + k) ++ beBytes 2 (rowLens k).length
    ++ (rowLens k).zipIdx.flatMap fun x => beBytes 2 (0x8000 + 32 * k + x.2 + 1) ++ beBytes 2 x.1 ++ beBytes 4 pen

/-- The Template Set (set id 2). -/
def templateSet (pen : Nat) : List Byte :=
  let b := (List.range 5).flatMap (template pen)
  beBytes 2 2 ++ beBytes 2 (b.length + 4) ++ b

/-- The data sets of a message's records, one set for each run of a kind. -/
def dataSets (l : List (Nat × List Byte × Nat)) : List Byte :=
  let groups := l.foldl (fun (a : List (Nat × List Byte)) x => match a with
    | (k, b) :: r => if k = x.1 then (k, b ++ x.2.1) :: r else (x.1, x.2.1) :: (k, b) :: r
    | [] => [(x.1, x.2.1)]) []
  groups.reverse.flatMap fun g => beBytes 2 (256 + g.1) ++ beBytes 2 (g.2.length + 4) ++ g.2

/-- The data records of a message. -/
def RingMsg.recs : RingMsg → List (Nat × List Byte × Nat)
  | .records l => l
  | _ => []

/-- R499: a message of ring r at PTP time `ns`, with the given sets. -/
def ipfix (d : Dev) (r ns : Nat) (body : List Byte) : List Byte :=
  beBytes 2 10 ++ beBytes 2 (body.length + 16) ++ beBytes 4 (ns / 1000000000) ++ beBytes 4 (d.ri r).seqNo
    ++ beBytes 4 (d.word (TEL_RING_ODID.word r).addr).toNat ++ body

/-- The bytes that ring r sends for a message. A Template Set, a message of its own, lists the templates of all kinds (DEDUCED, log
entry 174). -/
def ringBytes (d : Dev) (r ns : Nat) : RingMsg → List Byte
  | .templates => ipfix d r ns (templateSet (d.word TEL_IPFIX_PEN.word.addr).toNat)
  | .records l => ipfix d r ns (dataSets l)
  | .page b => b

/-! ### UDP (R500) -/

/-- The ones' complement sum of 16-bit words, folded. -/
def onesSum (b : List Byte) : Nat :=
  let s := (List.range ((b.length + 1) / 2)).foldl (fun a i => a + beNat (bytesAt b (2 * i) 2)) 0
  let s := s % 65536 + s / 65536
  s % 65536 + s / 65536

/-- The header template of a ring (R506). -/
def ringHeader (d : Dev) (r : Nat) : List Byte :=
  ((List.range 4).flatMap fun q => leBytes 16 (d.wget (wkey mbxTel (r * 16 + q)))).take (min 64 (d.get (TEL_RING_CFG.HDR_LEN r)))

/-- The frame of a message behind its header template, with lengths and checksums filled in (R500). -/
def udpFrame (d : Dev) (r : Nat) (msg : List Byte) : List Byte :=
  let f := ringHeader d r ++ msg
  let o := d.get (TEL_RING_CFG.L3_OFF r)
  let v6 := d.flag (TEL_RING_CFG.IPV6 r)
  let ihl := if v6 then 40 else 4 * (beNat (bytesAt f o 1) % 16)
  let u := o + ihl
  let f := if v6 then overwrite f (o + 4) (beBytes 2 (f.length - o - 40))
    else
      let f := overwrite (overwrite f (o + 2) (beBytes 2 (f.length - o))) (o + 10) [0, 0]
      overwrite f (o + 10) (beBytes 2 (65535 - onesSum (bytesAt f o ihl)))
  let f := overwrite (overwrite f (u + 4) (beBytes 2 (f.length - u))) (u + 6) [0, 0]
  if !v6 ∧ !d.flag (TEL_RING_CFG.UDP_CSUM r) then f else
    let pseudo := if v6 then bytesAt f (o + 8) 32 ++ beBytes 4 (f.length - u) ++ beBytes 4 17
      else bytesAt f (o + 12) 8 ++ beBytes 2 17 ++ beBytes 2 (f.length - u)
    let c := 65535 - onesSum (pseudo ++ f.drop u)
    overwrite f (u + 6) (beBytes 2 (if c = 0 then 65535 else c))

/-- R500, R84: a message's frame enters as an injected frame would. -/
def udpSend (st : State) (d : Dev) (r dt : Nat) (msg : List Byte) : Dev :=
  let b := udpFrame d r msg
  let p := d.get (TEL_RING_CFG.PORT r)
  let now := st.grid.nowQ dt
  let (fid, d) := d.newFrame { inPort := p, bytes := b ++ ethFcs b, complete := true, rxTs := now }
  let pk : Pkt := { fid := fid, inPort := p }
  if d.flag (TEL_RING_CFG.PIPELINE r) then d.slice (p / 32) fun x => { x with staging := x.staging ++ [pk] }
  else
    let pk := { pk with stamped := true, bankB := st.banks.activeB, epoch := epochAt st.grid (p / 32), entered := now }
    pushAdmit d (p / 32) (plainCopy pk p (d.get (TEL_RING_CFG.QUEUE r)))

/-! ### DMA (R501) -/

/-- The function of a ring's world (R85, R114). -/
def telPf (d : Dev) (r : Nat) : Nat := if bit (d.word WLD_TEL_RING.word.addr).toNat r then 1 else 0

/-- Bytes of ring r's host buffer. -/
def dmaSize (d : Dev) (r : Nat) : Nat := 2 ^ max 16 (min 30 (d.get (TEL_RING_SIZE.LOG2_SIZE r)))

/-- The offset that TEL_RINGr_PROD holds. -/
def dmaProd (d : Dev) (r : Nat) : Nat := (d.word (TEL_RING_PROD.word r).addr).toNat % dmaSize d r

/-- R501: the 64-byte boundary at which the next message starts, before any wrap. -/
def dmaOff (d : Dev) (r : Nat) : Nat := (dmaProd d r + 63) / 64 * 64

/-- R501: a message of n bytes would cross the end of the buffer. -/
def dmaWraps (d : Dev) (r n : Nat) : Bool := decide (dmaSize d r < dmaOff d r + n)

/-- R501: a message of n bytes stays clear of what the host has not consumed. -/
def dmaFits (d : Dev) (r n : Nat) : Bool :=
  let size := dmaSize d r
  let prod := dmaProd d r
  let cons := (d.word (TEL_RING_CONS.word r).addr).toNat % size
  let dist := if dmaWraps d r n then size - prod + n else dmaOff d r - prod + n
  decide (dist < if prod = cons then size else (cons + size - prod) % size)

/-- R501: a message goes into ring r's host buffer, or is dropped where it would reach what the host has not consumed. -/
def dmaSend (d : Dev) (r : Nat) (msg : List Byte) : Dev :=
  let size := dmaSize d r
  let base := d.wget (wkey mbxTel (2 ^ 28 + r))
  let off := dmaOff d r
  let wrap := dmaWraps d r msg.length
  let start := if wrap then 0 else off
  if !dmaFits d r msg.length then (d.bump (TEL_RING_DROP.DROP r)).event TEL_STATUS.RING_FULL
  else
    let d := if wrap ∧ off < size then d.emit (.hostWrite (telPf d r) (BitVec.ofNat 64 (base + off)) [0, 0]) else d
    let d := d.emit (.hostWrite (telPf d r) (BitVec.ofNat 64 (base + start)) msg)
    let d := d.put (TEL_RING_PROD.PROD r) ((start + msg.length) % size)
    (d.bump (TEL_RING_SENT.SENT r)).signal (telPf d r) 137

/-! ### Archive (R502) -/

/-- Bytes of a ring's pages. -/
def archSize (d : Dev) (r : Nat) : Nat := poolSize d (d.get (TEL_RING_ARCH.POOL r))

/-- Write a message into a ring's pages; `fuel` bounds the pages it touches. A new page takes the buffers in turn, over
the oldest page once all are used; its 16 bytes are its sequence number and where its first whole message begins. -/
def archWrite (size : Nat) (fuel : Nat) (msg : List Byte) (fresh : Bool) (x : Ring) : Ring :=
  match fuel with
  | 0 => x
  | fuel + 1 =>
    if msg = [] then x else
      let last := x.pages.getLast?
      match last with
      | some (n, b, bytes) =>
        let room := size - bytes.length
        if 0 < room then
          let x := { x with pages := x.pages.dropLast ++ [(n, b, bytes ++ msg.take room)] }
          archWrite size fuel (msg.drop room) false x
        else
          let first := if fresh then 16 else min size (16 + msg.length)
          let page := (x.nextPage, x.bufs.getD (x.nextPage % max 1 x.bufs.length) 0, leBytes 8 x.nextPage ++ leBytes 8 first)
          let keep := if x.bufs.length ≤ x.pages.length then x.pages.drop 1 else x.pages
          archWrite size fuel msg fresh { x with pages := keep ++ [page], nextPage := x.nextPage + 1 }
      | none =>
        let page := (x.nextPage, x.bufs.getD (x.nextPage % max 1 x.bufs.length) 0, leBytes 8 x.nextPage ++ leBytes 8 16)
        archWrite size fuel msg fresh { x with pages := [page], nextPage := x.nextPage + 1 }

/-- The oldest page sequence an archive ring holds (R506 KIND 5). -/
def archOldest (x : Ring) : Nat := match x.pages with
  | p :: _ => p.1
  | [] => x.nextPage

/-! ### Sending (R503) -/

/-- EXPORT_MESSAGE_SEND's effect: the oldest closed message leaves within the ring's rate; one that RATE bytes do not hold takes the
rate of several ticks and leaves with its last byte (DESIGN CHOICE, log entry 162). An archive ring that got no buffer drops it. -/
def messageSend (st : State) (d : Dev) (r dt : Nat) : Dev :=
  match (d.ri r).msgs with
  | [] => d
  | m :: rest =>
    let kind := d.get (TEL_RING_CFG.KIND r)
    let msg := ringBytes d r (st.grid.nowNs dt) m
    let rate := (d.word (TEL_RING_RATE.word r).addr).toNat
    let recs := m.recs
    let lost := (decide (kind = 1) && !dmaFits d r msg.length) || (decide (2 ≤ kind) && (d.ri r).bufs.isEmpty)
    let len := msg.length - (d.ri r).part
    if !d.flag (TEL_RING_CFG.EN r) ∨ (kind = 1 ∧ !hostUp d) then d
    else if rate ≠ 0 ∧ rate < (d.ri r).spent + len then
      d.ring r fun x => { x with part := x.part + (rate - x.spent), spent := max x.spent rate }
    else
      let d := d.ring r fun x => { x with
        msgs := rest, spent := x.spent + len, part := 0
        seqNo := if lost then x.seqNo else (x.seqNo + recs.length) % 2 ^ 32 }
      let d := recs.foldl (fun d x => (bpmFree d 4 x.2.2).2) d
      let d := d.pmuEvent 0 0x0A 1
      match kind with
      | 0 => (udpSend st d r dt msg).bump (TEL_RING_SENT.SENT r)
      | 1 => dmaSend d r msg
      | _ =>
        let size := archSize d r
        if lost then d.bump (TEL_RING_DROP.DROP r) else (d.ring r (archWrite size (msg.length + 2) msg true)).bump (TEL_RING_SENT.SENT r)

/-- EXPORT_MESSAGE_SEND (R503). -/
def execExportMessageSend (r : Fin 16) (dt : Nat) (s : State) : Outc := s.withDev fun d => messageSend s d r dt

/-- Ring r is enabled with the given KIND. -/
def ringOfKind (d : Dev) (r kind : Nat) : Bool := d.flag (TEL_RING_CFG.EN r) && decide (d.get (TEL_RING_CFG.KIND r) = kind)

/-- The pages that a TEL_ARCH_CMD copies, those overwritten skipped (R502). -/
def archPages (d : Dev) (cmd : Word) : List RingMsg :=
  let start := (d.word TEL_ARCH_START.word.addr).toNat
  ((d.ri (bits cmd.toNat 23 20)).pages.filter fun p => decide ((p.1 + 2 ^ 32 - start) % 2 ^ 32 < bits cmd.toNat 15 0)).map
    fun p => .page p.2.2

/-- ARCHIVE_COPY's effect (R502): the pages from START on that are still held join the messages of DMA ring DEST. A command whose rings
are no archive ring and DMA ring, both enabled, is refused (DESIGN CHOICE, log entry 175). -/
def archiveCopy (d : Dev) (cmd : Word) : Dev :=
  let dest := bits cmd.toNat 19 16
  if !(d.flag ID_CAP.ARCHIVE_PRESENT && ringOfKind d (bits cmd.toNat 23 20) 2 && ringOfKind d dest 1) then
    d.event TEL_STATUS.CFG_REJECT
  else
    let l := archPages d cmd
    let d := d.ring dest fun x => { x with msgs := x.msgs ++ l }
    { d with tel := { d.tel with archBusy := true } }

/-- ARCHIVE_COPY (R502). -/
def execArchiveCopy (cmd : Word) (s : State) : Outc := s.withDev fun d => archiveCopy d cmd

/-- Pages of an archive wait to be copied into a DMA ring. -/
def copying (d : Dev) : Bool := d.tel.rings.any fun e => e.2.msgs.any fun
  | .page _ => true
  | _ => false

/-- ARCH_DONE (R502): every page of TEL_ARCH_CMD has left. -/
def execArchDone (s : State) : Outc := s.withDev fun d =>
  if d.tel.archBusy && !copying d then { d with tel := { d.tel with archBusy := false } }.event TEL_STATUS.ARCH_DONE else d

/-! ### Ring settings (R502, R504, R505) -/

/-- A ring is enabled: its Template Set is due, an archive ring takes its buffers. -/
def ringEnable (d : Dev) (r : Nat) : Dev :=
  let d := d.ring r fun _ => { templateDue := true, templateIn := templateFrames d }
  if d.get (TEL_RING_CFG.KIND r) = 2 then
    (List.range (d.get (TEL_RING_ARCH.PAGES r))).foldl (fun d _ =>
      let (g, d) := bpmAlloc d 4 1 true (some (d.get (TEL_RING_ARCH.POOL r)))
      if g.result = 0 then d.ring r fun x => { x with bufs := x.bufs ++ [g.ptr] } else d) d
  else d

/-- A ring is disabled: what it staged is dropped and counted, its buffers go back (R504). -/
def ringDisable (d : Dev) (r : Nat) : Dev :=
  let x := d.ri r
  let recs := x.staged ++ x.msgs.flatMap (·.recs)
  let d := recs.foldl (fun d y => (bpmFree d 4 y.2.2).2) d
  let d := x.bufs.foldl (fun d b => (bpmFree d 4 b).2) d
  let d := d.addTo (TEL_RING_DROP.DROP r) (x.msgs.length + (if x.staged = [] then 0 else 1))
  d.ring r fun _ => {}

/-- A write to TEL_RING_CFG of ring r. -/
def ringCfgWrite (d : Dev) (r : Nat) (v : Word) : Dev :=
  let a := (TEL_RING_CFG.word r).addr
  let old := d.word a
  let reject := d.event TEL_STATUS.CFG_REJECT
  let kind := bits v.toNat 30 29
  let pool := d.get (TEL_RING_ARCH.POOL r)
  let badPool := !(d.get (BPM_POOL_CFG.LOCATION pool) = 1 ∨ d.get (BPM_POOL_CFG.LOCATION pool) = 2)
  if bit old.toNat 31 ∧ v.toNat % 2 ^ 31 ≠ old.toNat % 2 ^ 31 then reject
  else if kind = 3 ∨ (kind = 2 ∧ !d.flag ID_CAP.ARCHIVE_PRESENT) ∨ (kind = 2 ∧ bit v.toNat 31 ∧ badPool) then reject
  else
    let d := d.setWord a v
    match bit old.toNat 31, bit v.toNat 31 with
    | false, true => ringEnable d r
    | true, false => ringDisable d r
    | _, _ => d

/-- A write to TEL_RING_SIZE or TEL_RING_ARCH of ring r, while EN = 0. -/
def ringSetWrite (d : Dev) (r : Nat) (a : Nat) (v : Word) : Dev :=
  if d.flag (TEL_RING_CFG.EN r) then d.event TEL_STATUS.CFG_REJECT else d.setWord a v

end Sys2Proof.Machine
end

