-- ==== Sys2Proof/Machine/Pmu.lean ====
section
/-!
DEFINITION. Counters, snapshots and sampling (chapter 15): the frame snapshot and its two views in BAR2, sweeps, the
PMUs' commands, occupancy and cycle counting, precise sampling of slices and of the Tansy engines.
-/
namespace Sys2Proof.Machine

/-! ### What a snapshot holds (R517-R520, R605) -/

/-- R605: Contour's durations in us and energies in uJ, by their BAR2 offset in part 7. -/
def pwrSlots (d : Dev) : SMap Nat :=
  let m := d.pwr.reasonNs.foldl (fun m e => SMap.put m 0 (8 * e.1) (e.2 / 1000)) []
  let m := d.pwr.energy.foldl (fun m e => SMap.put m 0 (0x40 + 8 * e.1) (e.2 / 1000000)) m
  d.pwr.groupE.foldl (fun m e => SMap.put m 0 (0x80 + 8 * e.1) (e.2 / 1000000)) m

/-- Every counter as it stands (R517): the live view. -/
def liveView (d : Dev) : Snap :=
  { regs := d.regs, wide := d.wide, ctr := d.ctr, depthHist := d.tel.depthHist, sojHist := d.tel.sojHist, ticks := d.ticks
    qstat := d.queues.foldl (fun m e =>
      SMap.put m (0, 0, 0, 0) e.1 (e.2.sojMax, e.2.sojEwma, e.2.depthLast, e.2.depthMax)) []
    pwr := pwrSlots d }

/-- Replace the keys of a map that pass by another map's. -/
def SMap.splice {α : Type} (m o : SMap α) (p : Nat → Bool) : SMap α :=
  (o.keep p).foldl (fun m e => SMap.ins m e.1 e.2) (m.keep fun k => !p k)

/-- R490: a bin of the depth histograms of a queue in which no sample found a cell, after t ticks: bin 0 has counted
them all. -/
def idleBin (t k : Nat) : Word := if k % 16 = 0 then BitVec.ofNat 32 (min (2 ^ 32 - 1) t) else 0

/-- R520: slice s contributes the values its counters held when its warm reset began. -/
def Snap.holdSlice (v o : Snap) (s : Nat) : Snap :=
  let inRegs (k : Nat) : Bool := decide (sliceBase s ≤ k) && decide (k < sliceBase s + 0x100000)
  let inWide (k : Nat) : Bool := inRegs (k / 2 ^ 32)
  let inCtr (k : Nat) : Bool := decide (bar2Slice s ≤ k) && decide (k < bar2Slice s + 0x20000)
  let inQ (k : Nat) : Bool := decide (k / 256 = s)
  let inHist (k : Nat) : Bool := decide (k / 4096 = s)
  { v with
    regs := SMap.splice v.regs o.regs inRegs
    wide := SMap.splice v.wide o.wide inWide
    ctr := SMap.splice v.ctr o.ctr inCtr
    qstat := SMap.splice v.qstat o.qstat inQ
    depthHist := (List.range 256).foldl (fun m i =>
      let k := (256 * s + i) * 16
      m.put (idleBin v.ticks k) k (o.depthHist.get (idleBin o.ticks k) k)) (SMap.splice v.depthHist o.depthHist inHist)
    sojHist := SMap.splice v.sojHist o.sojHist inHist }

/-- R519: bit s for every slice in warm reset. -/
def resetMask (d : Dev) : Nat := (List.range 32).foldl (fun a s => if (d.sl s).inReset then a + 2 ^ s else a) 0

/-- R517: the capture of a frame tick, with the epoch and the time of the tick; a frame's maxima start again (R456, R457).
A capture not yet complete is overwritten by the next (DESIGN CHOICE, log entry 167). -/
def snapCapture (d : Dev) (epoch ptpNs : Nat) (jump : Bool) : Dev :=
  let v := d.pmu.frozen.foldl (fun v e => if (d.sl e.1).inReset then v.holdSlice e.2 e.1 else v) (liveView d)
  let v := { v with
    flags := if jump then 1 else 0, epoch := BitVec.ofNat 64 epoch, ptpNs := ptpNs, resets := resetMask d
    point := d.get PWR_STATE.POINT }
  { d with
    pmu := { d.pmu with taken := some v }
    queues := d.queues.map fun e => (e.1, { e.2 with sojMax := 0, depthMax := 0 }) }

/-! ### The views (R510, R521-R524) -/

/-- A place in a view: the open bit that lets PF0 read it (register and bit), and the block whose world governs it. -/
structure ViewPart where
  openReg : Nat
  openBit : Nat
  loc : Loc
  deriving DecidableEq, Repr

/-- A run of counter registers: the first address, how many, the distance between them. -/
abbrev CntRun := Nat × Nat × Nat

/-- The i-th counter of runs of registers. -/
def runSlot (l : List CntRun) (i : Nat) : Option Nat :=
  match l with
  | [] => none
  | (a, n, st) :: r => if i < n then some (a + i * st) else runSlot r (i - n)

/-- R521: the counters of a device block that are registers, in the order of its register map, arrays by ascending index: every
field that the map says counts and wraps (DEDUCED, log entry 176). -/
def devRuns : Nat → List CntRun
  | 1 => [(0x40024, 3, 0x10), (0x40028, 3, 0x10)]
  | 2 => [(0x1001C, 1, 4)]
  | 3 => [(0x80010, 128, 0x40)]
  | 4 => [(0x90680, 9, 4), (0x90700, 8, 4)]
  | 5 => [(0xA00C0, 8, 4), (0xA1020, 16, 0x40), (0xA1024, 16, 0x40)]
  | 6 => [(0x7001C, 2, 0x10), (0x70100, 10, 4)]
  | 8 => [(0x60040, 12, 4)]
  | _ => []

/-- The kind of block of a device part (R521). -/
def devKind : Nat → BKind
  | 1 => .grt
  | 2 => .hif
  | 3 => .dma
  | 4 => .bpm
  | 5 => .tel
  | 6 => .hk
  | 7 => .pwr
  | 8 => .flt
  | _ => .pmu

/-- A 32-bit counter of a view. -/
def Snap.reg (v : Snap) (a : Nat) : Nat := (v.regs.get 0 a).toNat

/-- A PMU's part (R523): slot 0 the cycle counter, 1 to 8 counters 0 to 7. -/
def Snap.pmuSlot (v : Snap) (m i : Nat) : Nat := (v.ctr.get 0 (pmuCtr m (if i = 0 then 8 else i - 1))).toNat

/-- R521: slot i of device part p. -/
def devSlot (v : Snap) (p i : Nat) : Option Nat :=
  if p = 0 then
    match i with
    | 0 => some (v.seq + v.flags * 2 ^ 32)
    | 1 => some v.epoch.toNat
    | 2 => some (v.ptpNs % 2 ^ 64)
    | 3 => some (v.resets + v.point * 2 ^ 32)
    | _ => none
  else if p = 2 ∧ (i = 1 ∨ i = 2) then
    some (if i = 1 then bits (v.reg HIF_OOB_STAT.word.addr) 31 16 else bits (v.reg HIF_OOB_STAT.word.addr) 15 0)
  else if p = 7 then
    if i < 7 ∨ 8 ≤ i ∧ i < 13 ∨ 16 ≤ i ∧ i < 80 then some (v.pwr.get 0 (8 * i) % 2 ^ 64)
    else (runSlot [(0x50060, 7, 4)] (i - 80)).bind fun a => if 80 ≤ i then some (v.reg a) else none
  else if p = 9 then
    if i < 9 then some (v.pmuSlot 0 i) else (runSlot [(0xB0150, 5, 4)] (i - 9)).map v.reg
  else (runSlot (devRuns p) i).map v.reg

/-- R521: slot i of part p of half h. -/
def halfSlot (v : Snap) (h p i : Nat) : Option Nat :=
  match p with
  | 0 => if i < 64 then some (v.ctr.get 0 (dropCtr h i)).toNat else none
  | 1 => (runSlot [(BUF_CNT_ADMIT h |>.addr, 13, 4)] i).map v.reg
  | 2 => (runSlot [(GZ_CNT_INSERTS h |>.addr, 16, 4)] i).map v.reg
  | 3 =>
    if i < 9 then (runSlot [(SPL_CNT_ENTER h |>.addr, 9, 4)] i).map v.reg
    else if i = 16 ∨ i = 17 then some (v.wide.get 0 (wkey (mbxSpl h) (i - 16))).toNat
    else if 32 ≤ i ∧ i < 80 then (runSlot [(MEM_CNT_WR_CRC h ((i - 32) / 8) |>.addr, 6, 4)] (i % 8)).map v.reg
    else none
  | 4 => if i < 9 then some (v.pmuSlot (halfPmu h) i) else none
  | _ => none

/-- Two neighbouring 32-bit histogram bins as a slot, the first even; `t` is the ticks behind an idle bin 0. -/
def binPair (m : SMap Word) (k t : Nat) : Nat := (m.get (idleBin t k) k).toNat + (m.get 0 (k + 1)).toNat * 2 ^ 32

/-- R522: the parts of slice s's region by offset: part, kind of block with its sub-unit, value. -/
def sliceSlot (v : Snap) (s o : Nat) : Option (Nat × BKind × Nat × Nat) :=
  let cnt (part : Nat) (k : BKind) (sub : Nat) (a n i : Nat) : Option (Nat × BKind × Nat × Nat) :=
    if i < n then some (part, k, sub, v.reg (a + 4 * i)) else none
  if o < 0x4000 then some (0, .pt, 0, (v.ctr.get 0 (bar2Slice s + o)).toNat)
  else if o < 0x8000 then some (1, .eq, 0, (v.ctr.get 0 (bar2Slice s + o)).toNat)
  else if o < 0x18000 then
    let n := s * 256 + (o - 0x8000) / 0x100
    let i := o % 0x100 / 8
    let q := v.qstat.get (0, 0, 0, 0) n
    match i with
    | 0 => some (2, .eq, 0, q.1)
    | 1 => some (2, .eq, 0, q.2.1)
    | 2 => some (2, .eq, 0, q.2.2.1)
    | 3 => some (2, .eq, 0, q.2.2.2)
    | _ =>
      if 8 ≤ i ∧ i < 16 then some (2, .eq, 0, binPair v.sojHist (n * 16 + 2 * (i - 8)) 0)
      else if 16 ≤ i ∧ i < 24 then some (2, .eq, 0, binPair v.depthHist (n * 16 + 2 * (i - 16)) v.ticks)
      else none
  else if o < 0x19000 then
    let n := (o - 0x18000) / 0x80
    cnt 3 .ln 0 (LN_CNT_DETECT (s * 32 + n)).addr 10 (o % 0x80 / 8)
  else if o < 0x19100 then cnt 4 .prs 0 (PRS_CNT_OK s).addr 10 (o % 0x100 / 8)
  else if o < 0x19200 then cnt 7 .act 0 (ACT_CNT_RECIRC s).addr 8 (o % 0x100 / 8)
  else if o < 0x19300 then cnt 8 .ase 0 (ASE_CNT_SEARCHES s).addr 12 (o % 0x100 / 8)
  else if o < 0x19400 then cnt 1 .eq 0 (EQ_CNT_DEMOTED s).addr 13 (o % 0x100 / 8)
  else if o < 0x19500 then cnt 9 .cth 0 (CTH_CNT_IOAM_WRITTEN s).addr 6 (o % 0x100 / 8)
  else if 0x1A000 ≤ o ∧ o < 0x1A000 + 0x1C00 then
    let g := (o - 0x1A000) / 0x100
    cnt (if g < 16 then 5 else 6) .stg g (STG_CNT_PKTS s g).addr 11 (o % 0x100 / 8)
  else if 0x1F000 ≤ o ∧ o < 0x1F048 then some (10, .smp, 0, v.pmuSlot (slicePmu s) ((o - 0x1F000) / 8))
  else if 0x1F048 ≤ o ∧ o < 0x1F058 then some (10, .smp, 0, v.reg (SMP_CNT_SAMPLES.cnt s ((o - 0x1F048) / 8)).addr)
  else none

/-- R521: the 8-byte slot of a view that an offset lies in. -/
def viewSlot (v : Snap) (o : Nat) : Option (ViewPart × Nat) :=
  if o < 0x10000 then
    let p := o / 0x1000
    (devSlot v p (o % 0x1000 / 8)).map fun x => (⟨PMU_BAR2_OPEN_DEV.word.addr, p, ⟨devKind p, 0, 0, 0⟩⟩, x)
  else if o < 0x30000 then
    let h := o / 0x10000 - 1
    let p := o % 0x10000 / 0x1000
    (halfSlot v h p (o % 0x1000 / 8)).map fun x =>
      (⟨PMU_BAR2_OPEN_HALF.word.addr, 5 * h + p, ⟨(match p with
        | 2 => .gz
        | 3 => .spl
        | 4 => .hpmu
        | _ => .buf), h, 0, 0⟩⟩, x)
  else if 0x100000 ≤ o ∧ o < 0x500000 then
    let s := (o - 0x100000) / 0x20000
    (sliceSlot v s (o % 0x20000)).map fun x =>
      (⟨(PMU_BAR2_OPEN_SL.word x.1).addr, s, ⟨x.2.1, s, x.2.2.1, 0⟩⟩, x.2.2.2)
  else none

/-- R521, R525: a read of BAR2 of 4 or 8 bytes: none at a reserved offset, else the value and the device after it. PF0
reads 0 where the part is not open to it or lies in the secure world. -/
def bar2Read (d : Dev) (secure : Bool) (o : Nat) (wide : Bool) : Option (Nat × Dev) :=
  let snap := decide (0x2000000 ≤ o)
  let v := if snap then d.pmu.shown else liveView d
  match viewSlot v (o % 0x2000000) with
  | none => none
  | some (p, x) =>
    if secure ∨ (bit (d.word p.openReg).toNat p.openBit ∧ secureBlock d p.loc = false) then
      some (if wide then x else if o % 8 = 4 then x / 2 ^ 32 else x % 2 ^ 32, d)
    else some (0, d.bump PMU_CNT_BAR2_REFUSED)

/-! ### Snapshots and sweeps (R518, R526-R528) -/

/-- Slots of the host ring. -/
def sweepSlots (d : Dev) : Nat := 2 ^ max 1 (min 8 (d.get PMU_SWEEP_CFG.LOG2_SLOTS))

/-- R526, R527: a shown snapshot starts a sweep where one is due, by its SNAP_SEQ (DESIGN CHOICE, log entry 167), and the ring has a
slot. -/
def startSweep (d : Dev) : Dev :=
  let n := sweepSlots d
  if !d.flag PMU_SWEEP_CFG.EN ∨ d.pmu.shown.seq % 2 ^ min 10 (d.get PMU_SWEEP_CFG.EVERY_LOG2) ≠ 0 ∨ d.pmu.sweeping.isSome then d
  else if (d.get PMU_SWEEP_PROD.PROD + 1) % n = d.get PMU_SWEEP_CONS.CONS % n then
    (d.event PMU_DEV_STATUS.SWEEP_SKIPPED).bump PMU_CNT_SWEEP_SKIPPED
  else { d with pmu := { d.pmu with sweeping := some d.pmu.shown } }

/-- R518: a capture is complete `us` microseconds after its tick and is shown. -/
def snapshotComplete (d : Dev) (us : Nat) : Dev :=
  match d.pmu.taken with
  | none => d
  | some v =>
    let seq := (d.get PMU_SNAP_SEQ.SNAP_SEQ + 1) % 2 ^ 32
    let v := { v with seq := seq, flags := v.flags + (if d.pmu.sweptLate then 2 else 0) }
    let d := { d with pmu := { d.pmu with taken := none, shown := v, sweptLate := false } }
    let d := (d.put PMU_SNAP_SEQ.SNAP_SEQ seq).put PMU_SNAP_LAT.LAT (min us 65535)
    startSweep (if 200 < us then d.event PMU_DEV_STATUS.SNAP_LATE else d)

/-- SNAPSHOT_COMPLETE (R518). -/
def execSnapshotComplete (us : Nat) (s : State) : Outc := s.withDev fun d => snapshotComplete d us

/-- R528: the bank a sweep copies has had to take the second following capture. -/
def sweepOverdue (d : Dev) : Bool := match d.pmu.sweeping with
  | some v => decide (2 ≤ (d.pmu.shown.seq + 2 ^ 32 - v.seq) % 2 ^ 32 + (if d.pmu.taken.isSome then 1 else 0))
  | none => false

/-- SWEEP_DONE (R527): the slot is filled, its header last; a sweep whose bank is taken is never finished (R528), nor one that the host
link does not carry. -/
def execSweepDone (s : State) : Outc := s.withDev fun d =>
  match d.pmu.sweeping with
  | none => d
  | some v =>
    if sweepOverdue d || !hostUp d then d else
    let prod := d.get PMU_SWEEP_PROD.PROD
    let base := d.wget (wkey mbxPmu (3 * 2 ^ 28))
    let d := { d with pmu := { d.pmu with sweeping := none } }
    let d := d.emit (.sweep (if bit (d.word WLD_DEV.word.addr).toNat 11 then 1 else 0) (BitVec.ofNat 64 (base + prod * 0x800000)) (d.get PMU_SWEEP_CFG.PARTS)
      (d.get PMU_SWEEP_SLICES.SLICES) v)
    ((d.put PMU_SWEEP_PROD.PROD ((prod + 1) % sweepSlots d)).bump PMU_CNT_SWEEPS).event PMU_DEV_STATUS.SWEEP_DONE

/-- SWEEP_OVERRUN (R528): a sweep whose bank must take the second following capture is abandoned. -/
def execSweepOverrun (s : State) : Outc := s.withDev fun d =>
  if !sweepOverdue d then d else
    let d := { d with pmu := { d.pmu with sweeping := none, sweptLate := true } }
    (d.event PMU_DEV_STATUS.SWEEP_OVERRUN).bump PMU_CNT_SWEEP_OVERRUN

/-! ### The PMUs' commands (R515, R534) -/

/-- PMU_SYNC asks for an action (0 START, 1 STOP, 2 CLEAR) at the next tick. -/
def pmuSync (d : Dev) (k : Nat) : Dev :=
  if bit d.pmu.sync k then d else { d with pmu := { d.pmu with sync := d.pmu.sync + 2 ^ k } }

/-- START (R515). -/
def execStart (s : State) : Outc := s.withDev fun d => pmuSync d 0

/-- STOP (R515). -/
def execStop (s : State) : Outc := s.withDev fun d => pmuSync d 1

/-- CLEAR (R515). -/
def execClear (s : State) : Outc := s.withDev fun d => pmuSync d 2

/-- Zero counters 0 to 7 of PMU m and OVF. -/
def pmuClear (d : Dev) (m : Nat) : Dev :=
  ((List.range 8).foldl (fun d i => d.ctrPut (pmuCtr m i) 0) d).put (PMU_STATUS.OVF m) 0

/-- Zero the cycle counter of PMU m. -/
def pmuClearCycle (d : Dev) (m : Nat) : Dev := d.ctrPut (pmuCtr m 8) 0

/-- PMU_CMD CLEAR (R534). -/
def execPmuCmdClear (m : Fin 35) (s : State) : Outc := s.withDev fun d => pmuClear d m

/-- PMU_CMD CLEAR_CYCLE (R534). -/
def execClearCycle (m : Fin 35) (s : State) : Outc := s.withDev fun d => pmuClearCycle d m

/-- R515: the actions PMU_SYNC asked for act on all 35 PMUs, after the tick's snapshot: CLEAR first, STOP last (DESIGN CHOICE, log
entry 177). -/
def applySync (d : Dev) : Dev :=
  let k := d.pmu.sync
  let d := { d with pmu := { d.pmu with sync := 0 } }
  let all (d : Dev) (f : Dev → Nat → Dev) : Dev := (List.range 35).foldl f d
  let d := if bit k 2 then all d fun d m => pmuClearCycle (pmuClear d m) m else d
  let d := if bit k 0 then all d fun d m => d.put (PMU_CTL.EN m) 1 else d
  if bit k 1 then all d fun d m => d.put (PMU_CTL.EN m) 0 else d

/-! ### Cycles and occupancies (R511, R512, R514) -/

/-- R579: a core clock in MHz. -/
def coreMhz (point : Nat) : Nat := 1950 - 150 * point

/-- Cells a list of copies waiting between the parser and the queues occupies (R223). -/
def stagedCells (d : Dev) (l : List Pkt) : Nat := l.foldl (fun a p => match d.frame p.fid with
  | some f => a + frameCellsOf f.bytes.length
  | none => a) 0

/-- The occupancy an occupancy code of PMU m stands for, at this tick (log entry 31); none for codes its table does not
list, and for those that only cycles show. -/
def occupancy (d : Dev) (m code : Nat) : Option Nat :=
  if m = 0 then
    match code with
    | 0x80 => some d.hk.late.1
    | 0x81 => some d.hk.late.2
    | 0x82 => some ((List.range 8).foldl (fun a p =>
        if d.get (BPM_POOL_CFG.LOCATION p) = 0 ∧ d.flag (BPM_POOL_CFG.EN p) then a + d.get (BPM_POOL_FREE.FREE p) else a) 0)
    | 0x83 => some d.punts.length
    | _ => none
  else if m < 3 then
    let h := m - 1
    match code with
    | 0x80 => some (d.get (BUF_SHARED_USED.USED h))
    | 0x81 => some (d.get (BUF_FREE.FREE h))
    | 0x82 => some (logHeld d h)
    | 0x83 => some (d.queues.foldl (fun a e => if qHalf e.1 = h then
        a + (e.2.down.filter (·.paged)).length + (e.2.mid.filter fun p => p.reading).length else a) 0)
    | 0x84 => some (d.get (BUF_HEADROOM_USED.USED h))
    | _ => none
  else
    let s := m - 3
    match code with
    | 0x80 => some (stagedCells d (d.sl s).staging)
    | 0x81 => some ((d.sl s).recirc.foldl (fun a c => a + c.cells) 0)
    | 0x83 => some (d.queues.filter fun e => decide (e.1 / 256 = s) && e.2.wheel.isSome).length
    | _ => none

/-- Occupancies that change from cycle to cycle: packet slots filled, slip buffer entries (R514). -/
def cycleOccupancy (m code : Nat) : Bool := decide (3 ≤ m) && (decide (code = 0x82) || decide (code = 0x84))

/-- R512: what the cycles of an epoch add to counter i of PMU m; a free value where only the cycles show it. -/
def occupancyAdd (d : Dev) (m i cycles : Nat) : Nat × Dev :=
  let code := d.get (PMU_EVT.EVENT m i)
  let md := d.get (PMU_EVT.MODE m i)
  let most := if md = 2 then 6 * cycles else cycles
  if cycleOccupancy m code then
    let (w, d) := d.fresh
    (w.toNat % (most + 1), d)
  else match occupancy d m code with
    | none => (0, d)
    | some o =>
      (match md with
        | 1 => if d.get (PMU_THR.N m i) < o then cycles else 0
        | 2 => o * cycles
        | _ => if o = 0 then 0 else cycles, d)

/-- R511-R514: the cycles of the epoch just ended count at PMU m. -/
def pmuCycles (d : Dev) (m cycles : Nat) : Dev :=
  if !d.flag (PMU_CTL.EN m) then d else
    let d := d.ctrAdd (pmuCtr m 8) cycles
    (List.range 8).foldl (fun d i =>
      if d.flag (PMU_CTL.EN m) && d.flag (PMU_EVT.EN m i) && decide (0x80 ≤ d.get (PMU_EVT.EVENT m i))
          && !(decide (i % 2 = 1) && d.flag (PMU_EVT.CHAIN m i)) then
        let (n, d) := occupancyAdd d m i cycles
        if n = 0 then d else d.pmuAdd m i n
      else d) d

/-- The epoch's cycles at every PMU that runs: its ns of core clock less the cycles lost (R55). -/
def countCycles (d : Dev) (ns lost : Nat) : Dev :=
  let cycles := ns * coreMhz (d.get PWR_STATE.POINT) / 1000 - lost
  (List.range 35).foldl (fun d m => pmuCycles d m cycles) d

/-! ### Samples (R529-R532) -/

/-- SLICE_SAMPLE's effect (R531): the oldest sample taken enters the slice's buffer of 1,024. -/
def sliceSample (d : Dev) (s : Nat) : Dev :=
  match (d.sl s).smpDue with
  | [] => d
  | x :: rest =>
    let d := (d.slice s fun y => { y with smpDue := rest }).bump (SMP_CNT_SAMPLES s)
    if (d.sl s).samples.length < 1024 then d.slice s fun y => { y with samples := y.samples ++ [x] }
    else
      let d := d.bump (SMP_CNT_LOST s)
      let d := if d.flag (SMP_STATUS.FULL s) then d else d.event (SMP_STATUS.FULL s)
      if d.flag (SMP_CFG.WRAP s) then d.slice s fun y => { y with samples := y.samples.drop 1 ++ [x] } else d

/-- SLICE_SAMPLE (R529). -/
def execSliceSample (sl : Fin 32) (s : State) : Outc := s.withDev fun d => sliceSample d sl

/-- TANSY_SAMPLE's effect (R532). -/
def tansySample (g : Grid) (d : Dev) (e : Nat) (entry word : BitVec 16) (cycles : Nat) (must late committed : Bool) : Dev :=
  if !d.flag (PMU_TS_CFG.EN e) ∨ d.get (HK_ENGINE.STATE e) ≠ 0 then d else
    let one (b : Bool) (k : Nat) := if b then 2 ^ k else 0
    let x : BitVec 128 := BitVec.ofNat 128 (entry.toNat * 2 ^ 16 + word.toNat + sat 32 cycles * 2 ^ 32
      + (one must 31 + one late 30 + one committed 29 + g.epoch.toNat % 1024) * 2 ^ 64 + g.epoch.toNat % 2 ^ 32 * 2 ^ 96)
    let buf := d.pmu.tansy.get [] e
    let put (d : Dev) (l : List (BitVec 128)) : Dev :=
      { d with pmu := { d.pmu with tansy := d.pmu.tansy.put [] e l } }.put (PMU_TS_STAT.COUNT e) l.length
    if buf.length < 256 then put d (buf ++ [x])
    else
      let d := d.bump PMU_CNT_TS_LOST
      let d := if d.flag PMU_DEV_STATUS.TS_FULL then d else d.event PMU_DEV_STATUS.TS_FULL
      if d.flag (PMU_TS_CFG.WRAP e) then put d (buf.drop 1 ++ [x]) else d

/-- TANSY_SAMPLE (R532). -/
def execTansySample (e : Fin 2) (entry word : BitVec 16) (cycles : Nat) (must late committed : Bool) (s : State) : Outc :=
  s.withDev fun d => tansySample s.grid d e entry word cycles must late committed

/-- R531: a mailbox read of KIND 2 takes the oldest sample of PMU m's buffer (the device PMU has one for each engine). -/
def samplePop (d : Dev) (m e : Nat) : Option (BitVec 128 × Dev) :=
  if m = 0 then
    match d.pmu.tansy.get [] e with
    | [] => none
    | x :: r =>
      some (x, { d with pmu := { d.pmu with tansy := d.pmu.tansy.put [] e r } }.put (PMU_TS_STAT.COUNT e) r.length)
  else if m < 3 ∨ e ≠ 0 then none
  else
    match (d.sl (m - 3)).samples with
    | [] => none
    | x :: r => some (x, d.slice (m - 3) fun y => { y with samples := r })

end Sys2Proof.Machine
end

