-- ==== Sys2Proof/Machine/Tansy.lean ====
section
/-!
DEFINITION. The Tansy engines' life and the Warden (chapter 16, R538-R540, R559-R578): failure, restart, death and takeover,
heartbeats, patches, HK_CMD, the host command and response rings, host events. Microcode runs in Micro.lean.
-/
namespace Sys2Proof.Machine

/-! ### The engines' records -/

/-- Engine e's record. -/
def Dev.tansy (d : Dev) (e : Nat) : Engine := d.hk.eng.get {} e

/-- Change engine e's record. -/
def Dev.setTansy (d : Dev) (e : Nat) (f : Engine → Engine) : Dev :=
  { d with hk := { d.hk with eng := d.hk.eng.put {} e (f (d.tansy e)) } }

/-- STATE's codes (R577). -/
def tsRunning := 0
def tsStopped := 1
def tsLoading := 2
def tsRestarting := 3
def tsDead := 4

/-- The state of engine e. -/
def Dev.tstate (d : Dev) (e : Nat) : Nat := d.get (HK_ENGINE.STATE e)

/-- HB_LIMIT in force (R577). -/
def hbLimit (d : Dev) : Nat := max 1 (min 8 (d.get HK_CTL.HB_LIMIT))

/-! ### Failure, restart, death (R567-R572) -/

/-- R568: the Warden begins a restart: the engine is held in reset and its patches reload. A restart after a failure counts
in RESTARTS and may open the restart window (R571). -/
def beginRestart (d : Dev) (e : Nat) (counted : Bool) : Dev :=
  let d := d.put (HK_ENGINE.STATE e) tsRestarting
  let d := d.bump (HK_CNT_RESTART0.cnt e)
  let r := d.get (HK_ENGINE.RESTARTS e)
  let d := if counted then
      (d.put (HK_ENGINE.RESTARTS e) (min 255 (r + 1))).setTansy e fun x => { x with
        window := if r = 0 then some 1024 else x.window }
    else d
  (d.setTansy e fun x => { x with routine := false, swap := false }).shadow 2 e

/-- R540: the peer takes over the duties of dead engine e, unless it is dead itself. -/
def takeover (d : Dev) (e : Nat) : Dev :=
  if d.tstate (1 - e) = tsDead ∨ d.flag (HK_ENGINE.DUTIES_HELD_BY_PEER e) then d
  else gzResume (((d.put (HK_ENGINE.DUTIES_HELD_BY_PEER e) 1).event HK_STATUS.TAKEOVER).bump HK_CNT_TAKEOVER)

/-- The data of the events that carry HK_FAULTe and a list whose layout the spec does not give: the list is a free value
(R564). -/
def faultEventData (d : Dev) (e : Nat) : Nat × Dev :=
  let (r, d) := d.fresh
  ((d.word (HK_FAULT.word e).addr).toNat + r.toNat * 2 ^ 32, d)

/-- R571: engine e is DEAD. -/
def engineDead (d : Dev) (e : Nat) : Dev :=
  let d := (d.put (HK_ENGINE.STATE e) tsDead).event HK_STATUS.DEAD
  let d := d.report (0x0A2 + e) (d.word (HK_FAULT.word e).addr).toNat
  let (v, d) := faultEventData d e
  let d := d.hostEvent 6 e v
  takeover d e

/-- R572: both engines are out of RUNNING because of failure. -/
def bothOut (d : Dev) : Bool :=
  (d.tansy 0).failed && (d.tansy 1).failed && decide (d.tstate 0 ≠ tsRunning) && decide (d.tstate 1 ≠ tsRunning)

/-- An HK_CMD ends with RESULT r. -/
def hkResult (d : Dev) (r : Nat) : Dev := (d.put HK_CMD_STAT.BUSY 0).put HK_CMD_STAT.RESULT r

/-- R567-R572: engine e fails with a code: recorded, reported, and then restarted, stopped or dead. -/
def engineFail (d : Dev) (e code uaddr : Nat) (post : Bool) : Dev :=
  let routine := (d.tansy e).routine
  if d.tstate e ≠ tsRunning ∧ ¬(d.tstate e = tsRestarting ∧ routine) then d else
    let out := bothOut d
    let swap := (d.tansy e).swap
    let d := d.setWord (HK_FAULT.word e).addr (BitVec.ofNat 32 (uaddr % 65536 * 65536 + (if post then 2048 else 0) + code))
    let d := (d.event HK_STATUS.FAILED).report (0x0A0 + e) (d.word (HK_FAULT.word e).addr).toNat
    let d := d.setTansy e fun x => { x with failed := true, routine := false, swap := false }
    let d := if swap then hkResult { d with hk := { d.hk with applySwap := none } } 4 else d
    let d := if d.tstate e = tsRestarting ∨ max 1 (d.get HK_CTL.RESTART_MAX) ≤ d.get (HK_ENGINE.RESTARTS e) then engineDead d e
      else if d.flag HK_CTL.AUTO_RESTART ∧ d.hk.wardenFailed = false then beginRestart d e true
      else d.put (HK_ENGINE.STATE e) tsStopped
    if bothOut d ∧ out = false then (d.event HK_STATUS.BOTH_OUT).report 0x0A4 0 else d

/-- ENGINE_FAILURE (R567): a code of 0 names no failure. -/
def execEngineFailure (e : Fin 2) (code : Fin 10) (uaddr : BitVec 16) (post : Bool) (s : State) : Outc :=
  s.withDev fun d => if code.val = 0 then d else engineFail d e code uaddr.toNat post

/-- A failure by heartbeat (code 8): where the engine hung, and whether after COMMIT, is a free value. -/
def heartbeatFailure (d : Dev) (e : Nat) : Dev :=
  let (r, d) := d.fresh
  engineFail d e 8 (r.toNat % 65536) (bit r.toNat 16)

/-- PEER_SILENT (R566): engine e reports its peer; the Warden's own run decides. -/
def execPeerSilent (e : Fin 2) (s : State) : Outc := s.withDev fun d =>
  let p := 1 - e.val
  if d.tstate e = tsRunning ∧ d.tstate p = tsRunning ∧ hbLimit d ≤ (d.tansy p).missRun ∧ d.hk.wardenFailed = false
      ∧ hbLimit d ≤ (d.tansy p).stillRun then
    heartbeatFailure d p
  else d

/-- HEARTBEAT_FAIL (R566): the Warden's own run for engine e reaches HB_LIMIT + 2. -/
def execHeartbeatFail (e : Fin 2) (s : State) : Outc := s.withDev fun d =>
  if d.tstate e = tsRunning ∧ d.hk.wardenFailed = false ∧ hbLimit d + 2 ≤ (d.tansy e).stillRun then heartbeatFailure d e
  else d

/-- R566: the heartbeat check of a tick: words each engine retired since the last one. -/
def heartbeats (d : Dev) (w : Nat × Nat) : Dev :=
  let one (d : Dev) (e n : Nat) : Dev :=
    if d.tstate e ≠ tsRunning then d else
      let d := d.addTo (HK_WORDS.WORDS e) n
      let seen := decide (d.tstate (1 - e) = tsRunning)
      let d := if n = 0 ∧ seen then d.bump HK_CNT_HB_MISS else d
      d.setTansy e fun x => { x with
        missRun := if seen then (if n = 0 then x.missRun + 1 else 0) else x.missRun
        stillRun := if d.hk.wardenFailed then x.stillRun else if n = 0 then x.stillRun + 1 else 0 }
  one (one d 0 w.1) 1 w.2

/-! ### Words of an epoch (R55, R56, R556, R558) -/

/-- R558: the words of an epoch of ns at the point in force: half its core cycles, less those lost (R55). -/
def tansyWords (d : Dev) (ns lost : Nat) : Nat := (ns * coreMhz (d.get PWR_STATE.POINT) / 1000 - lost) / 2

/-- R558: the must cap of an epoch. -/
def mustCap : Nat := 368

/-- R56: the words of a capacity that late work and must-work of an engine may use: the must share, and in a catch-up epoch
CATCHUP sixteenths of the optional share, where 0 acts as 1. -/
def mustAllowance (d : Dev) (e cap : Nat) (catchup : Bool) : Nat :=
  let m := min mustCap cap
  if catchup then m + (cap - m) * max 1 (d.get (GRT_LATE_CFG.CATCHUP e)) / 16 else m

/-- Late work of engine e. -/
def lateOf (d : Dev) (e : Nat) : Nat := if e = 0 then d.hk.late.1 else d.hk.late.2

/-- R542, R556: the words left to a routine of engine e: of the must allowance, or of the rest of the epoch's capacity. -/
def wordsLeft (d : Dev) (e : Nat) (must : Bool) (spent : Nat) : Nat :=
  let cap := tansyWords d 1024 0
  let x := d.tansy e
  if must then mustAllowance d e cap (decide (lateOf d e ≠ 0)) - x.usedMust - spent else cap - x.usedMust - x.usedOpt - spent

/-- R552: late must-work comes first: some of engine e's is still to be done, by the words spent in the epoch, of `spent` by other
work, and within what R56 allows. -/
def lateWaits (d : Dev) (e spent : Nat) : Bool :=
  decide ((d.tansy e).usedMust + spent < min (lateOf d e) (mustAllowance d e (tansyWords d 1024 0) true))

/-- Words engine e retired in the epoch: those its routines ran at least. -/
def retired (d : Dev) (e n : Nat) : Nat := max n ((d.tansy e).usedMust + (d.tansy e).usedOpt)

/-- Words that a routine ran count against its share. -/
def spendWords (e n : Nat) (must : Bool) (d : Dev) : Dev := d.setTansy e fun x =>
  if must then { x with usedMust := x.usedMust + n } else { x with usedOpt := x.usedOpt + n }

/-- R540: what is owed by an engine that is DEAD falls to the other. -/
def heldByPeer (d : Dev) (w : Nat × Nat) : Nat × Nat :=
  let dead (e : Nat) : Bool := decide (d.tstate e = tsDead) && !decide (d.tstate (1 - e) = tsDead)
  if dead 0 then (0, w.1 + w.2) else if dead 1 then (w.1 + w.2, 0) else w

/-- R54-R56 for engine e over the epoch just ended, of capacity `cap`: of its late work and the words of must-work that fell
to the epoch, those done, and those that stay owed. An engine that does not run does none (R540). -/
def mustWork (d : Dev) (e cap ran late owed : Nat) : Nat × Nat :=
  let ran := if d.tstate e = tsRunning then min cap (retired d e ran) else 0
  let all := late + min mustCap owed
  let done := min ran (min (mustAllowance d e cap (decide (late ≠ 0))) all)
  (done, all - done)

/-! ### Patches (R547, R570, R573, R574) -/

/-- Indices of HK's mailbox (R578). -/
def stagedWord (part w : Nat) : Nat := wkey mbxHk (part * 2 ^ 12 + w)
def stagedHeader : Nat := wkey mbxHk (2 ^ 28)
def stagedMatch (m : Nat) : Nat := wkey mbxHk (2 * 2 ^ 28 + m)
def liveWord (part e w : Nat) : Nat := wkey mbxHk (5 * 2 ^ 28 + part * 2 ^ 13 + e * 2 ^ 12 + w)

/-- The staged header's fields: ROM_VERSION, PATCH_VERSION, WORDS, MATCHES, ENGINES. -/
def headerRom (d : Dev) : Nat := dataWord (d.wget stagedHeader) 0
def headerVersion (d : Dev) : Nat := dataWord (d.wget stagedHeader) 1
def headerWords (d : Dev) : Nat := bits (dataWord (d.wget stagedHeader) 2) 11 0
def headerMatches (d : Dev) : Nat := bits (dataWord (d.wget stagedHeader) 2) 21 16
def headerEngines (d : Dev) : Nat := bits (dataWord (d.wget stagedHeader) 2) 25 24

/-- R573: the staged header passes. -/
def headerOk (d : Dev) : Bool :=
  decide (headerRom d = d.get HK_ROM_VERSION.ROM_VERSION) && decide (headerVersion d ≠ 0)
    && decide (headerWords d ≤ 2048) && decide (headerMatches d ≤ 32)

/-- The staged patch is written into engine e's patch RAM, match registers and shadow (R574). -/
def loadPatch (d : Dev) (e : Nat) : Dev :=
  let d := (List.range (headerWords d)).foldl (fun d w =>
    (d.wput (liveWord 0 e w) (d.wget (stagedWord 0 w))).wput (liveWord 1 e w) (d.wget (stagedWord 1 w) % 2 ^ 16)) d
  let d := (List.range 32).foldl (fun d m =>
    d.setWord (HK_MATCH.word e m).addr
      (if m < headerMatches d then BitVec.ofNat 32 (dataWord (d.wget (stagedMatch m)) 0) &&& 0x83FFFFFF else 0)) d
  d.put (HK_PATCH_VERSION.VERSION e) (headerVersion d)

/-- R570: words of the shadow bad in both copies reload as ROM-only words, whose content is a free value; the match registers
that target them are cleared. -/
def patchShadowBad (d : Dev) (e : Nat) (bad : List Nat) : Dev :=
  let bad := (sortNat bad).filter fun w => decide (w < 2048)
  if bad = [] then d else
    let d := bad.foldl (fun d w =>
      let (a, d) := d.fresh
      let (b, d) := d.fresh
      let (c, d) := d.fresh
      (d.wput (liveWord 0 e w) (a.toNat + b.toNat * 2 ^ 64)).wput (liveWord 1 e w) (c.toNat % 65536)) d
    let d := (List.range 32).foldl (fun d m =>
      if d.flag (HK_MATCH.VALID e m) ∧ bad.contains (d.get (HK_MATCH.PATCH_WORD e m)) then
        d.setWord (HK_MATCH.word e m).addr 0 else d) d
    (d.event HK_STATUS.SHADOW_BAD).report 0x0A6 0

/-- PATCH_RELOAD_DONE (R568): the restart routine begins. -/
def execPatchReloadDone (e : Fin 2) (bad : List Nat) (s : State) : Outc := s.withDev fun d =>
  if d.tstate e = tsLoading ∨ (d.tstate e = tsRestarting ∧ (d.tansy e).routine = false) then
    ((patchShadowBad d e bad).put (HK_ENGINE.STATE e) tsRestarting).setTansy e fun x => { x with routine := true }
  else d

/-- R574: PATCH_SWAP of engine e: refused with a RESULT, or the engine stops and its patches are written. -/
def patchSwap (d : Dev) (e : Nat) : Dev :=
  let no (r : Nat) : Dev := (hkResult d r).event HK_STATUS.PATCH_REJECT
  if 2 ≤ d.tstate e ∧ d.tstate e ≠ tsDead then no 4
  else if headerOk d = false ∨ bit (headerEngines d) e = false then no 1
  else if d.tstate (1 - e) ≠ tsRunning then no 2
  else
    let d := ((loadPatch d e).put (HK_ENGINE.STATE e) tsLoading).put HK_CMD_STAT.BUSY 1
    d.setTansy e fun x => { x with routine := false, swap := true, failed := false }

/-- R141, R630: an APPLY that still owes an engine its swap makes it, once no engine is loading or restarting. -/
def applySwapNext (d : Dev) : Dev :=
  let busy (e : Nat) : Bool := decide (d.tstate e = tsLoading) || decide (d.tstate e = tsRestarting)
  match d.hk.applySwap with
  | some e =>
    if busy 0 || busy 1 then d else
      let next : Option Nat := if e = 0 ∧ bit (headerEngines d) 1 then some 1 else none
      if bit (headerEngines d) e then patchSwap { d with hk := { d.hk with applySwap := next } } e
      else match next with
        | some n => patchSwap { d with hk := { d.hk with applySwap := none } } n
        | none => { d with hk := { d.hk with applySwap := none } }
  | none => d

/-- The restart routine of engine e ends (R568, R574). -/
def engineRunning (d : Dev) (e : Nat) : Dev :=
  let x := d.tansy e
  if d.tstate e ≠ tsRestarting ∨ x.routine = false then d else
    let d := (d.put (HK_ENGINE.STATE e) tsRunning).put (HK_ENGINE.DUTIES_HELD_BY_PEER e) 0
    let d := d.setTansy e fun x => { x with routine := false, swap := false, failed := false, missRun := 0, stillRun := 0 }
    let d := d.event HK_STATUS.RESTARTED
    let (v, d) := faultEventData d e
    let d := d.hostEvent 5 e v
    let d := gzResume (if d.tstate (1 - e) = tsDead then takeover d (1 - e) else d)
    if x.swap then
      let d := (hkResult d 0).event HK_STATUS.PATCH_DONE
      applySwapNext (d.hostEvent 7 e (d.get (HK_PATCH_VERSION.VERSION e) + d.get HK_ROM_VERSION.ROM_VERSION * 2 ^ 32))
    else applySwapNext d

/-- RESTART_WINDOW_CLOSE (R571): the window's 1,024 frame ticks have passed. -/
def execRestartWindowClose (e : Fin 2) (s : State) : Outc := s.withDev fun d =>
  if (d.tansy e).window = some 0 then
    (d.put (HK_ENGINE.RESTARTS e) 0).setTansy e fun x => { x with window := none }
  else d

/-! ### HK_CMD (R574, R577, R629) -/

/-- HK_CMD with OP op: a command that finds BUSY is discarded. -/
def hkCommand (d : Dev) (op e : Nat) : Dev :=
  if d.flag HK_CMD_STAT.BUSY ∨ op = 0 ∨ 4 < op then d
  else if d.hk.wardenFailed then (if op = 4 then (hkResult d 4).event HK_STATUS.PATCH_REJECT else hkResult d 4)
  else if 1 < e then (if op = 4 then (hkResult d 3).event HK_STATUS.PATCH_REJECT else hkResult d 3)
  else match op with
    | 1 =>
      if d.tstate e ≠ tsRunning then hkResult d 4
      else hkResult (d.put (HK_ENGINE.STATE e) tsStopped) 0
    | 2 =>
      if d.tstate e ≠ tsStopped then hkResult d 4
      else gzResume (hkResult ((d.put (HK_ENGINE.STATE e) tsRunning).setTansy e fun x => { x with
        failed := false, missRun := 0, stillRun := 0 }) 0)
    | 3 =>
      if d.tstate e = 5 ∨ d.tstate e = tsLoading then hkResult d 4
      else
        let d := (d.put (HK_ENGINE.RESTARTS e) 0).setTansy e fun x => { x with window := none }
        hkResult (beginRestart d e false) 0
    | _ => patchSwap d e

/-- HK_STOP (R577). -/
def execHkStop (e : Fin 4) (s : State) : Outc := s.withDev fun d => hkCommand d 1 e

/-- HK_START (R577). -/
def execHkStart (e : Fin 4) (s : State) : Outc := s.withDev fun d => hkCommand d 2 e

/-- HK_RESTART (R571). -/
def execHkRestart (e : Fin 4) (s : State) : Outc := s.withDev fun d => hkCommand d 3 e

/-- PATCH_SWAP (R574). -/
def execPatchSwap (e : Fin 4) (s : State) : Outc := s.withDev fun d => hkCommand d 4 e

/-! ### The host rings (R559-R565) -/

/-- Entries of the command and the response ring (R577). -/
def cmdSlots (d : Dev) : Nat := 2 ^ max 4 (min 12 (d.get HK_RING_CFG.CMD_LOG2))
def rspSlots (d : Dev) : Nat := 2 ^ max 4 (min 12 (d.get HK_RING_CFG.RSP_LOG2))

/-- The response ring has no free entry. -/
def rspFull (d : Dev) : Bool :=
  decide ((d.get HK_RSP_PROD.PROD + 1) % rspSlots d = d.get HK_RSP_CONS.CONS % rspSlots d)

/-- The rings run and engine 0, or the engine holding its duties, serves them (R539). -/
def ringServed (d : Dev) : Bool := d.flag HK_RING_CFG.EN && d.serves 0

/-- Little-endian field of an entry. -/
def leField (b : List Byte) (off n : Nat) : Nat := beNat (bytesAt b off n).reverse

/-- R559: a fetched entry's fields; bad where OP or a reserved byte is none R559 allows. -/
def parseRing (b : List Byte) : RingCmd × Bool :=
  let c : RingCmd := { op := leField b 0 2, tag := leField b 2 2, half := leField b 4 1 % 2, word := BitVec.ofNat 32 (leField b 8 4)
                       cursor := BitVec.ofNat 32 (leField b 12 4), image := BitVec.ofNat 512 (leField b 16 64) }
  (c, decide (c.op = 0) || decide (4 < c.op) || decide (2 ≤ leField b 4 1) || decide (leField b 5 3 ≠ 0)
    || decide (leField b 80 48 ≠ 0))

/-- The function of the HK block's world, under which its rings issue their DMA (R85). -/
def hkPf (d : Dev) : Nat := if bit (d.word WLD_DEV.word.addr).toNat 7 then 1 else 0

/-- COMMAND_FETCH's effect (R559, R560, R562): the entry at CONS is read from the host's command ring. -/
def commandFetch (d : Dev) (entry : List Byte) : Dev :=
  let n := cmdSlots d
  let cons := d.get HK_CMD_CONS.CONS
  if !ringServed d ∨ d.hk.cur.isSome ∨ cons % n = d.get HK_CMD_PROD.PROD % n then d
  else if rspFull d then d.event HK_RING_STATUS.RSP_FULL
  else
    let (c, bad) := parseRing entry
    let c := if bad then { c with answer := some (0xFF, 0, 0, 0) } else c
    let d := d.emit (.hostRead (hkPf d) (BitVec.ofNat 64 (d.wget (wkey mbxHk (3 * 2 ^ 28)) + 128 * (cons % n))) 128)
    let d := (d.put HK_CMD_CONS.CONS ((cons + 1) % n)).bump HK_CNT_CMDS
    let d := { d with hk := { d.hk with cur := some c } }
    if bad then d.event HK_RING_STATUS.CMD_BAD else d

/-- COMMAND_FETCH (R562). -/
def execCommandFetch (entry : List Byte) (s : State) : Outc := s.withDev fun d => commandFetch d entry

/-- The ring's command under way, of OP op and not yet carried out. -/
def ringCur (d : Dev) (op : Nat) : Option RingCmd := match d.hk.cur with
  | some c => if c.op = op ∧ c.started = false ∧ c.answer.isNone then some c else none
  | none => none

/-- The ring's command has its answer. -/
def ringAnswer (d : Dev) (res : Nat) (loc tg : Word) (img : Nat) : Dev :=
  { d with hk := { d.hk with cur := d.hk.cur.map fun c =>
    { c with started := true, answer := some (res, loc, tg, BitVec.ofNat 512 img) } } }

/-- NOP (R559). -/
def execNop (s : State) : Outc := s.withDev fun d =>
  match ringCur d 1 with
  | some _ => if d.serves 0 then ringAnswer d 0 0 0 0 else d
  | none => d

/-- GZ (R560): the command goes to the Gazetteer as if written to GZ_CMD of its half; a table of the secure world is out of
a non-secure ring's reach and answers BAD_TABLE. -/
def ringGz (d : Dev) : Dev :=
  match ringCur d 2 with
  | none => d
  | some c =>
    let t := gcTable c.word
    let secret := bit (d.word WLD_GZ_TABLE.word.addr).toNat t && !secureBlock d ⟨.hk, 0, 0, 0⟩
    let now (res : Nat) : Dev :=
      let (loc, d) := locField d none
      ringAnswer d res (BitVec.ofNat 32 loc) 0 0
    if d.serves 0 = false then d
    else if secret ∨ d.flag (GZ_TBL_CFG.EN c.half t) = false then now gzBadTable
    else if gcOp c.word = 0 ∨ 6 < gcOp c.word then now gzBadOp
    else
      let g : GzCmd := { half := c.half, word := c.word, image := c.image, cursor := c.cursor }
      gzIssue { d with hk := { d.hk with cur := some { c with started := true } } } 2 g

/-- GZ (R560). -/
def execGz (s : State) : Outc := s.withDev ringGz

/-- SCH (R560): carried out once no SCH_CMD runs and its engine serves. -/
def ringSch (d : Dev) : Dev :=
  match ringCur d 3 with
  | none => d
  | some c =>
    let op := bits c.word.toNat 3 0
    let v := c.image.toNat % 2 ^ 128
    if d.flag SCH_CMD_STAT.BUSY ∨ d.serves (schEngine op v) = false then d else
      let (res, id, d) := schBody d op v
      let d := if res ≠ 0 then d.event SCH_STATUS.REFUSED else d
      ringAnswer d res (BitVec.ofNat 32 id) 0 (d.wget (wkey mbxSch 1))

/-- SCH (R560). -/
def execSch (s : State) : Outc := s.withDev ringSch

/-- FENCE (R560): earlier commands have completed, since the ring runs them one after another; their target tick too. -/
def execFence (s : State) : Outc := s.withDev fun d =>
  match ringCur d 4 with
  | some _ => if d.gaz.portTarget.get 0 2 ≤ s.grid.epoch ∧ d.serves 0 then ringAnswer d 0 0 0 0 else d
  | none => d

/-- An entry is written into the response ring (R561). -/
def writeResponse (d : Dev) (b : List Byte) : Dev :=
  let prod := d.get HK_RSP_PROD.PROD
  let d := d.emit (.hostWrite (hkPf d) (BitVec.ofNat 64 (d.wget (wkey mbxHk (3 * 2 ^ 28 + 1)) + 128 * prod)) (bytesAt b 0 128))
  (d.put HK_RSP_PROD.PROD ((prod + 1) % rspSlots d)).event HK_RING_STATUS.RSP_WRITTEN

/-- R561: a response entry. -/
def responseBytes (c : RingCmd) (a : Nat × Word × Word × BitVec 512) : List Byte :=
  leBytes 2 1 ++ leBytes 2 c.tag ++ leBytes 1 a.1 ++ leBytes 1 c.op ++ leBytes 2 0 ++ leBytes 4 a.2.1.toNat
    ++ leBytes 4 a.2.2.1.toNat ++ leBytes 64 a.2.2.2.toNat

/-- R561, R564: a host event entry. -/
def eventBytes (g : Grid) (x : HostEv) : List Byte :=
  leBytes 2 2 ++ leBytes 2 0 ++ leBytes 1 x.kind ++ leBytes 1 x.engine ++ leBytes 2 0 ++ leBytes 4 x.seq
    ++ leBytes 4 (g.epoch.toNat % 2 ^ 32) ++ leBytes 64 x.data.toNat

/-- RESPONSE_WRITE's effect (R561, R562); an SCH command's response waits for the point to reach the floor (R602), and its
reservation's meter acts from then on. -/
def responseWrite (d : Dev) : Dev :=
  match d.hk.cur with
  | some c =>
    match c.answer with
    | some a =>
      if !ringServed d ∨ (c.op = 3 ∧ belowFloor d) then d
      else if rspFull d then d.event HK_RING_STATUS.RSP_FULL
      else
        let d := if c.op = 3 then metersAct d else d
        writeResponse { d with hk := { d.hk with cur := none } } (responseBytes c a)
    | none => d
  | none => d

/-- RESPONSE_WRITE (R561). -/
def execResponseWrite (s : State) : Outc := s.withDev responseWrite

/-- HOST_EVENT_POST's effect (R564, R565): the oldest event goes to the ring, or stays held. -/
def hostEventPost (g : Grid) (d : Dev) : Dev :=
  match d.hk.events with
  | [] => d
  | x :: rest =>
    if !ringServed d then d
    else if rspFull d then d.event HK_RING_STATUS.RSP_FULL
    else
      let d := ({ d with hk := { d.hk with events := rest } }.put HK_EVT_HELD.HELD rest.length).bump HK_CNT_EVENTS
      writeResponse d (eventBytes g x)

/-- HOST_EVENT_POST (R564). -/
def execHostEventPost (s : State) : Outc := s.withDev fun d => hostEventPost s.grid d

end Sys2Proof.Machine
end

