-- ==== Sys2Proof/Machine/Contour.lean ====
section
/-!
DEFINITION. Contour (chapter 17): the limiters and the point in force, the current limiter, the thermal trip, the power cap,
PACE, the throttle reasons, energy attribution. Powers are in mW, energies in pJ (a mW for a ns).
-/
namespace Sys2Proof.Machine

/-- Change Contour's record. -/
def Dev.power (d : Dev) (f : Pwr → Pwr) : Dev := { d with pwr := f d.pwr }

/-! ### Settings (R591, R593, R603) -/

/-- Frames a release waits for (0 acts as 1). -/
def relFrames (d : Dev) : Nat := max 1 (d.get PWR_CAP_CFG.RELEASE)

/-- R593: the cap in mW. -/
def capMw (d : Dev) : Nat := 1000 * max 600 (min 1500 (d.get PWR_CAP.CAP_W))

/-- The hysteresis and the idle power in mW. -/
def hystMw (d : Dev) : Nat := 1000 * d.get PWR_CAP_CFG.HYST_W
def idleMw (d : Dev) : Nat := 1000 * d.get PWR_IDLE.IDLE_W

/-- Fixed mode (R585). -/
def fixedMode (d : Dev) : Bool := d.flag PWR_POINT_LIM.FIXED

/-- The limits are loaded: the core leaves P5 (R133's states TRAIN and RUNNING). -/
def pwrLive (d : Dev) : Bool := decide (d.get BOOT_STATE.STATE = 4) || decide (d.get BOOT_STATE.STATE = 5)

/-! ### The limiters (R583-R585) -/

/-- The base point. -/
def basePoint (d : Dev) : Nat :=
  let m := min 5 (d.get PWR_POINT_LIM.MAX_POINT)
  if d.pwr.boost then m else max m 1

/-- The points that the host, the cap, the thermal, the current and the peer limiter allow. -/
def hostPoint (d : Dev) : Nat := min 5 (d.get PWR_HOST.HOST_MAX)
def limits (d : Dev) : List Nat := [hostPoint d, d.pwr.cap, d.pwr.therm, d.pwr.cur, d.pwr.peer]

/-- The deepest of a list of points. -/
def deepest (l : List Nat) : Nat := l.foldl max 0

/-- FIXED_POINT in force: 0 acts as 1, above 5 as 5. -/
def fixedPoint (d : Dev) : Nat := max 1 (min 5 (d.get PWR_POINT_LIM.FIXED_POINT))

/-- R583: a point made no deeper than the floor of the promise. -/
def floorPoint (d : Dev) (p : Nat) : Nat :=
  if d.flag SCH_PROM_FLOOR.ACTIVE then min p (d.get SCH_PROM_FLOOR.POINT) else p

/-- R583, R585: the point to be in force. -/
def targetPoint (d : Dev) : Nat :=
  if !pwrLive d then 5
  else floorPoint d (if fixedMode d then (if d.pwr.trip then 5 else fixedPoint d)
    else max (basePoint d) (deepest (limits d)))

/-! ### What the limiters set besides the point (R369, R428, R588, R591) -/

/-- Cap actions of a kind still taken. -/
def aseSteps (d : Dev) : Nat := (d.pwr.acts.filter fun a => match a.1 with
  | .ase => true
  | _ => false).length
def splSteps (d : Dev) : Nat := (d.pwr.acts.filter fun a => match a.1 with
  | .splBw => true
  | _ => false).length
def rateSteps (d : Dev) : Nat := (d.pwr.acts.filter fun a => match a.1 with
  | .memRate => true
  | _ => false).length
def linksOff (d : Dev) : Bool := d.pwr.acts.any fun a => match a.1 with
  | .links _ => true
  | _ => false

/-- The throttle level of every slice: 3 in a trip or while the current limiter's fixed-mode action holds. -/
def aseLevel (d : Dev) : Nat := if d.pwr.trip || d.pwr.curAse then 3 else aseSteps d

/-- SPL_BW's limit after n steps. -/
def splLimit (n : Nat) : Nat := match n with
  | 0 => 0xFF
  | 1 => 0xC0
  | 2 => 0x80
  | _ => 0x40

/-- The data rate device k of half h is to run at: the one written (3 acts as 2), less the rate steps taken; 28 Gb/s in a
trip (R588, R591, R602). -/
def wantedRate (d : Dev) (h k : Nat) : Nat :=
  if d.pwr.trip then 0 else min 2 (d.get (MEM_CFG.RATE h k)) - rateSteps d

/-- The data rate device k of half h runs at. -/
def runningRate (d : Dev) (h k : Nat) : Nat := d.pwr.memRate.get 2 (h * 6 + k)

/-- The twelve GDDR7 devices. -/
def memDevs : List (Nat × Nat) := (List.range 12).map fun i => (i / 6, i % 6)

/-- Every GDDR7 device in use runs at the rate wanted, none in retraining. -/
def ratesDone (d : Dev) : Bool :=
  d.buf.retraining.isEmpty && memDevs.all fun x => devOut d x.1 x.2 || decide (runningRate d x.1 x.2 = wantedRate d x.1 x.2)

/-- The levels are set on every slice and half. -/
def setLevels (d : Dev) : Dev :=
  let d := (List.range 32).foldl (fun d s => d.put (ASE_THR.LEVEL s) (aseLevel d)) d
  let spl := splLimit (if d.pwr.trip then 3 else splSteps d)
  let d := if spillPresent d then
      [0, 1].foldl (fun d h => (d.put (SPL_BW.WR_LIMIT h) spl).put (SPL_BW.RD_LIMIT h) spl) d
    else d
  (((d.put PWR_STATE.ASE_LEVEL (aseLevel d)).put PWR_STATE.SPL_STEPS (splSteps d)).put
    PWR_STATE.MEM_RATE_STEPS (rateSteps d)).put PWR_STATE.LINKS_OFF (if linksOff d then 1 else 0)

/-! ### Throttle reasons (R596) -/

/-- Limiter i of `limits` binds: deeper than the base, none deeper; in fixed mode none does. -/
def binds (d : Dev) (i : Nat) : Bool :=
  let x := (limits d).getD i 0
  !fixedMode d && decide (basePoint d < x) && decide (deepest (limits d) ≤ x)

/-- The reasons in force, as REASONS codes them. -/
def reasonBits (d : Dev) : Nat :=
  let alone := !([0, 1, 2, 3].any fun i => decide ((limits d).getD i 0 = d.pwr.peer))
  let b (i : Nat) (on : Bool) : Nat := if on then 2 ^ i else 0
  b 0 (!d.pwr.acts.isEmpty) + b 1 (if fixedMode d then d.pwr.curAse else binds d 3) + b 2 (binds d 2 || d.pwr.trip)
    + b 3 (!d.pwr.drooped.isEmpty) + b 4 (binds d 4 && alone) + b 5 (binds d 0)
    + b 6 (decide (d.get PWR_PACE_BE.FRACTION < 256))

/-- REASONS follows; one that comes into force sets THROTTLE. -/
def setReasons (d : Dev) : Dev :=
  let old := d.get PWR_STATE.REASONS
  let new := reasonBits d
  let d := d.put PWR_STATE.REASONS new
  if (List.range 7).any (fun i => bit new i && !bit old i) then d.event PWR_STATUS.THROTTLE else d

/-! ### Points and voltages (R579-R582) -/

/-- The voltage pair of a point in mV, within its limits (R603). -/
def coreMv (d : Dev) (p : Nat) : Nat := max 680 (min 820 (d.get (PWR_VID.CORE_MV p)))
def sramMv (d : Dev) (p : Nat) : Nat := max 750 (min 850 (d.get (PWR_VID.SRAM_MV p)))

/-- Both voltages of a point are written over AVSBus; without a bus that answers they stay at their last value (R582). -/
def writeVolts (d : Dev) (p : Nat) : Dev :=
  if d.pwr.avsBad then d else (d.emit (.avs 0 (coreMv d p))).emit (.avs 1 (sramMv d p))

/-- R592: where the action in progress has its full effect, it is complete; `start` says that a frame begins now. -/
def actionEffect (start : Bool) (d : Dev) : Dev :=
  if d.pwr.stage = 1 ∧ pointNow d = targetPoint d ∧ ratesDone d then
    d.power fun p => { p with stage := if start then 3 else 2 }
  else d

/-- What follows from a change of any limiter: levels, reasons, TARGET, and the start or the end of a shallower step, whose
voltages are written first (R580, R602); with no AVSBus none starts (R582). -/
def retarget (d : Dev) : Dev :=
  let d := if fixedMode d then d else d.power fun p => { p with curAse := false }
  let d := setReasons (setLevels d)
  let t := targetPoint d
  let d := (d.put PWR_STATE.TARGET t).put PWR_STATE.FIXED_ON (if fixedMode d then 1 else 0)
  let d := if t < pointNow d then
      if d.pwr.rising || d.pwr.avsBad then d
      else writeVolts (d.power fun p => { p with rising := true, settled := false }) (pointNow d - 1)
    else d.power fun p => { p with rising := false, settled := false }
  actionEffect false d

/-- CLOCK_SWITCH_SHALLOWER's effect (R580): both regulators have reported the voltages of the shallower point. -/
def switchShallower (d : Dev) : Dev :=
  if d.pwr.rising && d.pwr.settled && decide (targetPoint d < pointNow d) then
    let d := (d.put PWR_STATE.POINT (pointNow d - 1)).bump PWR_CNT_STEPS_UP
    retarget (d.power fun p => { p with rising := false, settled := false })
  else d

/-- CLOCK_SWITCH_SHALLOWER (R580). -/
def execClockSwitchShallower (s : State) : Outc := s.withDev switchShallower

/-- R580: at a tick the clock switches one point deeper where that is decided, and the voltages follow. -/
def switchDeeper (d : Dev) : Dev :=
  let t := targetPoint d
  if pointNow d < t then
    let d := ((d.put PWR_STATE.POINT (pointNow d + 1)).bump PWR_CNT_STEPS_DOWN).put PWR_STATE.TARGET t
    writeVolts (d.power fun p => { p with rising := false, settled := false }) (pointNow d)
  else d

/-- The current limiter may move: not at P5, no move waiting, its last step switched (R587). -/
def curMay (d : Dev) : Bool :=
  !d.pwr.curMove && decide (d.pwr.cur < 5) && decide (targetPoint d ≤ pointNow d)

/-- R587, R585: an Iout read at or above ICC_MAX. -/
def overCurrent (d : Dev) : Dev :=
  if fixedMode d then
    if d.pwr.curAse then d else (d.power fun p => { p with curAse := true }).event PWR_STATUS.CURRENT_LIMIT
  else if curMay d then d.power fun p => { p with curMove := true }
  else d

/-- AVS_READ_POLL's effect: Vout (mV) and Iout (A) of VDD_CORE and VDD_SRAM, or no answer after the retries
(R581, R582, R587). -/
def avsRead (rd : Option ((Nat × Nat) × (Nat × Nat))) (d : Dev) : Dev :=
  match rd with
  | none =>
    let d := d.power fun p => { p with avsBad := true, rising := false, settled := false }
    retarget (((d.event PWR_STATUS.AVS_ERR).bump PWR_CNT_AVS_ERR).report 0x0B3 0)
  | some ((vc, ic), (vs, is)) =>
    let d := (d.put PWR_IOUT.CORE_A ic).put PWR_IOUT.SRAM_A is
    let near (a b : Nat) : Bool := decide (a ≤ b + 5) && decide (b ≤ a + 5)
    let up := pointNow d - 1
    let ok := d.pwr.rising && near vc (coreMv d up) && near vs (sramMv d up)
    let hot := decide (9 * d.get PWR_ICC.ICC_MAX ≤ 10 * ic)
    let d := d.power fun p => { p with
      avsBad := false, settled := p.settled || ok, accP := p.accP + vc * ic + vs * is, accN := p.accN + 1
      curHot := p.curHot || hot }
    retarget (if d.get PWR_ICC.ICC_MAX ≤ ic then overCurrent d else d)

/-- AVS_READ_POLL (R581). -/
def execAvsReadPoll (rd : Option ((Nat × Nat) × (Nat × Nat))) (s : State) : Outc := s.withDev (avsRead rd)

/-- DROOP_DETECT (R586): a clock domain is stretched. -/
def execDroopDetect (dom : Fin 34) (s : State) : Outc := s.withDev fun d =>
  if d.pwr.drooped.contains dom.val then d
  else setReasons ((d.power fun p => { p with drooped := insertNat dom p.drooped }).bump PWR_CNT_DROOP)

/-- DROOP_RECOVER (R586): the domain's clock is back at full rate. -/
def execDroopRecover (dom : Fin 34) (s : State) : Outc := s.withDev fun d =>
  setReasons (d.power fun p => { p with drooped := p.drooped.filter (· ≠ dom.val) })

/-! ### Temperature (R588) -/

/-- T_TRIP in force. -/
def tripTemp (d : Dev) : Nat := min 105 (d.get PWR_THERM.T_TRIP)

/-- The thermal trip. -/
def thermalTrip (d : Dev) : Dev :=
  let d := d.power fun p => { p with trip := true, therm := 5, thermQuiet := 0 }
  retarget (((d.event PWR_STATUS.THERMAL_TRIP).bump PWR_CNT_TRIPS).report 0x0B1 0)

/-- SENSOR_READ's effect: the hottest junction and its sensor. The critical fault is reported when it is reached. -/
def sensorRead (sensor tj : Nat) (d : Dev) : Dev :=
  let was := d.get PWR_TEMP.TJ_MAX
  let d := (d.put PWR_TEMP.TJ_MAX tj).put PWR_TEMP.SENSOR sensor
  let d := if d.get PWR_THERM.T_THROTTLE < tj + 5 then d.power fun p => { p with thermHot := true } else d
  let d := if tripTemp d < tj ∧ d.pwr.trip = false then thermalTrip d else d
  if 108 ≤ tj ∧ was < 108 then d.report 0x0B2 0 else d

/-- SENSOR_READ (R588). -/
def execSensorRead (sensor : Fin 112) (tj : BitVec 8) (s : State) : Outc := s.withDev (sensorRead sensor tj.toNat)

/-- R588's per-frame row of the control step: a trip ends at or below T_THROTTLE; above it the limiter goes a step deeper than the
point in force (DEDUCED, log entry 163); after RELEASE frames at 5 degrees below it goes a step shallower. -/
def thermalStep (d : Dev) : Dev :=
  let tj := d.get PWR_TEMP.TJ_MAX
  let thr := d.get PWR_THERM.T_THROTTLE
  let quiet := if d.pwr.thermHot ∨ thr < tj + 5 then 0 else d.pwr.thermQuiet + 1
  let now := pointNow d
  let trip := d.pwr.trip && decide (thr < tj)
  let rel := relFrames d
  d.power fun p => { p with
    trip := trip
    therm := if thr < tj then min 5 (max p.therm now + 1) else if rel ≤ quiet then p.therm - 1 else p.therm
    thermQuiet := quiet, thermHot := decide (thr < tj + 5) }

/-- R587's release. -/
def currentStep (d : Dev) : Dev :=
  let hot := decide (9 * d.get PWR_ICC.ICC_MAX ≤ 10 * d.get PWR_IOUT.CORE_A)
  let quiet := if d.pwr.curHot ∨ hot then 0 else d.pwr.curQuiet + 1
  let free := decide (relFrames d ≤ quiet)
  d.power fun p => { p with
    cur := if free then p.cur - 1 else p.cur, curAse := p.curAse && !free, curQuiet := quiet, curHot := hot }

/-! ### Measured power (R590) -/

/-- The modelled energy of coefficient k over events counted by port, in pJ; from coefficient 11 on they count ns. -/
def modelled (d : Dev) (k n : Nat) : Nat := if k < 11 then d.get (PWR_COEF.PJ k) * n else d.get (PWR_COEF.PJ k) * n / 1000

/-- The modelled energy of a frame's events whose coefficient passes. -/
def modelledSum (d : Dev) (ev : SMap Nat) (pass : Nat → Bool) : Nat :=
  ev.foldl (fun a e => if pass (e.1 / 1024) then a + modelled d (e.1 / 1024) e.2 else a) 0

/-- R590: the power of the frame just ended: the average of its AVSBus readings (a free value where there was none), and that of
the other rails. -/
def framePower (d : Dev) : Nat × Dev :=
  let avs := if d.pwr.accN = 0 then (d.fresh.1.toNat % 2 ^ 24, d.fresh.2) else (d.pwr.accP / d.pwr.accN, d)
  let d := avs.2
  let rest := if d.flag PWR_EXT.VALID then 1000 * d.get PWR_EXT.W
    else modelledSum d d.pwr.frameE (fun k => decide (11 ≤ k)) / max 1 d.pwr.frameNs
  (avs.1 + rest, d)

/-- The average over WINDOW frames. -/
def avgPower (d : Dev) : Nat :=
  let l := d.pwr.frames.take (max 1 (d.get PWR_CAP_CFG.WINDOW))
  l.foldl (· + ·) 0 / max 1 l.length

/-- R592: the saving of the newest action is the power of the frame before it less the present frame's. -/
def noteSaving (p : Pwr) (now : Nat) : Pwr := match p.acts with
  | (k, before, none) :: r => { p with acts := (k, before, some (before - now)) :: r }
  | _ => p

/-- A frame tick at Contour, before anything of the tick changes it: the frame's energy events and power are taken, and an
action whose first whole frame this was is in progress no more. -/
def contourFrame (frameNs : Nat) (d : Dev) : Dev :=
  let d := { d with energy := [], energyGrp := [],
                    pwr := { d.pwr with frameE := d.energy, frameG := d.energyGrp, frameNs := frameNs } }
  let (w, d) := framePower d
  let d := d.power fun p => { p with
    frames := (w :: p.frames).take 15, accP := 0, accN := 0, stale := if pwrLive d then p.stale + 1 else 0 }
  let d := (d.put PWR_POWER.FRAME_W (min 0xFFFF (w / 1000))).put PWR_POWER.AVG_W (min 0xFFFF (avgPower d / 1000))
  let d := actionEffect false d
  match d.pwr.stage with
  | 2 => d.power fun p => { p with stage := 3 }
  | 3 => d.power fun p => { noteSaving p w with stage := 0 }
  | _ => d

/-! ### The power cap (R591-R594) -/

/-- R591, R602: the ladder has a further compute step, none during a trip: a point, not in fixed mode, or an ASE level. -/
def computeStep (d : Dev) : Option CapStep :=
  let pos := max d.pwr.cap (pointNow d)
  if d.pwr.trip then none
  else if !fixedMode d && decide (pos < floorPoint d 5) then some (.point d.pwr.cap)
  else if aseSteps d < 3 then some .ase
  else none

/-- R591: a memory step: SPL_BW first, then the data rate while a device's is above 28 Gb/s. -/
def memoryStep (d : Dev) : Option CapStep :=
  if !spillPresent d then none
  else if splSteps d < 3 then some .splBw
  else if memDevs.any (fun x => decide (rateSteps d < min 2 (d.get (MEM_CFG.RATE x.1 x.2)))) then some .memRate
  else none

/-- R162, R591: the lanes the links step powers off. -/
def idleLanes (d : Dev) : List Nat := (List.range 1024).filter fun l =>
  decide (laneState d l = 0) && d.flag (LN_STATE.POWERED l)
    && (match portOf d l with
      | some p => !d.flag (LN_CTL.ADMIN_UP p)
      | none => true)

/-- The next step of the ladders, in the order of FIRST, SECOND and THIRD. -/
def nextStep (d : Dev) : Option CapStep :=
  let dom (c : Nat) : Option CapStep := match c with
    | 0 => computeStep d
    | 1 => memoryStep d
    | _ => if linksOff d then none else some (.links (idleLanes d))
  (dom (d.get PWR_CAP_CFG.FIRST)).orElse fun _ =>
    (dom (d.get PWR_CAP_CFG.SECOND)).orElse fun _ => dom (d.get PWR_CAP_CFG.THIRD)

/-- A step is taken. -/
def takeStep (k : CapStep) (d : Dev) : Dev :=
  let now := pointNow d
  let d := match k with
    | .point _ => d.power fun p => { p with cap := min 5 (max p.cap now + 1) }
    | .links off => off.foldl (fun d l => d.put (LN_STATE.POWERED l) 0) d
    | _ => d
  d.power fun p => { p with acts := (k, p.frames.headD 0, none) :: p.acts, stage := 1, calm := 0 }

/-- The most recent action is undone. -/
def undoStep (d : Dev) : Dev := match d.pwr.acts with
  | [] => d
  | (k, _, _) :: r =>
    let d := match k with
      | .point old => d.power fun p => { p with cap := old }
      | .links off => off.foldl (fun d l => d.put (LN_STATE.POWERED l) 1) d
      | _ => d
    d.power fun p => { p with acts := r, stage := 1, calm := 0 }

/-- R594: FRACTION at a step in CAP_DEFICIT. -/
def deficitStep (p : Nat) (d : Dev) : Dev :=
  let f := d.get PWR_PACE_BE.FRACTION
  if capMw d < p then
    d.put PWR_PACE_BE.FRACTION (max 16 (f * (capMw d - idleMw d) / max 1000 (p - idleMw d)))
  else if p + hystMw d ≤ capMw d then d.put PWR_PACE_BE.FRACTION (min 256 (f + 16))
  else d

/-- R592: the newest action still taken may be undone at power p. -/
def calmAt (p : Nat) (d : Dev) : Bool := match d.pwr.acts with
  | [] => false
  | (_, _, s) :: _ => decide (p + s.getD 0 + hystMw d ≤ capMw d)

/-- The cap's part of the control step (R592, R594) at measured power p. -/
def capStep (p : Nat) (d : Dev) : Dev :=
  let inDeficit := decide (d.get PWR_PACE_BE.FRACTION < 256)
  let d := if inDeficit then deficitStep p d else d
  if d.pwr.stage ≠ 0 then d
  else if capMw d < p then
    let d := d.power fun q => { q with calm := 0 }
    match nextStep d with
    | some k => takeStep k d
    | none => if inDeficit then d else
      deficitStep p (((d.event PWR_STATUS.CAP_DEFICIT).bump PWR_CNT_DEFICIT).report 0x0B0 0)
  else if inDeficit then d
  else if calmAt p d then
    let d := d.power fun q => { q with calm := q.calm + 1 }
    if relFrames d ≤ d.pwr.calm then undoStep d else d
  else d.power fun q => { q with calm := 0 }

/-- R584: boost. -/
def boostStep (p : Nat) (d : Dev) : Dev :=
  let ok := d.flag PWR_POINT_LIM.BOOST_EN && !fixedMode d && decide (d.get PWR_POINT_LIM.MAX_POINT = 0)
    && decide (d.get PWR_HOST.HOST_MAX = 0) && decide (d.get PWR_TEMP.TJ_MAX < d.get PWR_THERM.T_BOOST)
    && decide (p + 2 * hystMw d ≤ capMw d) && decide (reasonBits d = 0)
  d.power fun q => { q with boost := ok }

/-! ### Energy attribution (R600, R601) -/

/-- s times a modelled energy: s = num / den limited to 1/4 to 4. -/
def scaled (num : Int) (den e : Nat) : Nat :=
  if (4 * num < (den : Int)) then e / 4
  else if 4 * (den : Int) < num then 4 * e
  else e * num.toNat / max 1 den

/-- Add modelled energies, scaled, to totals: each event's key picks the total. -/
def addScaled (d : Dev) (num : Int) (den : Nat) (ev tot : SMap Nat) (key : Nat → Option Nat) (coef : Nat → Nat) : SMap Nat :=
  ev.foldl (fun m e => match key e.1 with
    | some k => SMap.put m 0 k (SMap.get m 0 k + scaled num den (modelled d (coef e.1) e.2))
    | none => m) tot

/-- R601: the frame just ended is attributed to ports, groups and domains. -/
def shareEnergy (d : Dev) : Dev :=
  let ns := d.pwr.frameNs
  let meas := d.pwr.frames.headD 0 * ns
  let num : Int := (meas : Int) - (idleMw d * ns : Nat)
  let den := modelledSum d d.pwr.frameE (fun k => decide (k ≤ 14))
  let d := if 4 * num < (den : Int) ∨ 4 * (den : Int) < num then d.event PWR_STATUS.ATTR_CLAMP else d
  let byPort (e : Nat) : Option Nat := if e / 1024 ≤ 14 then some (e % 1024) else none
  let last := addScaled d num den d.pwr.frameE [] byPort (· / 1024)
  let charged := last.foldl (fun a e => a + e.2) 0
  let dom (e : Nat) : Option Nat := some (if e / 1024 ≤ 8 then 1 else if e / 1024 ≤ 10 then 2 else 3)
  let en := addScaled d num den d.pwr.frameE d.pwr.energy dom (· / 1024)
  let en := SMap.put en 0 0 (SMap.get en 0 0 + meas)
  let en := SMap.put en 0 4 (SMap.get en 0 4 + meas - charged)
  let grp := addScaled d num den d.pwr.frameG d.pwr.groupE (fun e => some (e % 64)) (· / 64)
  let ports := last.foldl (fun m e => SMap.put m 0 e.1 (SMap.get m 0 e.1 + e.2)) d.pwr.portE
  d.power fun p => { p with energy := en, groupE := grp, portE := ports, portLast := last }

/-! ### The control step (R539, R584-R594, R601) -/

/-- CONTROL_STEP's effect: once a frame, where an engine serves it (R589). -/
def controlStep (d : Dev) : Dev :=
  if pwrLive d && d.serves 0 && decide (1 ≤ d.pwr.stale) then
    let p := avgPower d
    let d := capStep p (currentStep (thermalStep d))
    let d := shareEnergy (boostStep p d)
    retarget (d.power fun q => { q with stale := 0, staleRaised := false })
  else d

/-- CONTROL_STEP (R592). -/
def execControlStep (s : State) : Outc := s.withDev controlStep

/-- STEP_STALE (R589): raised once a run of four frame ticks without a control step. -/
def execStepStale (s : State) : Outc := s.withDev fun d =>
  if 4 ≤ d.pwr.stale ∧ d.pwr.staleRaised = false then
    (d.power fun p => { p with staleRaised := true }).event PWR_STATUS.STEP_STALE
  else d

/-! ### PACE (R597-R599) -/

/-- PT of a depth. -/
def pacePoint (d : Dev) (depth : Nat) : Nat := match depth with
  | 0 => 0
  | 1 => min 5 (d.get PWR_PACE_CFG.PT1)
  | 2 => min 5 (d.get PWR_PACE_CFG.PT2)
  | _ => min 5 (d.get PWR_PACE_CFG.PT3)

/-- R597, R585: the chip's own depth: from its base, host, cap, thermal and current limiters; in fixed mode from a trip only. -/
def ownDepth (d : Dev) : Nat :=
  if !d.flag PWR_PACE_CFG.PACE_EN then 0 else
    let t := if fixedMode d then (if d.pwr.trip then 5 else 0)
      else max (basePoint d) (deepest ((limits d).take 4))
    if d.get PWR_PACE_CFG.PT3 ≤ t then 3 else if d.get PWR_PACE_CFG.PT2 ≤ t then 2
    else if d.get PWR_PACE_CFG.PT1 ≤ t then 1 else 0

/-- The depth driven becomes n: PACE[i] is held low for every i below it. -/
def paceTo (d : Dev) (n : Nat) : Dev :=
  let old := d.get PWR_STATE.PACE_OUT
  if old = n then d else
    let d := (List.range 3).foldl (fun d i =>
      if decide (i < old) = decide (i < n) then d else d.emit (.pin ("PACE[" ++ toString i ++ "]") (decide (n ≤ i)))) d
    let d := (d.put PWR_STATE.PACE_OUT n).bump PWR_CNT_PACE_CHANGES
    if d.get GRT_GSYNC_CTL.ROLE = 1 ∨ d.get GRT_GSYNC_CTL.ROLE = 2 then d else d.put PWR_PACE_STAT.ORIG (ownPace d)

/-- R598: the drive after a tick: deeper at once, shallower after RELEASE frames; none with PACE_EN = 0. -/
def paceDrive (d : Dev) : Dev :=
  let own := ownDepth d
  let out := d.get PWR_STATE.PACE_OUT
  if !d.flag PWR_PACE_CFG.PACE_EN ∨ out ≤ own then
    paceTo (d.power fun p => { p with paceQuiet := 0, paceMax := 0 }) own
  else
    let d := d.power fun p => { p with paceQuiet := p.paceQuiet + 1, paceMax := max p.paceMax own }
    if d.get PWR_PACE_CFG.RELEASE * 1024 ≤ d.pwr.paceQuiet then
      paceTo (d.power fun p => { p with paceQuiet := 0, paceMax := 0 }) d.pwr.paceMax
    else d

/-- PACE_SAMPLE (R598): the lines held low 512 ns after a tick. -/
def execPaceSample (low : BitVec 3) (s : State) : Outc := s.withDev fun d =>
  if d.flag PWR_PACE_CFG.PACE_EN then
    d.put PWR_STATE.PACE_IN (if low.getLsbD 2 then 3 else if low.getLsbD 1 then 2 else if low.getLsbD 0 then 1 else 0)
  else d.put PWR_STATE.PACE_IN 0

/-! ### Contour at a tick (R580, R587, R596, R598, R600) -/

/-- The reasons in force advance by the epoch's ns. -/
def reasonTime (ns : Nat) (d : Dev) : Dev :=
  let r := d.get PWR_STATE.REASONS
  (List.range 7).foldl (fun d i => if bit r i then
    d.power fun p => { p with reasonNs := p.reasonNs.put 0 i (p.reasonNs.get 0 i + ns) } else d) d

/-- R600: the powered lanes' events of an epoch of ns. -/
def lanePower (ns : Nat) (d : Dev) : Dev :=
  (List.range 1024).foldl (fun d l =>
    if d.flag (LN_STATE.POWERED l) then
      match portOf d l with
      | some p => d.charge (14 - d.get (LN_STATE.RATE l)) ns p 0
      | none => d.charge 15 ns 0 0
    else d) d

/-- What a tick does at Contour after its hardware work: the current limiter's move, the peer limiter, a deeper switch, the
PACE drive. `start` says that a frame begins with the tick. -/
def contourTick (start : Bool) (d : Dev) : Dev :=
  let now := pointNow d
  let d := if d.pwr.curMove then
      (d.power fun p => { p with curMove := false, cur := min 5 (max p.cur now + 1) }).event PWR_STATUS.CURRENT_LIMIT
    else d
  let peer := if d.flag PWR_PACE_CFG.PACE_EN && !fixedMode d then pacePoint d (d.get PWR_STATE.PACE_IN) else 0
  let d := d.power fun p => { p with peer := peer }
  let d := actionEffect start (switchDeeper (retarget d))
  paceDrive (retarget d)

/-! ### GDDR7 data rates (R437) -/

/-- DATA_RATE_CHANGE's effect (R437): the rate wanted reaches a device of a half in which no other device retrains. -/
def rateChange (h k : Nat) (d : Dev) : Dev :=
  if spillPresent d && !devOut d h k && decide (runningRate d h k ≠ wantedRate d h k)
      && !((List.range 6).any fun j => d.buf.retraining.contains (h * 6 + j)) then
    let w := wantedRate d h k
    retrainStart (d.power fun p => { p with memRate := p.memRate.put 2 (h * 6 + k) w }) h k
  else d

/-- DATA_RATE_CHANGE (R437). -/
def execDataRateChange (h : Fin 2) (k : Fin 6) (s : State) : Outc := s.withDev (rateChange h k)

/-! ### Registers of PWR (R603, R604) -/

/-- R603: a write refused under its Meaning: ladder domains that are no permutation, PT1 < PT2 < PT3 not holding. -/
def pwrRefuses (a : Nat) (v : Word) : Bool :=
  let f (x : Fld) : Nat := x.read v
  if a = PWR_CAP_CFG.word.addr then
    !(decide (sortNat [f PWR_CAP_CFG.FIRST, f PWR_CAP_CFG.SECOND, f PWR_CAP_CFG.THIRD] = [0, 1, 2]))
  else if a = PWR_PACE_CFG.word.addr then
    !(decide (f PWR_PACE_CFG.PT1 < f PWR_PACE_CFG.PT2) && decide (f PWR_PACE_CFG.PT2 < f PWR_PACE_CFG.PT3))
  else false

/-- R603: the voltage pair of the point in force, once written, is applied over AVSBus at once. -/
def vidApplied (a : Nat) (d : Dev) : Dev :=
  if a = (PWR_VID.word (pointNow d)).addr then writeVolts d (pointNow d) else d

/-- R604: a value behind the PWR mailbox; none for indices the table does not give. -/
def pwrWide (d : Dev) (idx : Nat) : Option Nat :=
  let i := idx % 2 ^ 28
  let uj (m : SMap Nat) (k : Nat) : Nat := m.get 0 k / 1000000 % 2 ^ 64
  match idx / 2 ^ 28 with
  | 0 => if i < 7 then some (d.pwr.reasonNs.get 0 i / 1000 % 2 ^ 64) else none
  | 1 => if i < 5 then some (uj d.pwr.energy i) else none
  | 2 => if i < 64 then some (uj d.pwr.groupE i) else none
  | 3 => if i < 1024 then some (if isPort d i then uj d.pwr.portE i else 0) else none
  | 4 => if i < 256 then
      some ((List.range 4).foldl (fun a j => a + d.pwr.portLast.get 0 (4 * i + j) / 1000000 % 2 ^ 32 * 2 ^ (32 * j)) 0)
    else none
  | _ => none

end Sys2Proof.Machine
end

