-- ==== Sys2Proof/Machine/Faults.lean ====
section
/-!
DEFINITION. The fault collector and what it does about faults (chapter 18): classes and windows, severe reactions, slice warm
resets and fences, first-error capture and log, FAULT_N, reset shadows, SAFE, the Warden's watch, fabric transfers.
-/
namespace Sys2Proof.Machine

/-- Change the collector's record. -/
def Dev.coll (d : Dev) (f : Flt → Flt) : Dev := { d with flt := f d.flt }

/-! ### Sources and classes (R606, R610-R613) -/

/-- R606: an id in use. -/
def validSource (src : Nat) : Bool :=
  decide (src < 0xC0) || (decide (0x100 ≤ src) && decide (src < 0x300) && decide (src % 256 ≤ 0xAF))
    || (decide (0x400 ≤ src) && decide (src < 0x400 + 0x60 * 32) && decide ((src - 0x400) % 0x60 ≤ 0x4F))

/-- R612: sources that always belong to class 31. -/
def criticalSource (src : Nat) : Bool := [0x051, 0x052, 0x0A4, 0x0A5, 0x0B2].contains src

/-- R613: the class of a source after reset. -/
def defaultClass (src : Nat) : Nat :=
  let within (lo hi v : Nat) : Bool := decide (lo ≤ v) && decide (v ≤ hi)
  if criticalSource src then 31
  else if [0x023, 0x024, 0x050, 0x053].contains src then 1
  else if within 0x020 0x022 src then 2
  else if within 0x090 0x09F src then 3
  else if within 0x0A0 0x0A3 src then 4
  else if [0x0B0, 0x0B1, 0x0B3].contains src then 5
  else if src < 0x100 then 0
  else if src < 0x400 then
    let o := src % 256
    if o ≤ 0x3F then 7 else if o ≤ 0x47 then 8 else if o ≤ 0x57 then 9 else if o ≤ 0x87 then 10
    else if o ≤ 0x8F then 9 else 6
  else
    let o := (src - 0x400) % 0x60
    if o ≤ 0x1F then 11 else if o ≤ 0x40 then 12 else if o = 0x41 then 14 else if o = 0x42 then 13
    else if o = 0x43 then 12 else if o ≤ 0x45 then 14 else if o ≤ 0x47 then 13 else if o ≤ 0x4B then 11 else 6

/-- A source's map entry: class, MASK, PATH_FAILED. -/
def sourceMap (d : Dev) (src : Nat) : Nat × Bool × Bool := (d.flt.map.get none src).getD (defaultClass src, false, false)

/-- R611: W in force, the frame tick a source's window opened at, and whether it is open. A window is kept as
(1 + frame tick of its opening) * 65536 + W. -/
def classW (d : Dev) (c : Nat) : Nat := max 1 (d.get (FLT_CLASS.W c))
def windowDue (d : Dev) (src : Nat) : Bool :=
  let w := d.flt.wins.get 0 src
  decide (w ≠ 0) && decide (w / 65536 - 1 + w % 65536 ≤ d.flt.frameNo)
def windowOpen (d : Dev) (src : Nat) : Bool := decide (d.flt.wins.get 0 src ≠ 0) && !windowDue d src

/-- A source's count returns to 0 and its window closes. -/
def endWindow (d : Dev) (src : Nat) : Dev :=
  d.coll fun f => { f with counts := f.counts.put 0 src 0, wins := f.wins.put 0 src 0 }

/-- R610, R612, R633: a source-map write: class and MASK; PATH_FAILED clears, and a change clears the count. A critical source
is neither moved nor masked. -/
def mapWrite (d : Dev) (src cls : Nat) (mask : Bool) : Dev :=
  let (c, m, _) := sourceMap d src
  if criticalSource src then
    if cls = 31 ∧ mask = false then d.coll fun f => { f with map := f.map.put none src (some (c, m, false)) } else d
  else
    let d := d.coll fun f => { f with map := f.map.put none src (some (cls, mask, false)) }
    if c ≠ cls ∨ m ≠ mask then endWindow d src else d

/-! ### FAULT_N (R621, R629, R648) -/

/-- The pin is held whatever FAULT_HOLD says. -/
def faultHeld (d : Dev) : Bool :=
  d.flag FLT_STATE.SAFE || d.hk.wardenFailed || d.flt.fatal || bothOut d || d.flt.dead || d.pins.coreLost

/-- The pin and FLT_STATE follow what stands. -/
def faultPin (d : Dev) : Dev :=
  let held := faultHeld d || d.flt.latched
  let low := held || d.flt.pulse
  let d := (d.put FLT_STATE.HELD (if held then 1 else 0)).put FLT_STATE.WARDEN_OK (if d.hk.wardenFailed then 0 else 1)
  if d.flag FLT_STATE.FAULT_N = low then d
  else (d.put FLT_STATE.FAULT_N (if low then 1 else 0)).emit (.pin "FAULT_N" !low)

/-- FAULT_N_RELEASE (R621): 10 us after the last severe event. -/
def execFaultNRelease (s : State) : Outc := s.withDev fun d => faultPin (d.coll fun f => { f with pulse := false })

/-- RELEASE's effect (R621): ignored while SAFE, BOTH_OUT, a Warden failure or a DEVICE_FATAL reaction stands; it ends the
hold of a DEVICE_FATAL whose reset has been. -/
def releasePin (d : Dev) : Dev :=
  if d.flag FLT_STATE.SAFE || d.hk.wardenFailed || d.flt.fatalDue || bothOut d then d
  else faultPin (d.coll fun f => { f with latched := false, fatal := false })

/-- RELEASE (R621). -/
def execRelease (s : State) : Outc := s.withDev releasePin

/-! ### Capture and log (R619, R620) -/

/-- R619. -/
def captureFirst (d : Dev) (src cls detail now : Nat) : Dev :=
  if d.flag FLT_FIRST.VALID then
    (d.put FLT_FIRST_OVF_CNT.COUNT (min 0xFFFFFFFF (d.get FLT_FIRST_OVF_CNT.COUNT + 1))).event FLT_FIRST.OVERFLOW
  else
    let d := ((d.put FLT_FIRST.CLASS cls).put FLT_FIRST.SOURCE src).put FLT_FIRST_DETAIL.DETAIL detail
    (d.coll fun f => { f with firstTime := now }).event FLT_FIRST.VALID

/-- R620. -/
def logEvent (d : Dev) (e : FltLog) : Dev :=
  if 256 ≤ d.flt.log.length then (d.bump FLT_CNT_LOG_LOST).event FLT_STATUS.LOG_LOST
  else
    let d := d.coll fun f => { f with log := f.log ++ [e] }
    d.put FLT_LOG_STAT.COUNT d.flt.log.length

/-- R633: a log entry as the mailbox shows it. -/
def logWord (e : FltLog) : Nat :=
  e.src + e.cls * 2 ^ 12 + (if e.conseq then 2 ^ 17 else 0) + (if e.severe then 2 ^ 18 else 0) + e.react * 2 ^ 19
    + (if e.inj then 2 ^ 22 else 0) + e.detail * 2 ^ 32 + e.time % 2 ^ 64 * 2 ^ 64

/-- R633: the oldest entry is read and removed; none where the log is empty. -/
def logPop (d : Dev) : Option (Nat × Dev) := match d.flt.log with
  | [] => none
  | e :: r => some (logWord e, (d.coll fun f => { f with log := r }).put FLT_LOG_STAT.COUNT r.length)

/-! ### Slice warm reset (R152, R210, R520, R616, R617) -/

/-- A packet or copy is lost in the slice's reset: counted, with no record (R482). -/
def lostInReset (d : Dev) (s fid : Nat) : Dev := dropFrame (countDrop d (s / 16) drSliceReset) fid

/-- R616: what a slice holds is discarded: parser, stages and staging buffer with the transfers that wait there, recirculation
queue, frames its ports were sending, learn events (R330); its ASE cells are loaded from the shadow (R372). -/
def discardSlice (d : Dev) (s : Nat) : Dev :=
  let x := d.sl s
  let d := { d with aseFlips := d.aseFlips.filter fun e => decide (e.1 / 2 ^ 15 ≠ s) }
  let mine (y : Nat × Copy) : Bool := decide (y.2.leaves = s)
  let reps := d.buf.toRep.filter mine
  let d := { d with buf := { d.buf with toRep := d.buf.toRep.filter fun y => !mine y } }
  let d := d.slice s fun x => { x with
    staging := [], toAdmit := x.toAdmit.filter (·.replica), recirc := [], learn := [], learnKeys := [], passedBy := 0 }
  let d := x.recirc.foldl (fun d c => poolGive (sharedGive d (s / 16) c.cells) (s / 16) c ⟨c.cid, 0, c.cells⟩) d
  let d := x.staging.foldl (fun d p => lostInReset d s p.fid) d
  let d := (x.toAdmit.filter (!·.replica) ++ reps.map (·.2) ++ x.recirc).foldl (fun d c => lostInReset d s c.pkt.fid) d
  (List.range 32).foldl (fun d i =>
    let p := 32 * s + i
    match (d.po p).tx with
    | some t => lostInReset ((releaseCopy d (qid p t.copy.q) t.copy).port p fun x => { x with tx := none }) s t.copy.pkt.fid
    | none => d) d

/-- R616: the rows of a slice's memories that failed repeatedly are substituted, while spares are left (R32). -/
def substituteRows (d : Dev) (s : Nat) : Dev :=
  d.rowFails.foldl (fun d e =>
    let src := e.1 / 2 ^ 24
    if srcSlice s 0 ≤ src ∧ src < srcSlice (s + 1) 0 ∧ Config.rowLimit ≤ e.2 then (substituteRow d src (e.1 % 2 ^ 24)).2 else d) d

/-- R616: a slice warm reset begins: its counters freeze for snapshots, its ports leave their groups and send Idle, what it
holds is lost. -/
def sliceReset (d : Dev) (s : Nat) : Dev :=
  let v := liveView d
  let d := { d with pmu := { d.pmu with frozen := d.pmu.frozen.put {} s v } }
  let d := (d.slice s fun x => { x with inReset := true }).shadow 0 s
  let d := (List.range 32).foldl (fun d i =>
    let p := 32 * s + i
    if isPort d p then
      let d := prune d p
      if linkUp d p then d.emit (.ordered p .idle) else d
    else d) d
  substituteRows (discardSlice d s) s

/-- Slice s is fenced. -/
def fenced (d : Dev) (s : Nat) : Bool := bit (d.get FLT_FENCED.FENCED) s

/-- R617: the fence: held in reset, lanes to DOWN. -/
def fenceSlice (g : Grid) (d : Dev) (s : Nat) : Dev :=
  let d := putBit (sliceReset d s) FLT_FENCED.FENCED s true
  let d := (List.range 32).foldl (fun d i => laneToDown g d (32 * s + i)) d
  (d.event FLT_STATUS.FENCED).report 0x053 0

/-- SLICE_RESET's start (R616, R617): a slice already in reset is left alone; one due for its fence is fenced; else it
resets, and its RESET_MAX-th reset within 1,024 frame ticks makes the next one fence it. -/
def reactSliceReset (g : Grid) (d : Dev) (s : Nat) : Dev :=
  if (d.sl s).inReset then d
  else if (d.sl s).fenceNext then fenceSlice g d s
  else
    let now := d.flt.frameNo
    let recent := now :: (d.sl s).resetAt.filter fun t => decide (now < t + 1024)
    let most := max 1 (d.get FLT_CTL.RESET_MAX)
    sliceReset ((d.bump FLT_CNT_SLICE_RESETS).slice s fun x => { x with
      resetAt := recent, fenceNext := decide (most ≤ recent.length) }) s

/-- UNFENCE's effect (R617): the fence falls and one slice warm reset starts; the history that led to the fence ends. -/
def unfence (d : Dev) (s : Nat) : Dev :=
  if fenced d s then
    ((putBit d FLT_FENCED.FENCED s false).bump FLT_CNT_SLICE_RESETS).slice s fun x => { x with
      resetAt := [], fenceNext := false }
  else d

/-- UNFENCE (R617). -/
def execUnfence (sl : Fin 32) (s : State) : Outc := s.withDev fun d => unfence d sl

/-- R472: a returning slice's scheduler state: deficits 0, shaper credits BURST, nothing on the wheels. -/
def rebuildQueues (d : Dev) (s now : Nat) : Dev :=
  { d with queues := d.queues.map fun e => (e.1, if e.1 / 256 = s then
      { e.2 with deficit := 0, credit := ((e.2.shBurst * 32000 : Nat) : Int), creditT := now, wheel := none, coarse := false }
      else e.2) }

/-- R616: the slice is back: counters count on, discards of R210 are added, its throttle level is the present one (R602),
and its ports carry traffic again; lanes of a slice that was fenced return to DETECT (R617). -/
def sliceReturns (d : Dev) (s now : Nat) : Dev :=
  let d := { d with pmu := { d.pmu with frozen := d.pmu.frozen.keep fun k => decide (k ≠ s) } }
  let d := rebuildQueues (d.slice s fun x => { x with inReset := false }) s now
  let d := d.put (ASE_THR.LEVEL s) (aseLevel d)
  (List.range 32).foldl (fun d i =>
    let p := 32 * s + i
    let d := (d.ctrAdd (ptCtr p 10) (d.po p).heldDiscard).port p fun x => { x with heldDiscard := 0 }
    if isPort d p then
      let d := if linkUp d p then drainControl (d.emit (.ordered p .none)) p else d
      detectStart d p
    else d) d

/-! ### Severe reactions (R614-R618) -/

/-- R614: whether a reaction applies to a source's level. -/
def applies (src act : Nat) : Bool :=
  let o := (src - 0x400) % 0x60
  match act with
  | 1 => decide (0x400 ≤ src) && (decide (o < 0x20) || (decide (0x48 ≤ o) && decide (o ≤ 0x4B)))
  | 2 => decide (0x400 ≤ src)
  | 3 => decide (src = 0x020) || decide (src = 0x021) || (decide (0x100 ≤ src) && decide (src < 0x300))
  | 4 => true
  | _ => false

/-- The reaction a severe event of a class takes: LOG where it does not apply, in SAFE, and TANSY_RESTART without the
Warden (R614, R628, R629). -/
def reaction (d : Dev) (src cls : Nat) : Nat :=
  let act := d.get (FLT_CLASS.SEVERE_ACT cls)
  if applies src act && !d.flag FLT_STATE.SAFE && !(decide (act = 3) && d.hk.wardenFailed) then act else 0

/-- The lane a PORT_DOWN acts on: the first lane of the source's port; for an octet, of its first lane's (R615). -/
def downLane (d : Dev) (src : Nat) : Nat :=
  let o := (src - 0x400) % 0x60
  let l := 32 * ((src - 0x400) / 0x60) + (if o < 0x20 then o else 8 * (o - 0x48))
  (portOf d l).getD l

/-- R618: every transmitter goes idle, FAULT_N is held, and a reset follows unless FATAL_DELAY is 0. -/
def deviceFatal (d : Dev) : Dev :=
  let d := if d.silent then d else { d with silent := true }.emit (.silence true)
  d.coll fun f => { f with fatal := true, fatalDue := decide (d.get FLT_CTL.FATAL_DELAY ≠ 0) }

/-- A severe reaction is carried out. -/
def react (g : Grid) (d : Dev) (src act : Nat) : Dev := match act with
  | 1 => laneReset g (d.bump FLT_CNT_PORT_DOWNS) (downLane d src)
  | 2 => reactSliceReset g d ((src - 0x400) / 0x60)
  | 3 =>
    let e := if src < 0x100 then src - 0x020 else src / 0x100 - 1
    if d.tstate e = tsRunning then beginRestart d e false else d
  | 4 => deviceFatal d
  | _ => d

/-! ### Events (R607-R611, R623) -/

/-- A counted event: the capture, the count and its window, and where it is severe the reaction: REACTION and whether it
was. -/
def countEvent (g : Grid) (d : Dev) (src cls detail now : Nat) (inj : Bool) : Dev :=
  let d := captureFirst ((d.bump FLT_CNT_EVENTS).event FLT_STATUS.EVENT) src cls detail now
  let start := if windowOpen d src then d.flt.wins.get 0 src / 65536 else d.flt.frameNo + 1
  let n := (if windowOpen d src then d.flt.counts.get 0 src else 0) + 1
  let limit := d.get (FLT_CLASS.N cls)
  let sev := decide (limit ≠ 0) && decide (limit ≤ n)
  let d := if sev then endWindow d src else
    d.coll fun f => { f with counts := f.counts.put 0 src n, wins := f.wins.put 0 src (start * 65536 + classW d cls % 65536) }
  let act := if sev then reaction d src cls else 0
  let d := logEvent d { src := src, cls := cls, conseq := false, severe := sev, react := act, inj := inj, detail := detail
                        time := now }
  if sev then
    let d := ((d.put FLT_SEV_STATUS.CLASS cls).put FLT_SEV_STATUS.REACTION act).put FLT_SEV_STATUS.SOURCE src
    let d := (d.bump FLT_CNT_SEVERE).event FLT_SEV_STATUS.SEVERE
    let d := if d.flag (FLT_CLASS.FAULT_N_EN cls) then
        d.coll fun f => { f with pulse := true, latched := f.latched || d.flag FLT_CTL.FAULT_HOLD }
      else d
    faultPin (react g d src act)
  else d

/-- An event at the collector: rails of a failed path are discarded (R608), a masked one is only counted (R610), a
consequential one logged (R623). -/
def handleEvent (g : Grid) (d : Dev) (r : Report) (now : Nat) (inj : Bool) : Dev :=
  let (cls, mask, path) := sourceMap d r.src
  if !validSource r.src || path || d.flt.dead then d else
  let d := d.pmuEvent 0 0x0C 1
  if mask || r.masked then d.bump FLT_CNT_MASKED
  else if r.conseq then
    logEvent ((d.bump FLT_CNT_CONSEQ).event FLT_STATUS.CONSEQ)
      { src := r.src, cls := cls, conseq := true, severe := false, react := 0, inj := inj, detail := r.detail, time := now }
  else countEvent g d r.src cls r.detail now inj

/-- FAULT_EVENT's effect: the oldest report reaches the collector. -/
def faultEvent (g : Grid) (dt : Nat) (d : Dev) : Dev := match d.reports with
  | [] => d
  | r :: rest => handleEvent g { d with reports := rest } r (g.nowNs dt) false

/-- FAULT_EVENT (R611). -/
def execFaultEvent (dt : Nat) (s : State) : Outc := s.withDev (faultEvent s.grid dt)

/-- INJECT's effect (R631): an event of the named source with every bit of its detail set. -/
def inject (g : Grid) (src dt : Nat) (d : Dev) : Dev :=
  if validSource src then
    handleEvent g (d.bump FLT_CNT_INJECTED) (shadowed d src 0xFFFFFFFF false) (g.nowNs dt) true
  else d

/-- INJECT (R631). -/
def execInject (cmd : Word) (dt : Nat) (s : State) : Outc := s.withDev (inject s.grid (bits cmd.toNat 27 16) dt)

/-- PATH_FAILED (R608). -/
def execPathFailed (src : BitVec 12) (s : State) : Outc := s.withDev fun d =>
  let (cls, mask, path) := sourceMap d src.toNat
  if path || !validSource src.toNat then d else
    let d := d.coll fun f => { f with map := f.map.put none src.toNat (some (cls, mask, true)) }
    ((d.bump FLT_CNT_PATH).event FLT_STATUS.PATH).report 0x050 src.toNat

/-- FAULT_WINDOW_CLOSE (R611): the window's W frame ticks have passed. -/
def execFaultWindowClose (src : BitVec 12) (s : State) : Outc := s.withDev fun d =>
  if windowDue d src.toNat then endWindow d src.toNat else d

/-! ### The ends of shadows (R622) -/

/-- The unit of a shadow has returned. -/
def unitBack (d : Dev) (kind n : Nat) : Bool := match kind with
  | 0 => !(d.sl n).inReset
  | 1 => decide (laneState d n = 5) || decide (laneState d n = 0)
  | 2 => decide (d.tstate n ≠ tsRestarting) && decide (d.tstate n ≠ tsLoading)
  | 3 => !d.buf.retraining.contains n && !devOut d (n / 6) (n % 6)
  | _ => true

/-- RESET_SHADOW_END (R622): SHADOW_TAIL us after the unit returned. -/
def execResetShadowEnd (kind : Fin 5) (n : Nat) (s : State) : Outc := s.withDev fun d =>
  if d.flt.shadows.contains (kind.val, n) ∧ unitBack d kind n then
    let d := d.coll fun f => { f with shadows := f.shadows.filter (· ≠ (kind.val, n)) }
    if kind.val = 0 then putBit d FLT_SHADOW.SHADOW n false else d
  else d

/-! ### The collector's and the Warden's failures (R628, R629) -/

/-- SAFE_ENTER (R628). -/
def execSafeEnter (s : State) : Outc := s.withDev fun d =>
  if d.flag FLT_STATE.SAFE then d
  else faultPin (((d.put FLT_STATE.SAFE 1).event FLT_STATUS.SAFE).report 0x051 0)

/-- LEAVE_SAFE's effect (R628): both copies start from zero. -/
def leaveSafe (d : Dev) : Dev :=
  if d.flag FLT_STATE.SAFE then
    faultPin ((d.put FLT_STATE.SAFE 0).coll fun f => { f with counts := [], wins := [] })
  else d

/-- LEAVE_SAFE (R628). -/
def execLeaveSafe (s : State) : Outc := s.withDev leaveSafe

/-- R629: the Warden, back, restarts the engines that failed meanwhile. -/
def wardenBack (d : Dev) : Dev :=
  [0, 1].foldl (fun d e =>
    if (d.tansy e).failed && decide (d.tstate e = tsStopped) && d.flag HK_CTL.AUTO_RESTART then beginRestart d e true else d) d

/-- WARDEN_STALL (R629): reported, and reset once, which brings the Warden back or does not. -/
def execWardenStall (back : Bool) (s : State) : Outc := s.withDev fun d =>
  if d.hk.wardenFailed || d.flt.dead then d else
    let d := d.report 0x052 0
    if back then wardenBack d
    else faultPin ({ d with hk := { d.hk with wardenFailed := true, wardenReset := true } }.report 0x0A5 0)

/-- COLLECTOR_STALL (R629): the Warden holds FAULT_N and sets WARDEN_HOLD. The register map gives WARDEN_HOLD no bit of HK_STATUS:
its event counts in SEQ and signals the vector (DESIGN CHOICE, log entry 41). -/
def execCollectorStall (s : State) : Outc := s.withDev fun d =>
  if d.flt.dead || d.hk.wardenFailed then d
  else faultPin (((d.coll fun f => { f with dead := true }).bump HK_STATUS.SEQ).signalBlock ⟨.hk, 0, 0, 4⟩ 134)

/-! ### Fabric transfers (R625) -/

/-- Spares in use in the direction that half h receives. -/
def spares (h : Nat) : Fld := if h = 0 then FLT_FABRIC.SPARES_1TO0 else FLT_FABRIC.SPARES_0TO1

/-- R625: the packet that an abandoned transfer of slice s into half h carried is dropped: the first copy of the slice in
R22's order that goes to the half, a multicast transfer last; without one, no packet was lost. -/
def fabricLost (d : Dev) (h s : Nat) : Dev :=
  let d := d.bump FLT_CNT_FABRIC_LOST
  if s / 16 = h then d else
    let l := (d.sl s).toAdmit.filter (crossing s)
    match l.find? fun c => decide (fabricRank c = (l.map fabricRank).foldl min 4) with
    | some c =>
      let d := d.slice s fun x => { x with toAdmit := x.toAdmit.filter fun y => decide (y.cid ≠ c.cid) }
      dropFrame (countDrop d h drFabricLost) c.pkt.fid
    | none =>
      match d.buf.toRep.find? fun x => decide (x.1 = h) && decide (x.2.leaves = s) with
      | some x =>
        let d := { d with buf := { d.buf with toRep := d.buf.toRep.erase x } }
        dropFrame (countDrop d h drFabricLost) x.2.pkt.fid
      | none => d

/-- FABRIC_CRC_ERROR (R625): a transfer of slice s over a receive lane of half h failed its CRC and was sent again `retries`
times, the last with success, or, with more than 8, was abandoned after the eighth. -/
def execFabricCrcError (h : Fin 2) (lane : Fin 32) (retries : Nat) (sl : Fin 32) (s : State) : Outc := s.withDev fun d =>
  if retries = 0 then d else
    let k := h.val * 32 + lane.val
    let d := (d.addTo FLT_CNT_FABRIC_RETRY (min 8 retries)).pmuEvent (halfPmu h) 0x07 (min 8 retries)
    let d := (List.range (min 9 retries)).foldl (fun d _ =>
      let d := d.coll fun f => { f with fabricFails := f.fabricFails.put 0 k (f.fabricFails.get 0 k + 1) }
      let worn := decide (d.get (spares h) = 4) && decide (16 ≤ d.flt.fabricFails.get 0 k)
      d.report (srcHalf h (0x90 + lane.val)) (if worn then 0x80000000 else 0)) d
    if 8 < retries then fabricLost d h sl else d

/-- FABRIC_LANE_SPARE (R625): a lane whose failures of the frame reached 16 is replaced, while a spare is left. -/
def execFabricLaneSpare (h : Fin 2) (lane : Fin 32) (s : State) : Outc := s.withDev fun d =>
  let k := h.val * 32 + lane.val
  if 16 ≤ d.flt.fabricFails.get 0 k ∧ d.get (spares h) < 4 then
    let d := (d.coll fun f => { f with fabricFails := f.fabricFails.put 0 k 0 }).shadow 4 k
    (d.bump (spares h)).bump FLT_CNT_FABRIC_SPARED
  else d

/-- R633: a source-map entry as the mailbox shows it. -/
def mapWord (d : Dev) (src : Nat) : Nat :=
  let (c, m, p) := sourceMap d src
  let n := if windowOpen d src then d.flt.counts.get 0 src else 0
  c + (if p then 2 ^ 8 else 0) + (if m then 2 ^ 9 else 0) + min 255 n * 2 ^ 16

end Sys2Proof.Machine
end

