-- ==== Sys2Proof/Machine/Banks.lean ====
section
/-!
DEFINITION. The configuration banks (R143-R151) but for the tick's own part, and the flash (R138, R139).
-/
namespace Sys2Proof.Machine

/-! ### Banks (R143-R147) -/

/-- The state of a bank: false A, true B. -/
def Banks.st (b : Banks) (which : Bool) : BankState := if which then b.b else b.a

/-- A bank's sequence number. -/
def Banks.seq (b : Banks) (which : Bool) : BitVec 16 := if which then b.seqB else b.seqA

/-- Change a bank's state. -/
def Banks.setSt (b : Banks) (which : Bool) (x : BankState) : Banks := if which then { b with b := x } else { b with a := x }

/-- Change a bank's sequence number. -/
def Banks.setSeq (b : Banks) (which : Bool) (q : BitVec 16) : Banks :=
  if which then { b with seqB := q } else { b with seqA := q }

/-- The SEQ of the bank in force; 0 while none is. -/
def Banks.activeSeq (b : Banks) : BitVec 16 := if b.st b.activeB = .active then b.seq b.activeB else 0

/-- R146: a bank command refused with a reason. -/
def bankReject (why : Nat) (b : Banks) (d : Dev) : Banks × Dev := ({ b with reject := why }, d.event BOOT_STATUS.BANK_REJECT)

/-- BANK_SEAL's effect (R145, R146). -/
def bankSeal (which : Bool) (seq : BitVec 16) (b : Banks) (d : Dev) : Banks × Dev :=
  if b.st which ≠ .free then bankReject 1 b d
  else if seq = 0 ∨ seq = b.activeSeq then bankReject 2 b d
  else ((b.setSt which .sealed).setSeq which seq, d)

/-- BANK_SEAL (R145). -/
def execBankSeal (bank : Fin 2) (seq : BitVec 16) (s : State) : Outc := s.withAll fun g b d =>
  let r := bankSeal (decide (bank = 1)) seq b d
  (g, r.1, r.2)

/-- The EPOCH that the swap of a bank waits for. -/
def Banks.due (b : Banks) (which : Bool) : BitVec 64 := if which then b.targetB else b.targetA

/-- The swap of a bank is armed with a target. -/
def Banks.arm (b : Banks) (which : Bool) (t : BitVec 64) : Banks :=
  let b := { b.setSt which .armed with target := t, lastArm := which }
  if which then { b with targetB := t } else { b with targetA := t }

/-- BANK_SWAP_ARM's effect (R50, R145, R146): the SEALED bank's swap gets the target EPOCH + 2, whatever the other bank's
state. With both banks SEALED, which is possible only while none is active, the spec does not say which is armed: a free
value. -/
def bankArm (g : Grid) (b : Banks) (d : Dev) : Banks × Dev :=
  if b.a ≠ .sealed ∧ b.b ≠ .sealed then bankReject 3 b d
  else
    let (r, d) := if b.a = .sealed ∧ b.b = .sealed then d.fresh else (if b.b = .sealed then 1 else 0, d)
    (b.arm (r.getLsbD 0) (g.epoch + 2), d)

/-- BANK_SWAP_ARM (R145). -/
def execBankSwapArm (s : State) : Outc := s.withAll fun g b d =>
  let r := bankArm g b d
  (g, r.1, r.2)

/-- BANK_UNSEAL's effect (R145, R146): the SEALED bank is FREE again; its sequence number goes. With both banks SEALED the spec
does not say which: a free value. -/
def bankUnseal (b : Banks) (d : Dev) : Banks × Dev :=
  if b.a ≠ .sealed ∧ b.b ≠ .sealed then bankReject 4 b d
  else
    let (r, d) := if b.a = .sealed ∧ b.b = .sealed then d.fresh else (if b.b = .sealed then 1 else 0, d)
    ((b.setSt (r.getLsbD 0) .free).setSeq (r.getLsbD 0) 0, d)

/-- BANK_UNSEAL (R145). -/
def execBankUnseal (s : State) : Outc := s.withAll fun g b d =>
  let r := bankUnseal b d
  (g, r.1, r.2)

/-- A write to BOOT_BANK_CMD. -/
def bankCmdWrite (v : Word) (g : Grid) (b : Banks) (d : Dev) : Banks × Dev :=
  match bit v.toNat 1, bit v.toNat 0 with
  | true, true => bankReject 5 b d
  | true, false => bankUnseal b d
  | false, true => bankArm g b d
  | false, false => (b, d)

/-- The bank that drains, if one does. -/
def Banks.draining (b : Banks) : Option Bool :=
  if b.a = .draining then some false else if b.b = .draining then some true else none

/-- BANK_DRAIN_END's effect (R145): a tick after the swap found no packet of the draining bank in flight. -/
def drainEnd (b : Banks) : Banks :=
  match b.draining with
  | some w => if b.drainReady then { (b.setSt w .free).setSeq w 0 with drainReady := false } else b
  | none => b

/-- BANK_DRAIN_END (R145). -/
def execBankDrainEnd (s : State) : Outc := s.withAll fun g b d => (g, drainEnd b, d)

/-- BANK_DRAIN_EXPIRE's effect (R151): after DRAIN_LIMIT frame ticks Tansy removes the bank's packets from every queue, and the
spilled ones at their read-up. A bank that drains on has them removed again after each further DRAIN_LIMIT frame ticks
(DESIGN CHOICE, log entry 69). -/
def drainExpire (g : Grid) (b : Banks) (d : Dev) : Banks × Dev :=
  let lim := d.get BOOT_BANK_CTL.DRAIN_LIMIT
  match b.draining with
  | some w =>
    if lim = 0 ∨ b.drainFrames < lim ∨ !(d.serves 0 || d.serves 1) then (b, d) else
      let (n, d) := retireAll g d drBankRetired (fun p => p.stamped && decide (p.bankB = w))
        fun q => { q with markBank := some w }
      ({ b with expired := b.expired + BitVec.ofNat 32 n, drainFrames := 0 }, d.event BOOT_STATUS.DRAIN_EXPIRED)
  | none => (b, d)

/-- BANK_DRAIN_EXPIRE (R151). -/
def execBankDrainExpire (s : State) : Outc := s.withAll fun g b d =>
  let r := drainExpire g b d
  (g, r.1, r.2)

/-- A bank becomes active at its tick (R145, R153): the other, if it was active, drains. -/
def bankActive (epoch : BitVec 64) (w : Bool) (x : Banks × Dev) : Banks × Dev :=
  let b := if x.1.st (!w) = .active then x.1.setSt (!w) .draining else x.1
  ({ b.setSt w .active with
      activeB := w, swaps := b.swaps + 1, lastSwap := epoch, drainFrames := 0, drainReady := false },
    x.2.event BOOT_STATUS.SWAP_DONE)

/-- R50, R51: the swap of a bank is due at a tick. -/
def Banks.swapDue (b : Banks) (jump : Bool) (epoch : BitVec 64) (w : Bool) : Bool :=
  decide (b.st w = .armed) && (jump || decide (b.due w ≤ epoch))

/-- The swaps due at a tick, in the order of their targets, and with one target in the order they were armed (DESIGN CHOICE, log
entry 146). -/
def bankSwap (jump : Bool) (epoch : BitVec 64) (b : Banks) (d : Dev) : Banks × Dev :=
  let first := if b.targetA = b.targetB then !b.lastArm else decide (b.targetB < b.targetA)
  let go (w : Bool) (x : Banks × Dev) : Banks × Dev := if b.swapDue jump epoch w then bankActive epoch w x else x
  go (!first) (go first (b, d))

/-! ### Flash (R122, R138, R139) -/

/-- The page buffer as bytes. -/
def flashBuf (d : Dev) : List Byte := (List.range 64).flatMap fun i => leBytes 4 (d.word (BOOT_FL_BUF.word i).addr).toNat

/-- The bytes a flash command works on. -/
def flashSize : Nat → Nat
  | 3 => 0x1000
  | 4 => 0x10000
  | _ => 0x100

/-- R139: an erase or a program touches the slot that holds the running image. -/
def flashProtected (d : Dev) (op addr : Nat) : Bool :=
  d.flag BOOT_FL_CFG.PROTECT_RUNNING && decide (op ≠ 1) && decide (d.get BOOT_STATE.SOURCE < 2)
    && decide (addr / 0x2000000 = d.get BOOT_STATE.SOURCE)

/-- BOOT_FL_CMD is written with an OP (R138, R139). -/
def flashCommand (d : Dev) (op : Nat) : Dev :=
  if op = 0 ∨ 4 < op then d
  else if d.flag BOOT_FL_STAT.BUSY then d.event BOOT_FL_STAT.REJECTED
  else
    let a := d.get BOOT_FL_ADDR.ADDR
    let a := a - a % flashSize op
    if flashProtected d op a then d.event BOOT_FL_STAT.PROTECT_HIT
    else
      let d := { d with boot := { d.boot with flash := some (op, a) } }
      (d.put BOOT_FL_STAT.BUSY 1).emit (.flash op a (if op = 2 then flashBuf d else []))

/-- READ_PAGE (R138). -/
def execReadPage (s : State) : Outc := s.withDev fun d => flashCommand d 1

/-- PROGRAM_PAGE (R139). -/
def execProgramPage (s : State) : Outc := s.withDev fun d => flashCommand d 2

/-- ERASE_4K (R139). -/
def execErase4k (s : State) : Outc := s.withDev fun d => flashCommand d 3

/-- ERASE_64K (R139). -/
def execErase64k (s : State) : Outc := s.withDev fun d => flashCommand d 4

/-- FLASH_CMD_DONE's effect (R138): a page read enters the buffer; a failed program or erase is reported. -/
def flashDone (ok : Bool) (page : List Byte) (d : Dev) : Dev :=
  match d.boot.flash with
  | none => d
  | some (op, _) =>
    let d := { d with boot := { d.boot with flash := none } }
    let d := if op = 1 then (List.range 64).foldl (fun d i =>
        d.setWord (BOOT_FL_BUF.word i).addr (BitVec.ofNat 32 (beNat (bytesAt page (4 * i) 4).reverse))) d
      else if ok then d else d.event BOOT_FL_STAT.FLASH_ERR
    (d.put BOOT_FL_STAT.BUSY 0).event BOOT_STATUS.FL_DONE

/-- FLASH_CMD_DONE (R138). -/
def execFlashCmdDone (ok : Bool) (page : List Byte) (s : State) : Outc := s.withDev (flashDone ok page)

/-! ### BOOT_CMD (R153) -/

/-- A BOOT_CMD operation is issued: ignored while one runs or where OP names none; LOAD_HOST outside WAIT_HOST loads nothing
(R137). -/
def bootIssue (d : Dev) (op slot : Nat) : Dev :=
  if d.flag BOOT_CMD_RESULT.BUSY ∨ op = 0 ∨ 5 < op then d
  else
    let host := decide (d.get BOOT_STATE.STATE = 6)
    let res := if op = 3 ∧ !host then some 14 else none
    let d := if op = 3 ∧ host then d.put BOOT_STATE.STATE 7 else d
    { d.put BOOT_CMD_RESULT.BUSY 1 with boot := { d.boot with cmd := some (op, slot, res) } }

end Sys2Proof.Machine
end

