-- ==== Sys2Proof/Machine/Crypto.lean ====
section
/-!
DEFINITION. What the boot ROM computes over an image (R123, R131): SHA-384 (FIPS 180-4) and the verification of an ECDSA
signature on P-384 (FIPS 186-5). The spec names both by their names; their constants are the standards' (PRESUMED, log
entry 141). Everything is arithmetic on numbers.
-/
namespace Sys2Proof.Machine

/-! ### SHA-384 -/

/-- Round constants 0 to 19. -/
def shaK0 : List Nat :=
  [0x428A2F98D728AE22, 0x7137449123EF65CD, 0xB5C0FBCFEC4D3B2F, 0xE9B5DBA58189DBBC,
   0x3956C25BF348B538, 0x59F111F1B605D019, 0x923F82A4AF194F9B, 0xAB1C5ED5DA6D8118,
   0xD807AA98A3030242, 0x12835B0145706FBE, 0x243185BE4EE4B28C, 0x550C7DC3D5FFB4E2,
   0x72BE5D74F27B896F, 0x80DEB1FE3B1696B1, 0x9BDC06A725C71235, 0xC19BF174CF692694,
   0xE49B69C19EF14AD2, 0xEFBE4786384F25E3, 0x0FC19DC68B8CD5B5, 0x240CA1CC77AC9C65]

/-- Round constants 20 to 39. -/
def shaK1 : List Nat :=
  [0x2DE92C6F592B0275, 0x4A7484AA6EA6E483, 0x5CB0A9DCBD41FBD4, 0x76F988DA831153B5,
   0x983E5152EE66DFAB, 0xA831C66D2DB43210, 0xB00327C898FB213F, 0xBF597FC7BEEF0EE4,
   0xC6E00BF33DA88FC2, 0xD5A79147930AA725, 0x06CA6351E003826F, 0x142929670A0E6E70,
   0x27B70A8546D22FFC, 0x2E1B21385C26C926, 0x4D2C6DFC5AC42AED, 0x53380D139D95B3DF,
   0x650A73548BAF63DE, 0x766A0ABB3C77B2A8, 0x81C2C92E47EDAEE6, 0x92722C851482353B]

/-- Round constants 40 to 59. -/
def shaK2 : List Nat :=
  [0xA2BFE8A14CF10364, 0xA81A664BBC423001, 0xC24B8B70D0F89791, 0xC76C51A30654BE30,
   0xD192E819D6EF5218, 0xD69906245565A910, 0xF40E35855771202A, 0x106AA07032BBD1B8,
   0x19A4C116B8D2D0C8, 0x1E376C085141AB53, 0x2748774CDF8EEB99, 0x34B0BCB5E19B48A8,
   0x391C0CB3C5C95A63, 0x4ED8AA4AE3418ACB, 0x5B9CCA4F7763E373, 0x682E6FF3D6B2B8A3,
   0x748F82EE5DEFB2FC, 0x78A5636F43172F60, 0x84C87814A1F0AB72, 0x8CC702081A6439EC]

/-- Round constants 60 to 79. -/
def shaK3 : List Nat :=
  [0x90BEFFFA23631E28, 0xA4506CEBDE82BDE9, 0xBEF9A3F7B2C67915, 0xC67178F2E372532B,
   0xCA273ECEEA26619C, 0xD186B8C721C0C207, 0xEADA7DD6CDE0EB1E, 0xF57D4F7FEE6ED178,
   0x06F067AA72176FBA, 0x0A637DC5A2C898A6, 0x113F9804BEF90DAE, 0x1B710B35131C471B,
   0x28DB77F523047D84, 0x32CAAB7B40C72493, 0x3C9EBE0A15C9BEBC, 0x431D67C49C100D4C,
   0x4CC5D4BECB3E42B6, 0x597F299CFC657E2A, 0x5FCB6FAB3AD6FAEC, 0x6C44198C4A475817]

/-- The initial value of SHA-384. -/
def shaInit : List Nat :=
  [0xCBBB9D5DC1059ED8, 0x629A292A367CD507, 0x9159015A3070DD17, 0x152FECD8F70E5939,
   0x67332667FFC00B31, 0x8EB44A8768581511, 0xDB0C2E0D64F98FA7, 0x47B5481DBEFA4FA4]

/-- The round constants. -/
def shaK : List Nat := shaK0 ++ shaK1 ++ shaK2 ++ shaK3

/-- A 64-bit word rotated right. -/
def rotr64 (n x : Nat) : Nat := (x / 2 ^ n ||| x * 2 ^ (64 - n)) % 2 ^ 64

/-- The message schedule's next words: `w` holds the words so far, newest first. -/
def shaExtend (k : Nat) (w : List Nat) : List Nat :=
  match k with
  | 0 => w
  | k + 1 =>
    let a := w.getD 1 0
    let b := w.getD 14 0
    let s1 := rotr64 19 a ^^^ rotr64 61 a ^^^ a / 2 ^ 6
    let s0 := rotr64 1 b ^^^ rotr64 8 b ^^^ b / 2 ^ 7
    shaExtend k (((s1 + w.getD 6 0 + s0 + w.getD 15 0) % 2 ^ 64) :: w)

/-- One round on the eight working variables, with the sum of its constant and its word. -/
def shaRound (v : List Nat) (kw : Nat) : List Nat :=
  match v with
  | [a, b, c, d, e, f, g, h] =>
    let t1 := h + (rotr64 14 e ^^^ rotr64 18 e ^^^ rotr64 41 e) + (e &&& f ^^^ ((2 ^ 64 - 1 - e) &&& g)) + kw
    let t2 := (rotr64 28 a ^^^ rotr64 34 a ^^^ rotr64 39 a) + (a &&& b ^^^ (a &&& c) ^^^ (b &&& c))
    [(t1 + t2) % 2 ^ 64, a, b, c, (d + t1) % 2 ^ 64, e, f, g]
  | v => v

/-- One block of sixteen 64-bit words. -/
def shaBlock (h : List Nat) (b : List Nat) : List Nat :=
  let w := (shaExtend 64 b.reverse).reverse
  let v := (shaK.zip w).foldl (fun v x => shaRound v (x.1 + x.2)) h
  (h.zip v).map fun x => (x.1 + x.2) % 2 ^ 64

/-- A byte string cut into 64-bit words, most significant byte first. -/
def words64 (n : Nat) (b : List Byte) : List Nat :=
  match n with
  | 0 => []
  | n + 1 => beNat (b.take 8) :: words64 n (b.drop 8)

/-- The blocks of a padded message. -/
def shaBlocks (n : Nat) (b : List Byte) (h : List Nat) : List Nat :=
  match n with
  | 0 => h
  | n + 1 => shaBlocks n (b.drop 128) (shaBlock h (words64 16 (b.take 128)))

/-- The SHA-384 of a byte string, as a number of 384 bits. -/
def sha384 (b : List Byte) : Nat :=
  let n := b.length
  let zeros := (239 - n % 128) % 128
  let m := b ++ [0x80] ++ List.replicate zeros 0 ++ beBytes 16 (8 * n)
  ((shaBlocks (m.length / 128) m shaInit).take 6).foldl (fun a x => a * 2 ^ 64 + x) 0

/-! ### P-384 -/

/-- The field's prime, the group's order, the curve's b, and the base point. -/
def p384 : Nat := 2 ^ 384 - 2 ^ 128 - 2 ^ 96 + 2 ^ 32 - 1
def n384 : Nat :=
  0xFFFFFFFFFFFFFFFFFFFFFFFFFFFFFFFFFFFFFFFFFFFFFFFFC7634D81F4372DDF581A0DB248B0A77AECEC196ACCC52973
def b384 : Nat :=
  0xB3312FA7E23EE7E4988E056BE3F82D19181D9C6EFE8141120314088F5013875AC656398D8A2ED19D2A85C8EDD3EC2AEF
def gx384 : Nat :=
  0xAA87CA22BE8B05378EB1C71EF320AD746E1D3B628BA79B9859F741E082542A385502F25DBF55296C3A545E3872760AB7
def gy384 : Nat :=
  0x3617DE4A96262C6F5D9E98BF9292DC29F8F41DBD289A147CE9DA3113B5F0B8C00A60B1CE1D7E819D7A431D7C90EA0E5F

/-- a - b in the field. -/
def fsub (a b : Nat) : Nat := (a + p384 - b % p384) % p384

/-- A point in Jacobian coordinates: (x / z^2, y / z^3), or the point at infinity where z is 0. -/
structure JPoint where
  x : Nat
  y : Nat
  z : Nat
  deriving DecidableEq, Repr

/-- The double of a point; the curve's a is -3. -/
def JPoint.dbl (p : JPoint) : JPoint :=
  if p.z = 0 then p else
    let delta := p.z * p.z % p384
    let gamma := p.y * p.y % p384
    let beta := p.x * gamma % p384
    let alpha := 3 * fsub p.x delta * (p.x + delta) % p384
    let x := fsub (alpha * alpha) (8 * beta)
    ⟨x, fsub (alpha * fsub (4 * beta) x) (8 * gamma * gamma), fsub ((p.y + p.z) * (p.y + p.z)) (gamma + delta)⟩

/-- The sum of two points. -/
def JPoint.add (p q : JPoint) : JPoint :=
  if p.z = 0 then q else if q.z = 0 then p else
    let zp := p.z * p.z % p384
    let zq := q.z * q.z % p384
    let up := p.x * zq % p384
    let uq := q.x * zp % p384
    let sp := p.y * (q.z * zq) % p384
    let sq := q.y * (p.z * zp) % p384
    let h := fsub uq up
    let r := fsub sq sp
    if h = 0 then (if r = 0 then p.dbl else ⟨1, 1, 0⟩) else
      let hh := h * h % p384
      let hhh := h * hh % p384
      let v := up * hh % p384
      let x := fsub (r * r) (hhh + 2 * v)
      ⟨x, fsub (r * fsub v x) (sp * hhh), p.z * q.z % p384 * h % p384⟩

/-- a * g + b * q, over the low `k` bits of a and b; gq is g + q. -/
def mulAdd (k : Nat) (a b : Nat) (g q gq : JPoint) (acc : JPoint) : JPoint :=
  match k with
  | 0 => acc
  | k + 1 =>
    let acc := acc.dbl
    mulAdd k a b g q gq (match bit a k, bit b k with
      | true, true => acc.add gq
      | true, false => acc.add g
      | false, true => acc.add q
      | false, false => acc)

/-- x to the power of the low `k` bits of e, modulo m. -/
def powMod (m x e : Nat) (k acc : Nat) : Nat :=
  match k with
  | 0 => acc
  | k + 1 =>
    let sq := acc * acc % m
    powMod m x e k (if bit e k then sq * x % m else sq)

/-- The key (x, y) is a point of the curve. -/
def onCurve (x y : Nat) : Bool :=
  decide (x < p384) && decide (y < p384) && decide (y * y % p384 = (x * x * x + fsub b384 (3 * x)) % p384)

/-- The signature (r, s) of the message hash e verifies under the key (x, y). -/
def ecdsaOk (x y r s e : Nat) : Bool :=
  onCurve x y && decide (1 ≤ r) && decide (r < n384) && decide (1 ≤ s) && decide (s < n384) &&
    let w := powMod n384 s (n384 - 2) 384 1
    let g : JPoint := ⟨gx384, gy384, 1⟩
    let q : JPoint := ⟨x, y, 1⟩
    let t := mulAdd 384 (e * w % n384) (r * w % n384) g q (g.add q) ⟨1, 1, 0⟩
    let zz := t.z * t.z % p384
    decide (t.z ≠ 0) && (decide (r * zz % p384 = t.x)
      || (decide (r + n384 < p384) && decide ((r + n384) * zz % p384 = t.x)))

end Sys2Proof.Machine
end

