-- ==== Sys2Proof/Machine/Access.lean ====
section
/-!
DEFINITION. Register accesses (chapters 03 and 20): the checks in R665's order, what a read of each register shows, wide values
behind the mailboxes (R103-R106).
-/
namespace Sys2Proof.Machine

/-! ### Where an access falls -/

/-- What an address of BAR0 names: the block, the row of its map, the instance. -/
structure Hit where
  loc : Loc
  row : RRow
  ix : List Nat
  deriving DecidableEq, Repr

/-- The register at a BAR0 address; none at reserved locations. -/
def regAt (a : Nat) : Option Hit :=
  match locate a with
  | none => none
  | some l => (findRow (mapOf l.kind) l.off).map fun r => ⟨l, r.1, r.2⟩

/-- The slice a block belongs to (R662). -/
def locSlice (l : Loc) : Option Nat :=
  match l.kind with
  | .ln | .pt | .prs | .stg | .dep | .ase | .eq | .smp | .act | .cth => some l.unit
  | _ => none

/-- R664: parts that a grade lacks. -/
def absent (d : Dev) (l : Loc) : Bool :=
  let within (lo hi : Nat) : Bool := decide (lo ≤ l.off) && decide (l.off < hi)
  match l.kind with
  | .spl | .mem => !spillPresent d
  | .ase => decide (aseBanks d ≤ 8) && (within 0x120 0x140 || within 0x160 0x180 || within 0x1400 0x1800)
  | _ => false

/-- R119, R659: the block answers in the present boot state. -/
def answers (d : Dev) (k : BKind) : Bool :=
  pwrLive d || [BKind.id, .hif, .boot, .grt, .time, .flt].contains k

/-- A field can be written. -/
def RField.writable (f : RField) : Bool := [Acc.rw, .pw, .w1, .wo].contains f.acc

/-- The bits of a row's fields that pass. -/
def RRow.mask (r : RRow) (p : RField → Bool) : Nat :=
  r.fields.foldl (fun m f => if p f then m ||| (2 ^ (f.hi + 1) - 2 ^ f.lo) else m) 0

/-- A row that is an acknowledgement register (R107). -/
def RRow.isAck (r : RRow) : Bool := decide (r.fields = [⟨31, 24, .wo, 0⟩])

/-- Offset of a block's mailbox (R104 and the blocks' maps). -/
def mbxOff : BKind → Option Nat
  | .id | .boot | .grt | .pwr | .flt | .hk | .bpm | .pmu | .time | .sch => some 0x80
  | .dma => some 0x2000
  | .tel | .gz | .spl | .hpmu | .pt | .prs | .stg | .ase | .eq | .smp | .act | .cth => some 0xF80
  | .buf => some 0xFF80
  | .ln => some 0x780
  | .hif | .wld | .mem | .dep => none

/-- The base address of the mailbox that a register at `a` belongs to. -/
def mbxBase (l : Loc) (a : Nat) : Option Nat :=
  match mbxOff l.kind with
  | some o => if o ≤ l.off ∧ l.off < o + 0x18 then some (a - (l.off - o)) else none
  | none => none

/-! ### Worlds (R95-R97, R114, R393, R660) -/

/-- R660: registers secure whatever the world map says. -/
def alwaysSecure (l : Loc) : Bool :=
  let within (lo hi : Nat) : Bool := decide (lo ≤ l.off) && decide (l.off < hi)
  match l.kind with
  | .hif => decide (l.off = 0x20)
  | .pwr => within 0x30 0x48 || within 0x4C 0x58 || within 0x100 0x118
  | .flt => decide (l.off = 0x20) || decide (l.off = 0x24) || within 0x100 0x180
  | .hk => decide (l.off = 0x0C) || decide (l.off = 0x30)
  | _ => false

/-- A table, ring of TEL is secure (R113, R114). -/
def gzSecure (d : Dev) (t : Nat) : Bool := bit (d.word WLD_GZ_TABLE.word.addr).toNat t
def telSecure (d : Dev) (r : Nat) : Bool := bit (d.word WLD_TEL_RING.word.addr).toNat r

/-- R114, R393: registers of a secure ring, pool or table. A pool's registers, quotas and held counts are closed to
non-secure accesses, and so is a reclaim of its buffers. -/
def partSecure (d : Dev) (l : Loc) (write : Bool) (v : Word) : Bool :=
  let within (lo hi : Nat) : Bool := decide (lo ≤ l.off) && decide (l.off < hi)
  match l.kind with
  | .dma => decide (l.off < 0x2000) && decide (ringPf d (l.off / 0x40) = 1)
  | .bpm => (within 0x100 0x200 && poolSecure d (l.off % 0x100 / 0x20))
      || ((within 0x200 0x320 || within 0x400 0x520) && poolSecure d (l.off % 0x20 / 4))
      || (within 0x300 0x320 && write)
      || (decide (l.off = 0x20) && write && bit v.toNat 31 && poolSecure d (bits v.toNat 2 0))
  | .tel => (within 0x1000 0x1400 && telSecure d (l.off % 0x400 / 0x40))
      || (decide (l.off = 0x18) && write && bit v.toNat 31 && (telSecure d (bits v.toNat 19 16) || telSecure d (bits v.toNat 23 20)))
  | .gz => (within 0x100 0x300 && gzSecure d ((l.off - 0x100) / 0x20))
      || (decide (l.off = 0x48) && write && bit v.toNat 31 && gzSecure d (gcTable v))
  | _ => false

/-! ### Locked registers (R99, R110, R144, R72) -/

/-- The bank whose window a location lies in: false A, true B. -/
def bankWindow (l : Loc) : Option Bool :=
  let within (lo hi : Nat) : Bool := decide (lo ≤ l.off) && decide (l.off < hi)
  let pick (a b : Bool) : Option Bool := if a then some false else if b then some true else none
  match l.kind with
  | .prs => pick (within 0x4000 0x8000) (within 0x8000 0xC000)
  | .stg => pick (within 0x400 0x800) (within 0x800 0xC00)
  | .dep => pick (within 0x100 0x200) (within 0x200 0x300)
  | .ase => pick (within 0x400 0x500) (within 0x500 0x600)
  | _ => none

/-- The mark that a write-once register was written (R110). -/
def onceKey (a : Nat) : Nat := wkey a 0

/-- R99, R110, R144, R72: a write to the register is locked out. -/
def locked (b : Banks) (d : Dev) (h : Hit) (a : Nat) : Bool :=
  (match bankWindow h.loc with
    | some w => decide (b.st w ≠ BankState.free)
    | none => false)
    || (decide (h.loc.kind = .wld) && decide (h.loc.off < 0x200) && d.flag WLD_LOCK.LOCK)
    || (h.row.fields.any (fun f => decide (f.acc = .w1)) && decide (d.wget (onceKey a) = 1))
    || (decide (a = TIME_FREQ.word.addr) && follower d)

/-! ### The checks (R665) -/

/-- The first of RESERVED, WORLD, LOCKED and READONLY that an aligned 32-bit access to BAR0 fails (R665), or the register it
reaches. `v` is the value of a write. -/
def checkAccess (b : Banks) (d : Dev) (src : Src) (a : Nat) (write : Bool) (v : Word) : Except Nat Hit :=
  match regAt a with
  | none => .error beReserved
  | some h =>
    let fencedOff := match locSlice h.loc with
      | some s => fenced d s
      | none => false
    if !answers d h.loc.kind || absent d h.loc || fencedOff then .error beReserved
    else if !srcSecure src && (secureBlock d h.loc || alwaysSecure h.loc || partSecure d h.loc write v) then .error beWorld
    else if write && locked b d h a then .error beLocked
    else if write && !h.row.fields.any RField.writable then .error beReadonly
    else .ok h

/-! ### What reads show -/

/-- The two halves of a word. -/
def halves (hi lo : Nat) : Nat := hi % 65536 * 65536 + lo % 65536

/-- R153, R150: BOOT_INFLIGHTs. -/
def inflightWord (d : Dev) (s : Nat) : Nat := halves (min 65535 (inFlight d s true)) (min 65535 (inFlight d s false))

/-- Registers whose content follows from the state; none where the register holds its own. -/
def derived (g : Grid) (b : Banks) (d : Dev) (l : Loc) : Option Nat :=
  let p := 32 * l.unit + (l.off - 0x1000) / 0x80
  match l.kind with
  | .boot => match l.off with
    | 0x40 => some (b.reject * 2 ^ 12 + (if b.activeB then 2 ^ 8 else 0) + b.b.code * 2 ^ 4 + b.a.code)
    | 0x44 => some (halves b.seqB.toNat b.seqA.toNat)
    | 0x54 => some (b.target.toNat % 2 ^ 32)
    | 0x58 => some b.swaps.toNat
    | 0x5C => some b.expired.toNat
    | o => if 0x100 ≤ o ∧ o < 0x180 then some (inflightWord d ((o - 0x100) / 4)) else none
  | .grt => match l.off with
    | 0x0C => some (g.epoch.toNat % 2 ^ 32)
    | 0x10 => some (g.epoch.toNat % 1024)
    | 0x14 => some g.state.code
    | 0x18 => some ((max (-2147483647) (min 2147483647 g.phaseErr)) % 2 ^ 32).toNat
    | _ => none
  | .pt =>
    if l.off < 0x1000 ∨ 0x2000 ≤ l.off then none else
      match l.off % 0x80 with
      | 0x20 => some (if isPort d p then halves (portEgressNs d p) (portIngressNs d p) else 0)
      | 0x28 => some (match isPort d p, (d.po p).tsFifo with
        | true, x :: r => 2 ^ 31 + (r.length + 1) * 2 ^ 16 + x.2.2
        | _, _ => 0)
      | 0x2C => some (portMac d p % 2 ^ 32)
      | 0x30 => some (portMac d p / 2 ^ 32)
      | _ => none
  | .gz =>
    if l.off = 0x64 then some (logHeld d l.unit)
    else if 0x100 ≤ l.off ∧ l.off < 0x300 ∧ l.off % 0x20 = 0x1C then
      let t := (l.off - 0x100) / 0x20
      some (d.get (GZ_TBL_STATE.STATE l.unit t) * 2 ^ 30 + gzCount d l.unit t)
    else none
  | .ase => if 0x140 ≤ l.off ∧ l.off < 0x180 then some (aseEntries d l.unit ((l.off - 0x140) / 4)) else none
  | .smp => if l.off = 0x104 then some (d.sl l.unit).samples.length else none
  | .ln =>
    let n := 32 * l.unit + l.sub
    if 0x180 ≤ l.off ∧ l.off < 0x200 then
      let at_ (i : Nat) : Nat := eyeCount d n (64 * d.get (LN_EYE_ROW.ROW n) + i)
      let i := (l.off - 0x180) / 4
      some (halves (at_ (2 * i + 1)) (at_ (2 * i)))
    else if l.off = 0x104 then some ((d.word (LN_EYE_STAT.word n).addr).toNat / 2 ^ 13 * 2 ^ 13 + eyePoints d n)
    else none
  | _ => none

/-- R196: a per-port register of a lane that is no first lane of a port. -/
def idlePortReg (d : Dev) (l : Loc) : Bool :=
  decide (l.kind = .pt) && decide (0x1000 ≤ l.off) && decide (l.off < 0x2000) && !isPort d (32 * l.unit + (l.off - 0x1000) / 0x80)

/-- What a read of a register returns: wo fields read 0 (R102), and so do the ro fields R196 names. -/
def regValue (g : Grid) (b : Banks) (d : Dev) (h : Hit) (a : Nat) : Word :=
  match derived g b d h.loc with
  | some n => BitVec.ofNat 32 n
  | none =>
    let hidden := h.row.mask fun f => decide (f.acc = .wo) || (decide (f.acc = .ro) && idlePortReg d h.loc)
    d.word a &&& ~~~ (BitVec.ofNat 32 hidden)

/-! ### Wide values (R103, R105 and the blocks' index tables) -/

/-- Bits of a wide value that its layout uses. -/
def keepBits (v m : Nat) : Nat := v &&& m

/-- A little-endian number of bytes. -/
def leNat (b : List Byte) : Nat := beNat b.reverse

/-- The parts of a mailbox index laid out by KIND. -/
def kindOf (i : Nat) : Nat := i / 2 ^ 28
def kindRest (i : Nat) : Nat := i % 2 ^ 28

/-- R341: the GZ values. -/
def gzWide (d : Dev) (h i : Nat) : Option Nat :=
  let r := kindRest i
  let own := some (d.wget (wkey (mbxGz h) i))
  match kindOf i with
  | 0 => if r < 8 then own else none
  | 1 => if r < 2 ^ 22 ∧ r % 2 ^ 20 < 655360 then
      some (d.gaz.slots.get 0 (h * 2 ^ 22 + r % 2 ^ 20 * 4 + r / 2 ^ 20)).toNat else none
  | 2 => if r < 2 ^ 22 ∧ r % 2 ^ 20 < 2 ^ 14 then
      some ((d.gaz.ovf.get 0 (h * 2 ^ 14 + r % 2 ^ 14)).toNat / 2 ^ (128 * (r / 2 ^ 20)) % 2 ^ 128) else none
  | 3 => if r < 16 then own else none
  | 4 => if r < 16 then some (d.wget (wkey (mbxGz 0) i) % 2 ^ 64) else none
  | _ => none

/-- R374: the ASE values: the staged units, and the shadow of the entry starting at a row. -/
def aseWide (d : Dev) (s i : Nat) : Option Nat :=
  let r := kindRest i
  match kindOf i with
  | 0 => if r < 9 then some (d.wget (wkey (mbxAse s) r)) else none
  | 1 =>
    let part := r / 2 ^ 16
    let bank := bits r 14 11
    if 9 ≤ part ∨ bit r 15 ∨ aseBanks d ≤ bank then none else
      let e := d.ase.get {} (aseKey s (aseHome d s bank) (bits r 10 0))
      if part = 8 then some (e.res.toNat + e.pri * 2 ^ 32 + (if e.valid then 2 ^ 48 else 0))
      else some ((if part < 4 then e.v &&& e.m else e.m).toNat / 2 ^ (320 - 80 * (part % 4 + 1)) % 2 ^ 80)
  | _ => none

/-- R506: the TEL values. -/
def telWide (d : Dev) (i : Nat) : Option Nat :=
  let r := kindRest i
  let own := some (d.wget (wkey mbxTel i))
  match kindOf i with
  | 0 => if r < 256 ∧ r % 16 < 4 then own else none
  | 1 => if r < 16 then own else none
  | 2 => if r < 128 then some (d.ctrGet (dropCtr (r / 64) (r % 64))) else none
  | 3 => if bits r 22 18 = 0 ∧ bits r 27 24 < 4 then
      some (match flowAt d (bits r 23 23) (bits r 17 0) with
        | some f => leNat (bytesAt (flowBytes f 0) (16 * bits r 27 24) 16)
        | none => 0) else none
  | 4 => if r < 512 then
      some (match (d.tel.hh.filter fun x => decide (x.1 = r / 256))[r % 256]? with
        | some x => x.2.1.toNat
        | none => 0) else none
  | 5 => if r < 16 then some (archOldest (d.ri r)) else none
  | _ => none

/-- The PMU whose mailbox a place is (R535). -/
def pmuOf (l : Loc) : Nat :=
  match l.kind with
  | .hpmu => halfPmu l.unit
  | .smp => slicePmu l.unit
  | _ => 0

/-- R535: the PMU values that are read without effect. -/
def pmuWide (d : Dev) (m i : Nat) : Option Nat :=
  let r := kindRest i
  match kindOf i with
  | 0 => if r = 0 then some (d.ctrGet (pmuCtr m 8)) else if r < 9 then some (d.ctrGet (pmuCtr m (r - 1))) else none
  | 1 => if r < 4 then some (d.ctrGet (pmuCtr m (2 * r)) + d.ctrGet (pmuCtr m (2 * r + 1)) * 2 ^ 64) else none
  | 3 => if m = 0 ∧ r = 0 then some (d.wget (wkey mbxPmu i)) else none
  | _ => none

/-- R578: the HK values. -/
def hkWide (d : Dev) (i : Nat) : Option Nat :=
  let r := kindRest i
  let own := some (d.wget (wkey mbxHk i))
  match kindOf i with
  | 0 => if r < 2 ^ 13 then own else none
  | 1 => if r = 0 then own else none
  | 2 => if r < 32 then own else none
  | 3 => if r < 2 then own else none
  | 4 => if r < 2 ^ 13 then
      let j := (d.tansy (r / 2 ^ 12)).journal
      some ((List.range 4).foldl (fun a k => a + (j.get 0 (4 * (r % 2 ^ 12) + k)).toNat * 2 ^ (32 * k)) 0) else none
  | 5 => if r < 2 ^ 14 then own else none
  | _ => none

/-- R443: the BUF values of half h. -/
def bufWide (d : Dev) (h i : Nat) : Option Nat :=
  let r := kindRest i
  let own := some (d.wget (wkey (mbxBuf h) i))
  match kindOf i with
  | 0 => if r < 2 ^ 16 then own else none
  | 1 => if r < 2 ^ 18 then own else none
  | 2 => if r < 2 ^ 13 then some (inCells d h (r / 8) (r % 8) % 2 ^ 20) else none
  | 3 => if r < 4096 ∧ spillPresent d then
      let q := d.qu (4096 * h + r)
      let flying := (q.mid.filter (·.reading)).length + (q.down.filter (·.paged)).length
      some (sumRuns q.head + q.mid.length * 2 ^ 32 + sumRuns q.tail * 2 ^ 64 + flying % 2 ^ 24 * 2 ^ 96) else none
  | _ => none

/-- A reservation as the mailboxes show it (R474). -/
def resvWide (d : Dev) (id : Nat) : Nat := match d.resv.get none id with
  | some r => resvWord r
  | none => 0

/-- R476: the EQ values of slice s. -/
def eqWide (d : Dev) (s i : Nat) : Option Nat :=
  let r := kindRest i
  let own := some (d.wget (wkey (mbxEq s) i))
  let q := d.qu (256 * s + r % 256)
  match kindOf i with
  | 0 => if r < 256 then own else none
  | 1 => if r < 512 then own else none
  | 2 => if r < 256 then some (q.sojMax + q.sojEwma * 2 ^ 32 + q.depthLast % 2 ^ 24 * 2 ^ 64 + q.depthMax % 2 ^ 24 * 2 ^ 96) else none
  | 3 => if r < 1024 then
      some ((List.range 4).foldl (fun a k =>
        a + (d.tel.sojHist.get 0 ((256 * s + r % 256) * 16 + 4 * (r / 256) + k)).toNat * 2 ^ (32 * k)) 0) else none
  | 4 => if r < 512 then some (resvWide d (512 * s + r)) else none
  | _ => none

/-- R507: bins of a queue's depth histogram. -/
def cthWide (d : Dev) (s i : Nat) : Option Nat :=
  if i < 1024 then
    some ((List.range 4).foldl (fun a k =>
      a + (d.tel.depthHist.get (idleBin d.ticks (4 * (i / 256) + k)) ((256 * s + i % 256) * 16 + 4 * (i / 256) + k)).toNat * 2 ^ (32 * k)) 0)
  else none

/-- R249, R294, R295: a valid index of the PRS, stage and ACT mailboxes. -/
def prsIndex (i : Nat) : Bool :=
  decide (i < 2 ^ 17) && ((decide (bits i 15 13 = 0) && decide (bits i 12 0 < 2080)) ||
    (decide (bits i 15 13 = 1) && decide (bits i 12 0 < 4128)))
def stgIndex (i : Nat) : Bool :=
  decide (i < 2 ^ 17) && ((decide (bits i 15 13 = 0) && decide (bits i 12 0 < 256)) || decide (bits i 15 13 = 1))
def actIndex (i : Nat) : Bool := decide (i < 2 ^ 18) && !bit i 15 && !bit i 9 && decide (bits i 14 10 < 28)

/-- The value behind an index of the mailbox of a block, where reading it has no effect; `dt` is the time since the last
tick. None where the index is not implemented. -/
def wideValue (g : Grid) (b : Banks) (d : Dev) (l : Loc) (base i dt : Nat) : Option Nat :=
  let own := some (d.wget (wkey base i))
  match l.kind with
  | .id => if i < 2 then own else if i = 2 then some d.serial.toNat else none
  | .boot => match i with
    | 0 => some b.target.toNat
    | 1 | 2 => own
    | 3 => some b.lastSwap.toNat
    | _ => none
  | .grt => match i with
    | 0 => some g.epoch.toNat
    | 1 => some g.epochBefore.toNat
    | 2 => some g.epochSet.toNat
    | 3 => some (g.ptpAtTick.toNat % 2 ^ 64)
    | 4 => some g.gsyncWord.toNat
    | _ => none
  | .time => match i with
    | 0 => some (timeLayout (g.nowQ dt))
    | 1 => some (g.nowNs dt % 2 ^ 64)
    | 2 => some g.stepWritten.toNat
    | 3 => some g.offsetWritten.toNat
    | 4 => some g.ppsIn.toNat
    | _ => none
  | .pwr => pwrWide d i
  | .flt => match kindOf i with
    | 0 => if kindRest i = 0 then some (d.flt.firstTime % 2 ^ 64) else none
    | 1 => if validSource (kindRest i) then some (mapWord d (kindRest i)) else none -- DEDUCED, log entry 130
    | _ => none
  | .hk => hkWide d i
  | .dma => if i < 128 then own else none
  | .bpm => match kindOf i with
    | 0 => if kindRest i < 3 then own else none
    | 1 => if kindRest i < 2 ^ 25 then some (bpmTag d (kindRest i / 2 ^ 22) (kindRest i % 2 ^ 22) % 256) else none
    | _ => none
  | .tel => telWide d i
  | .pmu | .hpmu | .smp => pmuWide d (pmuOf l) i
  | .sch => match kindOf i with
    | 0 => if kindRest i < 2 then own else none
    | 1 => if kindRest i < 2 ^ 14 then some (resvWide d (kindRest i)) else none
    | _ => none
  | .gz => gzWide d l.unit i
  | .spl => if i < 2 then own else none
  | .buf => bufWide d l.unit i
  | .ln => if i = 0 then some (freezeUs d (32 * l.unit + l.sub) % 2 ^ 64) else if i < 4 then own else none
  | .pt => if i < 2048 then some (if i % 64 < 44 then d.ctrGet (ptCtr (32 * l.unit + i / 64) (i % 64)) else 0) else none
  | .prs => if prsIndex i then own else none
  | .stg => if stgIndex i then (if bits i 15 13 = 1 then some (d.wget (wkey base (i % 2 ^ 16))) else own) else none
  | .ase => aseWide d l.unit i
  | .eq => eqWide d l.unit i
  | .act => if actIndex i then own else none
  | .cth => cthWide d l.unit i
  | .hif | .wld | .mem | .dep => none

/-- Indices whose read removes an entry: a PT timestamp, a sample, a log entry. -/
def popIndex (l : Loc) (i : Nat) : Bool :=
  match l.kind with
  | .pt => decide (i < 2048) && decide (i % 64 = 48)
  | .pmu => decide (kindOf i = 2) && decide (kindRest i < 2)
  | .smp => decide (kindOf i = 2) && decide (kindRest i = 0)
  | .flt => decide (kindOf i = 2) && decide (kindRest i = 0)
  | _ => false

/-- A mailbox read (R105): the value and the device after it; none is ERR = 1 (R106, R220, R531, R633). -/
def wideRead (g : Grid) (b : Banks) (d : Dev) (l : Loc) (base i dt : Nat) : Option (Nat × Dev) :=
  if popIndex l i then
    match l.kind with
    | .pt => tsPop d (32 * l.unit + i / 64)
    | .flt => logPop d
    | _ => (samplePop d (pmuOf l) (kindRest i)).map fun x => (x.1.toNat, x.2)
  else (wideValue g b d l base i dt).map fun v => (v, d)

/-- R114, R578, R633: an index that only a secure access reaches. -/
def mbxSecret (d : Dev) (l : Loc) (i : Nat) : Bool :=
  let k := kindOf i
  let r := kindRest i
  match l.kind with
  | .hk => decide (k < 3)
  | .flt => decide (k = 1)
  | .dma => decide (i < 128) && decide (ringPf d i = 1)
  | .bpm => decide (k = 1) && poolSecure d (r / 2 ^ 22)
  | .tel => (decide (k = 0) && telSecure d (r / 16)) || ((decide (k = 1) || decide (k = 5)) && telSecure d r)
  | .gz => (decide (k = 1) && (tablesAt d l.unit false (r % 2 ^ 20)).any (gzSecure d))
      || (decide (k = 2) && (tablesAt d l.unit true (r % 2 ^ 14)).any (gzSecure d))
      || ((decide (k = 3) || decide (k = 4)) && gzSecure d r)
  | _ => false

/-- The key of the table entry behind a mailbox index that carries ECC and a shadow: parser, program and action entries (R247,
R291). -/
def entryKey (l : Loc) (i : Nat) : Option (Nat × Nat × Nat × Nat × Nat) :=
  match l.kind with
  | .prs => some (l.unit, 32, i / 2 ^ 16, bits i 15 13, bits i 12 0)
  | .stg => if bits i 15 13 = 0 then some (l.unit, l.sub, i / 2 ^ 16, 0, bits i 12 0) else none
  | .act => some (l.unit, 33, i / 2 ^ 17, 0, bits i 14 10 * 512 + bits i 8 0)
  | _ => none

/-- R415: a group entry that names entries beyond the table. -/
def badGroup (v : Nat) : Bool := decide (512 < bits v 28 19) || decide (2 ^ 18 < bits v 17 0 + bits v 28 19)

/-- The bits that a writable index holds, or none where the index is read-only. -/
def wideMask (l : Loc) (i : Nat) : Option Nat :=
  let all (n : Nat) : Option Nat := some (2 ^ n - 1)
  let k := kindOf i
  match l.kind with
  | .boot => if i = 1 then all 64 else none
  | .time => if i = 2 then all 128 else if i = 3 then all 64 else none
  | .flt => if k = 1 then all 32 else none
  | .hk => match k with
    | 0 => if kindRest i < 2 ^ 12 then all 128 else all 16
    | 1 => all 128
    | 2 => all 32
    | 3 => all 64
    | _ => none
  | .dma => all 64
  | .bpm => if i = 0 then all 64 else none
  | .tel => match k with
    | 0 => all 128
    | 1 => all 64
    | _ => none
  | .pmu | .hpmu | .smp => match k with
    | 0 => if kindRest i = 0 then none else all 48
    | 3 => all 64
    | _ => none
  | .sch => if i = 0 then all 128 else none
  | .gz => if i < 4 then all 128 else none
  | .buf => if k = 0 then some 0xFFFBFFFF else if k = 1 then some 0x83FFFFFF else none
  | .ln => if i = 3 then all 128 else none
  | .prs => some (if bits i 15 13 = 0 then 0x0000FF3FFFFFFFFF else 0x0000FFFF80FFFFFFFFFFFFFF)
  | .stg => some (if bits i 15 13 = 1 then 2 ^ 64 - 1
      else 0x870001FF + 0x3FFFF * 2 ^ 32 + 0x3FFFF * 2 ^ 64 + 0x3FFFF * 2 ^ 96)
  | .ase => if i < 8 then all 80 else if i = 8 then some 0x0001FFFFFFFFFFFF else none
  | .eq => if k = 0 then some 0x00FFFFFF001FFFFF else if k = 1 then some 0xFEFFFFFF001FFFFF00FFFFFF001FFFFF else none
  | .act => all 96
  | _ => none

/-- The bank a banked index belongs to (R249, R286, R294). -/
def wideBank (l : Loc) (i : Nat) : Option Bool :=
  match l.kind with
  | .prs => some (bit i 16)
  | .stg => if bits i 15 13 = 0 then some (bit i 16) else none
  | .act => some (bit i 17)
  | _ => none

/-- A mailbox write takes effect (R105): the value is stored, and what follows from it happens. -/
def wideStore (g : Grid) (d : Dev) (l : Loc) (base i dt v : Nat) : Grid × Dev :=
  let own := d.wput (wkey base i) v
  match l.kind with
  | .time => if i = 2 then timeStep (BitVec.ofNat 128 v) dt g d else timeOffset (BitVec.ofNat 64 v) dt g d
  | .flt => (g, mapWrite d (kindRest i) (v % 32) (bit v 9))
  | .ln => (g, if i = 3 then patternRun own (32 * l.unit + l.sub) else own)
  | .pmu | .hpmu | .smp => (g, if kindOf i = 0 then d.ctrPut (pmuCtr (pmuOf l) (kindRest i - 1)) v else own)
  | .eq => (g, if kindOf i = 1 then
      let w3 := dataWord v 3
      let p : Policer := ⟨bits (dataWord v 1) 23 0 * 8000, bits w3 23 0 * 8000, g.nowNs dt⟩
      { own with policers := own.policers.put {} (512 * l.unit + kindRest i) p } else own)
  | _ => (g, match entryKey l i with
    | some k => own.mendEntry k
    | none => if l.kind = .stg then d.wput (wkey base (i % 2 ^ 16)) v else own)

/-- ERR of a mailbox write (R106): 1 an index not implemented, 2 a read-only one, an entry of a bank that is not FREE, a group
entry out of range; 0 none. -/
def wideErr (g : Grid) (b : Banks) (d : Dev) (l : Loc) (base i dt v : Nat) : Nat :=
  if (wideValue g b d l base i dt).isNone && !popIndex l i then 1
  else if (wideMask l i).isNone || popIndex l i then 2
  else if (match wideBank l i with
    | some w => decide (b.st w ≠ BankState.free)
    | none => false) then 2
  else if decide (l.kind = BKind.buf) && decide (kindOf i = 0) && badGroup v then 2
  else 0

end Sys2Proof.Machine
end

