-- ==== Sys2Proof/Machine/Regs.lean ====
section
/-!
DEFINITION. What register writes do, mailboxes, posted writes, and the accesses of both management paths (chapter 03).
-/
namespace Sys2Proof.Machine

/-- What an access can change: the Graticule, the banks, the device. -/
abbrev Whole := Grid × Banks × Dev

/-- A change of the device alone. -/
def onDev (f : Dev → Dev) (x : Whole) : Whole := (x.1, x.2.1, f x.2.2)

/-- A change of the Graticule and the device. -/
def onGrid (f : Grid → Dev → Grid × Dev) (x : Whole) : Whole :=
  let r := f x.1 x.2.2
  (r.1, x.2.1, r.2)

/-- A change of the banks and the device. -/
def onBanks (f : Banks → Dev → Banks × Dev) (x : Whole) : Whole :=
  let r := f x.2.1 x.2.2
  (x.1, r.1, r.2)

/-- The word a register holds after a write of `v`: fields of a kind software writes take it, the others stay (R102). -/
def merged (d : Dev) (h : Hit) (a : Nat) (v : Word) : Word :=
  let m := BitVec.ofNat 32 (h.row.mask fun f => [Acc.rw, .pw, .w1].contains f.acc)
  (d.word a &&& ~~~ m) ||| (v &&& m)

/-! ### Acknowledgements (R107) -/

/-- A write to an _ACK register: it follows its status register, but for HIF_BUSERR_ACK and FLT_FIRST_ACK, and the latter
also zeroes the overflow count (R112, R619, R632). -/
def ackWrite (d : Dev) (a : Nat) (v : Word) : Dev :=
  let st := a - (if a = 0x10018 then 8 else if a = FLT_FIRST.word.addr + 12 then 12 else 4)
  match regAt st with
  | none => d
  | some s =>
    let d := if st = FLT_FIRST.word.addr ∧ v.toNat / 2 ^ 24 = d.get FLT_FIRST.SEQ then d.setWord FLT_FIRST_OVF_CNT.word.addr 0 else d
    d.ackStatus st (s.row.mask fun f => decide (f.acc = .sq) && decide (f.hi < 24)) v

/-! ### Posted writes (R108, R109) -/

/-- The posted-write domain a register belongs to, and the domain's status register. -/
def pwDomain (h : Hit) (a : Nat) : Option (Nat × Nat) :=
  let posted := h.row.fields.any fun f => decide (f.acc = .pw)
  let l := h.loc
  match l.kind with
  | .ln => if posted || decide (l.off = 0x28) then some (32 * l.unit + l.sub, a - l.off + 8) else none
  | .mem => if posted || decide (l.off = 0x18) then some (1024 + 6 * l.unit + l.sub, a - l.off + 8) else none
  | .pwr => if posted then some (1040, PWR_PW_STATUS.word.addr) else none
  | .time => if posted then some (1041, TIME_PW_STATUS.word.addr) else none
  | _ => none

/-- A write arrives at a posted-write domain: accepted, or dropped with WRITE_LOST while one is pending (R109). -/
def pwArrive (d : Dev) (k st a : Nat) (v : Word) : Dev :=
  if bit (d.word st).toNat 0 then d.event ⟨st, 1, 1⟩
  else { d.put ⟨st, 0, 0⟩ 1 with pw := d.pw.put none k (some (a, v)) }

/-- LN_CTL of lane l is written (R159, R160, R163, R175, R188) on device `was`: ADMIN_UP cleared on a port's first lane takes the
port down; TEST_MODE, ADMIN_UP and AN_EN start what they ask for, and what a port in DETECT or TRAIN waits for may hold now. -/
def laneCtl (g : Grid) (was d : Dev) (l : Nat) : Dev :=
  let d := if isPort d l ∧ d.flag (LN_CTL.ADMIN_UP l) = false ∧ laneState d l ≠ 0 ∧ laneState d l ≠ 6 then portDown g d l else d
  let d := patternRun (leaveTest (enterTest (adapt d l) l) l) l
  match portOf d l with
  | some p =>
    let d := if p = l ∧ laneState d p = 1 ∧ was.flag (LN_CTL.AN_EN p) = false ∧ d.flag (LN_CTL.AN_EN p) then anStart d p else d
    tryLock (tryTrain g (detectStart d p) p) p
  | none => d

/-- LN_CMD's strobes. -/
def laneCmd (g : Grid) (d : Dev) (l : Nat) (v : Nat) : Dev :=
  let d := if bit v 4 then d.setWord (LN_PRBS_ERR.word l).addr 0 else d
  let d := if bit v 3 then startEye d l else d
  let d := if bit v 2 then doBitslip d l else d
  let d := match bit v 1, portOf d l with
    | true, some p => retrainPort g d p l
    | _, _ => d
  if bit v 0 then laneReset g d l else d

/-- MEM_CMD's strobes: a restoring device's training ends with a RESTORE (R436, R437). -/
def memCmd (g : Grid) (d : Dev) (h k : Nat) (v : Nat) : Dev :=
  let d := if bit v 0 then retrainStart d h k else d
  if bit v 1 then excludeDev g d h k else d

/-- A posted write takes effect. -/
def pwEffect (g : Grid) (d : Dev) (a : Nat) (v : Word) : Dev :=
  match regAt a with
  | none => d
  | some h =>
    let store := d.setWord a (merged d h a v)
    let l := 32 * h.loc.unit + h.loc.sub
    match h.loc.kind with
    | .ln => match h.loc.off with
      | 0 => laneCtl g d store l
      | 0x28 => laneCmd g d l v.toNat
      | 0x200 => patternRun store l
      | _ => store
    | .mem => match h.loc.off with
      | 0 => rateChange h.loc.unit h.loc.sub store
      | 0x18 => memCmd g d h.loc.unit h.loc.sub v.toNat
      | _ => store
    | .pwr => vidApplied a store
    | .time => if h.loc.off = 0 ∧ store.flag TIME_CTL.PPS_OUT_EN = false then setPpsOut store false else store
    | _ => store

/-- A domain's pending write is applied (R108), `dt` after the last tick; TIME_FREQ acts on the clock from here on (R72). -/
def pwApply (dt k st : Nat) (g : Grid) (d : Dev) : Grid × Dev :=
  match d.pw.get none k with
  | none => (g, d)
  | some (a, v) =>
    (if a = TIME_FREQ.word.addr then freqMark dt g d else g,
      pwEffect g { d.put ⟨st, 0, 0⟩ 0 with pw := d.pw.put none k none } a v)

/-- R108: a domain's number and its status register. -/
def pwOf : PwDomain → Nat × Nat
  | .lane l => (l, (LN_PW_STATUS.word l).addr)
  | .mem h k => (1024 + 6 * h.val + k.val, (MEM_PW_STATUS.word h k).addr)
  | .avs => (1040, PWR_PW_STATUS.word.addr)
  | .ptp => (1041, TIME_PW_STATUS.word.addr)

/-- POSTED_WRITE_APPLY (R108). -/
def execPostedWriteApply (dom : PwDomain) (dt : Nat) (s : State) : Outc := s.withAll fun g b d =>
  let r := pwApply dt (pwOf dom).1 (pwOf dom).2 g d
  (r.1, b, r.2)

/-! ### Mailboxes (R103-R106) -/

/-- MBX_CTL's ERR and VALID after a refused operation, and its bus error. -/
def mbxFail (d : Dev) (src : Src) (base err kind a : Nat) : Dev :=
  let ctl : Fld := ⟨base + 0x14, 15, 12⟩
  busError ((d.put ctl err).put ⟨ctl.addr, 0, 0⟩ 0) src kind 0 a true

/-- An accepted operation is in progress. -/
def mbxBegin (d : Dev) (base : Nat) : Dev :=
  let ctl : Fld := ⟨base + 0x14, 15, 12⟩
  { (d.put ctl 0).put ⟨ctl.addr, 0, 0⟩ 0 with mbxBusy := d.mbxBusy ++ [base] }

/-- MBX_DATA0-3 as one number, and the registers holding a number. -/
def mbxData (d : Dev) (base : Nat) : Nat :=
  (List.range 4).foldl (fun n i => n + (d.word (base + 4 + 4 * i)).toNat * 2 ^ (32 * i)) 0
def setMbxData (d : Dev) (base v : Nat) : Dev :=
  (List.range 4).foldl (fun d i => d.setWord (base + 4 + 4 * i) (BitVec.ofNat 32 (dataWord v i))) d

/-- GO: the operation named by OP and MBX_ADDR. A follower's clock takes no step (R65, R72). -/
def mbxGo (src : Src) (l : Loc) (base dt : Nat) (x : Whole) : Whole :=
  let (g, b, d) := x
  let a := base + 0x14
  let i := (d.word base).toNat
  if bit (d.word a).toNat 1 then
    let v := mbxData d base &&& (wideMask l i).getD 0
    let err := wideErr g b d l base i dt v
    if err ≠ 0 then (g, b, mbxFail d src base err beMbx a)
    else if decide (l.kind = BKind.time) && decide (i ≠ 0) && follower d then (g, b, timeLocked d src)
    else
      let r := wideStore g d l base i dt v
      (r.1, b, mbxBegin r.2 base)
  else
    match wideRead g b d l base i dt with
    | none => (g, b, mbxFail d src base 1 beMbx a)
    | some (v, d) => (g, b, mbxBegin (setMbxData d base v) base)

/-- A write to a register of a mailbox: refused while an operation is in progress (R106); an index of the secure world is
closed to a non-secure GO (R114). -/
def mbxWrite (src : Src) (h : Hit) (base a dt : Nat) (v : Word) (x : Whole) : Whole :=
  let d := x.2.2
  if d.mbxBusy.contains base then onDev (fun d => mbxFail d src base 3 beMbx a) x
  else
    let go := decide (a = base + 0x14) && bit v.toNat 8
    if go && !srcSecure src && mbxSecret d h.loc (d.word base).toNat then onDev (fun d => busError d src beWorld 0 a true) x
    else
      let x := onDev (fun d => d.setWord a (merged d h a v)) x
      if go then mbxGo src h.loc base dt x else x

/-- MAILBOX_COMPLETE (R104, R105): the operation is complete without error. ERR keeps a 3 that a write refused in the meantime
left there (DESIGN CHOICE, log entry 140). -/
def execMailboxComplete (base : BitVec 27) (s : State) : Outc := s.withDev fun d =>
  if d.mbxBusy.contains base.toNat then
    { d with mbxBusy := d.mbxBusy.filter (· ≠ base.toNat) }.put ⟨base.toNat + 0x14, 0, 0⟩ 1
  else d

/-! ### Effects of writes, block by block -/

/-- BUF_POOL and BUF_CLASS_RSV (R403). -/
def bufSplitWrite (d : Dev) (h a : Nat) (v : Word) : Dev :=
  let t := d.setWord a v
  let used := (List.range 8).foldl (fun n c => n + t.get (BUF_CLASS_RSV.RESERVE h c)) (t.get (BUF_POOL.HEADROOM h))
  if 786432 < used + d.get (BUF_SHARED_USED.USED h) then d.event (BUF_STATUS.CFG_REJECT h)
  else t.put (BUF_SHARED.SHARED h) (786432 - used)

/-- R413: the thresholds of priority p changed: the ports concerned are judged anew. -/
def thresholdWrite (d : Dev) (p : Nat) : Dev :=
  let ports := d.buf.inCells.map (fun e => e.1 % 8192 / 8) ++ (d.ports.filter fun e => e.2.xoffSent ≠ []).map (·.1)
  (sortNat ports).foldl (fun d n => checkPause d n p) d

/-- DMA_RING_CTL of ring n: enabling restarts HEAD and the accepted index at 0 (R81; HEAD DEDUCED, log entry 53), clearing ENABLE stops the
ring where it is. -/
def ringCtlWrite (d : Dev) (n : Nat) (v : Word) : Dev :=
  let was := d.flag (DMA_RING_CTL.ENABLE n)
  let d := d.setWord (DMA_RING_CTL.word n).addr v
  if d.flag (DMA_RING_CTL.ENABLE n) && !was then
    { d.put (DMA_RING_HEAD.HEAD n) 0 with dmaIdx := d.dmaIdx.put 0 n 0 }
  else d

/-- The first write of PT_MAC_LO or PT_MAC_HI keeps the other half of the address R667 derives. -/
def macWrite (d : Dev) (p a : Nat) (v : Word) : Dev :=
  let m := portMac d p
  let d := (d.setWord (PT_MAC_LO.word p).addr (BitVec.ofNat 32 (m % 2 ^ 32))).put (PT_MAC_HI.MAC_HI p) (m / 2 ^ 32)
  (d.wput (wkey (portBase p) 0xFFFF) 1).setWord a v

/-- R213: PT_CFG or PT_PFC_CFG of port p is written: a priority over its threshold that now comes into TX_MASK, or into
another mode, is paused at once (DEDUCED, log entry 128). -/
def pauseWrite (d : Dev) (p a : Nat) (v : Word) : Dev :=
  let e := d.setWord a v
  let fresh (i : Nat) : Bool := (e.po p).xoffSent.contains i && (!lossless d p i || decide (fcMode d p ≠ fcMode e p))
  ((List.range 8).filter fresh).foldl (fun d i => pauseOn d p i) e

/-- A write to a per-port PT register: on a lane that is no first lane of a port it is only stored (R196). -/
def portWrite (d : Dev) (p off a : Nat) (v : Word) : Dev :=
  match off with
  | 0 =>
    let d := pauseWrite d p a v
    if isPort d p && d.flag (PT_CFG.DRAIN p) then prune d p else d
  | 0x14 => pauseWrite d p a v
  | 0x10 => d.setWord a (v &&& 0x77777777)
  | 0x2C | 0x30 => macWrite d p a v
  | _ => d.setWord a v

/-- GRT_GSYNC_CTL (R62, R65, R66): a change of ROLE starts the watch anew; a chip that is a follower no longer leaves
HOLDOVER (DEDUCED, log entry 126). LOCKED and the round trip are of the old role (R67, R68). -/
def gsyncCtlWrite (v : Word) (a : Nat) (g : Grid) (d : Dev) : Grid × Dev :=
  let was := d.get GRT_GSYNC_CTL.ROLE
  let d := d.setWord a v
  if d.get GRT_GSYNC_CTL.ROLE = was then (g, d)
  else
    let g := { g with missed := 0, good := 0, wordBack := false }
    let d := (d.put GRT_GSYNC_STATUS.LOCKED 0).put GRT_GSYNC_RTT.RTT 0
    (if g.state = .holdover ∧ !follower d then { g with state := .trimming } else g, d)

/-- HK_RING_CFG: the sizes are written only while EN = 0 (R577). -/
def hkRingWrite (d : Dev) (v : Word) : Dev :=
  let d' := if d.flag HK_RING_CFG.EN then d else d.setWord HK_RING_CFG.word.addr v
  d'.put HK_RING_CFG.EN (HK_RING_CFG.EN.read v)

/-- FLT_CMD's strobes (R617, R621, R628, R631). -/
def fltCmd (g : Grid) (v : Nat) (dt : Nat) (d : Dev) : Dev :=
  let d := if bit v 0 then releasePin d else d
  let d := if bit v 1 then leaveSafe d else d
  let d := if bit v 2 then unfence d (bits v 12 8) else d
  if bit v 3 then inject g (bits v 27 16) dt d else d

/-- PMU_CMD of PMU m (R534) and PMU_SYNC (R515). -/
def pmuCmd (d : Dev) (m v : Nat) : Dev :=
  let d := if bit v 0 then pmuClear d m else d
  if bit v 1 then pmuClearCycle d m else d
def pmuSyncWrite (d : Dev) (v : Nat) : Dev :=
  (List.range 3).foldl (fun d k => if bit v k then pmuSync d k else d) d

/-- BPM's registers. -/
def bpmWrite (d : Dev) (src : Src) (off a : Nat) (v m : Word) : Dev :=
  let go := bit v.toNat 31
  if off = 0x10 then (if go then bpmAllocCmd d src v else d)
  else if off = 0x18 then (if go then bpmFreeCmd d src else d)
  else if off = 0x20 then (if go then bpmReclaim d (bits v.toNat 2 0) (bits v.toNat 7 4) else d)
  else if 0x100 ≤ off ∧ off < 0x200 ∧ off % 0x20 = 0 then poolCfgWrite d ((off - 0x100) / 0x20) m
  else if 0x100 ≤ off ∧ off < 0x200 ∧ off % 0x20 = 4 then poolBaseWrite d ((off - 0x100) / 0x20) m
  else d.setWord a m

/-- TEL's registers. -/
def telWrite (d : Dev) (off a : Nat) (v m : Word) : Dev :=
  let r := (off - 0x1000) / 0x40
  if off = 0x18 then (if bit v.toNat 31 then archiveCopy d v else d)
  else if off = 0x60 ∨ off = 0x80 then flowCtlWrite d ((off - 0x60) / 0x20) m
  else if off = 0x6C ∨ off = 0x8C then (if bit v.toNat 0 then flowFlush d ((off - 0x6C) / 0x20) else d)
  else if 0x1000 ≤ off then
    match off % 0x40 with
    | 0 => ringCfgWrite d r m
    | 0x14 | 0x18 => ringSetWrite d r a m
    | _ => d.setWord a m
  else d.setWord a m

/-- GZ's registers. -/
def gzWrite (g : Grid) (d : Dev) (src : Src) (h off a : Nat) (v m : Word) : Dev :=
  if off = 0x10 then gzCommand d src h (gcOp v) v
  else if off = 0x48 then (if bit v.toNat 31 then rehashStart d h v else d)
  else if 0x100 ≤ off ∧ off < 0x300 then tblWrite g d h ((off - 0x100) / 0x20) (off % 0x20) m
  else d.setWord a m

/-- ASE's registers. -/
def aseWrite (d : Dev) (s off a : Nat) (v m : Word) : Dev :=
  if off = 0x10 then (if bit v.toNat 31 then aseUpdate d s v else d)
  else if 0x100 ≤ off ∧ off < 0x140 then aseBankWrite d s ((off - 0x100) / 4) m
  else if 0x1000 ≤ off ∧ off < 0x1800 then asePfWrite d s ((off - 0x1000) / 0x80) (off % 0x80 / 4) m
  else d.setWord a m

/-- A write of a register of a stage, of ACT or of a parser window rewrites both its copies (R247, R291). -/
def mendReg (d : Dev) (l : Loc) (a : Nat) : Dev :=
  match l.kind with
  | .stg | .act => d.mendEntry (regEntry a)
  | .prs =>
    if 0x4000 ≤ l.off ∧ l.off < 0xC000 then d.mendEntry (l.unit, 32, l.off / 0x4000 - 1, 2, l.off % 0x4000 / 4) else d
  | _ => d

/-- A write to a register, after every check: what it does beyond storing its fields. -/
def writeEffect (src : Src) (h : Hit) (a dt : Nat) (v : Word) (x : Whole) : Whole :=
  let (g, _, d) := x
  let n := v.toNat
  let l := h.loc
  let m := merged d h a v
  let store := onDev (fun d => d.setWord a m) x
  match mbxBase l a, pwDomain h a with
  | some base, _ => mbxWrite src h base a dt v x
  | none, some (k, st) => onDev (fun d => pwArrive d k st a v) x
  | none, none =>
    if h.row.isAck then onDev (fun d => ackWrite d a v) x else
      match l.kind with
      | .wld => if l.off = 0x200 then
          onDev (fun d => if bit n 0 then (d.put WLD_LOCK.LOCK 1).put WLD_STATE.LOCKED 1 else d)
            (onDev (fun d => d.wput (onceKey a) 1) x)
        else store
      | .boot => match l.off with
        | 0x30 => onDev (fun d => bootIssue d (bits n 3 0) (bits n 4 4)) x
        | 0x48 => onBanks (bankSeal (bit n 16) (BitVec.ofNat 16 n)) x
        | 0x4C => onBanks (bankCmdWrite v g) x
        | 0x204 => onDev (fun d => flashCommand d (bits n 2 0)) x
        | _ => store
      | .grt => match l.off with
        | 0 => onGrid (epochCtlWrite a dt m) x
        | 0x1C => if bit n 0 then onGrid (jumpReq dt) x else x
        | 0x60 => onGrid (gsyncCtlWrite m a) x
        | _ => store
      | .pwr =>
        if 0x30 ≤ l.off ∧ l.off < 0x58 then
          onDev (fun d => if pwrRefuses a m then d.event PWR_STATUS.CFG_REJECT else retarget (d.setWord a m)) x
        else store
      | .flt => match l.off with
        | 0x24 => onDev (fltCmd g n dt) x
        | 0x17C => x
        | _ => onDev (fun d => faultPin (d.setWord a m)) x
      | .hk => match l.off with
        | 0x30 => onDev (fun d => hkCommand d (bits n 2 0) (bits n 5 4)) x
        | 0x40 => onDev (fun d => hkRingWrite d m) x
        | _ => store
      | .dma => if l.off % 0x40 = 0 then onDev (fun d => ringCtlWrite d (l.off / 0x40) m) x else store
      | .bpm => onDev (fun d => bpmWrite d src l.off a v m) x
      | .tel => onDev (fun d => telWrite d l.off a v m) x
      | .pmu | .hpmu | .smp =>
        if l.off = 0xC then onDev (fun d => pmuCmd d (pmuOf l) n) x
        else if l.kind = .pmu ∧ l.off = 0x110 then onDev (fun d => pmuSyncWrite d n) x
        else store
      | .sch => match l.off with
        | 0x10 => if bit n 31 then onDev (fun d => schCommand d (bits n 3 0)) x else x
        | 0x18 => onDev (fun d => retarget (promUpdate (d.setWord a m) 0)) x
        | _ => store
      | .gz => onDev (fun d => gzWrite g d src l.unit l.off a v m) x
      | .spl => if l.off = 0x14 then
          onDev (fun d =>
            let d := d.setWord a m
            if spillPoolOk d l.unit then d else d.event (SPL_STATUS.CFG_REJECT l.unit)) x
        else store
      | .buf =>
        if l.off = 0x10 ∨ (0x40 ≤ l.off ∧ l.off < 0x80 ∧ l.off % 8 = 0) then onDev (fun d => bufSplitWrite d l.unit a m) x
        else if 0x300 ≤ l.off ∧ l.off < 0x340 then
          onDev (fun d => thresholdWrite (d.setWord a m) ((l.off - 0x300) / 8)) x
        else store
      | .pt =>
        if l.off < 0x10 then onDev (fun d => changeOctetMode g d l.unit (l.off / 4) (bits n 3 0)) x
        else if l.off = 0x10 then
          onDev (fun d =>
            let p := 32 * l.unit + d.get (PT_CMD_PORT.LANE l.unit)
            if bit n 0 && isPort d p then clearStats d p else d) x
        else if 0x1000 ≤ l.off then
          onDev (fun d => portWrite d (32 * l.unit + (l.off - 0x1000) / 0x80) (l.off % 0x80) a m) x
        else store
      | .ase => onDev (fun d => aseWrite d l.unit l.off a v m) x
      | .stg | .act | .prs => onDev (fun d => mendReg (d.setWord a m) l a) x
      | _ => store

/-! ### Answers on both paths (R77, R89-R91, R101) -/

/-- The bytes of an out-of-band command up to its offset, and the address byte that begins its read part (R89). -/
def oobHead (d : Dev) (cmd : Nat) (off : Nat) : List Byte :=
  leBytes 1 (2 * (0x58 + d.get HIF_OOB_CTL.STRAP)) ++ leBytes 1 cmd ++ leBytes 4 off
def oobAgain (d : Dev) : List Byte := leBytes 1 (2 * (0x58 + d.get HIF_OOB_CTL.STRAP) + 1)

/-- The bytes the target sends for a READ32: the data, least significant byte first, and with PEC_EN the CRC-8 of every byte of
the transaction (R89). -/
def oobData (d : Dev) (off : Nat) (v : Word) : List Byte :=
  let data := leBytes 4 v.toNat
  if d.flag HIF_OOB_CTL.PEC_EN then data ++ [crc8 (oobHead d 1 off ++ oobAgain d ++ data)] else data

/-- The PEC byte that a WRITE32 must carry (R89). -/
def oobWritePec (d : Dev) (off : Nat) (v : Word) : Byte := crc8 (oobHead d 2 off ++ leBytes 4 v.toNat)

/-- The last byte of a WRITE32 (R90). -/
def oobLast (d : Dev) : OobByte := if d.flag HIF_OOB_CTL.PEC_EN then .pec else .d3

/-- The answer to a finished read. -/
def readDone (d : Dev) (src : Src) (a : Nat) (v : Word) : Dev :=
  let d := d.pmuEvent 0 0x07 1
  if src = .oob then d.emit (.oob none (oobData d a v)) else d.emit (.readDone src a (v.zeroExtend 64))

/-- A refused read: Completer Abort on PCIe, on I2C a NACK of A3, or of the second address byte where the read did not complete
in time (R77, R90, R101). -/
def readFail (d : Dev) (src : Src) (kind bar off : Nat) : Dev :=
  let d := busError d src kind bar off false
  if src = .oob then d.emit (.oob (some (if kind = beTimeout then .addrR else .a3)) []) else d.emit (.abort src bar off)

/-- A refused write: discarded, on I2C with a NACK of its last byte (R90, R101). -/
def writeFail (d : Dev) (src : Src) (kind bar off : Nat) : Dev :=
  let d := busError d src kind bar off true
  if src = .oob then d.emit (.oob (some (oobLast d)) []) else d

/-! ### Accesses that wait (R94, R616) -/

/-- A slice in warm reset holds accesses to its registers (R616). -/
def waitsFor (d : Dev) (l : Loc) : Bool :=
  match locSlice l with
  | some s => (d.sl s).inReset
  | none => false

/-- Two accesses come by one path (R94). -/
def samePath (a b : Src) : Bool := decide (a = .oob) == decide (b = .oob)

/-- Two accesses to one block of BAR0. -/
def sameBlock (p q : HeldAcc) : Bool :=
  decide (p.bar = 0) && decide (q.bar = 0) && decide (p.shape ≠ .zeroLen) && decide (q.shape ≠ .zeroLen) &&
    (match locate p.addr, locate q.addr with
      | some l, some m => decide ((l.kind, l.unit, l.sub) = (m.kind, m.unit, m.sub))
      | _, _ => false)

/-- An access waits: for its slice (R616); for an earlier access of its path to the same block, and a read for every earlier
write of its path (R94). `held` are the accesses that wait before it. -/
def mustWait (d : Dev) (held : List HeldAcc) (q : HeldAcc) : Bool :=
  (decide (q.bar = 0) && decide (q.shape ≠ .zeroLen) && (match locate q.addr with
    | some l => waitsFor d l
    | none => false))
  || held.any fun p => samePath p.src q.src && ((p.write && !q.write) || sameBlock p q)

/-- Bus errors logged so far. -/
def busErrors (x : Whole) : Nat := x.2.2.get HIF_BUSERR_CNT.COUNT

/-- A write that passed its checks is done; on I2C its last byte is acknowledged unless it was refused in the doing (R90). -/
def doWrite (src : Src) (h : Hit) (a dt : Nat) (v : Word) (x : Whole) : Whole :=
  let y := writeEffect src h a dt v x
  if src = .oob then
    onDev (fun d => d.emit (.oob (if busErrors y = busErrors x then none else some (oobLast x.2.2)) [])) y
  else y

/-- A read of BAR2 (R521, R525). -/
def bar2Access (d : Dev) (src : Src) (off : Nat) (shape : Shape) : Dev :=
  let fail (k : Nat) : Dev := readFail d src k 1 off
  if shape = .zeroLen then d.emit (.readDone src off 0)
  else if shape = .odd then fail beSize
  else if shape = .qword ∧ off % 8 ≠ 0 then fail beAlign
  else if off % 4 ≠ 0 then fail beSize
  else match bar2Read d (srcSecure src) off (decide (shape = .qword)) with
    | some (v, d) => d.emit (.readDone src off (BitVec.ofNat 64 v))
    | none => fail beReserved

/-- 32 pending bits of the function's PBA from vector `n` on. -/
def pbaWord (d : Dev) (pf n : Nat) : Nat :=
  (List.range 32).foldl (fun a i => if d.pba.get false (pf * 65536 + n + i) then a + 2 ^ i else a) 0

/-- A DW of BAR4's MSI-X table or PBA. -/
def bar4Word (d : Dev) (pf off : Nat) : Nat :=
  if off < 0xF1000 then
    let i := (off - 0xF0000) / 4
    (d.msix.get (msixReset i) (pf * 65536 + i)).toNat
  else if 0xF8000 ≤ off ∧ off < 0xF8020 then pbaWord d pf (8 * (off - 0xF8000))
  else 0

/-- A read of BAR4 (R658): the MSI-X table and the PBA, by DW or aligned QW; the rest takes no reads. -/
def bar4Access (d : Dev) (src : Src) (off : Nat) (shape : Shape) : Dev :=
  if shape = .zeroLen then d.emit (.readDone src off 0)
  else if shape = .odd ∨ off % 4 ≠ 0 ∨ (shape = .qword ∧ off % 8 ≠ 0) then readFail d src beSize 2 off
  else if off < 0xF0000 ∨ 0x100000 ≤ off then readFail d src beReserved 2 off
  else
    let lo := bar4Word d (pfOf src) off
    let hi := if shape = .qword then bar4Word d (pfOf src) (off + 4) else 0
    d.emit (.readDone src off (BitVec.ofNat 64 (lo + hi * 2 ^ 32)))

/-- A waiting access is done: a write finds the locks of this moment (DEDUCED, log entry 47). -/
def heldDone (x : Whole) (q : HeldAcc) : Whole :=
  if q.bar = 1 then onDev (fun d => bar2Access d q.src q.addr q.shape) x
  else if q.bar = 2 then onDev (fun d => bar4Access d q.src q.addr q.shape) x
  else if q.shape = .zeroLen then onDev (fun d => d.emit (.readDone q.src q.addr 0)) x
  else match regAt q.addr with
  | none => x
  | some h =>
    if !q.write then onDev (fun d => readDone d q.src q.addr (regValue x.1 x.2.1 d h q.addr)) x
    else if locked x.2.1 x.2.2 h q.addr then onDev (fun d => writeFail d q.src beLocked 0 q.addr) x
    else doWrite q.src h q.addr 0 q.v x

/-- An access that passed its checks waits, or is done. -/
def accept (q : HeldAcc) (done : Whole → Whole) (x : Whole) : Whole :=
  if mustWait x.2.2 x.2.2.heldAcc q then onDev (fun d => { d with heldAcc := d.heldAcc ++ [q] }) x else done x

/-- The accesses that need wait no longer are done, in their order. -/
def releaseHeld (x : Whole) : Whole :=
  let r := x.2.2.heldAcc.foldl (fun (r : List HeldAcc × Whole) q =>
    if mustWait r.2.2.2 r.1 q then (r.1 ++ [q], r.2) else (r.1, heldDone r.2 q)) ([], x)
  onDev (fun d => { d with heldAcc := r.1 }) r.2

/-! ### Accesses to BAR0 (R94, R100, R101, R616) -/

/-- The shape and alignment checks of BAR0 (R100): the kind of the error. -/
def shapeError (src : Src) (a : Nat) (shape : Shape) : Option Nat :=
  if src = .oob then (if a % 4 ≠ 0 then some beAlign else none)
  else if shape ≠ .dword ∨ a % 4 ≠ 0 then some beSize else none

/-- A write to BAR0. -/
def bar0Write (src : Src) (a : Nat) (shape : Shape) (v : Word) (dt : Nat) (x : Whole) : Whole :=
  let fail (k : Nat) : Whole := onDev (fun d => writeFail d src k 0 a) x
  match shapeError src a shape with
  | some k => fail k
  | none =>
    match checkAccess x.2.1 x.2.2 src a true v with
    | .error k => fail k
    | .ok h => accept ⟨src, true, 0, a, .dword, v⟩ (doWrite src h a dt v) x

/-- A read of BAR0; a zero-length read touches nothing (R100). -/
def bar0Read (src : Src) (a : Nat) (shape : Shape) (x : Whole) : Whole :=
  if src ≠ .oob ∧ shape = .zeroLen then
    accept ⟨src, false, 0, a, .zeroLen, 0⟩ (onDev fun d => d.emit (.readDone src a 0)) x
  else
    match shapeError src a shape with
    | some k => onDev (fun d => readFail d src k 0 a) x
    | none =>
      match checkAccess x.2.1 x.2.2 src a false 0 with
      | .error k => onDev (fun d => readFail d src k 0 a) x
      | .ok h =>
        accept ⟨src, false, 0, a, .dword, 0⟩ (fun y => onDev (fun d => readDone d src a (regValue y.1 y.2.1 d h a)) y) x

/-- SLICE_REJOIN's effect (R616): the slice is back, and the accesses that waited for it are done in their order. -/
def rejoin (s : Nat) (x : Whole) : Whole :=
  if (x.2.2.sl s).inReset && !fenced x.2.2 s then releaseHeld (onDev (fun d => sliceReturns d s (x.1.nowQ 0)) x) else x

/-- A command that acts on Graticule, banks and device. -/
def State.withWhole (s : State) (f : Whole → Whole) : Outc := s.withAll fun g b d => f (g, b, d)

/-- SLICE_REJOIN (R616). -/
def execSliceRejoin (sl : Fin 32) (s : State) : Outc := s.withWhole (rejoin sl)

/-! ### The commands of the PCIe path (R73, R100, R101, R521, R658) -/

/-- REGISTER_WRITE (R100, R101): BAR 0, 1 BAR2, 2 BAR4; the out-of-band path reaches BAR0 alone (R88). -/
def execRegisterWrite (src : Src) (bar : Fin 3) (off : BitVec 27) (shape : Shape) (v : Word) (dt : Nat) (s : State) : Outc :=
  s.withWhole fun x =>
  match bar.val with
  | 0 => bar0Write src off.toNat shape v dt x
  | 1 => if src = .oob then x else onDev (fun d => busError d src beBar2Write 1 off.toNat true) x
  | _ => onDev (fun d => bar4Write d src off.toNat shape v) x

/-- REGISTER_READ (R94, R101, R521, R525, R616). -/
def execRegisterRead (src : Src) (bar : Fin 3) (off : BitVec 27) (shape : Shape) (_dt : Nat) (s : State) : Outc :=
  s.withWhole fun x =>
  if bar = 0 then bar0Read src off.toNat shape x
  else if src = .oob then x
  else accept ⟨src, false, bar, off.toNat, shape, 0⟩
    (onDev fun d => if bar = 1 then bar2Access d src off.toNat shape else bar4Access d src off.toNat shape) x

/-- READ_TIMEOUT (R77, R90): a read not completed in 100 us, held for a slice in reset or otherwise, ends; what waited for it
goes on. -/
def execReadTimeout (src : Src) (off : BitVec 27) (s : State) : Outc := s.withWhole fun x =>
  releaseHeld (onDev (fun d =>
    readFail { d with heldAcc := d.heldAcc.erase ⟨src, false, 0, off.toNat, .dword, 0⟩ } src beTimeout 0 off.toNat) x)

/-- STATUS_ACK (R107): a write to an _ACK register. -/
def execStatusAck (src : Src) (off : BitVec 27) (v : Word) (s : State) : Outc :=
  s.withWhole (bar0Write src off.toNat .dword v 0)

/-- R668, R291: what the reads of a block's entries count and report: a correction, a restore of the row numbered, both copies
bad. -/
def entryCorrected (d : Dev) (l : Loc) : Dev := match l.kind with
  | .prs => d.bump (PRS_CNT_TABLE_CORR l.unit)
  | .stg => d.bump (STG_CNT_TABLE_CORR l.unit l.sub)
  | _ => d.bump (ACT_CNT_TABLE_CORR l.unit)

def entryRestored (d : Dev) (l : Loc) (row : Nat) : Dev := match l.kind with
  | .prs => ttRestored l.unit d (⟨row / 2 ^ 16 % 2, by omega⟩, row % 2 ^ 16)
  | .stg => tblRestored d l.unit l.sub 0 row
  | _ => tblRestored d l.unit 28 0 row

def entryShadowBad (l : Loc) (d : Dev) : Dev := match l.kind with
  | .prs => prsShadowBad l.unit d
  | .stg => tblShadowBad l.unit l.sub 0 d
  | _ => tblShadowBad l.unit 28 0 d

/-- R668: a mailbox read of an entry corrects, restores or reports an error as a lookup would; with both copies bad it returns
the working copy as stored. -/
def readFinds (d : Dev) (l : Loc) (base i : Nat) (e : ReadErr) : Dev :=
  match entryKey l i with
  | none => d
  | some k =>
    match e with
    | .corr => entryCorrected d l
    | .restored => entryRestored d l (k.2.2.2.1 * 2 ^ 16 + k.2.2.2.2)
    | .bad v =>
      let v := v.toNat &&& (wideMask l i).getD 0
      setMbxData ((d.wput (wkey base i) v).noteBad k (entryShadowBad l)) base v
    | .none => if d.badEntries.contains k then d.noteBad k (entryShadowBad l) else d

/-- R326, R487: a mailbox read of a replica checks its parity, one of a flow entry its ECC. -/
def readParity (d : Dev) (l : Loc) (i : Nat) (e : ReadErr) : Dev :=
  let uncorr : Bool := match e with
    | .bad _ => true
    | _ => false
  if l.kind = .tel ∧ kindOf i = 3 ∧ uncorr ∧ (flowAt d (bits i 23 23) (bits i 17 0)).isSome then flowEcc d (bits i 23 23) (bits i 17 0) else
  let ovf := decide (kindOf i = 2)
  if l.kind = .gz ∧ (kindOf i = 1 ∨ ovf) ∧ e ≠ .none then
    let n := if ovf then i % 2 ^ 14 else i % 2 ^ 20
    gzBad d l.unit (tableAt d l.unit ovf n) ovf n
  else d

/-- MAILBOX_READ (R105, R668): GO with OP 0 is written to the mailbox whose MBX_ADDR is at `base`; `err` is what the read finds
in an entry that carries a check. -/
def execMailboxRead (src : Src) (base : BitVec 27) (dt : Nat) (err : ReadErr) (s : State) : Outc :=
  s.withWhole fun x =>
  let y := bar0Write src (base.toNat + 0x14) .dword 0x100 dt x
  let read := y.2.2.mbxBusy.contains base.toNat && !x.2.2.mbxBusy.contains base.toNat
  match locate base.toNat with
  | some l =>
    let i := (x.2.2.word base.toNat).toNat
    if read then onDev (fun d => readParity (readFinds d l base.toNat i err) l i err) y else y
  | none => y

/-- MAILBOX_WRITE (R105): GO with OP 1. -/
def execMailboxWrite (src : Src) (base : BitVec 27) (dt : Nat) (s : State) : Outc :=
  s.withWhole (bar0Write src (base.toNat + 0x14) .dword 0x102 dt)

/-- POSTED_WRITE (R108, R109): a write to a register of a posted-write domain. -/
def execPostedWrite (src : Src) (off : BitVec 27) (v : Word) (s : State) : Outc :=
  s.withWhole (bar0Write src off.toNat .dword v 0)

/-- WLD_LOCK_SET (R99, R110). -/
def execWldLockSet (src : Src) (v : Word) (s : State) : Outc := s.withWhole (bar0Write src WLD_LOCK.word.addr .dword v 0)

/-- TIME_FREQ_WRITE (R72). -/
def execTimeFreqWrite (src : Src) (v : Word) (s : State) : Outc := s.withWhole (bar0Write src TIME_FREQ.word.addr .dword v 0)

/-! ### Reads that remove an entry (R220, R531, R633) -/

/-- An index is written to a mailbox and read. -/
def mailboxPop (src : Src) (base idx : Nat) (s : State) : Outc :=
  s.withWhole fun x => bar0Write src (base + 0x14) .dword 0x100 0 (bar0Write src base .dword (BitVec.ofNat 32 idx) 0 x)

/-- TS_FIFO_POP (R220). -/
def execTsFifoPop (src : Src) (p : Fin 1024) (s : State) : Outc :=
  mailboxPop src (mbxPt (p.val / 32)) (p.val % 32 * 64 + 48) s

/-- The mailbox of PMU m (R535). -/
def mbxOfPmu (m : Nat) : Nat := if m = 0 then mbxPmu else if m < 3 then mbxHpmu (m - 1) else mbxSmp (m - 3)

/-- SAMPLE_POP (R531, R532): the read comes through PF1 (DESIGN CHOICE, log entry 48: the row names no function). -/
def execSamplePop (m : Fin 35) (e : Fin 2) (s : State) : Outc :=
  mailboxPop .pf1 (mbxOfPmu m) (2 * 2 ^ 28 + (if m.val = 0 then e.val else 0)) s

/-- LOG_POP (R633): through PF1, as SAMPLE_POP. -/
def execLogPop (s : State) : Outc := mailboxPop .pf1 mbxFlt (2 * 2 ^ 28) s

/-! ### The out-of-band path (R87-R91) -/

/-- R87: the target answers to its own address alone. -/
def oobMine (d : Dev) (addr : BitVec 7) : Bool := decide (addr.toNat = 0x58 + d.get HIF_OOB_CTL.STRAP)

/-- OOB_READ32 (R89-R91); `timeout` is a legal read that does not complete in 100 us; a further byte that the controller clocks
with PEC_EN = 0 reads 0xFF. -/
def execOobRead32 (addr : BitVec 7) (off : Word) (timeout more : Bool) (s : State) : Outc := s.withWhole fun x =>
  let a := off.toNat
  if !oobMine x.2.2 addr then x
  else if timeout then
    match shapeError .oob a .dword, checkAccess x.2.1 x.2.2 .oob a false 0 with
    | none, .ok _ => onDev (fun d => readFail d .oob beTimeout 0 a) x
    | _, _ => bar0Read .oob a .dword x
  else
    let y := bar0Read .oob a .dword x
    let done := decide (busErrors y = busErrors x) && decide (y.2.2.heldAcc = x.2.2.heldAcc)
    if more && done && !x.2.2.flag HIF_OOB_CTL.PEC_EN then onDev (fun d => d.emit (.oob none [0xFF])) y else y

/-- OOB_WRITE32 (R89-R91). With PEC_EN a PEC byte must follow: without one the transaction ends early, and a bad one discards
the write; without PEC_EN a byte after D3 is refused and the write stands. -/
def execOobWrite32 (addr : BitVec 7) (off : Word) (v : Word) (pec : Option Byte) (dt : Nat) (s : State) : Outc :=
  s.withWhole fun x =>
  if !oobMine x.2.2 addr then x
  else if x.2.2.flag HIF_OOB_CTL.PEC_EN then
    match pec with
    | none => x
    | some p =>
      if p = oobWritePec x.2.2 off.toNat v then bar0Write .oob off.toNat .dword v dt x
      else onDev (fun d => (d.bump HIF_OOB_STAT.BAD_PEC).emit (.oob (some .pec) [])) x
  else
    let y := bar0Write .oob off.toNat .dword v dt x
    if pec.isSome then onDev (fun d => d.emit (.oob (some .extra) [])) y else y

/-- OOB_BAD_COMMAND (R90): an unknown command byte is refused and counted. -/
def execOobBadCommand (addr : BitVec 7) (cmd : Byte) (s : State) : Outc := s.withDev fun d =>
  if !oobMine d addr ∨ cmd = 1 ∨ cmd = 2 then d else (d.bump HIF_OOB_STAT.BAD_CMD).emit (.oob (some .command) [])

/-- OOB_STOP_EARLY (R90): the transaction is discarded. -/
def execOobStopEarly (s : State) : Outc := s.withDev id

/-- OOB_SCL_TIMEOUT (R90): the target is idle again; it holds nothing of the transaction. -/
def execOobSclTimeout (s : State) : Outc := s.withDev id

end Sys2Proof.Machine
end

