-- ==== Sys2Proof/Machine/Redo.lean ====
section
/-!
DEFINITION. The effects of Tansy routines (R550): what each does when it is applied, and the redo record of R551 that a
restart applies again (R568).
-/
namespace Sys2Proof.Machine

/-- The Gazetteer batch, queue and journal stores: a store of a word by port. SCRATCH is port 0 and takes no effect here; the
layouts behind GZ_OWN and QUEUE are not stated, and a store there has no stated effect (DESIGN CHOICE, log entry 104). -/
def storeWord (e port a dt : Nat) (v : Word) (x : Whole) : Whole :=
  match port with
  | 1 => onDev (fun d => d.setTansy e fun t => { t with journal := t.journal.put 0 (a / 4) v }) x
  | 5 => match checkAccess x.2.1 x.2.2 .pf1 a true v with
    | .ok h => accept ⟨.pf1, true, 0, a, .dword, v⟩ (writeEffect .pf1 h a dt v) x
    | .error _ => x
  | 6 => onDev (fun d => { d with hk := { d.hk with peer := d.hk.peer.put 0 ((1 - e) * 16 + a % 16) v } }) x
  | _ => x

/-- The distance between the addresses of consecutive words of a port: PEER counts words, the others bytes (DESIGN CHOICE, log entry 103). -/
def wordStep (port : Nat) : Nat := if port = 6 then 1 else 4

/-- Words stored at rising addresses. -/
def storeWords (e port a dt : Nat) (vs : List Word) (x : Whole) : Whole :=
  match vs with
  | [] => x
  | v :: r => storeWords e port (a + wordStep port) dt r (storeWord e port a dt v x)

/-- An engine's host event goes out again with the EVENT_SEQ it had (R564). -/
def repost (d : Dev) (e kind seq : Nat) (data : BitVec 512) : Dev :=
  let next := d.hk.evSeq
  let d := ({ d with hk := { d.hk with evSeq := seq } }).hostEvent kind e data.toNat
  { d with hk := { d.hk with evSeq := next } }

/-- One effect is applied by engine e; a host event takes its EVENT_SEQ. -/
def applyEff (e dt : Nat) (f : TEff) (x : Whole) : TEff × Whole :=
  match f with
  | .store port a vs => (f, storeWords e port a dt vs x)
  | .free p => (f, onDev (fun d => (bpmFree d (5 + e) p).2) x)
  | .event k v none => (.event k v (some x.2.2.hk.evSeq), onDev (fun d => d.hostEvent k e v.toNat) x)
  | .event k v (some q) => (f, onDev (fun d => repost d e k q v) x)
  | .signal => (f, onDev (fun d => { d with hk := { d.hk with signals := d.hk.signals.put 0 (1 - e) (d.hk.signals.get 0 (1 - e) + 1) } }) x)
  | .arm => (f, onDev (fun d => batchArm x.1 d e) x)
  | .respond a => (f, onDev (fun d =>
      if (match d.hk.cur with
        | some c => c.answer.isNone
        | none => false) then ringAnswer d a.1 a.2.1 a.2.2.1 a.2.2.2.toNat else d) x)

/-- Effects in program order, with the record they leave. -/
def applyEffs (e dt : Nat) (fs : List TEff) (x : Whole) : List TEff × Whole :=
  match fs with
  | [] => ([], x)
  | f :: r =>
    let y := applyEff e dt f x
    let z := applyEffs e dt r y.2
    (y.1 :: z.1, z.2)

/-- The effects a restart applies again: stores, which are absolute (R543), host events, which keep their EVENT_SEQ (R564),
and signals. A buffer freed once is not freed again, an armed batch stays armed (R557), a response is not given twice
(DEDUCED, log entry 106). -/
def TEff.again : TEff → Bool
  | .store _ _ _ | .event _ _ _ | .signal => true
  | .free _ | .arm | .respond _ => false

/-- R568 step 1: a redo record that is valid and not done is applied again, and is done. -/
def redoApply (e : Nat) (x : Whole) : Whole :=
  let fs := ((x.2.2.tansy e).redo).filter TEff.again
  onDev (fun d => d.setTansy e fun t => { t with redo := [] }) (applyEffs e 0 fs x).2

end Sys2Proof.Machine
end

