-- ==== Sys2Proof/Machine/Boot.lean ====
section
/-!
DEFINITION. Resets, the boot ROM, the Herel image and BOOT_CMD (chapter 04), power-on and rail resets, the loss of CORE_REF
(chapter 19).
-/
namespace Sys2Proof.Machine

/-! ### What resets keep (chapter 04's table, R117, R132, R508, R618, R631) -/

/-- Registers of the blocks that a failed image leaves alone: ID, HIF, BOOT, GRT, TIME (R132). -/
def bootKeeps (a : Nat) : Bool := decide (a < 0x1000000) && [0, 1, 3, 4, 12].contains (a / 0x10000)

/-- Registers with fused or fixed values that nothing writes (R2, R111, R577): no reset changes them. -/
def fusedReg (a : Nat) : Bool :=
  [ID_SILICON.word.addr, ID_BOOTROM.BOOTROM_VER.addr, ID_CAP.word.addr, HK_ROM_VERSION.word.addr].contains a

/-- The unique ids of the dies, behind ID's mailbox. -/
def fusedWide (k : Nat) : Bool := decide (k / 2 ^ 32 = mbxId)

/-- FLT's first-error capture. -/
def captureReg (a : Nat) : Bool := decide (0x60010 ≤ a) && decide (a ≤ 0x60018)

/-- Counters of GRT and TIME. -/
def clockCounter (a : Nat) : Bool :=
  (decide (0x40020 ≤ a) && decide (a < 0x40050) && decide (a % 16 ≠ 0))
    || (decide (0xC0020 ≤ a) && decide (a < 0xC002C))

/-- Registers that a warm device reset keeps: GRT and TIME but for their counters, the PCIe link's state (DEDUCED, log entry 58: R508 zeroes
every counter, and the table keeps both blocks). -/
def warmKeeps (a : Nat) : Bool :=
  (decide (a < 0x1000000) && [4, 12].contains (a / 0x10000) && !clockCounter a) || decide (a = HIF_LINK.word.addr)

/-- Wide values in the retained journal RAM: the Gazetteer's migrations and counts (R117, R325). -/
def journalKey (k : Nat) : Bool :=
  (decide (k / 2 ^ 32 = mbxGz 0) || decide (k / 2 ^ 32 = mbxGz 1))
    && (decide (kindOf (k % 2 ^ 32) = 3) || decide (kindOf (k % 2 ^ 32) = 4))

/-- The engines' journal RAM alone, with the redo record in it (R117, R551). -/
def journalsOf (d : Dev) : SMap Engine :=
  [0, 1].foldl (fun m e => m.put {} e { journal := (d.tansy e).journal, redo := (d.tansy e).redo }) []

/-- The state after a reset of every block: registers that pass keep what they hold, writable registers with fused reset values
take them, and what lies outside the blocks stays: fuses, what was sent, the free values drawn. -/
def Dev.atReset (d : Dev) (keep : Nat → Bool) : Dev :=
  let regs := d.fuses.foldl (fun m e => if keep e.1 then m else m.put (resetWord e.1) e.1 e.2) (d.regs.keep keep)
  { regs := regs, out := d.out, free := d.free, serial := d.serial, rollback := d.rollback, keyHash := d.keyHash, fuses := d.fuses }

/-- Every block returns to reset, but for the registers and wide values that pass and what lies outside the blocks: pins, fuses,
MSI-X settings, the journals, FLT's capture and a DEVICE_FATAL hold. -/
def resetBlocks (keep wide : Nat → Bool) (d : Dev) : Dev :=
  let r : Dev := { (d.atReset fun a => keep a || captureReg a || fusedReg a) with
                   wide := d.wide.keep fun k => wide k || journalKey k || fusedWide k
                   pins := d.pins
                   msix := d.msix, pba := d.pba, silent := d.silent
                   pw := d.pw.keep fun k => decide (k = 1041)
                   mbxBusy := d.mbxBusy.filter fun b => decide (b = mbxTime) || decide (b = mbxGrt)
                   gaz := { oldPart := d.gaz.oldPart }
                   hk := { eng := journalsOf d }, flt := { firstTime := d.flt.firstTime, fatal := d.flt.fatal } }
  r.put FLT_STATE.FAULT_N (d.get FLT_STATE.FAULT_N)

/-- R132: what a failed section leaves: every block but BOOT, HIF, ID, GRT, TIME and FLT in reset, FLT as a warm reset leaves
it. -/
def failedLoad (d : Dev) : Dev :=
  let r := resetBlocks bootKeeps (fun k => decide (k / 2 ^ 32 = mbxBoot)) d
  faultPin { r with boot := d.boot, mbxBusy := d.mbxBusy, reports := d.reports }

/-- PACE lines and PPS_OUT are released, and transmitters leave the idle of R618 and R648 for that of a reset. -/
def releaseLines (d : Dev) : Dev :=
  let n := d.get PWR_STATE.PACE_OUT
  let d := (List.range 3).foldl (fun d i => if i < n then d.emit (.pin ("PACE[" ++ toString i ++ "]") true) else d) d
  let d := setPpsOut d false
  if d.silent then { d with silent := false }.emit (.silence false) else d

/-- R630: fuses blown when a reset interrupts ADVANCE_ROLLBACK: some of those due. -/
def partialBlow (d : Dev) : Dev :=
  match d.boot.cmd with
  | some (4, _, none) =>
    let due := min 64 (d.get BOOT_ROLLBACK.RUN) - d.rollback
    let (r, d) := d.fresh
    if d.get BOOT_STATE.SOURCE = 3 then d else { d with rollback := d.rollback + r.toNat % (due + 1) }
  | _ => d

/-- A warm device reset with a cause (BOOT_STATE.LAST_RESET's code): the boot ROM runs again. -/
def warmReset (cause : Nat) (x : Whole) : Whole :=
  let d := partialBlow (releaseLines x.2.2)
  let r := resetBlocks warmKeeps (fun _ => false) d
  let r := (r.put HIF_OOB_CTL.STRAP (d.get HIF_OOB_CTL.STRAP)).put BOOT_STATE.LAST_RESET cause
  (x.1, {}, faultPin (r.put BOOT_ROLLBACK.FUSED d.rollback))

/-- Power-on reset: everything but fuses and the world outside (R115); what SYSRST_N, PERST_N and CORE_REF did before is
forgotten (R649; log entry 165). -/
def powerOn (pins : Pins) (d : Dev) : Dev :=
  let pins := { pins with sysrst := false, perst := false, coreLost := false }
  let d := partialBlow (releaseLines d)
  let d := if d.flag FLT_STATE.FAULT_N then d.emit (.pin "FAULT_N" true) else d
  let r : Dev := { d.atReset fusedReg with wide := d.wide.keep fusedWide, pins := pins }
  r.put BOOT_ROLLBACK.FUSED d.rollback

/-- PORST_N_ASSERT (R115). -/
def execPorstAssert (s : State) : Outc :=
  .next { s with grid := {}, banks := {}, dev := powerOn { s.dev.pins with porst := true } s.dev }

/-- A pin of power-on reset lets go: straps are sampled (R640), and the Graticule starts (R38). -/
def letGo (pins : Pins) (strap : Nat) (s : State) : State :=
  { s with grid := {}, banks := {}, dev := { s.dev with pins := pins }.put HIF_OOB_CTL.STRAP strap }

/-- PORST_N_RELEASE (R38, R640). -/
def execPorstRelease (strap : BitVec 2) (tst : Bool) (s : State) : Outc :=
  if s.dev.pins.porst then .next (letGo { s.dev.pins with porst := false, test := tst } strap.toNat s) else .next s

/-- RAIL_MONITOR_TRIP (R645): as if PORST_N were low. -/
def execRailMonitorTrip (s : State) : Outc :=
  .next { s with grid := {}, banks := {}, dev := powerOn { s.dev.pins with rail := true } s.dev }

/-- RAIL_MONITOR_RELEASE (R645): every rail is back. -/
def execRailMonitorRelease (strap : BitVec 2) (tst : Bool) (s : State) : Outc :=
  if s.dev.pins.rail then .next (letGo { s.dev.pins with rail := false, test := tst } strap.toNat s) else .next s

/-- SYSRST_PULSE (R116): a pulse of 1 us or longer starts a warm device reset. -/
def execSysrstPulse (longEnough : Bool) (s : State) : Outc := s.withWhole fun x =>
  if longEnough ∧ x.2.2.pins.sysrst = false then
    warmReset 1 (onDev (fun d => { d with pins := { d.pins with sysrst := true } }) x)
  else x

/-- SYSRST_N_RELEASE (R116): the boot ROM starts. -/
def execSysrstRelease (s : State) : Outc := s.withDev fun d => { d with pins := { d.pins with sysrst := false } }

/-- FATAL_RESET (R618). -/
def execFatalReset (s : State) : Outc := s.withWhole fun x => if x.2.2.flt.fatalDue then warmReset 3 x else x

/-- CORE_REF_LOSS (R648): every transmitter goes idle, and FAULT_N is held. -/
def execCoreRefLoss (s : State) : Outc := s.withDev fun d =>
  let d := if d.silent then d else { d with silent := true }.emit (.silence true)
  faultPin { d with pins := { d.pins with coreLost := true } }

/-- CORE_REF_RETURN (R648): 1 ms later a warm device reset begins. -/
def execCoreRefReturn (s : State) : Outc := s.withWhole fun x =>
  if x.2.2.pins.coreLost then warmReset 3 (onDev (fun d => { d with pins := { d.pins with coreLost := false } }) x) else x

/-! ### The image's header and body (R123, R124, R129, R131) -/

end Sys2Proof.Machine

namespace Sys2Proof
open Machine

/-- A little-endian field of the header: n bytes from offset off on (R123). -/
def Image.field (i : Image) (off n : Nat) : Nat := leNat (bytesAt i.header off n)

/-- A big-endian field of the header (R123). -/
def Image.bigField (i : Image) (off n : Nat) : Nat := beNat (bytesAt i.header off n)

/-- The header's fields (R123). -/
def Image.needs (i : Image) : Nat := i.field 0x006 1
def Image.rollback (i : Image) : Nat := i.field 0x007 1
def Image.seq (i : Image) : Word := BitVec.ofNat 32 (i.field 0x008 4)
def Image.length (i : Image) : Nat := i.field 0x00C 4
def Image.lockWorld (i : Image) : Bool := bit (i.field 0x010 8) 0
def Image.buildId (i : Image) : Nat := i.field 0x020 16

/-- The image with other SEQ bytes (R140). -/
def Image.withSeq (i : Image) (seq : Word) : Image := { i with header := overwrite i.header 0x008 (leBytes 4 seq.toNat) }

/-- A directory entry (R124). -/
structure DirEntry where
  type : Nat
  flags : Nat
  offset : Nat
  length : Nat
  zero : Nat
  deriving DecidableEq, Repr

/-- The directory entries in use (R124). -/
def Image.directory (i : Image) : List DirEntry :=
  ((List.range 16).map fun k =>
    let o := 0x040 + 16 * k
    (⟨i.field o 2, i.field (o + 2) 2, i.field (o + 4) 4, i.field (o + 8) 4, i.field (o + 12) 4⟩ : DirEntry)).filter
      fun e => decide (e.type ≠ 0)

/-- R123, R131: the digest of header bytes 0x000 to 0x13F and the body. -/
def Image.digest (i : Image) : Nat := sha384 (bytesAt i.header 0 0x140 ++ i.body.take i.length)

end Sys2Proof

namespace Sys2Proof.Machine

/-- Two sections neither overlap nor have one TYPE (R124). -/
def apart (e f : DirEntry) : Bool :=
  decide (e.type ≠ f.type) && (decide (e.offset + e.length ≤ f.offset) || decide (f.offset + f.length ≤ e.offset))

/-- Every entry of a directory is apart from those after it. -/
def allApart : List DirEntry → Bool
  | [] => true
  | e :: r => r.all (apart e) && allApart r

/-- R124: the directory's form. -/
def dirOk (i : Image) : Bool :=
  allApart i.directory && i.directory.all fun e => decide (e.flags = 0) && decide (e.offset % 16 = 0)
    && decide (e.offset + e.length ≤ i.length) && decide (e.zero = 0)

/-- The header's failure, 0 for none (R129, in its order). -/
def headerCode (d : Dev) (i : Image) : Nat :=
  let need (k : Nat) (present : Bool) : Bool := bit i.needs k && !present
  if bytesAt i.header 0 4 ≠ [0x48, 0x52, 0x4C, 0x31] ∨ i.field 0x004 2 ≠ 1 then 2
  else if i.length % 16 ≠ 0 ∨ i.length < 16 ∨ 0x01FFF000 < i.length then 3
  else if i.seq = 0 ∨ i.seq = 0xFFFFFFFF then 6
  else if need 0 (spillPresent d) || need 1 (d.flag ID_CAP.ARCHIVE_PRESENT) || need 2 (decide (16 ≤ aseBanks d))
      || decide (8 ≤ i.needs) then 4
  else if i.rollback < d.rollback then 5
  else 0

/-- The body's failure but for its sections' content (R131): digest, key hash, signature. -/
def bodyCode (d : Dev) (i : Image) : Nat :=
  if i.digest ≠ i.bigField 0x140 48 then 7
  else if sha384 (bytesAt i.header 0x170 96) ≠ d.keyHash.toNat then 8
  else if !ecdsaOk (i.bigField 0x170 48) (i.bigField 0x1A0 48) (i.bigField 0x1D0 48) (i.bigField 0x200 48)
      (i.bigField 0x140 48) then 10
  else 0

/-- The section of a TYPE, where the directory names it. -/
def sectionOf (i : Image) (t : Nat) : Option Section :=
  if i.directory.any fun e => decide (e.type = t) then i.sections.find? fun s => decide (s.type = t) else none

/-- R124, R125, R131: the directory is well formed, names only the types of R125 and every required one, and each section's
content parses. -/
def imageForm (i : Image) : Bool :=
  dirOk i && (i.directory.all fun e => decide (e.type ≤ 9) && (match sectionOf i e.type with
    | some s => s.parses
    | none => false))
    && [5, 6, 9].all fun t => (sectionOf i t).isSome

/-! ### Loading an item (R125, R666) -/

/-- The fields an image sets. -/
def settable (r : RRow) : Nat := r.mask fun f => [Acc.rw, .pw, .w1].contains f.acc

/-- A register that a section of type t may set. -/
def regInSection (t : Nat) (l : Loc) : Bool :=
  match t with
  | 1 => decide (l.kind = BKind.wld) && decide (l.off < 0x200)
  | 2 => decide (l.kind = BKind.pwr) && alwaysSecure l
  | 4 => [BKind.buf, .spl, .mem, .eq, .bpm, .tel, .cth, .sch].contains l.kind
  | 5 => decide (l.kind = BKind.prs)
  | 6 => [BKind.stg, .dep, .ase].contains l.kind
  | 7 => decide (l.kind = BKind.gz) && decide (0x100 ≤ l.off) && decide (l.off < 0x300)
  | 8 => decide (l.kind = BKind.ase) && (bankWindow l).isNone
  | 9 => [BKind.ln, .pt].contains l.kind
  | _ => false

/-- The offset of bank B's window from bank A's. -/
def bankStep (k : BKind) : Nat :=
  match k with
  | .prs => 0x4000
  | .stg => 0x400
  | _ => 0x100

/-- A register item: what its write does; none is a content error (R131). Posted writes take effect at once, and so do the
tables' settings. -/
def loadReg (t : Nat) (bankB : Bool) (a : Nat) (v : Word) (x : Whole) : Option Whole :=
  match regAt a with
  | none => none
  | some h =>
    let w := v &&& BitVec.ofNat 32 (settable h.row)
    if absent x.2.2 h.loc || !regInSection t h.loc || (mbxBase h.loc a).isSome || decide (settable h.row = 0) then none
    else if t = 5 ∨ t = 6 then
      if bankWindow h.loc = some false then
        let up := if bankB then bankStep h.loc.kind else 0
        some (onDev (fun d => mendReg (d.setWord (a + up) (merged d h (a + up) w)) { h.loc with off := h.loc.off + up } (a + up)) x)
      else none
    else if t = 7 then
      let n := x.2.2.gaz.tblWrites.length
      let d := tblWrite x.1 x.2.2 h.loc.unit ((h.loc.off - 0x100) / 0x20) (h.loc.off % 0x20) w
      if d.gaz.tblWrites.length = n then none else some (x.1, x.2.1, applyTblWrites x.1 true d)
    else if (pwDomain h a).isSome then some (onDev (fun d => pwEffect x.1 d a w) x)
    else some (writeEffect .pf1 h a 0 w x)

/-- A mailbox index that a section of type t may set. -/
def mbxInSection (t : Nat) (l : Loc) (i : Nat) : Bool :=
  match t with
  | 3 => decide (l.kind = BKind.hk) && decide (kindOf i < 3)
  | 4 => [BKind.eq, .bpm, .tel].contains l.kind
  | 5 => decide (l.kind = BKind.prs)
  | 6 => [BKind.stg, .act].contains l.kind
  | 7 => decide (l.kind = BKind.buf)
  | 9 => decide (l.kind = BKind.ln)
  | _ => false

/-- A slot or a quarter of an overflow entry of a Gazetteer half. -/
def loadGz (h i v : Nat) (x : Whole) : Option Whole :=
  let r := kindRest i
  if (gzWide x.2.2 h i).isNone then none
  else match kindOf i with
    | 1 => some (onDev (fun d => { d with gaz := { d.gaz with
        slots := d.gaz.slots.put 0 (h * 2 ^ 22 + r % 2 ^ 20 * 4 + r / 2 ^ 20) (BitVec.ofNat 128 v) } }) x)
    | 2 => some (onDev (fun d =>
        let k := h * 2 ^ 14 + r % 2 ^ 14
        let e := (d.gaz.ovf.get 0 k).toNat
        let q := 128 * (r / 2 ^ 20)
        { d with gaz := { d.gaz with
          ovf := d.gaz.ovf.put 0 k (BitVec.ofNat 512 (e - bits e (q + 127) q * 2 ^ q + v * 2 ^ q)) } }) x)
    | _ => none

/-- A part of an ASE entry: a unit of its value or mask, or its result, priority and VALID (R374). -/
def loadAse (s i v : Nat) (x : Whole) : Option Whole :=
  let r := kindRest i
  if kindOf i ≠ 1 ∨ (aseWide x.2.2 s i).isNone then none
  else some (onDev (fun d =>
    let k := aseKey s (aseHome d s (bits r 14 11)) (bits r 10 0)
    let e := d.ase.get {} k
    let part := r / 2 ^ 16
    let lo := 320 - 80 * (part % 4 + 1)
    let unit (w : BitVec 320) : BitVec 320 :=
      BitVec.ofNat 320 (w.toNat - bits w.toNat (lo + 79) lo * 2 ^ lo + v % 2 ^ 80 * 2 ^ lo)
    let e : AseEntry := if part = 8 then { e with res := BitVec.ofNat 32 v, pri := bits v 47 32, valid := bit v 48 }
      else if part < 4 then { e with v := unit e.v } else { e with m := unit e.m }
    { d with ase := d.ase.put {} k e }) x)

/-- The BANK bit of a banked index (R249, R286, R294, R295). -/
def bankBit (k : BKind) : Nat := if k = BKind.act then 2 ^ 17 else 2 ^ 16

/-- A mailbox item: none is a content error. -/
def loadMbx (t : Nat) (bankB : Bool) (base i : Nat) (v : BitVec 128) (x : Whole) : Option Whole :=
  match locate base with
  | none => none
  | some l =>
    if mbxOff l.kind ≠ some l.off ∨ absent x.2.2 l then none
    else if t = 7 ∧ l.kind = .gz then loadGz l.unit i v.toNat x
    else if t = 8 ∧ l.kind = .ase then loadAse l.unit i v.toNat x
    else if !mbxInSection t l i || ((decide (t = 5) || decide (t = 6)) && decide (wideBank l i ≠ some false)) then none
    else
      let i := if bankB ∧ (t = 5 ∨ t = 6) then i + bankBit l.kind else i
      let v := v.toNat &&& (wideMask l i).getD 0
      if wideErr x.1 x.2.1 x.2.2 l base i 0 v ≠ 0 then none
      else
        let r := wideStore x.1 x.2.2 l base i 0 v
        some (r.1, x.2.1, r.2)

/-- One item of a section of type t; a reservation waits for the end of the load (R126). -/
def loadItem (t : Nat) (bankB : Bool) (x : Whole) : Item → Option Whole
  | .reg a v => loadReg t bankB a.toNat v x
  | .mbx base i v => loadMbx t bankB base.toNat i.toNat v x
  | .resv _ => if t = 4 then some x else none

/-- The items of a section. -/
def loadItems (t : Nat) (bankB : Bool) (l : List Item) (x : Whole) : Option Whole :=
  l.foldl (fun y i => y.bind fun x => loadItem t bankB x i) (some x)

/-- The items of the section of type t; an image without it loads nothing. -/
def loadSection (i : Image) (t : Nat) (bankB : Bool) (x : Whole) : Option Whole :=
  match sectionOf i t with
  | none => some x
  | some s => loadItems t bankB s.items x

/-! ### Loading an image (R125, R126) -/

/-- Order 1: the world map comes from the image, and LOCK_WORLD sets the lock. -/
def worldLoaded (i : Image) (d : Dev) : Dev :=
  if (sectionOf i 1).isNone then d else
    let d := d.put WLD_STATE.FROM_IMAGE 1
    if i.lockWorld then
      ((d.put WLD_LOCK.LOCK 1).put WLD_STATE.LOCKED 1).wput (onceKey WLD_LOCK.word.addr) 1
    else d

/-- Nothing is staged in HK's mailbox. -/
def unstage (d : Dev) : Dev :=
  { d with wide := d.wide.keep fun k => !(decide (k / 2 ^ 32 = mbxHk) && decide (kindOf (k % 2 ^ 32) < 3)) }

/-- Order 3: the patch goes to the engines its header names, and both engines start, each with a redo record kept from before
the reset applied again (R117, R568, DEDUCED, log entry 65); a header that fails R573 is a content
error. -/
def enginesStart (i : Image) (x : Whole) : Option Whole :=
  let start (x : Whole) : Whole := [0, 1].foldl (fun x e =>
    onDev (fun d => d.put (HK_ENGINE.STATE e) tsRunning) (redoApply e x)) x
  if (sectionOf i 3).isNone then some (start x)
  else if headerOk x.2.2 then
    let load (d : Dev) : Dev := [0, 1].foldl (fun d e => if bit (headerEngines d) e then loadPatch d e else d) d
    some (start (onDev (fun d => unstage (load d)) x))
  else none

/-- Order 4: the GDDR7 devices train at the rates loaded (R431, R630). -/
def memoryStarts (d : Dev) : Dev :=
  if spillPresent d then
    memDevs.foldl (fun d x => retrainStart
      (d.power fun p => { p with memRate := p.memRate.put 2 (x.1 * 6 + x.2) (min 2 (d.get (MEM_CFG.RATE x.1 x.2))) }) x.1 x.2) d
  else d

/-- A failed load leaves both banks FREE; BOOT keeps its registers (R132, DEDUCED, log entry 147). -/
def failedBanks (b : Banks) : Banks :=
  { b with a := .free, b := .free, seqA := 0, seqB := 0, activeB := false, drainFrames := 0, drainReady := false }

/-- Order 6: bank A is sealed with sequence number 1 and active, and bank B is FREE (R126). -/
def bankAActive (b : Banks) : Banks := { failedBanks b with a := .active, seqA := 1 }

/-- Order 7: journaled migrations start again from the start (R325). -/
def migrationsRestart (d : Dev) : Dev :=
  (List.range 16).foldl (fun d t =>
    if d.wget (wkey (mbxGz 0) (3 * 2 ^ 28 + t)) / 2 ^ 126 % 4 = 0 then d else setCursor (setTblState (noteOldPart d t) t 1) t 0) d

/-- What follows a section's load, by its order. -/
def afterSection (i : Image) (t : Nat) (x : Whole) : Option Whole :=
  match t with
  | 1 => some (onDev (worldLoaded i) x)
  | 3 => enginesStart i x
  | 4 => some (onDev memoryStarts x)
  | 6 => some (x.1, bankAActive x.2.1, x.2.2)
  | 7 => some (onDev migrationsRestart x)
  | _ => some x

/-- Every section in the order of R125; none is a content error. -/
def loadImage (i : Image) (x : Whole) : Option Whole :=
  if imageForm i then
    [1, 2, 3, 4, 5, 6, 7, 8, 9].foldl (fun y t => y.bind fun x => (loadSection i t false x).bind (afterSection i t)) (some x)
  else none

/-- The reservations held from POLICIES. -/
def heldResv (i : Image) : List (BitVec 128) :=
  match sectionOf i 4 with
  | none => []
  | some s => s.items.filterMap fun x => match x with
    | .resv v => some v
    | _ => none

/-- R126, R127: a reservation is submitted as an ADD; a refused one becomes a host event with the record and its RESULT. -/
def submitResv (d : Dev) (v : BitVec 128) : Dev :=
  let (res, _, d) := schBody d 1 v.toNat
  if res = 0 then d
  else (d.event SCH_STATUS.REFUSED).hostEvent 1 (schEngine 1 v.toNat) (v.toNat + res * 2 ^ 128)

/-- A loaded image runs (R126, R135): its reservations are submitted, and bring-up starts. -/
def runImage (i : Image) (src : Nat) (seq : Word) (d : Dev) : Dev :=
  let d := metersAct ((heldResv i).foldl submitResv d)
  let d := ((d.put BOOT_STATE.STATE 4).put BOOT_STATE.SOURCE src).setWord BOOT_RUN_SEQ.RUN_SEQ.addr seq
  let d := (d.put BOOT_ROLLBACK.RUN i.rollback).wput (wkey mbxBoot 2) i.buildId
  retarget ((List.range 1024).foldl detectStart d)

/-- R133, R137: no image runs. -/
def waitHost (d : Dev) : Dev :=
  ((d.put BOOT_STATE.STATE 6).put BOOT_STATE.SOURCE 3).event BOOT_STATUS.WAIT_HOST

/-- The copy of an image under check is loaded and run, or leaves a RESULT. -/
def tryImage (i : Image) (src : Nat) (seq : Word) (x : Whole) : Nat × Whole :=
  let c := bodyCode x.2.2 i
  if c ≠ 0 then (c, x)
  else match loadImage i x with
    | none => (11, (x.1, failedBanks x.2.1, failedLoad x.2.2))
    | some y => (0, onDev (runImage i src seq) y)

/-! ### The choice of an image (R121, R132) -/

/-- A slot's RESULT. -/
def slotResult (d : Dev) (slot code : Nat) : Dev :=
  d.put (if slot = 0 then BOOT_SLOT_RESULT.A else BOOT_SLOT_RESULT.B) code

/-- R132's loop over the candidates; those after the chosen one report 1. -/
def tryAll (l : List (Nat × Image)) (x : Whole) : Bool × Whole :=
  match l with
  | [] => (false, x)
  | (slot, i) :: r =>
    let y := tryImage i slot i.seq x
    let z := onDev (fun d => slotResult d slot y.1) y.2
    if y.1 = 0 then (true, onDev (fun d => r.foldl (fun d c => slotResult d c.1 1) d) z) else tryAll r z

/-- The boot ROM runs (R121, R132, R642): SFDP gives the flash's size, and a slot whose header is not read keeps RESULT 9. -/
def bootSelect (sfdp : Option (BitVec 8)) (a b : Image) (x : Whole) : Whole :=
  let x := onDev (fun d =>
    let d := writeVolts { d with boot := { d.boot with waiting := false } } 5
    d.put BOOT_FL_CFG.SIZE_LOG2 (sfdp.getD 0).toNat) x
  let heads := [(0, a), (1, b)].filter fun c => sfdp.isSome && c.2.readable
  let x := onDev (fun d => heads.foldl (fun d c =>
    let d := d.setWord (if c.1 = 0 then BOOT_SLOT_SEQ_A.SEQ_A.addr else BOOT_SLOT_SEQ_B.SEQ_B.addr) c.2.seq
    let code := headerCode d c.2
    if code = 0 then d else slotResult d c.1 code) d) x
  let ok := heads.filter fun c => decide (headerCode x.2.2 c.2 = 0)
  let order := match ok with
    | [p, q] => if p.2.seq.toNat < q.2.seq.toNat then [q, p] else [p, q]
    | l => l
  let r := tryAll order x
  if r.1 then r.2 else onDev waitHost r.2

/-- SYSRST_N does not hold the device in reset, CORE_REF runs, and the device is not in the factory test mode, where it does
not boot (R116, R640, R648). -/
def mayBoot (p : Pins) : Bool := !(p.sysrst || p.coreLost || p.test)

/-- BOOT_IMAGE_SELECT (R132): once a reset has ended. -/
def execBootImageSelect (sfdp : Option (BitVec 8)) (a b : Image) (s : State) : Outc := s.withWhole fun x =>
  if x.2.2.boot.waiting ∧ mayBoot x.2.2.pins then bootSelect sfdp a b x else x

/-- Every lane is DOWN, ACTIVE or in TEST (R135). -/
def lanesSettled (d : Dev) : Bool := (List.range 1024).all fun l =>
  decide (laneState d l = 0) || decide (laneState d l = 5) || decide (laneState d l = 6)

/-- BOOT_RUNNING (R135): `ms` after the release of the reset pin. -/
def execBootRunning (ms : Nat) (s : State) : Outc := s.withDev fun d =>
  if d.get BOOT_STATE.STATE = 4 ∧ (lanesSettled d ∨ 1500 ≤ ms) then
    (d.put BOOT_STATE.STATE 5).put BOOT_TIME.TO_RUN (min 65535 ms)
  else d

/-! ### BOOT_CMD (R137, R140-R142, R153) -/

/-- Issue a command unless the register write did, and, where it is the one that waits, carry it out with a RESULT. -/
def bootDo (op : Nat) (slot : Option Nat) (f : Whole → Nat × Whole) (x : Whole) : Whole :=
  let x := if x.2.2.flag BOOT_CMD_RESULT.BUSY then x else onDev (fun d => bootIssue d op (slot.getD 0)) x
  match x.2.2.boot.cmd with
  | some (o, sl, none) =>
    if o = op ∧ slot.getD sl = sl then
      let r := f x
      onDev (fun d => { d with boot := { d.boot with cmd := some (o, sl, some r.1) } }) r.2
    else x
  | _ => x

/-- R129, R131: the RESULT of a slot's check; nothing is loaded (R140). -/
def checkSlot (i : Image) (x : Whole) : Nat :=
  if !i.readable then 13
  else
    let h := headerCode x.2.2 i
    let c := bodyCode x.2.2 i
    if h ≠ 0 then h else if c ≠ 0 then c
    else if (loadImage i (x.1, {}, failedLoad x.2.2)).isNone then 11 else 0

/-- VERIFY (R140): SEQ comes from BOOT_CMD_SEQ in place of the header's bytes, in every check. -/
def execVerify (img : Image) (slot : Fin 2) (s : State) : Outc :=
  s.withWhole (bootDo 1 (some slot.val) fun x => (checkSlot (img.withSeq (x.2.2.word BOOT_CMD_SEQ.SEQ.addr)) x, x))

/-- The FREE bank, A first. -/
def freeBank (b : Banks) : Option Bool :=
  if b.a = .free then some false else if b.b = .free then some true else none

/-- The SEQ an APPLY seals with: the active bank's plus one, skipping 0 (R141). -/
def nextSeq (b : Banks) : BitVec 16 := if b.activeSeq + 1 = 0 then 1 else b.activeSeq + 1

/-- R141: the sections an APPLY does not apply. -/
def skipped (i : Image) : Nat :=
  i.directory.foldl (fun n e => if [3, 5, 6].contains e.type then n else n ||| 2 ^ e.type) 0

/-- APPLY's effect (R141): the program goes into the FREE bank, which is sealed and armed; the patch is staged for one engine
after the other. What BOOT says of the running image stays (DESIGN CHOICE, log entry 144). -/
def applyImage (i : Image) (x : Whole) : Nat × Whole :=
  match freeBank x.2.1 with
  | none => (12, x)
  | some w =>
    let c := checkSlot i x
    if c ≠ 0 then (c, x)
    else match (loadSection i 5 w x).bind (loadSection i 6 w) with
      | none => (11, x)
      | some y =>
        let y := onBanks (bankSeal w (nextSeq y.2.1)) y
        let y := onBanks (bankArm y.1) y
        let y := onDev (fun d => d.put BOOT_APPLY_SKIP.SKIP (skipped i)) y
        match (sectionOf i 3).isSome, loadSection i 3 false (onDev unstage y) with
        | true, some z => (0, onDev (fun d => applySwapNext { d with hk := { d.hk with applySwap := some 0 } }) z)
        | _, _ => (0, y)

/-- APPLY (R141). -/
def execApply (img : Image) (slot : Fin 2) (s : State) : Outc := s.withWhole (bootDo 2 (some slot.val) (applyImage img))

/-- LOAD_HOST's effect (R137): in WAIT_HOST, from where the command has gone to state LOAD_HOST, the image is read
from host memory under PF1, at the address of mailbox index 0x1, checked, loaded and run; where it cannot be read the RESULT is 13
(DESIGN CHOICE, log entry 145). -/
def loadHost (i : Image) (x : Whole) : Nat × Whole :=
  if x.2.2.get BOOT_STATE.STATE ≠ 7 then (14, x)
  else
    let x := onDev (fun d => d.emit (.hostRead 1 (BitVec.ofNat 64 (d.wget (wkey mbxBoot 1))) (0x1000 + i.length))) x
    let h := if i.readable then headerCode x.2.2 i else 13
    if h ≠ 0 then (h, onDev waitHost x)
    else
      let r := tryImage i 2 i.seq x
      if r.1 = 0 then r else (r.1, onDev waitHost r.2)

/-- LOAD_HOST (R137). -/
def execLoadHost (img : Image) (s : State) : Outc := s.withWhole (bootDo 3 none (loadHost img))

/-- ADVANCE_ROLLBACK (R142): the fuses are blown when the command completes. -/
def execAdvanceRollback (s : State) : Outc := s.withDev fun d =>
  if d.flag BOOT_CMD_RESULT.BUSY then d else bootIssue d 4 0

/-- REBOOT (R116). -/
def execReboot (s : State) : Outc := s.withWhole fun x =>
  let x := if x.2.2.flag BOOT_CMD_RESULT.BUSY then x else onDev (fun d => bootIssue d 5 0) x
  match x.2.2.boot.cmd with
  | some (5, _, _) => warmReset 2 x
  | _ => x

/-- R142: fuses are blown until the count equals the running image's ROLLBACK. -/
def blowFuses (d : Dev) : Dev :=
  let n := min 64 (d.get BOOT_ROLLBACK.RUN)
  if d.get BOOT_STATE.SOURCE ≠ 3 ∧ d.rollback < n then { d with rollback := n }.put BOOT_ROLLBACK.FUSED n else d

/-- BOOT_CMD_COMPLETE's effect (R153). -/
def bootComplete (d : Dev) : Dev :=
  let fin (r : Nat) (d : Dev) : Dev :=
    let d := { d with boot := { d.boot with cmd := none } }
    ((d.put BOOT_CMD_RESULT.BUSY 0).put BOOT_CMD_RESULT.RESULT r).event BOOT_STATUS.CMD_DONE
  match d.boot.cmd with
  | some (4, _, none) => fin 0 (blowFuses d)
  | some (_, _, some r) => fin r d
  | _ => d

/-- BOOT_CMD_COMPLETE (R153). -/
def execBootCmdComplete (s : State) : Outc := s.withDev bootComplete

end Sys2Proof.Machine
end

