-- ==== Sys2Proof/Machine/Micro.lean ====
section
/-!
DEFINITION. Tansy's microcode (R541-R555): one routine of an engine, word by word, with the write buffer, the commit
discipline and the faults of R544, R546, R550, R552 and R554. A routine runs within one command: a READ has delivered
when its word ends, so that MPEND is never true and WAIT holds nothing (DESIGN CHOICE, log entry 102).
-/
namespace Sys2Proof.Machine

/-- A routine under way: micro-address, general registers, LC, flags, micro-stack, words since the entry or COMMIT, words
of the command, those at this entry, those its share had left at its first word (R542), whether it has committed, the write buffer, the redo record, the buffers allocated
before COMMIT, MSTAT and MERR. -/
structure TRun where
  pc : Nat
  regs : SMap Word := []
  lc : Word
  flags : Nat := 0
  stack : List Nat := []
  run : Nat := 0
  total : Nat := 0
  entered : Nat := 0
  left : Nat := 0
  done : Bool := false
  buf : List TEff := []
  redo : List TEff := []
  held : List Nat := []
  mstat : Word := 0
  merr : Bool := false
  deriving DecidableEq, Repr

/-- How a routine ends: at END, at RETRY, abandoned at a tick (R553), or by a fault of a code. -/
inductive TEnd where
  | ended | retried | abandoned
  | fault (code : Nat)
  deriving DecidableEq, Repr

/-! ### Words and their fields (R541, R546, R547) -/

/-- R547: the address a fetch goes to: the lowest valid match register that holds the ROM address redirects it. -/
def fetchAddr (d : Dev) (e a : Nat) : Nat :=
  if a < 0x8000 then
    match (List.range 32).find? fun m => d.flag (HK_MATCH.VALID e m) && decide (d.get (HK_MATCH.ROM_ADDR e m) = a) with
    | some m => 0x8000 + d.get (HK_MATCH.PATCH_WORD e m)
    | none => a
  else a

/-- The microword engine e fetches at address a; none outside ROM and patch RAM (R546). -/
def fetchWord (d : Dev) (e a : Nat) : Option Nat :=
  let a := fetchAddr d e a
  if a < 0x8000 then some (Config.tansyRom a).toNat
  else if a < 0x8800 then some (d.wget (liveWord 0 e (a - 0x8000)) + d.wget (liveWord 1 e (a - 0x8000)) % 2 ^ 16 * 2 ^ 128)
  else none

/-- R541, R544: an illegal word. -/
def illegalWord (w : Nat) : Bool := decide (bits w 11 0 ≠ 0) || decide (bits w 143 141 = 7)

/-! ### Selectors (R542) -/

/-- A source: `i` the word's IMM, `r` the word's random number. -/
def tSource (g : Grid) (e : Nat) (x : TRoutine) (t : TRun) (i : Nat) (r : Word) (sel : Nat) : Word :=
  if sel < 64 then t.regs.get 0 sel
  else if sel < 80 then x.ev.getD (sel - 64) 0
  else match sel with
    | 80 => BitVec.ofNat 32 i
    | 81 => BitVec.ofInt 32 (BitVec.ofNat 16 i).toInt
    | 82 => BitVec.ofNat 32 (i * 2 ^ 16)
    | 83 => BitVec.ofNat 32 g.epoch.toNat
    | 84 => BitVec.ofNat 32 (g.epoch.toNat / 2 ^ 32)
    | 85 => BitVec.ofNat 32 (g.epoch.toNat % 1024)
    | 86 => BitVec.ofNat 32 (t.left - t.total)
    | 87 => t.lc
    | 88 => BitVec.ofNat 32 e
    | 89 => t.mstat
    | 90 => r
    | _ => 0

/-- A destination. -/
def tWrite (sel : Nat) (v : Word) (t : TRun) : TRun :=
  if sel < 64 then { t with regs := t.regs.put 0 sel v } else if sel = 87 then { t with lc := v } else t

/-- Values into consecutive destinations. -/
def tWrites (sel : Nat) (vs : List Word) (t : TRun) : TRun :=
  match vs with
  | [] => t
  | v :: r => tWrites (sel + 1) r (tWrite sel v t)

/-! ### Memory operations (R543, R550) -/

/-- The word that the newest buffered store at an address of a port holds (R550). -/
def buffered (buf : List TEff) (port a : Nat) : Option Word :=
  buf.foldl (fun acc f => match f with
    | .store p b vs =>
      if p = port ∧ b ≤ a ∧ (a - b) % wordStep port = 0 ∧ (a - b) / wordStep port < vs.length then vs[(a - b) / wordStep port]?
      else acc
    | _ => acc) none

/-- The bytes, or words of PEER, behind a port with an array of its own. -/
def portSize (port : Nat) : Nat := match port with
  | 0 => 16384
  | 1 => 65536
  | _ => 16

/-- n words from an address lie in a port's array. -/
def inPortArray (port a n : Nat) : Bool :=
  decide (a % wordStep port = 0) && decide (a + n * wordStep port ≤ portSize port)

/-- A READ of one word as the memory has it; none where it fails. -/
def readWord (e port a : Nat) (x : Whole) : Option (Word × Whole) :=
  let d := x.2.2
  match port with
  | 0 => some ((d.tansy e).scratch.get 0 (a / 4), x)
  | 1 => some ((d.tansy e).journal.get 0 (a / 4), x)
  | 2 | 3 | 4 =>
    let (r, d) := d.fresh
    some (r.truncate 32, (x.1, x.2.1, d))
  | 5 =>
    if a % 4 ≠ 0 then none else
      match checkAccess x.2.1 d .pf1 a false 0 with
      | .ok h => if waitsFor d h.loc then none else some (regValue x.1 x.2.1 d h a, x)
      | .error _ => none
  | 6 => some (d.hk.peer.get 0 (e * 16 + a % 16), x)
  | _ => none

/-- A READ of n words; a buffered store's value comes first. -/
def readWords (e port a n : Nat) (buf : List TEff) (x : Whole) : Option (List Word × Whole) :=
  match n with
  | 0 => some ([], x)
  | n + 1 =>
    match (match buffered buf port a with
      | some v => some (v, x)
      | none => readWord e port a x) with
    | none => none
    | some (v, y) => (readWords e port (a + wordStep port) n buf y).map fun z => (v :: z.1, z.2)

/-- A port reaches n words at an address for a READ or a WRITE. -/
def reaches (port a n : Nat) (write : Bool) : Bool :=
  match port with
  | 0 | 1 | 6 => inPortArray port a n
  | 2 | 4 => true
  | 3 => !write
  | 5 => decide (a % 4 = 0)
  | _ => false

/-- A WRITE through DEVICE that BAR0's checks refuse (R665). -/
def deviceRefuses (a : Nat) (vs : List Word) (x : Whole) : Bool :=
  match vs with
  | [] => false
  | v :: r => (match checkAccess x.2.1 x.2.2 .pf1 a true v with
      | .ok _ => false
      | .error _ => true) || deviceRefuses (a + 4) r x

/-- An effect enters the write buffer, or after COMMIT applies at once and joins the record (R550, R551). -/
def effect (e dt : Nat) (f : TEff) (t : TRun) (x : Whole) : TRun × Whole :=
  if t.done then
    let y := applyEff e dt f x
    ({ t with redo := t.redo ++ [y.1] }, y.2)
  else ({ t with buf := t.buf ++ [f] }, x)

/-- The numbers of a list of words, lowest first, as one number. -/
def wordsNat (vs : List Word) : Nat := vs.foldr (fun v a => v.toNat + 2 ^ 32 * a) 0

/-- One memory operation: `a` its address, `vs` the words MEM_DATA gives, `dst` MEM_DATA as a destination. A failed READ or ALLOC
delivers free values (DESIGN CHOICE, log entry 105: the spec states none). -/
def memOp (e dt op port a dst : Nat) (vs : List Word) (t : TRun) (x : Whole) : TRun × Whole :=
  if op = 0 then (t, x) else
    let (m, d) := x.2.2.fresh
    let x : Whole := (x.1, x.2.1, d)
    let t := { t with mstat := m.truncate 32, merr := false }
    let bad : TRun := { t with merr := true }
    let lost (t : TRun) : TRun × Whole :=
      let (r, d) := x.2.2.fresh
      let (q, d) := d.fresh
      (tWrites dst ([r.truncate 32, (r >>> 32).truncate 32, q.truncate 32, (q >>> 32).truncate 32].take vs.length) t, (x.1, x.2.1, d))
    match op with
    | 1 =>
      if reaches port a vs.length false then
        match readWords e port a vs.length t.buf x with
        | some (ws, y) => (tWrites dst ws t, y)
        | none => lost bad
      else lost bad
    | 2 =>
      if !reaches port a vs.length true || (decide (port = 5) && deviceRefuses a vs x) then (bad, x)
      else if port = 0 then
        (t, onDev (fun d => (List.range vs.length).foldl (fun d i => d.setTansy e fun y => { y with
          scratch := y.scratch.put 0 (a / 4 + i) (vs.getD i 0) }) d) x)
      else effect e dt (.store port a vs) t x
    | 3 =>
      if port = 7 then
        let (got, d) := bpmAlloc x.2.2 (5 + e) a
        let x : Whole := (x.1, x.2.1, d)
        if got.result = 0 then
          let t := if t.done then t else { t with held := got.ptr :: t.held }
          let ws := (List.range vs.length).map fun i => BitVec.ofNat 32 (got.ptr / 2 ^ (32 * i))
          (tWrites dst ws t, x)
        else
          let (r, d) := x.2.2.fresh
          let (q, d) := d.fresh
          (tWrites dst ([r.truncate 32, (r >>> 32).truncate 32, q.truncate 32, (q >>> 32).truncate 32].take vs.length) bad, (x.1, x.2.1, d))
      else (bad, x)
    | 4 => if port = 7 then effect e dt (.free (wordsNat vs)) t x else (bad, x)
    | _ => (bad, x)

/-! ### Events (R541, R550, R564) -/

/-- 512 bits of free values. -/
def fresh512 (d : Dev) : BitVec 512 × Dev :=
  let r := (List.range 8).foldl (fun (a : Nat × Dev) i =>
    let (v, d) := a.2.fresh
    (a.1 + v.toNat * 2 ^ (64 * i), d)) (0, d)
  (BitVec.ofNat 512 r.1, r.2)

/-- EVT_OP but FAULT. The registers that HOST_EVENT and RESPOND read have no stated layout: what they say is a free value. -/
def evtOp (e dt op : Nat) (t : TRun) (x : Whole) : TRun × Whole :=
  match op with
  | 1 => effect e dt .arm t x
  | 2 =>
    let (v, d) := fresh512 x.2.2
    let (k, d) := d.fresh
    effect e dt (.event (k.toNat % 256) v none) t (x.1, x.2.1, d)
  | 3 =>
    let (v, d) := fresh512 x.2.2
    let (k, d) := d.fresh
    let (w, d) := d.fresh
    effect e dt (.respond (k.toNat % 256, w.truncate 32, (w >>> 32).truncate 32, v)) t (x.1, x.2.1, d)
  | 4 => effect e dt .signal t x
  | _ => (t, x)

/-- COMMIT (R551): the buffered effects are written into the redo record and applied; the event leaves its queue. -/
def commit (e dt : Nat) (sig : Bool) (t : TRun) (x : Whole) : TRun × Whole :=
  if t.done then (t, x) else
    let y := applyEffs e dt t.buf x
    let take (d : Dev) : Dev := if sig then
        { d with hk := { d.hk with signals := d.hk.signals.put 0 e (d.hk.signals.get 0 e - 1) } } else d
    let keep (d : Dev) : Dev := d.setTansy e fun z => { z with redo := y.1 }
    ({ t with done := true, run := 0, buf := [], redo := y.1, held := [] }, onDev (fun d => keep (take d)) y.2)

/-! ### One word (R541, R544, R545) -/

/-- A tick has occurred since the routine's entry. -/
def sawTick (x : TRoutine) (t : TRun) : Bool := match x.tick with
  | some (n, _) => decide (t.entered < n) && decide (n < t.total)
  | none => false

/-- COND, before CINV: on the word's own ALU result and carry, and on LC, MERR and the flags as the word leaves them. -/
def tCond (d : Dev) (e : Nat) (x : TRoutine) (t : TRun) (c : Nat) (alu : Word) (carry : Bool) : Bool :=
  match c with
  | 0 => true
  | 1 => decide (alu = 0)
  | 2 => carry
  | 3 => alu.getLsbD 31
  | 4 => decide (t.lc ≠ 0)
  | 5 => t.merr
  | 6 => false
  | 7 => sawTick x t
  | 16 => decide (d.tstate (1 - e) = tsRunning)
  | 17 => x.late
  | 18 => decide (t.left - t.total < 64)
  | c => if 8 ≤ c ∧ c < 16 then bit t.flags (c - 8) else false

/-- R544, R546: the address after `a`; none past the end of ROM or patch RAM. -/
def after (a : Nat) : Option Nat := if a = 0x7FFF ∨ a = 0x87FF then none else some (a + 1)

/-- An address in ROM or patch RAM. -/
def legalAddr (a : Nat) : Bool := decide (a < 0x8800)

/-- Go to an address, or take the ADDR fault. -/
def goTo (t : TRun) (a : Option Nat) : TRun × Option TEnd := match a with
  | some a => if legalAddr a then ({ t with pc := a }, none) else (t, some (.fault 3))
  | none => (t, some (.fault 3))

/-- R544: the next address. -/
def nextAddr (w : Nat) (alu : Word) (c : Bool) (t : TRun) : TRun × Option TEnd :=
  let target := bits w 134 119
  let on := after t.pc
  match bits w 143 141 with
  | 1 => goTo t (if c then some target else on)
  | 2 =>
    if c then
      if 8 ≤ t.stack.length then (t, some (.fault 2)) else
        match on with
        | some a => goTo { t with stack := a :: t.stack } (some target)
        | none => (t, some (.fault 3))
    else goTo t on
  | 3 =>
    if c then
      match t.stack with
      | a :: r => goTo { t with stack := r } (some a)
      | [] => (t, some (.fault 2))
    else goTo t on
  | 4 => goTo t (some (target + alu.toNat % 32))
  | 5 => if c then (t, some .ended) else goTo t on
  | 6 => if c then (t, some .retried) else goTo t on
  | _ => goTo t on

/-- ADD or SUB carries or borrows out of 32 bits. -/
def aluCarry (op : Nat) (a b : Word) : Bool := match op with
  | 1 => decide (2 ^ 32 ≤ a.toNat + b.toNat)
  | 2 => decide (a.toNat < b.toNat)
  | _ => false

/-- R541: one word runs. -/
def tWord (e : Nat) (x : TRoutine) (w : Nat) (t : TRun) (s : Whole) : TRun × Whole × Option TEnd :=
  let (rnd, d) := s.2.2.fresh
  let s : Whole := (s.1, s.2.1, d)
  let src := tSource s.1 e x t (bits w 79 64) (rnd.truncate 32)
  let op := bits w 118 115
  let a := src (bits w 107 101)
  let b := src (bits w 100 94)
  let alu := aluResult op 255 a b
  let md := bits w 49 43
  let vs := (List.range (if bit w 42 then 4 else 1)).map fun i => src (md + i)
  let lc := t.lc
  let t := { t with run := t.run + 1, total := t.total + 1 }
  let t1 := tWrite (bits w 86 80) (src (bits w 93 87)) t
  let t2 := if aluWrites op then tWrite (bits w 114 108) alu t1 else t1
  let r := memOp e x.dt (bits w 63 61) (bits w 60 57) (src (bits w 56 50)).toNat md vs t2 s
  let t3 := if bit w 14 then { r.1 with lc := lc - 1 } else r.1
  let flags := (List.range 8).foldl (fun f i =>
    if bit w (24 + i) then f ||| 2 ^ i else if bit w (16 + i) then f &&& (255 - 2 ^ i) else f) t3.flags
  let q := evtOp e x.dt (bits w 41 39) { t3 with flags := flags } r.2
  if bits w 41 39 = 5 then
    let (c, d) := q.2.2.2.fresh
    (q.1, (q.2.1, q.2.2.1, d), some (.fault (1 + c.toNat % 9)))
  else if 32 < q.1.buf.length then (q.1, q.2, some (.fault 1))
  else
    let p := if bit w 15 then commit e x.dt x.signal q.1 q.2 else q
    let c := tCond p.2.2.2 e x p.1 (bits w 140 136) alu (aluCarry op a b) != bit w 135
    let n := nextAddr w alu c p.1
    (n.1, p.2, n.2)

/-- The words of a routine until it ends; R552's limit of 128 words to COMMIT and again to END. -/
def tRunWords (fuel e : Nat) (x : TRoutine) (t : TRun) (s : Whole) : TRun × Whole × TEnd :=
  match fuel with
  | 0 => (t, s, .fault 1)
  | fuel + 1 =>
    if 128 ≤ t.run then (t, s, .fault 1) else
      match fetchWord s.2.2 e t.pc with
      | none => (t, s, .fault 3)
      | some w =>
        if illegalWord w then (t, s, .fault 4) else
          let r := tWord e x w t s
          match r.2.2 with
          | some z => (r.1, r.2.1, z)
          | none =>
            if x.must = false ∧ r.1.done = false ∧ x.tick = some (r.1.total, true) then (r.1, r.2.1, .abandoned)
            else tRunWords fuel e x r.1 r.2.1

/-- R553, R554: an abandoned routine's buffers go back, and it counts. -/
def abandon (e : Nat) (t : TRun) (s : Whole) : Whole :=
  onDev (fun d => (t.held.foldl (fun d p => (bpmFree d (5 + e) p).2) d).bump (HK_CNT_RESTART0.cnt (2 + e))) s

/-- A routine from its entry, with its restarts after faults before COMMIT (R554): the third fault of the event, and any fault
after COMMIT, fails the engine. -/
def tRoutine (tries e : Nat) (x : TRoutine) (left total : Nat) (s : Whole) : Whole :=
  let (lc, d) := s.2.2.fresh
  let t : TRun := { pc := x.entry.toNat, lc := lc.truncate 32, total := total, entered := total, left := left }
  let r := tRunWords 300 e x t (s.1, s.2.1, d)
  let record (s : Whole) (l : List TEff) : Whole := onDev (fun d => d.setTansy e fun z => { z with redo := l }) s
  let spend := onDev (spendWords e r.1.total x.must)
  match r.2.2 with
  | .ended => spend (record (commit e x.dt x.signal r.1 r.2.1).2 [])
  | .retried =>
    spend (if r.1.done then record r.2.1 r.1.redo
      else onDev (fun d => r.1.held.foldl (fun d p => (bpmFree d (5 + e) p).2) d) r.2.1)
  | .abandoned => spend (abandon e r.1 r.2.1)
  | .fault c =>
    if r.1.done then onDev (fun d => engineFail d e c r.1.pc true) (spend (record r.2.1 r.1.redo))
    else
      let s := abandon e r.1 r.2.1
      match tries with
      | 0 => onDev (fun d => engineFail d e 9 r.1.pc false) (spend s)
      | tries + 1 => tRoutine tries e x left r.1.total s

/-- TANSY_ROUTINE's effect: an engine that runs, and has words left of the event's share (R556), serves the event, late must-work
before all other (R552); corrected errors count (R577). -/
def serveEvent (e : Nat) (x : TRoutine) (s : Whole) : Whole :=
  let d := s.2.2
  let left := wordsLeft d e x.must x.spent
  if d.tstate e ≠ tsRunning ∨ left = 0 ∨ (x.signal ∧ d.hk.signals.get 0 e = 0)
      ∨ (!(x.must && x.late) && lateWaits d e x.spent) then s
  else tRoutine 2 e x left 0 (onDev (fun d => d.addTo HK_CNT_UCORR x.corr) s)

/-- TANSY_ROUTINE (R548). -/
def execTansyRoutine (e : Fin 2) (x : TRoutine) (s : State) : Outc := s.withWhole (serveEvent e x)

/-- ENGINE_RUNNING (R568): the restart routine has applied a redo record again before it ends. -/
def execEngineRunning (e : Fin 2) (s : State) : Outc := s.withWhole fun x =>
  if x.2.2.tstate e ≠ tsRestarting ∨ (x.2.2.tansy e).routine = false then x
  else onDev (fun d => engineRunning d e) (redoApply e x)

end Sys2Proof.Machine
end

