-- ==== Sys2Proof/Machine/Tick.lean ====
section
/-!
DEFINITION. The tick and the jump tick (chapter 02): the length of an epoch, the work of a tick in the order of R49, late
work and catch-up (R54-R59, R466-R469), and the periodic work that other chapters owe to ticks and frame ticks.
-/
namespace Sys2Proof.Machine

/-! ### When ticks fall (R35, R39-R41, R45, R46) -/

/-- PTP time an epoch lasts, in fine units: 1,024 ns less or plus the trim (R39, R45); 1,024 ns of core-reference time in free
run (R46), at each moment at the rate in force (R72). -/
def epochFine (g : Grid) (d : Dev) : Int :=
  if !d.flag GRT_EPOCH_CTL.TRACK_EN then g.freqAt + (1024 * fineNs - g.coreAt) * (fineNs + freqAdj d) / fineNs
  else
    let e := g.err
    let trim := min (e.natAbs : Int) (trimMax d * fineNs)
    if e.natAbs ≤ (4 * fineNs).natAbs ∨ e > fineFrame then 1024 * fineNs
    else if 0 < e then 1024 * fineNs - trim
    else 1024 * fineNs + trim

/-- R41: the PTP time of the jump tick that is due: the first multiple of a frame after the last tick and not before the jump
was asked for, where EPOCH can hold it. -/
def jumpAt (g : Grid) : Option Int :=
  match g.jumpFrom with
  | none => none
  | some t =>
    let m := max (Int.ediv (t + fineFrame - 1) fineFrame) (Int.ediv g.base fineFrame + 1)
    if g.state = .ahead ∧ (g.epoch.toNat : Int) < m * 1024 ∧ m * 1024 < 2 ^ 64 then some (m * fineFrame) else none

/-- The Graticule at the next ordinary tick. -/
def nextTick (g : Grid) (d : Dev) : Grid :=
  let base := g.base + epochFine g d
  { g with epoch := g.epoch + 1, base := base, ptpAtTick := BitVec.ofInt 128 (base / fineNs), freqAt := 0, coreAt := 0 }

/-- The Graticule at a jump tick at PTP time t (R41). -/
def jumpedTo (g : Grid) (t : Int) : Grid :=
  let e := BitVec.ofInt 64 (t / (1024 * fineNs))
  { g with
    epoch := e, epochBefore := g.epoch, epochSet := e, base := t, ptpAtTick := BitVec.ofInt 128 (t / fineNs)
    freqAt := 0, coreAt := 0, jumpAsked := false, jumpFrom := none }

/-- R37: a tick that begins a frame. -/
def frameTick (g : Grid) : Bool := decide (g.epoch.toNat % 1024 = 0)

/-! ### The copies of EPOCH (R47) -/

/-- The value nearest c whose low 16 bits are those of EPOCH. -/
def nearestEpoch (c epoch : BitVec 64) : BitVec 64 :=
  let up := (epoch - c).toNat % 65536
  if up ≤ 32768 then c + BitVec.ofNat 64 up else c + BitVec.ofNat 64 up - 65536

/-- The units whose copies went wrong, at an ordinary tick: a unit that disagrees with the carried bits reports it and takes the
nearest value. A jump tick loads every copy whole, without a report (DEDUCED, log entry 24). -/
def copiesTick (x : TickIn) (jump : Bool) (g : Grid) (d : Dev) : Grid × Dev :=
  if jump then ({ g with copies := [] }, d) else
    let kept := g.copies.filter fun c => !(x.copies.any fun y => decide (y.1 = c.1))
    let all := kept.map (fun c => (c.1, c.2 + 1)) ++ x.copies
    let wrong (c : BitVec 64) : Bool := decide (c.toNat % 65536 ≠ g.epoch.toNat % 65536)
    let d := all.foldl (fun d c => if wrong c.2 then d.report 0x024 0 else d) d
    let all := all.map fun c => if wrong c.2 then (c.1, nearestEpoch c.2 g.epoch) else c
    ({ g with copies := all.filter fun c => decide (c.2 ≠ g.epoch) }, d)

/-! ### The epoch just ended (R511, R514, R596, R600) -/

/-- Tansy's epoch ends (R54-R56, R556, R558): what stays owed is late work, and the words of the new epoch are unspent. -/
def tansyEpoch (x : TickIn) (ns : Nat) (d : Dev) : Dev :=
  let cap := tansyWords d ns x.lostCycles
  let late := heldByPeer d d.hk.late
  let owed := heldByPeer d x.owed
  let m0 := mustWork d 0 cap x.words.1 late.1 owed.1
  let m1 := mustWork d 1 cap x.words.2 late.2 owed.2
  let d := ((d.pmuEvent 0 0x01 x.words.1).pmuEvent 0 0x02 x.words.2).pmuEvent 0 0x03 m0.1
  let d := d.pmuEvent 0 0x04 m1.1
  [0, 1].foldl (fun d e => d.setTansy e fun y => { y with usedMust := 0, usedOpt := 0 })
    { d with hk := { d.hk with late := (m0.2, m1.2) } }

/-- Cycles, words and link energy of the epoch just ended, of ns, counted before the tick. -/
def epochEnds (x : TickIn) (ns : Nat) (d : Dev) : Dev :=
  let d := tansyEpoch x ns (countCycles d ns x.lostCycles)
  let starve (d : Dev) (h n : Nat) : Dev :=
    if spillPresent d then (d.addTo (SPL_CNT_HEAD_STARVED h) n).pmuEvent (halfPmu h) 0x0B n else d
  let d := starve (starve d 0 x.starved.1) 1 x.starved.2
  reasonTime ns (lanePower ns d)

/-! ### Step 1: the frame's snapshot (R42, R49, R489, R517) -/

/-- On a frame tick every counter is captured, and what the frame summed starts anew. -/
def frameSnapshot (g : Grid) (jump : Bool) (frameNs : Nat) (d : Dev) : Dev :=
  let d := snapCapture d g.epoch.toNat (g.base / fineNs).toNat jump
  let d := contourFrame frameNs d
  { d with tel := { d.tel with sketch := [], hh := [] } }

/-! ### Step 2: boundary actions (R50-R52, R515) -/

/-- The boundary actions due at the tick, and what takes effect with them. -/
def boundary (x : TickIn) (jump : Bool) (w : Whole) : Whole :=
  let g := w.1
  let lost := x.gzLost.map fun (y : Fin 2 × Fin 2) => (y.1.val, y.2.val)
  let r := bankSwap jump g.epoch w.2.1 w.2.2
  (g, r.1, applySync (applyTblWrites g jump (applyBatches g jump lost r.2)))

/-- R145: a tick after the swap's finds none of the draining bank's packets in flight. -/
def drainSeen (before after : Banks) (d : Dev) : Banks :=
  match before.draining, after.draining with
  | some w, some w' =>
    if w = w' ∧ (List.range 32).all (fun s => decide (inFlight d s w = 0)) then { after with drainReady := true } else after
  | _, _ => after

/-! ### Step 3: meters and shapers (R451, R463) -/

/-- The meters that act gain ρ for the epoch just ended, of len fine units. -/
def refillMeters (len : Int) (d : Dev) : Dev :=
  { d with resv := d.resv.map fun (e : Nat × Option Resv) => (e.1, e.2.map fun (r : Resv) =>
      if r.acts then { r with tokens := min (r.tokens + ((r.rho : Int) * len / fineNs).toNat) (r.sigma * 8000) } else r) }

/-- The queues whose shapers are on, or may change. -/
def shapedQueues (d : Dev) : List Nat :=
  let ofReg (a : Nat) : Option Nat := match locate a with
    | some l => if l.kind = .eq ∧ 0x1000 ≤ l.off ∧ l.off < 0x1400 then some (256 * l.unit + (l.off - 0x1000) / 4) else none
    | none => none
  let ofWide (k : Nat) : Option Nat := match locate (k / 2 ^ 32) with
    | some l => if l.kind = .eq ∧ k % 2 ^ 32 < 256 then some (256 * l.unit + k % 2 ^ 32) else none
    | none => none
  sortNat (d.regs.filterMap (fun e => ofReg e.1) ++ d.wide.filterMap (fun e => ofWide e.1)
    ++ (d.queues.filter fun e => e.2.shOn).map (·.1))

/-- R451: a queue's shaper at a tick: its credit is brought up to date at the old RATE, the settings written take effect, and
a waiting queue's place on the wheel is computed anew. -/
def shaperTick (now : Nat) (d : Dev) (n : Nat) : Dev :=
  let v := d.wget (wkey (mbxEq (n / 256)) (n % 256))
  let rate := bits (dataWord v 0) 20 0
  let burst := bits (dataWord v 1) 23 0
  let on := d.flag (EQ_QCFG.SHAPE_EN (n / 256) (n % 256))
  d.queue n fun q =>
    let c : Int := if q.shOn then q.credit + (q.shRate : Int) * ((now - q.creditT : Nat) : Int) else q.credit
    let c := min c ((burst * 32000 : Nat) : Int)
    placeOnWheel { q with shOn := on, shRate := rate, shBurst := burst, credit := c, creditT := now } now

/-- Every refill of the tick. -/
def refills (now : Nat) (len : Int) (d : Dev) : Dev :=
  (shapedQueues d).foldl (shaperTick now) (refillMeters len d)

/-! ### Step 4: depth samples (R456, R490) -/

/-- R490: the bin of a depth. -/
def depthBin (n : Nat) : Nat :=
  if n = 0 then 0 else if n < 16 then 1 else min 15 (Nat.log2 n - 2)

/-- A count of a histogram, one more. -/
def satUp (w : Word) : Word := BitVec.ofNat 32 (sat 32 (w.toNat + 1))

/-- The depth histograms at a tick; `deep` are the queues that hold cells, with their depths. Bin 0 of a queue that is not
listed counts on with `ticks`. -/
def depthHistTick (ticks : Nat) (deep : List (Nat × Nat)) (m : SMap Word) : SMap Word :=
  let m := m.filterMap fun e =>
    if e.1 % 16 = 0 ∧ !(deep.any fun x => decide (x.1 = e.1 / 16)) then
      (if satUp e.2 = idleBin (ticks + 1) e.1 then none else some (e.1, satUp e.2))
    else some e
  deep.foldl (fun m x =>
    let z := m.get (idleBin ticks (x.1 * 16)) (x.1 * 16)
    let k := x.1 * 16 + depthBin x.2
    (m.put (idleBin (ticks + 1) (x.1 * 16)) (x.1 * 16) z).put 0 k (satUp (m.get 0 k))) m

/-- Every queue takes a depth sample. -/
def depthSamples (d : Dev) : Dev :=
  let deep := (d.queues.map fun e => (e.1, depthOf d e.1)).filter fun x => decide (x.2 ≠ 0)
  let depth (n : Nat) : Nat := match deep.find? fun x => decide (x.1 = n) with
    | some x => x.2
    | none => 0
  { d with
    queues := d.queues.map fun e => (e.1, { e.2 with depthLast := depth e.1, depthMax := max e.2.depthMax (depth e.1) })
    tel := { d.tel with depthHist := depthHistTick d.ticks deep d.tel.depthHist }
    ticks := d.ticks + 1 }

/-! ### Step 5: windows counted in frames (R43, R60, R67) -/

/-- The Gazetteer's frame: ages of records, moves of keys, holds, age counters (R310, R334, R336). -/
def gazFrame (d : Dev) : Dev :=
  let cnt := (List.range 16).foldl (fun m t =>
    SMap.put m 0 t (if d.get (GZ_TBL_AGE.AGE_FRAMES 0 t) = 0 then 0 else d.gaz.ageCnt.get 0 t + 1)) []
  { d with gaz := { d.gaz with
      log := d.gaz.log.map fun r => { r with held := r.held + 1 }
      moves := []
      holds := d.gaz.holds.map fun h => (h.1, h.2.1, h.2.2 - 1)
      ageCnt := cnt } }

/-- Telemetry's frame: ages of flows (R486), Template Sets (R499). -/
def telFrame (d : Dev) : Dev :=
  { d with tel := { d.tel with
      flows := d.tel.flows.map fun (e : Nat × Option Flow) => (e.1, e.2.map fun (f : Flow) => { f with idle := sat 16 (f.idle + 1), active := sat 16 (f.active + 1) })
      rings := d.tel.rings.map fun (e : Nat × Ring) => (e.1, { e.2 with
        templateIn := if 1 < e.2.templateIn then e.2.templateIn - 1
          else if d.flag (TEL_RING_CFG.EN e.1) then templateFrames d else 0
        templateDue := e.2.templateDue || decide (e.2.templateIn = 1) }) } }

/-- What a frame tick advances besides: fault windows, restart windows, failures counted in a frame. -/
def windowsFrame (d : Dev) : Dev :=
  let d := gazFrame (telFrame d)
  let d := [0, 1].foldl (fun d e => d.setTansy e fun x => { x with window := x.window.map (· - 1) }) d
  { d with
    flt := { d.flt with frameNo := d.flt.frameNo + 1, fabricFails := [] }
    buf := { d.buf with memFail := [] } }

/-- GSYNC at a frame tick: a leader sends its word; the frame that ended without one counts as missed (R66, R67). -/
def gsyncFrame (g : Grid) (d : Dev) : Grid × Dev :=
  match d.get GRT_GSYNC_CTL.ROLE with
  | 1 =>
    let back := if g.wordBack then some (bits g.gsyncWord.toNat 87 72) else none
    let d := if 1 ≤ g.missed then d.put GRT_GSYNC_RTT.RTT 0 else d
    ({ g with missed := g.missed + 1, wordBack := false }, d.emit (.gsync (leaderWord g d back)))
  | 2 => ({ g with missed := g.missed + 1 }, d)
  | _ => (g, d)

/-- Step 5 of a frame tick. -/
def frameWindows (w : Whole) : Whole :=
  let r := gsyncFrame w.1 w.2.2
  let b := { w.2.1 with drainFrames := if w.2.1.draining.isSome then w.2.1.drainFrames + 1 else w.2.1.drainFrames }
  ({ r.1 with frameBase := r.1.base }, b, windowsFrame r.2)

/-! ### Step 6: late work and new budgets (R54-R59, R466-R469) -/

/-- A class, or a slice, counts one more late tick in its run, or ends it; the run shown stops at 65,535, the width of its
field (DESIGN CHOICE, log entry 137). -/
def runTick (d : Dev) (now top : Fld) (late : Bool) : Dev :=
  let n := if late then min 65535 (d.get now + 1) else 0
  (d.put now n).put top (max (d.get top) n)

/-- R58: class c at a tick: counts, the run, and with its end the next LATE_LIMIT. -/
def lateClass (d : Dev) (c : Nat) (late : Bool) : Dev :=
  let d := if late then (d.bump (GRT_LATE_CNT.LATE_CNT c)).bump (GRT_CATCHUP_CNT.CATCHUP_CNT c) else d
  let d := runTick d (GRT_LATE_RUN.LATE_NOW c) (GRT_LATE_RUN.LATE_MAX c) late
  if late then d else { d with lateRaised := d.lateRaised.filter fun x => decide (x ≠ c) }

/-- R467: wire bytes of the q7 copies of port p whose due time lies after `lo` and not after `hi`, in 1/64 ns. -/
def dueBytes (d : Dev) (p lo hi : Nat) : Nat :=
  (d.qu (qid p 7)).pkts.foldl (fun a c => if lo < c.due ∧ c.due ≤ hi then a + lengthAt d c + 20 else a) 0

/-- R467: a q7 packet is still queued after its due tick. -/
def portLate (d : Dev) (p now : Nat) : Bool := (d.qu (qid p 7)).pkts.any fun c => decide (c.due ≠ 0) && decide (c.due ≤ now)

/-- R467: C_e, the link time in bytes that port p had in an epoch of ns nanoseconds. -/
def linkBytes (x : TickIn) (d : Dev) (p ns : Nat) : Nat :=
  let lost := x.lostLink.foldl (fun a y => if y.1.val = p then a + y.2.2 else a) 0
  (ns - lost) * portSpeed d p / 8

/-- R467, R468: must-work and CATCHUP sixteenths of the rest of a capacity. -/
def creditOf (must k cap : Nat) : Nat := must + (cap - must) * k / 16

/-- R468: what a catch-up epoch of port p, of ns nanoseconds, overshot its credit by, now that its link time is known. -/
def overshoot (x : TickIn) (d : Dev) (p ns : Nat) : Int :=
  let y := d.po p
  match y.credit with
  | some c => min 0 (c - ((y.grant.2.2 - creditOf y.grant.1 y.grant.2.1 (linkBytes x d p ns) : Nat) : Int))
  | none => 0

/-- R468: a catch-up epoch begins at port p with its calendar credit, less the overshoot of a catch-up epoch just ended. Its link
time is taken at the nominal 1,024 ns, and settled at the tick that ends it (DESIGN CHOICE, log entry 25). -/
def beginCatchup (x : TickIn) (ns now : Nat) (d : Dev) (p : Nat) : Dev :=
  let must := dueBytes d p now (now + 65536)
  let k := max 1 (d.get (GRT_LATE_CFG.CATCHUP 2))
  let granted := creditOf must k (epochBytes d p)
  d.port p fun y => { y with credit := some ((granted : Int) + overshoot x d p ns), grant := (must, k, granted) }

/-- R468, R469: port p at a tick: in catch-up or not, with its cause latch. -/
def promiseTick (x : TickIn) (ns now : Nat) (d : Dev) (p : Nat) : Dev :=
  let s := p / 32
  let cause := EQ_PROM_CAUSE.CAUSE s (p % 32)
  if portLate d p now then
    let d := match x.lostLink.find? fun y => decide (y.1.val = p ∧ y.2.2 ≠ 0) with
      | some y => if d.get cause = 0 then d.put cause (y.2.1.val + 1) else d
      | none => d
    beginCatchup x ns now ((d.put (EQ_PROM.LATE s (p % 32)) 1).bump (EQ_CNT_CATCHUP_EPOCHS s)) p
  else ((d.put (EQ_PROM.LATE s (p % 32)) 0).put cause 0).port p fun y => { y with credit := none }

/-- R595: q0-q6 begin the epoch with what an overshoot leaves of their paced share. -/
def paceTick (d : Dev) : Dev :=
  let fr := d.get PWR_PACE_BE.FRACTION
  { d with ports := d.ports.map fun (e : Nat × PortHid) => (e.1, { e.2 with
      beUsed := if 256 ≤ fr then 0 else e.2.beUsed - fr * epochBytes d e.1 / 256 }) }

/-- Class 2 at a tick: every port with q7 packets or in catch-up, every slice, the class (R59, R469). -/
def promiseClass (x : TickIn) (ns now : Nat) (d : Dev) : Dev :=
  let ports := sortNat ((d.queues.filter fun e => decide (e.1 % 8 = 7)).map (·.1 / 8)
    ++ (d.ports.filter fun e => e.2.credit.isSome).map (·.1))
  let late := ports.filter fun p => portLate d p now
  let d := ports.foldl (promiseTick x ns now) d
  let d := (List.range 32).foldl (fun d s =>
    let l := late.any fun p => decide (p / 32 = s)
    let d := if l then d.bump (EQ_CNT_LATE_TICKS s) else d
    runTick d (EQ_LATE_RUN.LATE_NOW s) (EQ_LATE_RUN.LATE_MAX s) l) d
  paceTick (lateClass d 2 (!late.isEmpty))

/-- The Gazetteer's tick: settle windows (R332), keys sent in the epoch (R330), batches that wait (R311). -/
def gazTick (d : Dev) : Dev :=
  let d := { d with
    gaz := { d.gaz with windows := d.gaz.windows.map fun w => { w with left := w.left - 1 } }
    slices := d.slices.map fun e => (e.1, { e.2 with learnKeys := [] }) }
  [0, 1].foldl batchWaits d

/-- Telemetry's tick: the buckets of DEX and drop records gain tokens (R494, R496), rings their rate (R503). -/
def telTick (d : Dev) : Dev :=
  let d := (List.range 32).foldl (fun d s => d.slice s fun y => { y with
    dexTokens := min (d.get (CTH_DEX_RATE.DEX_BURST s)) (y.dexTokens + d.get (CTH_DEX_RATE.DEX_RATE s)) }) d
  let drop := (List.range 128).foldl (fun m k =>
    SMap.put m 0x100 k (min (d.get (TEL_DRLIM.BURST (k / 64) (k % 64)))
      (d.tel.drTokens.get 0x100 k + d.get (TEL_DRLIM.RATE (k / 64) (k % 64))))) []
  { d with tel := { d.tel with
      drTokens := drop
      rings := d.tel.rings.map fun (e : Nat × Ring) => (e.1, { e.2 with spent := 0 }) } }

/-- Pages of flushed queues go back to the BPM (R429): the epoch had a cycle for each. -/
def freeOrphans (d : Dev) : Dev :=
  let l := d.buf.orphans
  l.foldl (fun d x => (bpmFree d x.1 x.2).2) { d with buf := { d.buf with orphans := [] } }

/-- R394: BPM operations end. -/
def bpmTick (d : Dev) : Dev := (d.put BPM_ALLOC_STAT.BUSY 0).put BPM_FREE_STAT.BUSY 0

/-- Step 6, and the rest of what the new epoch begins with. -/
def budgets (x : TickIn) (ns now : Nat) (d : Dev) : Dev :=
  let d := lateClass (lateClass d 0 (decide (d.hk.late.1 ≠ 0))) 1 (decide (d.hk.late.2 ≠ 0))
  let d := heartbeats d x.words
  freeOrphans (bpmTick (telTick (gazTick (promiseClass x ns now d))))

/-! ### The tick (R49) -/

/-- A tick at which the Graticule is g and the epoch just ended lasted len fine units. -/
def tickWork (x : TickIn) (jump : Bool) (len : Int) (g : Grid) (b : Banks) (d : Dev) : Whole :=
  let frame := jump || frameTick g
  let x := { x with words := (retired d 0 x.words.1, retired d 1 x.words.2) }
  let ns := (len / fineNs).toNat
  let d := pausesTick (g.nowQ 0) (epochEnds x ns d)
  let d := if frame then frameSnapshot g jump ((g.base - g.frameBase) / fineNs).toNat d else d
  let w := boundary x jump (g, b, d)
  let d := depthSamples (refills (g.nowQ 0) len w.2.2)
  let w : Whole := (w.1, drainSeen b w.2.1 d, d)
  let w := if frame then frameWindows w else w
  let d := budgets x ns (g.base / (fineNs / 64)).toNat w.2.2
  let r := copiesTick x jump w.1 (contourTick frame d)
  let r := judge r.1.base r.1 r.2
  (r.1, w.2.1, faultPin r.2)

/-- No tick falls while CORE_REF is absent (R648), and a jump that is due before the epoch's end comes first (R41). -/
def tickFalls (g : Grid) (d : Dev) : Bool :=
  !d.pins.coreLost && (match jumpAt g with
    | some t => decide (g.base + epochFine g d < t)
    | none => true)

/-- TICK (R49). -/
def execTick (x : TickIn) (s : State) : Outc := s.withAll fun g b d =>
  if tickFalls g d then tickWork x false (epochFine g d) (nextTick g d) b d else (g, b, d)

/-- JUMP_TICK (R41, R42, R51): where a jump is due. -/
def execJumpTick (x : TickIn) (s : State) : Outc := s.withAll fun g b d =>
  match jumpAt g with
  | some t =>
    if d.pins.coreLost then (g, b, d)
    else tickWork x true (t - g.base) (jumpedTo g t) b (d.event GRT_STATUS.JUMPED)
  | none => (g, b, d)

end Sys2Proof.Machine
end

