-- ==== Sys2Proof/Machine/Dispatch.lean ====
section
/-!
DEFINITION. The meaning of every command: one arm per constructor, each a direct call of its meaning.
-/
namespace Sys2Proof.Machine

/-- The command's effect on everything but the queue. -/
def exec (i : Instr) (s : State) : Host.Outcome State Fault Refusal :=
  match i with
  | .tick x => Sys2Proof.Machine.execTick x s
  | .lateLimit c => Sys2Proof.Machine.execLateLimit c s
  | .jumpTick x => Sys2Proof.Machine.execJumpTick x s
  | .jumpReq dt => Sys2Proof.Machine.execJumpReq dt s
  | .gsyncWordRx word dt => Sys2Proof.Machine.execGsyncWordRx word dt s
  | .gsyncHoldover => Sys2Proof.Machine.execGsyncHoldover s
  | .timeStep src v dt => Sys2Proof.Machine.execTimeStep src v dt s
  | .timeOffset src v dt => Sys2Proof.Machine.execTimeOffset src v dt s
  | .timeFreqWrite src v => Sys2Proof.Machine.execTimeFreqWrite src v s
  | .ppsInEdge dt => Sys2Proof.Machine.execPpsInEdge dt s
  | .ppsInLost => Sys2Proof.Machine.execPpsInLost s
  | .ppsOutPulse dt rise => Sys2Proof.Machine.execPpsOutPulse dt rise s
  | .registerWrite src bar off shape v dt => Sys2Proof.Machine.execRegisterWrite src bar off shape v dt s
  | .readTimeout src off => Sys2Proof.Machine.execReadTimeout src off s
  | .statusAck src off v => Sys2Proof.Machine.execStatusAck src off v s
  | .mailboxRead src base dt err => Sys2Proof.Machine.execMailboxRead src base dt err s
  | .mailboxWrite src base dt => Sys2Proof.Machine.execMailboxWrite src base dt s
  | .mailboxComplete base => Sys2Proof.Machine.execMailboxComplete base s
  | .postedWrite src off v => Sys2Proof.Machine.execPostedWrite src off v s
  | .postedWriteApply dom dt => Sys2Proof.Machine.execPostedWriteApply dom dt s
  | .wldLockSet src v => Sys2Proof.Machine.execWldLockSet src v s
  | .flr pf => Sys2Proof.Machine.execFlr pf s
  | .pcieLinkDown => Sys2Proof.Machine.execPcieLinkDown s
  | .pcieLinkUp speed width flit => Sys2Proof.Machine.execPcieLinkUp speed width flit s
  | .perstAssert => Sys2Proof.Machine.execPerstAssert s
  | .doorbellWrite src off shape v => Sys2Proof.Machine.execDoorbellWrite src off shape v s
  | .puntDeliver n desc => Sys2Proof.Machine.execPuntDeliver n desc s
  | .injectFrame n desc bytes dt => Sys2Proof.Machine.execInjectFrame n desc bytes dt s
  | .oobRead32 addr off timeout more => Sys2Proof.Machine.execOobRead32 addr off timeout more s
  | .oobWrite32 addr off v pec dt => Sys2Proof.Machine.execOobWrite32 addr off v pec dt s
  | .oobBadCommand addr cmd => Sys2Proof.Machine.execOobBadCommand addr cmd s
  | .oobStopEarly => Sys2Proof.Machine.execOobStopEarly s
  | .oobSclTimeout => Sys2Proof.Machine.execOobSclTimeout s
  | .porstAssert => Sys2Proof.Machine.execPorstAssert s
  | .porstRelease strap tst => Sys2Proof.Machine.execPorstRelease strap tst s
  | .sysrstPulse longEnough => Sys2Proof.Machine.execSysrstPulse longEnough s
  | .bootImageSelect sfdp a b => Sys2Proof.Machine.execBootImageSelect sfdp a b s
  | .bootRunning ms => Sys2Proof.Machine.execBootRunning ms s
  | .verify img slot => Sys2Proof.Machine.execVerify img slot s
  | .apply img slot => Sys2Proof.Machine.execApply img slot s
  | .loadHost img => Sys2Proof.Machine.execLoadHost img s
  | .advanceRollback => Sys2Proof.Machine.execAdvanceRollback s
  | .reboot => Sys2Proof.Machine.execReboot s
  | .bootCmdComplete => Sys2Proof.Machine.execBootCmdComplete s
  | .readPage => Sys2Proof.Machine.execReadPage s
  | .programPage => Sys2Proof.Machine.execProgramPage s
  | .erase4k => Sys2Proof.Machine.execErase4k s
  | .erase64k => Sys2Proof.Machine.execErase64k s
  | .flashCmdDone ok page => Sys2Proof.Machine.execFlashCmdDone ok page s
  | .bankSeal bank seq => Sys2Proof.Machine.execBankSeal bank seq s
  | .bankSwapArm => Sys2Proof.Machine.execBankSwapArm s
  | .bankUnseal => Sys2Proof.Machine.execBankUnseal s
  | .bankDrainEnd => Sys2Proof.Machine.execBankDrainEnd s
  | .bankDrainExpire => Sys2Proof.Machine.execBankDrainExpire s
  | .laneDetectStart p => Sys2Proof.Machine.execLaneDetectStart p s
  | .enterTest l => Sys2Proof.Machine.execEnterTest l s
  | .leaveTest l => Sys2Proof.Machine.execLeaveTest l s
  | .signalDetected l => Sys2Proof.Machine.execSignalDetected l s
  | .terminationSense l present => Sys2Proof.Machine.execTerminationSense l present s
  | .anComplete p r => Sys2Proof.Machine.execAnComplete p r s
  | .anRestart p => Sys2Proof.Machine.execAnRestart p s
  | .receiverReady l partner precodeTx precodeRx loss => Sys2Proof.Machine.execReceiverReady l partner precodeTx precodeRx loss s
  | .trainTimeout l => Sys2Proof.Machine.execTrainTimeout l s
  | .trainSignalLost l => Sys2Proof.Machine.execTrainSignalLost l s
  | .lockHeld p skew => Sys2Proof.Machine.execLockHeld p skew s
  | .lockTimeout l => Sys2Proof.Machine.execLockTimeout l s
  | .surveyTx p => Sys2Proof.Machine.execSurveyTx p s
  | .surveyRx p frame => Sys2Proof.Machine.execSurveyRx p frame s
  | .exchTimeout p => Sys2Proof.Machine.execExchTimeout p s
  | .lossOfLock l => Sys2Proof.Machine.execLossOfLock l s
  | .fecAlignLoss p => Sys2Proof.Machine.execFecAlignLoss p s
  | .faultOrderedSetRx p remote => Sys2Proof.Machine.execFaultOrderedSetRx p remote s
  | .retrain l => Sys2Proof.Machine.execRetrain l s
  | .partnerRetrain l => Sys2Proof.Machine.execPartnerRetrain l s
  | .laneReset l => Sys2Proof.Machine.execLaneReset l s
  | .refclkLoss die => Sys2Proof.Machine.execRefclkLoss die s
  | .refclkReturn die => Sys2Proof.Machine.execRefclkReturn die s
  | .fomWindow l w => Sys2Proof.Machine.execFomWindow l w s
  | .fomRebase l => Sys2Proof.Machine.execFomRebase l s
  | .retrainReq l => Sys2Proof.Machine.execRetrainReq l s
  | .eyeStart l => Sys2Proof.Machine.execEyeStart l s
  | .eyeScanDone l points => Sys2Proof.Machine.execEyeScanDone l points s
  | .bitslip l => Sys2Proof.Machine.execBitslip l s
  | .chkClear l => Sys2Proof.Machine.execChkClear l s
  | .octetModeChange sl k mode => Sys2Proof.Machine.execOctetModeChange sl k mode s
  | .clearStats sl => Sys2Proof.Machine.execClearStats sl s
  | .frameRx r => Sys2Proof.Machine.execFrameRx r s
  | .macControlRx p opcode vec quanta dt => Sys2Proof.Machine.execMacControlRx p opcode vec quanta dt s
  | .pauseExpire p prio dt => Sys2Proof.Machine.execPauseExpire p prio dt s
  | .pauseRefresh p prio => Sys2Proof.Machine.execPauseRefresh p prio s
  | .pfcWatchdog p prio => Sys2Proof.Machine.execPfcWatchdog p prio s
  | .pfcWatchdogEnd p prio => Sys2Proof.Machine.execPfcWatchdogEnd p prio s
  | .liveSet p => Sys2Proof.Machine.execLiveSet p s
  | .tsFifoPop src p => Sys2Proof.Machine.execTsFifoPop src p s
  | .parseStart sl dt up => Sys2Proof.Machine.execParseStart sl dt up s
  | .lateMalformed fid => Sys2Proof.Machine.execLateMalformed fid s
  | .admission sl dt => Sys2Proof.Machine.execAdmission sl dt s
  | .chargeCorrect fid => Sys2Proof.Machine.execChargeCorrect fid s
  | .replicate h => Sys2Proof.Machine.execReplicate h s
  | .fabricCrcError h lane retries sl => Sys2Proof.Machine.execFabricCrcError h lane retries sl s
  | .fabricLaneSpare h lane => Sys2Proof.Machine.execFabricLaneSpare h lane s
  | .schedulerDecision p dt up => Sys2Proof.Machine.execSchedulerDecision p dt up s
  | .txComplete p dt => Sys2Proof.Machine.execTxComplete p dt s
  | .recircDequeue sl dt up => Sys2Proof.Machine.execRecircDequeue sl dt up s
  | .wheelSlotRelease sl dt => Sys2Proof.Machine.execWheelSlotRelease sl dt s
  | .wheelCoarseMove sl dt => Sys2Proof.Machine.execWheelCoarseMove sl dt s
  | .writeDownStart h badCells => Sys2Proof.Machine.execWriteDownStart h badCells s
  | .writeDownDone h d crcErrors => Sys2Proof.Machine.execWriteDownDone h d crcErrors s
  | .readUpRequest h => Sys2Proof.Machine.execReadUpRequest h s
  | .readUpArrive h buf crcErrors eccCorr eccUncorr badCells => Sys2Proof.Machine.execReadUpArrive h buf crcErrors eccCorr eccUncorr badCells s
  | .deviceExclude h d => Sys2Proof.Machine.execDeviceExclude h d s
  | .exclude h d => Sys2Proof.Machine.execExclude h d s
  | .restore h d trained => Sys2Proof.Machine.execRestore h d trained s
  | .memRetrain h d => Sys2Proof.Machine.execMemRetrain h d s
  | .dataRateChange h d => Sys2Proof.Machine.execDataRateChange h d s
  | .deviceRetrainDone h d trained density => Sys2Proof.Machine.execDeviceRetrainDone h d trained density s
  | .driftCompensation h d => Sys2Proof.Machine.execDriftCompensation h d s
  | .add => Sys2Proof.Machine.execAdd s
  | .remove => Sys2Proof.Machine.execRemove s
  | .setPort => Sys2Proof.Machine.execSetPort s
  | .schCmdDone => Sys2Proof.Machine.execSchCmdDone s
  | .reservationRecheck p => Sys2Proof.Machine.execReservationRecheck p s
  | .insert src h cmd => Sys2Proof.Machine.execInsert src h cmd s
  | .delete src h cmd => Sys2Proof.Machine.execDelete src h cmd s
  | .search src h cmd => Sys2Proof.Machine.execSearch src h cmd s
  | .next src h cmd => Sys2Proof.Machine.execNext src h cmd s
  | .flushByPort src h cmd => Sys2Proof.Machine.execFlushByPort src h cmd s
  | .age src h cmd => Sys2Proof.Machine.execAge src h cmd s
  | .gzBadOp src h cmd => Sys2Proof.Machine.execGzBadOp src h cmd s
  | .gzCmdDone p bad => Sys2Proof.Machine.execGzCmdDone p bad s
  | .gzBatchArm e => Sys2Proof.Machine.execGzBatchArm e s
  | .gzPinExpire h => Sys2Proof.Machine.execGzPinExpire h s
  | .versionRecordRetire => Sys2Proof.Machine.execVersionRecordRetire s
  | .bucketRestoreDone h ovf index otherBad => Sys2Proof.Machine.execBucketRestoreDone h ovf index otherBad s
  | .rehashStart h cmd => Sys2Proof.Machine.execRehashStart h cmd s
  | .rehashSwitch t bad => Sys2Proof.Machine.execRehashSwitch t bad s
  | .rehashDone t => Sys2Proof.Machine.execRehashDone t s
  | .rehashFail t => Sys2Proof.Machine.execRehashFail t s
  | .learnEventArrive sl bad => Sys2Proof.Machine.execLearnEventArrive sl bad s
  | .settleWindowClose bad => Sys2Proof.Machine.execSettleWindowClose bad s
  | .flapHoldEnd => Sys2Proof.Machine.execFlapHoldEnd s
  | .ageStepDue t => Sys2Proof.Machine.execAgeStepDue t s
  | .ageStep t bad => Sys2Proof.Machine.execAgeStep t bad s
  | .overflowMoveBack t ix bad => Sys2Proof.Machine.execOverflowMoveBack t ix bad s
  | .aseUpdate sl cmd => Sys2Proof.Machine.execAseUpdate sl cmd s
  | .aseUpdateCommit sl => Sys2Proof.Machine.execAseUpdateCommit sl s
  | .aseScrubRow sl wrong bad => Sys2Proof.Machine.execAseScrubRow sl wrong bad s
  | .bpmAlloc src cmd tags => Sys2Proof.Machine.execBpmAlloc src cmd tags s
  | .bpmFree src tags => Sys2Proof.Machine.execBpmFree src tags s
  | .bpmReclaim cmd tags => Sys2Proof.Machine.execBpmReclaim cmd tags s
  | .flowIdleExpire h n bad => Sys2Proof.Machine.execFlowIdleExpire h n bad s
  | .flowActiveExpire h n bad => Sys2Proof.Machine.execFlowActiveExpire h n bad s
  | .flowFlush h bad => Sys2Proof.Machine.execFlowFlush h bad s
  | .templateSend r => Sys2Proof.Machine.execTemplateSend r s
  | .messageFlushTimeout r => Sys2Proof.Machine.execMessageFlushTimeout r s
  | .exportMessageSend r dt => Sys2Proof.Machine.execExportMessageSend r dt s
  | .archiveCopy cmd => Sys2Proof.Machine.execArchiveCopy cmd s
  | .archDone => Sys2Proof.Machine.execArchDone s
  | .snapshotComplete us => Sys2Proof.Machine.execSnapshotComplete us s
  | .sweepDone => Sys2Proof.Machine.execSweepDone s
  | .sweepOverrun => Sys2Proof.Machine.execSweepOverrun s
  | .start => Sys2Proof.Machine.execStart s
  | .stop => Sys2Proof.Machine.execStop s
  | .clear => Sys2Proof.Machine.execClear s
  | .pmuCmdClear m => Sys2Proof.Machine.execPmuCmdClear m s
  | .clearCycle m => Sys2Proof.Machine.execClearCycle m s
  | .sliceSample sl => Sys2Proof.Machine.execSliceSample sl s
  | .tansySample e entry word cycles must late committed => Sys2Proof.Machine.execTansySample e entry word cycles must late committed s
  | .samplePop m e => Sys2Proof.Machine.execSamplePop m e s
  | .tansyRoutine e x => Sys2Proof.Machine.execTansyRoutine e x s
  | .engineFailure e code uaddr post => Sys2Proof.Machine.execEngineFailure e code uaddr post s
  | .peerSilent e => Sys2Proof.Machine.execPeerSilent e s
  | .heartbeatFail e => Sys2Proof.Machine.execHeartbeatFail e s
  | .patchReloadDone e bad => Sys2Proof.Machine.execPatchReloadDone e bad s
  | .engineRunning e => Sys2Proof.Machine.execEngineRunning e s
  | .restartWindowClose e => Sys2Proof.Machine.execRestartWindowClose e s
  | .hkStop e => Sys2Proof.Machine.execHkStop e s
  | .hkStart e => Sys2Proof.Machine.execHkStart e s
  | .hkRestart e => Sys2Proof.Machine.execHkRestart e s
  | .patchSwap e => Sys2Proof.Machine.execPatchSwap e s
  | .commandFetch entry => Sys2Proof.Machine.execCommandFetch entry s
  | .nop => Sys2Proof.Machine.execNop s
  | .gz => Sys2Proof.Machine.execGz s
  | .sch => Sys2Proof.Machine.execSch s
  | .fence => Sys2Proof.Machine.execFence s
  | .responseWrite => Sys2Proof.Machine.execResponseWrite s
  | .hostEventPost => Sys2Proof.Machine.execHostEventPost s
  | .controlStep => Sys2Proof.Machine.execControlStep s
  | .clockSwitchShallower => Sys2Proof.Machine.execClockSwitchShallower s
  | .avsReadPoll rd => Sys2Proof.Machine.execAvsReadPoll rd s
  | .droopDetect dom => Sys2Proof.Machine.execDroopDetect dom s
  | .droopRecover dom => Sys2Proof.Machine.execDroopRecover dom s
  | .sensorRead sensor tj => Sys2Proof.Machine.execSensorRead sensor tj s
  | .paceSample low => Sys2Proof.Machine.execPaceSample low s
  | .stepStale => Sys2Proof.Machine.execStepStale s
  | .faultEvent dt => Sys2Proof.Machine.execFaultEvent dt s
  | .pathFailed src => Sys2Proof.Machine.execPathFailed src s
  | .faultWindowClose src => Sys2Proof.Machine.execFaultWindowClose src s
  | .sliceRejoin sl => Sys2Proof.Machine.execSliceRejoin sl s
  | .resetShadowEnd kind n => Sys2Proof.Machine.execResetShadowEnd kind n s
  | .fatalReset => Sys2Proof.Machine.execFatalReset s
  | .faultNRelease => Sys2Proof.Machine.execFaultNRelease s
  | .inject cmd dt => Sys2Proof.Machine.execInject cmd dt s
  | .unfence sl => Sys2Proof.Machine.execUnfence sl s
  | .leaveSafe => Sys2Proof.Machine.execLeaveSafe s
  | .release => Sys2Proof.Machine.execRelease s
  | .safeEnter => Sys2Proof.Machine.execSafeEnter s
  | .wardenStall back => Sys2Proof.Machine.execWardenStall back s
  | .collectorStall => Sys2Proof.Machine.execCollectorStall s
  | .logPop => Sys2Proof.Machine.execLogPop s
  | .railMonitorTrip => Sys2Proof.Machine.execRailMonitorTrip s
  | .railMonitorRelease strap tst => Sys2Proof.Machine.execRailMonitorRelease strap tst s
  | .coreRefLoss => Sys2Proof.Machine.execCoreRefLoss s
  | .coreRefReturn => Sys2Proof.Machine.execCoreRefReturn s
  | .registerRead src bar off shape dt => Sys2Proof.Machine.execRegisterRead src bar off shape dt s
  | .sysrstRelease => Sys2Proof.Machine.execSysrstRelease s
  | .perstRelease => Sys2Proof.Machine.execPerstRelease s
  | .relock p => Sys2Proof.Machine.execRelock p s
  | .fecAlignRegained p => Sys2Proof.Machine.execFecAlignRegained p s
  | .linkFaultCleared p => Sys2Proof.Machine.execLinkFaultCleared p s
  | .checkerSelfAligned l => Sys2Proof.Machine.execCheckerSelfAligned l s

end Sys2Proof.Machine
end

