-- ==== Sys2Proof/Safety.lean ====
section
/-!
DEFINITION. What claims are stated with: the invariants of safe runs, and the frames of commands.
-/
namespace Sys2Proof.Machine

/-! ### Banks (R144-R147) -/

/-- R144, R145: at most one bank is ACTIVE, and new packets are given that one; a DRAINING bank drains for an ACTIVE one;
exactly a bank that is not FREE has a sequence number. -/
def Banks.legal (b : Banks) : Prop :=
  (b.a = .active → b.b ≠ .active ∧ b.activeB = false)
    ∧ (b.b = .active → b.activeB = true)
    ∧ (b.a = .draining → b.b = .active) ∧ (b.b = .draining → b.a = .active)
    ∧ (b.a = .free ↔ b.seqA = 0) ∧ (b.b = .free ↔ b.seqB = 0)

/-! ### Frames -/

/-- Device e differs from d in nothing but registers at the listed addresses, outputs, and interrupts that wait behind a
mask. -/
def Dev.regsOnly (addrs : List Nat) (d e : Dev) : Prop :=
  (∃ r o p, e = { d with regs := r, out := o, pba := p }) ∧ ∀ a, a ∉ addrs → e.word a = d.word a

/-- A status event was raised between d and e (R107): its bit is set, and SEQ is one more. -/
def Dev.raised (f : Fld) (d e : Dev) : Prop :=
  e.get ⟨f.addr, f.lo, f.lo⟩ = 1 ∧ e.get ⟨f.addr, 31, 24⟩ = (d.get ⟨f.addr, 31, 24⟩ + 1) % 256

/-- The fault events reported between d and e (R611), by source and detail. -/
def Dev.reported (l : List (Nat × Nat)) (d e : Dev) : Prop :=
  ∃ r : List Report, e.reports = d.reports ++ r ∧ r.map (fun x => (x.src, x.detail)) = l

/-- A bus error of a kind is logged between d and e (R101, R112): HIF_BUSERR names it, its count is one more, and one fault
event of the kind's source is reported. -/
def Dev.busErrorLogged (src : Src) (kind bar off : Nat) (write : Bool) (d e : Dev) : Prop :=
  e.get HIF_BUSERR.SOURCE = srcCode src ∧ e.get HIF_BUSERR.DIR = (if write then 1 else 0)
    ∧ e.get HIF_BUSERR.KIND = kind ∧ e.get HIF_BUSERR_ADDR.BAR = bar
    ∧ e.get HIF_BUSERR_ADDR.OFFSET = off % 2 ^ 27
    ∧ e.get HIF_BUSERR_CNT.COUNT = (d.get HIF_BUSERR_CNT.COUNT + 1) % 2 ^ 32
    ∧ Dev.raised HIF_BUSERR.PENDING d e ∧ Dev.reported [(kind, 0)] d e

/-- The registers a bus error changes. -/
def busErrorRegs : List Nat := [HIF_BUSERR.word.addr, HIF_BUSERR_ADDR.word.addr, HIF_BUSERR_CNT.word.addr]

/-- The commands that act on the device alone: all but ticks, the clock's, banks', resets', boot's, and those through which
register writes or a slice's return can reach Graticule or banks. -/
def deviceOnly : Instr → Bool
  | .tick _ | .jumpTick _ | .jumpReq _ | .gsyncWordRx _ _ | .gsyncHoldover | .timeStep _ _ _ | .timeOffset _ _ _ | .ppsInEdge _ => false
  | .registerWrite _ _ _ _ _ _ | .statusAck _ _ _ | .mailboxRead _ _ _ _ | .mailboxWrite _ _ _ | .postedWrite _ _ _
  | .wldLockSet _ _ | .timeFreqWrite _ _ | .tsFifoPop _ _ | .samplePop _ _ | .logPop | .oobWrite32 _ _ _ _ _ | .readTimeout _ _ | .postedWriteApply _ _ => false
  | .porstAssert | .porstRelease _ _ | .railMonitorTrip | .railMonitorRelease _ _ | .sysrstPulse _ | .fatalReset | .coreRefReturn => false
  | .bootImageSelect _ _ _ | .verify _ _ | .apply _ _ | .loadHost _ | .reboot => false
  | .bankSeal _ _ | .bankSwapArm | .bankUnseal | .bankDrainEnd | .bankDrainExpire => false
  | .tansyRoutine _ _ | .engineRunning _ | .sliceRejoin _ => false
  | _ => true

/-- The commands of the pins and rails of power-on reset (R115, R645). -/
def powerPin : Instr → Bool
  | .porstAssert | .porstRelease _ _ | .railMonitorTrip | .railMonitorRelease _ _ => true
  | _ => false

end Sys2Proof.Machine
end

