-- ==== Sys2Proof/Certificates/Slice0/Obligations.lean ====
section
/-!
DEFINITION. The statements for the provers, chapter by chapter.
-/
open Sys2Proof Sys2Proof.Machine

/-! ### The block, its queue and its reset -/

/-- A step takes the command at the front of the queue and runs it on the state with the queue's rest. -/
def Obligations.StepRunsFront : Prop :=
  ∀ (c : Instr) (rest : List Instr) (s : State), s.pending = c :: rest → step s = exec c { s with pending := rest }

/-- With no command waiting a step changes nothing (the model's choice, log entry 2). -/
def Obligations.EmptyQueueIdles : Prop := ∀ s : State, s.pending = [] → step s = .next s

/-- No command faults or is refused, and none changes the queue. -/
def Obligations.EveryCommandAnswers : Prop :=
  ∀ (c : Instr) (s : State), ∃ t, exec c s = .next t ∧ t.pending = s.pending

/-- While PORST_N is low or a rail has collapsed, every other command leaves the state as it is. -/
def Obligations.HeldDeviceIsStill : Prop :=
  ∀ (c : Instr) (s : State), s.held = true → powerPin c = false → exec c s = .next s

/-- A command that acts on the device alone leaves the Graticule and the banks as they are. -/
def Obligations.DeviceCommandsFrame : Prop :=
  ∀ (c : Instr) (s t : State), deviceOnly c = true → exec c s = .next t → t.grid = s.grid ∧ t.banks = s.banks

/-- What reset leaves, as the register maps give it. -/
def Obligations.ResetValues : Prop :=
  State.reset.pending = [] ∧ State.reset.grid.epoch = 0 ∧ State.reset.grid.state.code = 1
    ∧ State.reset.dev.get GRT_EPOCH_CTL.TRIM_MAX = 8 ∧ State.reset.dev.get GRT_EPOCH_CTL.TRACK_EN = 1
    ∧ State.reset.dev.get GRT_EPOCH_CTL.TRIM_EN = 1 ∧ State.reset.dev.get GRT_EPOCH_CTL.AUTO_JUMP = 1
    ∧ State.reset.banks.a = .free ∧ State.reset.banks.b = .free
    ∧ State.reset.dev.get BOOT_STATE.STATE = 0 ∧ State.reset.dev.get BOOT_STATE.SOURCE = 3
    ∧ State.reset.dev.get BOOT_SLOT_RESULT.A = 9 ∧ State.reset.dev.get BOOT_SLOT_RESULT.B = 9
    ∧ State.reset.dev.word ID_IDENT.word.addr = 0x10244FD7
    ∧ (∀ c : Fin 3, State.reset.dev.get (GRT_LATE_CFG.LATE_LIMIT c) = 16 ∧ State.reset.dev.get (GRT_LATE_CFG.CATCHUP c) = 8)
    ∧ (∀ h : Fin 2, State.reset.dev.get (BUF_SHARED.SHARED h) = 786432)
    ∧ State.reset.dev.mbxBusy = [] ∧ (∀ k, State.reset.dev.ctrGet k = 0)

/-! ### Registers -/

/-- A read after a write of a register field, and the frame of the write. -/
def Obligations.FieldReadAfterWrite : Prop :=
  ∀ (d : Dev) (f : Fld) (v : Nat), f.lo ≤ f.hi → f.hi < 32 →
    (d.put f v).get f = v % 2 ^ (f.hi + 1 - f.lo)
      ∧ (∀ g : Fld, g.addr ≠ f.addr ∨ f.hi < g.lo ∨ g.hi < f.lo → (d.put f v).get g = d.get g)
      ∧ Dev.regsOnly [f.addr] d (d.put f v)

/-- R107: events, and acknowledgements with a current and with a stale SEQ. -/
def Obligations.SequenceClearedStatus : Prop :=
  (∀ (d : Dev) (f : Fld), f.lo < 24 →
    Dev.raised f d (d.event f) ∧ Dev.regsOnly [f.addr] d (d.event f)
      ∧ ∀ g : Fld, g.addr = f.addr → g.hi < 24 → g.hi < f.lo ∨ f.lo < g.lo → (d.event f).get g = d.get g)
  ∧ (∀ (d : Dev) (st mask : Nat) (v : Word), mask < 2 ^ 24 →
    (v.toNat / 2 ^ 24 = d.get ⟨st, 31, 24⟩ →
      (d.ackStatus st mask v).word st = d.word st &&& ~~~ (BitVec.ofNat 32 mask)
        ∧ (d.ackStatus st mask v).get ⟨st, 31, 24⟩ = d.get ⟨st, 31, 24⟩
        ∧ Dev.regsOnly [st] d (d.ackStatus st mask v))
    ∧ (v.toNat / 2 ^ 24 ≠ d.get ⟨st, 31, 24⟩ → d.ackStatus st mask v = d))

/-! ### The Graticule and the clock (chapter 02) -/

/-- R35: what can change EPOCH, and that a tick adds one. -/
def Obligations.EpochNeverDecreases : Prop :=
  (∀ (c : Instr) (s t : State), exec c s = .next t →
    t.grid.epoch = s.grid.epoch
      ∨ (∃ x, c = .tick x ∧ t.grid.epoch = s.grid.epoch + 1)
      ∨ (∃ x, c = .jumpTick x ∧ s.grid.epoch.toNat < t.grid.epoch.toNat)
      ∨ (powerPin c = true ∧ t.grid = {}))
  ∧ (∀ (x : TickIn) (s : State), s.held = false → tickFalls s.grid s.dev = true →
    ∃ t, exec (.tick x) s = .next t ∧ t.grid.epoch = s.grid.epoch + 1)

/-- R41, R45, R50, R51: what a tick and a jump tick do to Graticule and banks. -/
def Obligations.TickAndJump : Prop :=
  (∀ (x : TickIn) (s : State), s.held = false → tickFalls s.grid s.dev = true →
    ∃ t, exec (.tick x) s = .next t
      ∧ t.grid.epoch = s.grid.epoch + 1
      ∧ t.grid.base = s.grid.base + epochFine s.grid s.dev
      ∧ t.grid.phaseErr = t.grid.err / fineNs
      ∧ (∀ w : Bool, s.banks.st w = .armed → s.banks.st (!w) ≠ .armed →
        (s.banks.due w ≤ s.grid.epoch + 1 → t.banks.st w = .active ∧ t.banks.activeB = w
          ∧ (s.banks.st (!w) = .active → t.banks.st (!w) = .draining))
        ∧ (s.grid.epoch + 1 < s.banks.due w → t.banks.st w = .armed ∧ t.banks.st (!w) = s.banks.st (!w))))
  ∧ (∀ (x : TickIn) (s : State), tickFalls s.grid s.dev = false → exec (.tick x) s = .next s)
  ∧ (∀ (x : TickIn) (s : State), s.dev.pins.coreLost = true ∨ jumpAt s.grid = none → exec (.jumpTick x) s = .next s)
  ∧ (∀ (x : TickIn) (s : State) (p : Int), s.held = false → s.dev.pins.coreLost = false → jumpAt s.grid = some p →
    ∃ t, exec (.jumpTick x) s = .next t
      ∧ (t.grid.epoch.toNat : Int) * (1024 * fineNs) = p ∧ t.grid.base = p ∧ t.grid.phaseErr = 0
      ∧ t.grid.jumpFrom = none
      ∧ (∀ w : Bool, s.banks.st w = .armed → s.banks.st (!w) ≠ .armed → t.banks.st w = .active ∧ t.banks.activeB = w))

/-- R41, R58: JUMP_REQ and LATE_LIMIT. -/
def Obligations.JumpReqAndLateLimit : Prop :=
  (∀ (dt : Nat) (s : State), s.held = false → s.grid.state = .ahead → s.dev.flag GRT_EPOCH_CTL.TRACK_EN = true →
    s.grid.err > fineFrame →
    exec (.jumpReq dt) s = .next { s with grid := { s.grid with
      phaseErr := s.grid.err / fineNs, jumpAsked := true, jumpFrom := some (s.grid.jumpFrom.getD (s.grid.base + dt * fineQ)) } })
  ∧ (∀ (dt : Nat) (s : State), s.grid.state ≠ .ahead → exec (.jumpReq dt) s = .next s)
  ∧ (∀ (c : Fin 3) (s : State), s.held = false → s.dev.get (GRT_LATE_CFG.LATE_LIMIT c) ≠ 0 →
    s.dev.get (GRT_LATE_CFG.LATE_LIMIT c) ≤ s.dev.get (GRT_LATE_RUN.LATE_NOW c) → c.val ∉ s.dev.lateRaised →
    ∃ e, exec (.lateLimit c) s = .next { s with dev := e }
      ∧ Dev.raised GRT_STATUS.LATE_LIMIT s.dev e ∧ Dev.reported [(0x020 + c.val, 0)] s.dev e
      ∧ Dev.regsOnly [GRT_STATUS.word.addr] { s.dev with lateRaised := c.val :: s.dev.lateRaised, reports := e.reports } e)
  ∧ (∀ (c : Fin 3) (s : State), s.dev.get (GRT_LATE_CFG.LATE_LIMIT c) = 0
      ∨ s.dev.get (GRT_LATE_RUN.LATE_NOW c) < s.dev.get (GRT_LATE_CFG.LATE_LIMIT c) ∨ c.val ∈ s.dev.lateRaised →
    exec (.lateLimit c) s = .next s)

/-- R71, R72: steps, offsets, and R65's lock. -/
def Obligations.TimeSteps : Prop :=
  (∀ (src : Src) (v : BitVec 128) (dt : Nat) (s : State), s.held = false → follower s.dev = false →
    ∃ t, exec (.timeStep src v dt) s = .next t ∧ t.pending = s.pending ∧ t.banks = s.banks
      ∧ t.grid.base + dt * fineQ = (ofTimeLayout v.toNat : Int) * fineQ ∧ t.grid.epoch = s.grid.epoch
      ∧ t.grid.stepWritten = v
      ∧ t.dev.get TIME_CNT_STEPS = (s.dev.get TIME_CNT_STEPS + 1) % 2 ^ 32 ∧ Dev.raised TIME_STATUS.STEPPED s.dev t.dev)
  ∧ (∀ (src : Src) (v : BitVec 64) (dt : Nat) (s : State), s.held = false → follower s.dev = false →
    ∃ t, exec (.timeOffset src v dt) s = .next t ∧ t.pending = s.pending ∧ t.banks = s.banks
      ∧ t.grid.base + dt * fineQ = max 0 (s.grid.base + dt * fineQ + v.toInt * fineNs) ∧ t.grid.epoch = s.grid.epoch
      ∧ t.grid.offsetWritten = v
      ∧ t.dev.get TIME_CNT_OFFSETS = (s.dev.get TIME_CNT_OFFSETS + 1) % 2 ^ 32 ∧ Dev.raised TIME_STATUS.STEPPED s.dev t.dev)
  ∧ (∀ (src : Src) (v : BitVec 128) (w : BitVec 64) (dt : Nat) (s : State), s.held = false → follower s.dev = true →
    ∃ e, exec (.timeStep src v dt) s = .next { s with dev := e } ∧ exec (.timeOffset src w dt) s = .next { s with dev := e }
      ∧ Dev.busErrorLogged src beLocked 0 (mbxTime + 0x14) true s.dev e ∧ e.get ⟨mbxTime + 0x14, 15, 12⟩ = 2
      ∧ Dev.regsOnly ((mbxTime + 0x14) :: busErrorRegs) { s.dev with reports := e.reports } e)

/-- R70, R650: PPS_IN and PPS_OUT. -/
def Obligations.PpsPins : Prop :=
  ∀ (dt : Nat) (rise : Bool) (s : State), s.held = false →
    (s.dev.flag TIME_CTL.PPS_IN_EN = true →
      (∃ e, exec (.ppsInEdge dt) s = .next { s with grid := { s.grid with ppsIn := BitVec.ofNat 128 (timeLayout (s.grid.nowQ dt)) }, dev := e }
        ∧ Dev.raised TIME_STATUS.PPS_IN s.dev e ∧ e.get TIME_CNT_PPS_IN = (s.dev.get TIME_CNT_PPS_IN + 1) % 2 ^ 32
        ∧ Dev.regsOnly [TIME_STATUS.word.addr, TIME_CNT_PPS_IN.addr] s.dev e)
      ∧ ∃ e, exec .ppsInLost s = .next { s with dev := e } ∧ Dev.raised TIME_STATUS.PPS_IN_LOST s.dev e
        ∧ Dev.regsOnly [TIME_STATUS.word.addr] s.dev e)
    ∧ (s.dev.flag TIME_CTL.PPS_IN_EN = false → exec (.ppsInEdge dt) s = .next s ∧ exec .ppsInLost s = .next s)
    ∧ (∀ level : Bool, level = (rise && s.dev.flag TIME_CTL.PPS_OUT_EN) →
      (s.dev.pins.ppsOut = level → exec (.ppsOutPulse dt rise) s = .next s)
      ∧ (s.dev.pins.ppsOut ≠ level → exec (.ppsOutPulse dt rise) s = .next { s with dev := { s.dev with
          pins := { s.dev.pins with ppsOut := level }, out := s.dev.out ++ [.pin "PPS_OUT" level] } }))

/-- R61-R68: GSYNC. -/
def Obligations.Gsync : Prop :=
  (∀ (w : BitVec 128) (dt : Nat) (s : State), s.held = false → s.dev.get GRT_GSYNC_CTL.ROLE = 1 →
    gsyncCrc w.toNat = bits w.toNat 127 112 →
    ∃ t, exec (.gsyncWordRx w dt) s = .next t ∧ t.grid = { s.grid with missed := 0, gsyncWord := w, wordBack := true } ∧ t.banks = s.banks
      ∧ t.dev.get GRT_GSYNC_STATUS.LEADER_ID = bits w.toNat 67 64 ∧ t.dev.get GRT_GSYNC_STATUS.HOP = bits w.toNat 71 68
      ∧ t.dev.get GRT_GSYNC_RTT.RTT = ((s.grid.base + dt * fineQ - s.grid.frameBase) / fineNs - 6656).toNat % 2 ^ 32)
  ∧ (∀ (w : BitVec 128) (dt : Nat) (s : State), s.held = false → s.dev.get GRT_GSYNC_CTL.ROLE = 2 →
    gsyncCrc w.toNat = bits w.toNat 127 112 → s.grid.state ≠ .holdover ∨ 1 ≤ s.grid.good →
    ∃ t, exec (.gsyncWordRx w dt) s = .next t ∧ t.banks = s.banks ∧ t.grid.epoch = s.grid.epoch
      ∧ t.grid.base + dt * fineQ = ((bits w.toNat 63 0 : Int) * 1024 + 6656 + 40 * s.dev.get GRT_GSYNC_STATUS.HOP) * fineNs
          + s.dev.get GRT_GSYNC_TRACE.TRACE * (fineNs / 16)
      ∧ t.grid.missed = 0 ∧ t.grid.gsyncWord = w
      ∧ t.dev.get GRT_GSYNC_STATUS.LOCKED = 1 ∧ t.dev.get GRT_GSYNC_STATUS.HOP = bits w.toNat 71 68
      ∧ Output.gsync (forwardWord s.dev w.toNat) ∈ t.dev.out)
  ∧ (∀ (w : BitVec 128) (dt : Nat) (s : State), s.held = false → s.dev.get GRT_GSYNC_CTL.ROLE = 2 →
    gsyncCrc w.toNat = bits w.toNat 127 112 → s.grid.state = .holdover → s.grid.good = 0 →
    ∃ e, exec (.gsyncWordRx w dt) s = .next { s with grid := { s.grid with good := 1, missed := 0, gsyncWord := w }, dev := e }
      ∧ Output.gsync (forwardWord s.dev w.toNat) ∈ e.out ∧ e.get GRT_GSYNC_STATUS.HOP = bits w.toNat 71 68
      ∧ Dev.regsOnly [GRT_GSYNC_STATUS.word.addr, PWR_PACE_STAT.word.addr] s.dev e)
  ∧ (∀ (w : BitVec 128) (dt : Nat) (s : State), s.held = false → gsyncCrc w.toNat ≠ bits w.toNat 127 112 →
    (s.dev.get GRT_GSYNC_CTL.ROLE = 1 →
      ∃ e, exec (.gsyncWordRx w dt) s = .next { s with grid := { s.grid with good := 0, missed := 0 }, dev := e }
        ∧ e.get GRT_GSYNC_RTT.RTT = ((s.grid.base + dt * fineQ - s.grid.frameBase) / fineNs - 6656).toNat % 2 ^ 32
        ∧ Dev.raised GRT_GSYNC_STATUS.CRC_ERR s.dev e
        ∧ Dev.regsOnly [GRT_GSYNC_STATUS.word.addr, GRT_GSYNC_RTT.word.addr] s.dev e)
    ∧ (s.dev.get GRT_GSYNC_CTL.ROLE = 2 →
      ∃ e, exec (.gsyncWordRx w dt) s = .next { s with grid := { s.grid with good := 0 }, dev := e }
        ∧ Dev.raised GRT_GSYNC_STATUS.CRC_ERR s.dev e ∧ Dev.regsOnly [GRT_GSYNC_STATUS.word.addr] s.dev e))
  ∧ (∀ (w : BitVec 128) (dt : Nat) (s : State), s.dev.get GRT_GSYNC_CTL.ROLE = 0 ∨ s.dev.get GRT_GSYNC_CTL.ROLE = 3 →
    exec (.gsyncWordRx w dt) s = .next s)
  ∧ (∀ s : State, follower s.dev = false ∨ s.grid.missed < 5 ∨ s.grid.state = .holdover
      ∨ s.dev.flag GRT_EPOCH_CTL.TRACK_EN = false → exec .gsyncHoldover s = .next s)
  ∧ (∀ s : State, s.held = false → follower s.dev = true → 5 ≤ s.grid.missed → s.grid.state ≠ .holdover →
    s.dev.flag GRT_EPOCH_CTL.TRACK_EN = true →
    ∃ e, exec .gsyncHoldover s = .next { s with
        grid := { s.grid with state := .holdover, good := 0, jumpAsked := false, jumpFrom := none }, dev := e }
      ∧ e.get GRT_GSYNC_STATUS.LOCKED = 0 ∧ Dev.raised GRT_GSYNC_STATUS.LOST s.dev e ∧ Dev.raised GRT_STATUS.GSYNC_LOST s.dev e
      ∧ Dev.reported [(0x023, 0)] s.dev e
      ∧ Dev.regsOnly [GRT_GSYNC_STATUS.word.addr, GRT_STATUS.word.addr] { s.dev with reports := e.reports } e)

/-! ### Banks, flash, boot and resets (chapters 04 and 19) -/

/-- Whatever command is next, a step keeps the banks legal. -/
def Obligations.BanksStayLegal : Prop := ∀ s t : State, s.banks.legal → step s = .next t → t.banks.legal

/-- The invariant's start. -/
def Obligations.ResetBanksLegal : Prop := State.reset.banks.legal

/-- R146, with the transitions of R145: what each bank command does, and how it is refused. -/
def Obligations.BankCommands : Prop :=
  ∀ s : State, s.held = false →
    (∀ (k : Fin 2) (seq : BitVec 16), s.banks.st (decide (k = 1)) = .free → seq ≠ 0 → seq ≠ s.banks.activeSeq →
      exec (.bankSeal k seq) s = .next { s with banks := (s.banks.setSt (decide (k = 1)) .sealed).setSeq (decide (k = 1)) seq })
    ∧ (∀ w : Bool, s.banks.st w = .sealed → s.banks.st (!w) ≠ .sealed →
      exec .bankSwapArm s = .next { s with banks := s.banks.arm w (s.grid.epoch + 2) }
      ∧ exec .bankUnseal s = .next { s with banks := (s.banks.setSt w .free).setSeq w 0 })
    ∧ (∀ w : Bool, (s.banks.arm w (s.grid.epoch + 2)).st w = .armed ∧ (s.banks.arm w (s.grid.epoch + 2)).due w = s.grid.epoch + 2
      ∧ (s.banks.arm w (s.grid.epoch + 2)).st (!w) = s.banks.st (!w) ∧ (s.banks.arm w (s.grid.epoch + 2)).due (!w) = s.banks.due (!w)
      ∧ (∀ v, (s.banks.arm w (s.grid.epoch + 2)).seq v = s.banks.seq v) ∧ (s.banks.arm w (s.grid.epoch + 2)).target = s.grid.epoch + 2)
    ∧ (s.banks.a = .sealed → s.banks.b = .sealed → ∃ n,
      (∃ w, exec .bankSwapArm s = .next { s with banks := s.banks.arm w (s.grid.epoch + 2), dev := { s.dev with free := n } })
      ∧ ∃ w, exec .bankUnseal s = .next { s with
          banks := (s.banks.setSt w .free).setSeq w 0, dev := { s.dev with free := n } })
    ∧ (∀ w : Bool, s.banks.draining = some w → s.banks.drainReady = true →
      exec .bankDrainEnd s = .next { s with banks := { (s.banks.setSt w .free).setSeq w 0 with drainReady := false } })
    ∧ (s.banks.draining = none ∨ s.banks.drainReady = false → exec .bankDrainEnd s = .next s)
    ∧ (∀ c why, (∃ (k : Fin 2) (seq : BitVec 16), c = .bankSeal k seq ∧ s.banks.st (decide (k = 1)) ≠ .free ∧ why = 1)
        ∨ (∃ (k : Fin 2) (seq : BitVec 16), c = .bankSeal k seq ∧ s.banks.st (decide (k = 1)) = .free
            ∧ (seq = 0 ∨ seq = s.banks.activeSeq) ∧ why = 2)
        ∨ (c = .bankSwapArm ∧ s.banks.a ≠ .sealed ∧ s.banks.b ≠ .sealed ∧ why = 3)
        ∨ (c = .bankUnseal ∧ s.banks.a ≠ .sealed ∧ s.banks.b ≠ .sealed ∧ why = 4) →
      ∃ e, exec c s = .next { s with banks := { s.banks with reject := why }, dev := e }
        ∧ Dev.raised BOOT_STATUS.BANK_REJECT s.dev e ∧ Dev.regsOnly [BOOT_STATUS.word.addr] s.dev e)
    ∧ (∀ v : Word, v.getLsbD 0 = true → v.getLsbD 1 = true →
      bankCmdWrite v s.grid s.banks s.dev = ({ s.banks with reject := 5 }, s.dev.event BOOT_STATUS.BANK_REJECT))

/-- R151. -/
def Obligations.BankDrainExpiry : Prop :=
  (∀ (s : State) (w : Bool), s.held = false → s.banks.draining = some w →
    s.dev.get BOOT_BANK_CTL.DRAIN_LIMIT ≠ 0 → s.dev.get BOOT_BANK_CTL.DRAIN_LIMIT ≤ s.banks.drainFrames →
    s.dev.serves 0 = true ∨ s.dev.serves 1 = true →
    ∃ n d, retireAll s.grid s.dev drBankRetired (fun p => p.stamped && decide (p.bankB = w)) (fun q => { q with markBank := some w }) = (n, d)
      ∧ exec .bankDrainExpire s = .next { s with
          banks := { s.banks with expired := s.banks.expired + BitVec.ofNat 32 n, drainFrames := 0 }
          dev := d.event BOOT_STATUS.DRAIN_EXPIRED })
  ∧ (∀ s : State, s.banks.draining = none ∨ s.dev.get BOOT_BANK_CTL.DRAIN_LIMIT = 0
      ∨ s.banks.drainFrames < s.dev.get BOOT_BANK_CTL.DRAIN_LIMIT ∨ (s.dev.serves 0 = false ∧ s.dev.serves 1 = false) →
    exec .bankDrainExpire s = .next s)

/-- R138, R139. -/
def Obligations.FlashCommands : Prop :=
  ∀ (s : State) (c : Instr) (op size : Nat), s.held = false →
    (c, op, size) ∈ [(Instr.readPage, 1, 0x100), (.programPage, 2, 0x100), (.erase4k, 3, 0x1000), (.erase64k, 4, 0x10000)] →
    let a := s.dev.get BOOT_FL_ADDR.ADDR - s.dev.get BOOT_FL_ADDR.ADDR % size
    let kept := op ≠ 1 ∧ s.dev.flag BOOT_FL_CFG.PROTECT_RUNNING = true ∧ s.dev.get BOOT_STATE.SOURCE < 2
      ∧ a / 0x2000000 = s.dev.get BOOT_STATE.SOURCE
    (s.dev.flag BOOT_FL_STAT.BUSY = true →
      exec c s = .next { s with dev := s.dev.event BOOT_FL_STAT.REJECTED })
    ∧ (s.dev.flag BOOT_FL_STAT.BUSY = false → kept → exec c s = .next { s with dev := s.dev.event BOOT_FL_STAT.PROTECT_HIT })
    ∧ (s.dev.flag BOOT_FL_STAT.BUSY = false → ¬ kept →
      ∃ e page, exec c s = .next { s with dev := e } ∧ e.get BOOT_FL_STAT.BUSY = 1
        ∧ (op ≠ 2 → page = []) ∧ (op = 2 → page.length = 256)
        ∧ Dev.regsOnly [BOOT_FL_STAT.word.addr]
            { s.dev with boot := { s.dev.boot with flash := some (op, a) }, out := s.dev.out ++ [.flash op a page] } e)
    ∧ (∀ (ok : Bool) (page : List Byte), s.dev.boot.flash = some (op, a) →
      ∃ e, exec (.flashCmdDone ok page) s = .next { s with dev := e } ∧ e.get BOOT_FL_STAT.BUSY = 0
        ∧ Dev.raised BOOT_STATUS.FL_DONE s.dev e ∧ e.boot = { s.dev.boot with flash := none }
        ∧ (op = 1 → page.length = 256 → flashBuf e = page)
        ∧ (op ≠ 1 → flashBuf e = flashBuf s.dev) ∧ (op ≠ 1 → ok = false → e.get BOOT_FL_STAT.FLASH_ERR = 1))
    ∧ (∀ (ok : Bool) (page : List Byte), s.dev.boot.flash = none → exec (.flashCmdDone ok page) s = .next s)

/-- R121, R126, R132, R133, R135. -/
def Obligations.BootChoosesImage : Prop :=
  (∀ (s : State) (sfdp : Option (BitVec 8)) (a b : Image), s.held = false → s.dev.boot.waiting = true → mayBoot s.dev.pins = true →
    (sfdp = none ∨ (a.readable = false ∧ b.readable = false) →
      ∃ e, exec (.bootImageSelect sfdp a b) s = .next { s with dev := e } ∧ e.get BOOT_STATE.STATE = 6
        ∧ e.get BOOT_STATE.SOURCE = 3 ∧ e.get BOOT_STATUS.WAIT_HOST = 1 ∧ e.boot.waiting = false)
    ∧ (∀ (n : BitVec 8) (d : Dev) (y : Whole), sfdp = some n →
      d = (writeVolts { s.dev with boot := { s.dev.boot with waiting := false } } 5).put BOOT_FL_CFG.SIZE_LOG2 n.toNat →
      (a.readable = true → b.readable = false → headerCode s.dev a = 0 → bodyCode s.dev a = 0 →
        loadImage a (s.grid, s.banks, d.setWord BOOT_SLOT_SEQ_A.SEQ_A.addr a.seq) = some y →
        ∃ t, exec (.bootImageSelect sfdp a b) s = .next t ∧ t.dev.get BOOT_STATE.STATE = 4 ∧ t.dev.get BOOT_STATE.SOURCE = 0
          ∧ t.dev.word BOOT_RUN_SEQ.word.addr = a.seq ∧ t.dev.get BOOT_SLOT_RESULT.A = 0 ∧ t.banks = y.2.1)
      ∧ (a.readable = true → b.readable = true → headerCode s.dev a = 0 → headerCode s.dev b = 0 →
        (b.seq.toNat ≤ a.seq.toNat → bodyCode s.dev a = 0 →
          loadImage a (s.grid, s.banks, (d.setWord BOOT_SLOT_SEQ_A.SEQ_A.addr a.seq).setWord BOOT_SLOT_SEQ_B.SEQ_B.addr b.seq) = some y →
          ∃ t, exec (.bootImageSelect sfdp a b) s = .next t ∧ t.dev.get BOOT_STATE.STATE = 4 ∧ t.dev.get BOOT_STATE.SOURCE = 0
            ∧ t.dev.word BOOT_RUN_SEQ.word.addr = a.seq ∧ t.dev.get BOOT_SLOT_RESULT.A = 0 ∧ t.dev.get BOOT_SLOT_RESULT.B = 1
            ∧ t.banks = y.2.1)
        ∧ (a.seq.toNat < b.seq.toNat → bodyCode s.dev b = 0 →
          loadImage b (s.grid, s.banks, (d.setWord BOOT_SLOT_SEQ_A.SEQ_A.addr a.seq).setWord BOOT_SLOT_SEQ_B.SEQ_B.addr b.seq) = some y →
          ∃ t, exec (.bootImageSelect sfdp a b) s = .next t ∧ t.dev.get BOOT_STATE.STATE = 4 ∧ t.dev.get BOOT_STATE.SOURCE = 1
            ∧ t.dev.word BOOT_RUN_SEQ.word.addr = b.seq ∧ t.dev.get BOOT_SLOT_RESULT.B = 0 ∧ t.dev.get BOOT_SLOT_RESULT.A = 1
            ∧ t.banks = y.2.1))))
  ∧ (∀ (s : State) (sfdp : Option (BitVec 8)) (a b : Image), s.dev.boot.waiting = false ∨ mayBoot s.dev.pins = false →
    exec (.bootImageSelect sfdp a b) s = .next s)
  ∧ (∀ (s : State) (ms : Nat), s.held = false →
    (s.dev.get BOOT_STATE.STATE = 4 → lanesSettled s.dev = true ∨ 1500 ≤ ms →
      ∃ e, exec (.bootRunning ms) s = .next { s with dev := e } ∧ e.get BOOT_STATE.STATE = 5
        ∧ e.get BOOT_TIME.TO_RUN = min 65535 ms ∧ Dev.regsOnly [BOOT_STATE.word.addr, BOOT_TIME.word.addr] s.dev e)
    ∧ (s.dev.get BOOT_STATE.STATE ≠ 4 ∨ (lanesSettled s.dev = false ∧ ms < 1500) → exec (.bootRunning ms) s = .next s))

/-- R129, R131, R137, R140-R142, R153. -/
def Obligations.BootCommands : Prop :=
  (∀ (s : State) (img : Image) (slot : Fin 2), s.held = false →
    (s.dev.flag BOOT_CMD_RESULT.BUSY = false ∨ s.dev.boot.cmd = some (1, slot.val, none) →
      ∀ i, i = img.withSeq (s.dev.word BOOT_CMD_SEQ.SEQ.addr) →
      ∃ e r, exec (.verify img slot) s = .next { s with dev := e } ∧ e.get BOOT_CMD_RESULT.BUSY = 1
        ∧ e.boot.cmd = some (1, slot.val, some r)
        ∧ Dev.regsOnly [BOOT_CMD_RESULT.word.addr] { s.dev with boot := { s.dev.boot with cmd := some (1, slot.val, some r) } } e
        ∧ (img.readable = false → r = 13) ∧ (img.readable = true → bytesAt i.header 0 4 ≠ [0x48, 0x52, 0x4C, 0x31] → r = 2)
        ∧ (img.readable = true → headerCode s.dev i ≠ 0 → r = headerCode s.dev i)
        ∧ (img.readable = true → headerCode s.dev i = 0 → bodyCode s.dev i ≠ 0 → r = bodyCode s.dev i)
        ∧ (r = 0 → img.readable = true ∧ headerCode s.dev i = 0 ∧ i.digest = i.bigField 0x140 48
          ∧ sha384 (bytesAt i.header 0x170 96) = s.dev.keyHash.toNat
          ∧ ecdsaOk (i.bigField 0x170 48) (i.bigField 0x1A0 48) (i.bigField 0x1D0 48) (i.bigField 0x200 48) (i.bigField 0x140 48) = true))
    ∧ (s.dev.flag BOOT_CMD_RESULT.BUSY = false ∨ s.dev.boot.cmd = some (2, slot.val, none) →
      (s.banks.a ≠ .free → s.banks.b ≠ .free →
        ∃ e, exec (.apply img slot) s = .next { s with dev := e } ∧ e.boot.cmd = some (2, slot.val, some 12)
          ∧ e.get BOOT_CMD_RESULT.BUSY = 1)
      ∧ (∀ (w : Bool) (y : Whole), freeBank s.banks = some w → s.banks.st (!w) = .active → s.banks.activeB = !w →
        checkSlot img (s.grid, s.banks, bootIssue s.dev 2 slot) = 0 →
        (loadSection img 5 w (s.grid, s.banks, bootIssue s.dev 2 slot)).bind (loadSection img 6 w) = some y →
        ∃ t, exec (.apply img slot) s = .next t ∧ t.banks.st w = .armed ∧ t.banks.st (!w) = .active
          ∧ t.banks.target = s.grid.epoch + 2 ∧ t.banks.due w = s.grid.epoch + 2
          ∧ t.banks.seq w = (if s.banks.seq (!w) + 1 = 0 then 1 else s.banks.seq (!w) + 1)
          ∧ t.dev.boot.cmd = some (2, slot.val, some 0)))
    ∧ (s.dev.flag BOOT_CMD_RESULT.BUSY = true →
      (s.dev.boot.cmd ≠ some (1, slot.val, none) → exec (.verify img slot) s = .next s)
      ∧ (s.dev.boot.cmd ≠ some (2, slot.val, none) → exec (.apply img slot) s = .next s)
      ∧ ((∀ k, s.dev.boot.cmd ≠ some (3, k, none)) → exec (.loadHost img) s = .next s)
      ∧ exec .advanceRollback s = .next s)
    ∧ (s.dev.flag BOOT_CMD_RESULT.BUSY = false → s.dev.get BOOT_STATE.STATE ≠ 6 →
      ∃ e, exec (.loadHost img) s = .next { s with dev := e } ∧ e.boot.cmd = some (3, 0, some 14) ∧ e.get BOOT_CMD_RESULT.BUSY = 1
        ∧ e.get BOOT_STATE.STATE = s.dev.get BOOT_STATE.STATE)
    ∧ (∀ d : Dev, s.dev.flag BOOT_CMD_RESULT.BUSY = false → s.dev.get BOOT_STATE.STATE = 6 →
      d = (bootIssue s.dev 3 0).emit (.hostRead 1 (BitVec.ofNat 64 (s.dev.wget (wkey mbxBoot 1))) (0x1000 + img.length)) →
      (img.readable = false → ∃ e, exec (.loadHost img) s = .next { s with dev := e } ∧ e.boot.cmd = some (3, 0, some 13)
        ∧ e.get BOOT_STATE.STATE = 6 ∧ e.get BOOT_STATE.SOURCE = 3 ∧ Dev.raised BOOT_STATUS.WAIT_HOST s.dev e)
      ∧ (∀ y : Whole, img.readable = true → headerCode s.dev img = 0 → bodyCode s.dev img = 0 →
        loadImage img (s.grid, s.banks, d) = some y →
        ∃ t, exec (.loadHost img) s = .next t ∧ t.dev.get BOOT_STATE.STATE = 4 ∧ t.dev.get BOOT_STATE.SOURCE = 2
          ∧ t.dev.word BOOT_RUN_SEQ.word.addr = img.seq ∧ t.banks = y.2.1 ∧ t.dev.boot.cmd = some (3, 0, some 0)))
    ∧ (s.dev.flag BOOT_CMD_RESULT.BUSY = false →
      ∃ e, exec .advanceRollback s = .next { s with dev := e } ∧ e.get BOOT_CMD_RESULT.BUSY = 1
        ∧ Dev.regsOnly [BOOT_CMD_RESULT.word.addr] { s.dev with boot := { s.dev.boot with cmd := some (4, 0, none) } } e))
  ∧ (∀ s : State, s.held = false →
    (s.dev.boot.cmd = none → exec .bootCmdComplete s = .next s)
    ∧ (∀ op slot r, s.dev.boot.cmd = some (op, slot, some r) → r < 256 →
      ∃ e, exec .bootCmdComplete s = .next { s with dev := e } ∧ e.get BOOT_CMD_RESULT.BUSY = 0
        ∧ e.get BOOT_CMD_RESULT.RESULT = r ∧ Dev.raised BOOT_STATUS.CMD_DONE s.dev e
        ∧ Dev.regsOnly [BOOT_CMD_RESULT.word.addr, BOOT_STATUS.word.addr] { s.dev with boot := { s.dev.boot with cmd := none } } e)
    ∧ (∀ slot, s.dev.boot.cmd = some (4, slot, none) →
      ∃ e, exec .bootCmdComplete s = .next { s with dev := e } ∧ e.get BOOT_CMD_RESULT.BUSY = 0
        ∧ e.get BOOT_CMD_RESULT.RESULT = 0 ∧ Dev.raised BOOT_STATUS.CMD_DONE s.dev e
        ∧ (s.dev.get BOOT_STATE.SOURCE ≠ 3 → e.rollback = max s.dev.rollback (min 64 (s.dev.get BOOT_ROLLBACK.RUN)))
        ∧ (s.dev.get BOOT_STATE.SOURCE = 3 → e.rollback = s.dev.rollback)))

/-- R38, R115, R640, R645. -/
def Obligations.PowerOnReset : Prop :=
  (∀ (s : State) (c : Instr), s.dev.fuses.wf resetWord = true → c = .porstAssert ∨ c = .railMonitorTrip →
    ∃ e, exec c s = .next { s with grid := {}, banks := {}, dev := e }
      ∧ (∀ a, a ≠ BOOT_ROLLBACK.word.addr → e.word a = if fusedReg a then s.dev.word a else s.dev.fuses.get (resetWord a) a)
      ∧ (∀ k, e.wget k = if fusedWide k then s.dev.wget k else 0)
      ∧ e.serial = s.dev.serial ∧ e.keyHash = s.dev.keyHash ∧ e.fuses = s.dev.fuses
      ∧ e.queues = [] ∧ e.frames = [] ∧ e.ctr = [] ∧ e.gaz = {} ∧ e.hk = {} ∧ e.reports = [] ∧ e.msix = []
      ∧ e.pins = { s.dev.pins with sysrst := false, perst := false, coreLost := false, ppsOut := false
                                   porst := s.dev.pins.porst || decide (c = .porstAssert)
                                   rail := s.dev.pins.rail || decide (c = .railMonitorTrip) }
      ∧ (s.dev.boot.cmd = none → e.rollback = s.dev.rollback ∧ e.get BOOT_ROLLBACK.FUSED = s.dev.rollback % 128))
  ∧ (∀ (s : State) (strap : BitVec 2) (tst : Bool),
    (s.dev.pins.porst = true → ∃ e, exec (.porstRelease strap tst) s = .next { s with grid := {}, banks := {}, dev := e }
      ∧ e.get HIF_OOB_CTL.STRAP = strap.toNat
      ∧ Dev.regsOnly [HIF_OOB_CTL.word.addr] { s.dev with pins := { s.dev.pins with porst := false, test := tst } } e)
    ∧ (s.dev.pins.porst = false → exec (.porstRelease strap tst) s = .next s)
    ∧ (s.dev.pins.rail = true → ∃ e, exec (.railMonitorRelease strap tst) s = .next { s with grid := {}, banks := {}, dev := e }
      ∧ e.get HIF_OOB_CTL.STRAP = strap.toNat
      ∧ Dev.regsOnly [HIF_OOB_CTL.word.addr] { s.dev with pins := { s.dev.pins with rail := false, test := tst } } e)
    ∧ (s.dev.pins.rail = false → exec (.railMonitorRelease strap tst) s = .next s))

/-- R72, R116, R117, R618, R648. -/
def Obligations.WarmDeviceReset : Prop :=
  (∀ (s : State) (c : Instr) (cause : Nat), s.held = false → s.dev.fuses.wf resetWord = true →
    (c = .sysrstPulse true ∧ s.dev.pins.sysrst = false ∧ cause = 1)
      ∨ (c = .reboot ∧ s.dev.flag BOOT_CMD_RESULT.BUSY = false ∧ cause = 2)
      ∨ (c = .fatalReset ∧ s.dev.flt.fatalDue = true ∧ cause = 3)
      ∨ (c = .coreRefReturn ∧ s.dev.pins.coreLost = true ∧ cause = 3) →
    ∃ e, exec c s = .next { s with banks := {}, dev := e }
      ∧ e.get BOOT_STATE.LAST_RESET = cause ∧ e.boot.waiting = true ∧ e.get BOOT_STATE.STATE = 0
      ∧ (∀ a, warmKeeps a = true ∨ captureReg a = true ∨ fusedReg a = true → e.word a = s.dev.word a)
      ∧ (∀ a, warmKeeps a = false → captureReg a = false → fusedReg a = false →
          a ∉ [BOOT_STATE.word.addr, BOOT_ROLLBACK.word.addr, HIF_OOB_CTL.word.addr, FLT_STATE.word.addr] →
          e.word a = s.dev.fuses.get (resetWord a) a)
      ∧ e.get HIF_OOB_CTL.STRAP = s.dev.get HIF_OOB_CTL.STRAP
      ∧ e.queues = [] ∧ e.frames = [] ∧ e.slices = [] ∧ e.ctr = []
      ∧ (∀ k : Fin 2, (e.tansy k).journal = (s.dev.tansy k).journal)
      ∧ (c = .sysrstPulse true → e.pins.sysrst = true) ∧ (c = .coreRefReturn → e.pins.coreLost = false))
  ∧ (∀ s : State, s.held = false →
    exec .sysrstRelease s = .next { s with dev := { s.dev with pins := { s.dev.pins with sysrst := false } } }
    ∧ exec (.sysrstPulse false) s = .next s
    ∧ (s.dev.pins.sysrst = true → exec (.sysrstPulse true) s = .next s)
    ∧ (s.dev.flag BOOT_CMD_RESULT.BUSY = true → (∀ k r, s.dev.boot.cmd ≠ some (5, k, r)) → exec .reboot s = .next s)
    ∧ (s.dev.flt.fatalDue = false → exec .fatalReset s = .next s)
    ∧ (s.dev.pins.coreLost = false → exec .coreRefReturn s = .next s)
    ∧ ∃ e, exec .coreRefLoss s = .next { s with dev := e } ∧ e.silent = true ∧ e.pins = { s.dev.pins with coreLost := true }
      ∧ e.get FLT_STATE.HELD = 1 ∧ e.get FLT_STATE.FAULT_N = 1
      ∧ Dev.regsOnly [FLT_STATE.word.addr] { s.dev with silent := true, pins := e.pins } e)

/-! ### The host's accesses (chapter 03) -/

/-- R94, R100-R102, R665. -/
def Obligations.RegisterAccess : Prop :=
  ∀ (src : Src) (off : BitVec 27) (v : Word) (dt : Nat) (s : State), s.held = false → src ≠ .oob →
    let refused (c : Instr) (k bar : Nat) (write : Bool) : Prop := ∃ e, exec c s = .next { s with dev := e }
      ∧ Dev.busErrorLogged src k bar off.toNat write s.dev e ∧ Dev.regsOnly busErrorRegs { s.dev with reports := e.reports } e
      ∧ (write = false → e.out.getLast? = some (.abort src bar off.toNat))
    let waits (q : HeldAcc) : Prop := mustWait s.dev s.dev.heldAcc q = true
    (∀ h, off.toNat % 4 = 0 → checkAccess s.banks s.dev src off.toNat false 0 = .ok h →
      (¬ waits ⟨src, false, 0, off.toNat, .dword, 0⟩ →
        ∃ e, exec (.registerRead src 0 off .dword dt) s = .next { s with dev := e } ∧ e = readDone s.dev src off.toNat (regValue s.grid s.banks s.dev h off.toNat)
          ∧ e.out.getLast? = some (.readDone src off.toNat ((regValue s.grid s.banks s.dev h off.toNat).zeroExtend 64)))
      ∧ (waits ⟨src, false, 0, off.toNat, .dword, 0⟩ → exec (.registerRead src 0 off .dword dt) s
          = .next { s with dev := { s.dev with heldAcc := s.dev.heldAcc ++ [⟨src, false, 0, off.toNat, .dword, 0⟩] } }))
    ∧ (¬ waits ⟨src, false, 0, off.toNat, .zeroLen, 0⟩ →
        exec (.registerRead src 0 off .zeroLen dt) s = .next { s with dev := s.dev.emit (.readDone src off.toNat 0) })
    ∧ (waits ⟨src, false, 0, off.toNat, .zeroLen, 0⟩ → exec (.registerRead src 0 off .zeroLen dt) s
        = .next { s with dev := { s.dev with heldAcc := s.dev.heldAcc ++ [⟨src, false, 0, off.toNat, .zeroLen, 0⟩] } })
    ∧ (∀ h, off.toNat % 4 = 0 → checkAccess s.banks s.dev src off.toNat true v = .ok h →
      (¬ waits ⟨src, true, 0, off.toNat, .dword, v⟩ → mbxBase h.loc off.toNat = none → pwDomain h off.toNat = none → h.row.isAck = false →
        (h.loc.kind ∈ [BKind.id, .hif, .time, .prs, .dep, .eq, .cth] →
          exec (.registerWrite src 0 off .dword v dt) s = .next { s with dev := s.dev.setWord off.toNat (merged s.dev h off.toNat v) })
        ∧ (h.loc.kind ∈ [BKind.stg, .act] → exec (.registerWrite src 0 off .dword v dt) s
            = .next { s with dev := (s.dev.setWord off.toNat (merged s.dev h off.toNat v)).mendEntry (regEntry off.toNat) }))
      ∧ (waits ⟨src, true, 0, off.toNat, .dword, v⟩ → exec (.registerWrite src 0 off .dword v dt) s
          = .next { s with dev := { s.dev with heldAcc := s.dev.heldAcc ++ [⟨src, true, 0, off.toNat, .dword, v⟩] } }))
    ∧ (∀ shape : Shape, shape ≠ .dword ∨ off.toNat % 4 ≠ 0 →
      (shape ≠ .zeroLen → refused (.registerRead src 0 off shape dt) beSize 0 false)
      ∧ refused (.registerWrite src 0 off shape v dt) beSize 0 true)
    ∧ (∀ k, off.toNat % 4 = 0 → checkAccess s.banks s.dev src off.toNat false 0 = .error k →
        refused (.registerRead src 0 off .dword dt) k 0 false)
    ∧ (∀ k, off.toNat % 4 = 0 → checkAccess s.banks s.dev src off.toNat true v = .error k →
        refused (.registerWrite src 0 off .dword v dt) k 0 true)
    ∧ (∀ shape : Shape, refused (.registerWrite src 1 off shape v dt) beBar2Write 1 true)
    ∧ (regAt off.toNat = none → checkAccess s.banks s.dev src off.toNat true v = .error beReserved)

/-- R95, R96, R99: the worlds, and the lock of their map. -/
def Obligations.WorldsAreApart : Prop :=
  (∀ (off : BitVec 27) (v : Word) (dt : Nat) (s : State) (h : Hit), s.held = false → off.toNat % 4 = 0 →
    regAt off.toNat = some h → secureBlock s.dev h.loc = true → answers s.dev h.loc.kind = true → absent s.dev h.loc = false →
    (∀ n, locSlice h.loc = some n → fenced s.dev n = false) →
    (∃ e, exec (.registerWrite .pf0 0 off .dword v dt) s = .next { s with dev := e }
      ∧ Dev.busErrorLogged .pf0 beWorld 0 off.toNat true s.dev e ∧ Dev.regsOnly busErrorRegs { s.dev with reports := e.reports } e)
    ∧ ∃ e, exec (.registerRead .pf0 0 off .dword dt) s = .next { s with dev := e }
      ∧ Dev.busErrorLogged .pf0 beWorld 0 off.toNat false s.dev e ∧ e.out.getLast? = some (.abort .pf0 0 off.toNat)
      ∧ Dev.regsOnly busErrorRegs { s.dev with reports := e.reports } e)
  ∧ (∀ (dt a : Nat) (v : Word) (s t : State), s.dev.flag WLD_LOCK.LOCK = true → 0x20000 ≤ a → a < 0x20200 →
    (∀ (src : Src) (off : BitVec 27) (shape : Shape), 0x20000 ≤ off.toNat → off.toNat < 0x20200 →
      exec (.registerWrite src 0 off shape v dt) s = .next t → t.dev.word a = s.dev.word a)
    ∧ (∀ (addr : BitVec 7) (off : Word) (pec : Option Byte), 0x20000 ≤ off.toNat → off.toNat < 0x20200 →
      exec (.oobWrite32 addr off v pec dt) s = .next t → t.dev.word a = s.dev.word a))

/-- R77, R99, R107, R110. -/
def Obligations.AcksAndLocks : Prop :=
  ∀ (src : Src) (off : BitVec 27) (v : Word) (s : State), s.held = false → src ≠ .oob →
    let lock (q : HeldAcc) : Prop := mustWait s.dev s.dev.heldAcc q = false
    (∀ h r st d, off.toNat % 4 = 0 → checkAccess s.banks s.dev src off.toNat true v = .ok h → h.row.isAck = true →
      lock ⟨src, true, 0, off.toNat, .dword, v⟩ → mbxBase h.loc off.toNat = none → pwDomain h off.toNat = none →
      st = off.toNat - (if off.toNat = 0x10018 then 8 else if off.toNat = FLT_FIRST.word.addr + 12 then 12 else 4) → regAt st = some r →
      d = (if st = FLT_FIRST.word.addr ∧ v.toNat / 2 ^ 24 = s.dev.get FLT_FIRST.SEQ then s.dev.setWord FLT_FIRST_OVF_CNT.word.addr 0 else s.dev) →
      exec (.statusAck src off v) s = .next { s with
        dev := Dev.ackStatus d st (r.row.mask fun f => decide (f.acc = .sq) && decide (f.hi < 24)) v })
    ∧ (pwrLive s.dev = true → lock ⟨src, true, 0, WLD_LOCK.word.addr, .dword, v⟩ →
      (srcSecure src = true → s.dev.wget (onceKey WLD_LOCK.word.addr) ≠ 1 →
        ∃ e, exec (.wldLockSet src v) s = .next { s with dev := e } ∧ e.wget (onceKey WLD_LOCK.word.addr) = 1
          ∧ (v.getLsbD 0 = true → e.get WLD_LOCK.LOCK = 1 ∧ e.get WLD_STATE.LOCKED = 1)
          ∧ (v.getLsbD 0 = false → e.regs = s.dev.regs) ∧ (∀ k, k ≠ onceKey WLD_LOCK.word.addr → e.wget k = s.dev.wget k)
          ∧ Dev.regsOnly [WLD_LOCK.word.addr, WLD_STATE.word.addr] { s.dev with wide := e.wide } e)
      ∧ (srcSecure src = true → s.dev.wget (onceKey WLD_LOCK.word.addr) = 1 →
        ∃ e, exec (.wldLockSet src v) s = .next { s with dev := e }
          ∧ Dev.busErrorLogged src beLocked 0 WLD_LOCK.word.addr true s.dev e
          ∧ Dev.regsOnly busErrorRegs { s.dev with reports := e.reports } e)
      ∧ (srcSecure src = false →
        ∃ e, exec (.wldLockSet src v) s = .next { s with dev := e }
          ∧ Dev.busErrorLogged src beWorld 0 WLD_LOCK.word.addr true s.dev e
          ∧ Dev.regsOnly busErrorRegs { s.dev with reports := e.reports } e))
    ∧ (∃ e y, Dev.busErrorLogged src beTimeout 0 off.toNat false s.dev e ∧ e.out.getLast? = some (.abort src 0 off.toNat)
        ∧ e.heldAcc = s.dev.heldAcc.erase ⟨src, false, 0, off.toNat, .dword, 0⟩
        ∧ Dev.regsOnly busErrorRegs { s.dev with reports := e.reports, heldAcc := e.heldAcc } e
        ∧ y = releaseHeld (s.grid, s.banks, e) ∧ (e.heldAcc = [] → y = (s.grid, s.banks, e))
        ∧ exec (.readTimeout src off) s = .next { s with grid := y.1, banks := y.2.1, dev := y.2.2 })

/-- R104-R106. -/
def Obligations.Mailboxes : Prop :=
  ∀ (src : Src) (base : BitVec 27) (dt : Nat) (s : State) (h : Hit) (b ctl i : Nat), s.held = false → b = base.toNat → ctl = b + 0x14 →
    b % 4 = 0 → regAt ctl = some h → mbxBase h.loc ctl = some b → i = (s.dev.word b).toNat →
    let refused (c : Instr) (err : Nat) : Prop := ∃ e, exec c s = .next { s with dev := e }
      ∧ Dev.busErrorLogged src beMbx 0 ctl true s.dev e ∧ e.get ⟨ctl, 15, 12⟩ = err ∧ e.get ⟨ctl, 0, 0⟩ = 0
      ∧ Dev.regsOnly (ctl :: busErrorRegs) { s.dev with reports := e.reports } e
    let starts (op : Nat) : Prop := checkAccess s.banks s.dev src ctl true (0x100 + BitVec.ofNat 32 op) = .ok h
      ∧ mustWait s.dev s.dev.heldAcc ⟨src, true, 0, ctl, .dword, 0x100 + BitVec.ofNat 32 op⟩ = false
    let idle : Prop := b ∉ s.dev.mbxBusy ∧ (srcSecure src = true ∨ mbxSecret s.dev h.loc i = false)
    (starts 0 → idle → ∀ d, d = s.dev.setWord ctl (merged s.dev h ctl 0x100) →
      (∀ v d', wideRead s.grid s.banks d h.loc b i dt = some (v, d') →
        ((∀ k, entryKey h.loc i = some k → k ∉ s.dev.badEntries) →
          ∃ e, exec (.mailboxRead src base dt .none) s = .next { s with dev := e } ∧ mbxData e b = v % 2 ^ 128
            ∧ e.get ⟨ctl, 0, 0⟩ = 0 ∧ e.get ⟨ctl, 15, 12⟩ = 0
            ∧ Dev.regsOnly [b + 4, b + 8, b + 12, b + 16, ctl] { d' with mbxBusy := d'.mbxBusy ++ [b] } e)
        ∧ (∀ k (w : BitVec 128), entryKey h.loc i = some k →
          ∃ e, exec (.mailboxRead src base dt (.bad w)) s = .next { s with dev := e } ∧ k ∈ e.badEntries
            ∧ mbxData e b = w.toNat &&& (wideMask h.loc i).getD 0 ∧ e.mbxBusy = s.dev.mbxBusy ++ [b]))
      ∧ (wideRead s.grid s.banks d h.loc b i dt = none → refused (.mailboxRead src base dt .none) 1))
    ∧ (starts 2 → idle → ∀ d v r, d = s.dev.setWord ctl (merged s.dev h ctl 0x102) → v = mbxData s.dev b &&& (wideMask h.loc i).getD 0 →
      r = wideStore s.grid d h.loc b i dt v →
      (wideErr s.grid s.banks d h.loc b i dt v = 0 → h.loc.kind ≠ .time ∨ follower s.dev = false →
        ∃ e, exec (.mailboxWrite src base dt) s = .next { s with grid := r.1, dev := e }
          ∧ e.get ⟨ctl, 0, 0⟩ = 0 ∧ e.get ⟨ctl, 15, 12⟩ = 0
          ∧ Dev.regsOnly [ctl] { r.2 with mbxBusy := r.2.mbxBusy ++ [b] } e
          ∧ (h.loc.kind ∈ [BKind.boot, .hk, .dma, .bpm, .tel, .sch, .gz, .buf, .ase, .prs, .act] →
            e.wget (wkey b i) = v ∧ ∀ k, k ≠ wkey b i → e.wget k = s.dev.wget k))
      ∧ (wideErr s.grid s.banks d h.loc b i dt v ≠ 0 → refused (.mailboxWrite src base dt) (wideErr s.grid s.banks d h.loc b i dt v)))
    ∧ (b ∈ s.dev.mbxBusy → (starts 0 → ∀ x, refused (.mailboxRead src base dt x) 3) ∧ (starts 2 → refused (.mailboxWrite src base dt) 3)
      ∧ ∃ e, exec (.mailboxComplete base) s = .next { s with dev := e } ∧ e.get ⟨ctl, 0, 0⟩ = 1
        ∧ b ∉ e.mbxBusy ∧ (∀ x, x ≠ b → x ∈ s.dev.mbxBusy → x ∈ e.mbxBusy) ∧ Dev.regsOnly [ctl] { s.dev with mbxBusy := e.mbxBusy } e)
    ∧ (b ∉ s.dev.mbxBusy → exec (.mailboxComplete base) s = .next s)

/-- R72, R108, R109. -/
def Obligations.PostedWrites : Prop :=
  ∀ (src : Src) (off : BitVec 27) (v : Word) (dt : Nat) (s : State), s.held = false → src ≠ .oob →
    let goes (a : Nat) : Prop := mustWait s.dev s.dev.heldAcc ⟨src, true, 0, a, .dword, v⟩ = false
    (∀ h k st, off.toNat % 4 = 0 → checkAccess s.banks s.dev src off.toNat true v = .ok h → goes off.toNat →
      mbxBase h.loc off.toNat = none → pwDomain h off.toNat = some (k, st) →
      (s.dev.get ⟨st, 0, 0⟩ = 0 → ∃ e, exec (.postedWrite src off v) s = .next { s with dev := e }
          ∧ e.get ⟨st, 0, 0⟩ = 1 ∧ e.pw.get none k = some (off.toNat, v) ∧ (∀ j, j ≠ k → e.pw.get none j = s.dev.pw.get none j)
          ∧ Dev.regsOnly [st] { s.dev with pw := e.pw } e)
      ∧ (s.dev.get ⟨st, 0, 0⟩ = 1 → exec (.postedWrite src off v) s = .next { s with dev := s.dev.event ⟨st, 1, 1⟩ }))
    ∧ (∀ (dom : PwDomain),
      (s.dev.pw.get none (pwOf dom).1 = none → exec (.postedWriteApply dom dt) s = .next s)
      ∧ ∀ a w, s.dev.pw.get none (pwOf dom).1 = some (a, w) →
        ∃ d, d.get ⟨(pwOf dom).2, 0, 0⟩ = 0 ∧ d.pw.get none (pwOf dom).1 = none
          ∧ (∀ j, j ≠ (pwOf dom).1 → d.pw.get none j = s.dev.pw.get none j) ∧ Dev.regsOnly [(pwOf dom).2] { s.dev with pw := d.pw } d
          ∧ exec (.postedWriteApply dom dt) s = .next { s with
              grid := if a = TIME_FREQ.word.addr then freqMark dt s.grid s.dev else s.grid, dev := pwEffect s.grid d a w }
          ∧ ∀ h, regAt a = some h → a ≠ (pwOf dom).2 → ∀ e, e = pwEffect s.grid d a w →
            (h.loc.kind = .time → e.word a = merged s.dev h a w ∧ Dev.regsOnly [a] { d with pins := e.pins } e
              ∧ e.pins = if h.loc.off = 0 ∧ e.flag TIME_CTL.PPS_OUT_EN = false then { s.dev.pins with ppsOut := false } else s.dev.pins)
            ∧ (h.loc.kind = .ln → h.loc.off ∉ [0, 0x28, 0x200] → e = d.setWord a (merged s.dev h a w)))
    ∧ (srcSecure src = true ∨ bit (s.dev.word WLD_DEV.word.addr).toNat 12 = false → goes TIME_FREQ.word.addr →
      (follower s.dev = false → s.dev.get TIME_PW_STATUS.PW_BUSY = 0 →
        ∃ e, exec (.timeFreqWrite src v) s = .next { s with dev := e } ∧ e.get TIME_PW_STATUS.PW_BUSY = 1
          ∧ e.pw.get none 1041 = some (TIME_FREQ.word.addr, v) ∧ Dev.regsOnly [TIME_PW_STATUS.word.addr] { s.dev with pw := e.pw } e)
      ∧ (follower s.dev = false → s.dev.get TIME_PW_STATUS.PW_BUSY = 1 →
        exec (.timeFreqWrite src v) s = .next { s with dev := s.dev.event ⟨TIME_PW_STATUS.word.addr, 1, 1⟩ })
      ∧ (follower s.dev = true →
        ∃ e, exec (.timeFreqWrite src v) s = .next { s with dev := e }
          ∧ Dev.busErrorLogged src beLocked 0 TIME_FREQ.word.addr true s.dev e
          ∧ Dev.regsOnly busErrorRegs { s.dev with reports := e.reports } e))

/-- R106, R220, R531-R533, R633. -/
def Obligations.PoppingReads : Prop :=
  ∀ s : State, s.held = false → s.dev.heldAcc = [] →
    let popped (e : Dev) (b v : Nat) : Prop := mbxData e b = v % 2 ^ 128 ∧ e.mbxBusy = s.dev.mbxBusy ++ [b]
    let empty (c : Instr) (b : Nat) : Prop := ∃ e, exec c s = .next { s with dev := e } ∧ e.get ⟨b + 0x14, 15, 12⟩ = 1
      ∧ e.get ⟨b + 0x14, 0, 0⟩ = 0 ∧ e.mbxBusy = s.dev.mbxBusy
      ∧ Dev.regsOnly ([b, b + 0x14] ++ busErrorRegs) { s.dev with reports := e.reports } e
    (∀ (src : Src) (p : Fin 1024), src ≠ .oob → srcSecure src = true ∨ bit (s.dev.word (WLD_SLICE.word (p.val / 32)).addr).toNat 1 = false →
      pwrLive s.dev = true → mbxPt (p.val / 32) ∉ s.dev.mbxBusy → fenced s.dev (p.val / 32) = false → (s.dev.sl (p.val / 32)).inReset = false →
      (∀ sec ns tag r, (s.dev.po p).tsFifo = (sec, ns, tag) :: r →
        ∃ e, exec (.tsFifoPop src p) s = .next { s with dev := e } ∧ (e.po p).tsFifo = r
          ∧ popped e (mbxPt (p.val / 32)) (sec + ns * 2 ^ 64 + tag * 2 ^ 96))
      ∧ ((s.dev.po p).tsFifo = [] → empty (.tsFifoPop src p) (mbxPt (p.val / 32))))
    ∧ (∀ k : Fin 2, pwrLive s.dev = true → mbxPmu ∉ s.dev.mbxBusy →
      (∀ x r, s.dev.pmu.tansy.get [] k = x :: r →
        ∃ e, exec (.samplePop 0 k) s = .next { s with dev := e } ∧ e.pmu.tansy.get [] k = r
          ∧ e.get (PMU_TS_STAT.COUNT k) = r.length % 2 ^ 9 ∧ popped e mbxPmu x.toNat)
      ∧ (s.dev.pmu.tansy.get [] k = [] → empty (.samplePop 0 k) mbxPmu))
    ∧ (∀ (n : Fin 32) (m : Fin 35) (k : Fin 2), m.val = 3 + n.val → pwrLive s.dev = true →
      mbxSmp n ∉ s.dev.mbxBusy → fenced s.dev n = false → (s.dev.sl n).inReset = false →
      (∀ x r, (s.dev.sl n).samples = x :: r →
        ∃ e, exec (.samplePop m k) s = .next { s with dev := e } ∧ (e.sl n).samples = r ∧ popped e (mbxSmp n) x.toNat)
      ∧ ((s.dev.sl n).samples = [] → empty (.samplePop m k) (mbxSmp n)))
    ∧ (∀ (h : Fin 2) (m : Fin 35) (k : Fin 2), m.val = 1 + h.val → pwrLive s.dev = true → mbxHpmu h ∉ s.dev.mbxBusy →
      empty (.samplePop m k) (mbxHpmu h))
    ∧ (mbxFlt ∉ s.dev.mbxBusy →
      (∀ x r, s.dev.flt.log = x :: r →
        ∃ e, exec .logPop s = .next { s with dev := e } ∧ e.flt.log = r ∧ e.get FLT_LOG_STAT.COUNT = r.length % 2 ^ 9
          ∧ popped e mbxFlt (logWord x))
      ∧ (s.dev.flt.log = [] → empty .logPop mbxFlt))

/-- R75, R76, R112, R649. -/
def Obligations.FunctionsAndLink : Prop :=
  ∀ s : State, s.held = false →
    (∀ pf : Fin 2, ∃ e, exec (.flr pf) s = .next { s with dev := e }
      ∧ e.get (if pf = 0 then HIF_STATUS.FLR0 else HIF_STATUS.FLR1) = 1
      ∧ (∀ x, x ∈ e.msix → x.1 / 65536 ≠ pf.val) ∧ (∀ dv k, k / 65536 ≠ pf.val → e.msix.get dv k = s.dev.msix.get dv k)
      ∧ (∀ n, n < 128 → ringPf s.dev n = pf.val → e.flag (DMA_RING_CTL.ENABLE n) = false ∧ puntsOf e n = []
          ∧ e.dmaIdx.get 0 n = e.get (DMA_RING_HEAD.HEAD n))
      ∧ (∀ n, n < 128 → ringPf s.dev n ≠ pf.val → e.flag (DMA_RING_CTL.ENABLE n) = s.dev.flag (DMA_RING_CTL.ENABLE n)
          ∧ puntsOf e n = puntsOf s.dev n))
    ∧ (hostUp s.dev = true → ∃ e, exec .pcieLinkDown s = .next { s with dev := e } ∧ e.get HIF_LINK.SPEED = 0
        ∧ e.get HIF_LINK.WIDTH = 0 ∧ e.get HIF_LINK.FLIT = 0
        ∧ Dev.raised HIF_STATUS.LINK_DOWN s.dev e ∧ Dev.regsOnly [HIF_LINK.word.addr, HIF_STATUS.word.addr] s.dev e)
    ∧ (hostUp s.dev = false → exec .pcieLinkDown s = .next s)
    ∧ (∀ (sp : Fin 7) (w : BitVec 8) (fl : Bool),
      (sp ≠ 0 → s.dev.pins.perst = false →
        ∃ e, exec (.pcieLinkUp sp w fl) s = .next { s with dev := e } ∧ e.get HIF_LINK.SPEED = sp.val
          ∧ e.get HIF_LINK.WIDTH = w.toNat ∧ e.get HIF_LINK.FLIT = (if fl then 1 else 0)
          ∧ (sp.val < 4 → Dev.raised HIF_STATUS.LOW_RATE s.dev e)
          ∧ (4 ≤ sp.val → e.word HIF_STATUS.word.addr = s.dev.word HIF_STATUS.word.addr)
          ∧ Dev.regsOnly [HIF_LINK.word.addr, HIF_STATUS.word.addr] s.dev e)
      ∧ (sp = 0 ∨ s.dev.pins.perst = true → exec (.pcieLinkUp sp w fl) s = .next s))
    ∧ (∃ e, exec .perstAssert s = .next { s with dev := e } ∧ e.pins = { s.dev.pins with perst := true } ∧ hostUp e = false
        ∧ (hostUp s.dev = true → Dev.raised HIF_STATUS.LINK_DOWN s.dev e)
        ∧ (∀ x, x ∈ e.msix → 2 ≤ x.1 / 65536)
        ∧ ∀ n, n < 128 → e.flag (DMA_RING_CTL.ENABLE n) = false ∧ puntsOf e n = [] ∧ e.dmaIdx.get 0 n = e.get (DMA_RING_HEAD.HEAD n))
    ∧ exec .perstRelease s = .next { s with dev := { s.dev with pins := { s.dev.pins with perst := false } } }

/-- R81-R84, R389, R658. -/
def Obligations.HostRings : Prop :=
  (∀ (src : Src) (off : BitVec 27) (shape : Shape) (v : Word) (s : State), s.held = false →
    let refused (k : Nat) : Prop := ∃ e, exec (.doorbellWrite src off shape v) s = .next { s with dev := e }
      ∧ Dev.busErrorLogged src k 2 off.toNat true s.dev e ∧ Dev.regsOnly busErrorRegs { s.dev with reports := e.reports } e
    let table : Prop := 0xF0000 ≤ off.toNat ∧ off.toNat < 0x100000
    (src = .oob → exec (.doorbellWrite src off shape v) s = .next s)
    ∧ (src ≠ .oob → ¬ table → shape ≠ .dword ∨ off.toNat % 4 ≠ 0 → refused beSize)
    ∧ (src ≠ .oob → ¬ table → shape = .dword → off.toNat % 4 = 0 → 0x80000 ≤ off.toNat ∨ off.toNat % 0x1000 ≠ 0 → refused beReserved)
    ∧ (∀ n : Fin 128, src ≠ .oob → shape = .dword → off.toNat = 0x1000 * n.val →
      (ringPf s.dev n = 1 → srcSecure src = false → refused beWorld)
      ∧ (ringPf s.dev n = 0 ∨ srcSecure src = true →
        let size := ringEntries s.dev n
        let ahead (i : Nat) := (i + size - s.dev.get (DMA_RING_HEAD.HEAD n) % size) % size
        let good := v.toNat % 65536 < size ∧ ahead (s.dev.dmaIdx.get 0 n) ≤ ahead (v.toNat % 65536)
        (good → exec (.doorbellWrite src off shape v) s
            = .next { s with dev := { s.dev with dmaIdx := s.dev.dmaIdx.put 0 n (v.toNat % 65536) } })
        ∧ (¬ good → ∃ e, exec (.doorbellWrite src off shape v) s = .next { s with dev := e }
            ∧ Dev.raised (DMA_RING_STATUS.DB_ERR n) s.dev e ∧ Dev.regsOnly [(DMA_RING_STATUS.word n).addr] s.dev e))))
  ∧ (∀ (n : Fin 64) (raw : BitVec 128) (s : State), s.held = false →
    let desc := descOf raw
    let head (e : Dev) : Prop := e.get (DMA_RING_HEAD.HEAD n) = (s.dev.get (DMA_RING_HEAD.HEAD n) + 1) % ringEntries s.dev n
    let back (at_ : Nat) (b : List Byte) : Output := .hostWrite (ringPf s.dev n)
      (BitVec.ofNat 64 (s.dev.wget (wkey mbxDma n) + 16 * s.dev.get (DMA_RING_HEAD.HEAD n) + at_)) b
    (ringReady s.dev n = false ∨ puntsOf s.dev n = [] → exec (.puntDeliver n raw) s = .next s)
    ∧ (∀ p r, ringReady s.dev n = true → puntsOf s.dev n = p :: r →
      (desc.bad = false → ∀ len, len = min p.bytes.length desc.len →
        ∃ e, exec (.puntDeliver n raw) s = .next { s with dev := e } ∧ e.punts = s.dev.punts.erase p ∧ head e
          ∧ Output.hostWrite (ringPf s.dev n) desc.addr (p.bytes.take len) ∈ e.out
          ∧ back 8 (leBytes 2 len ++ leBytes 2 p.copy.pkt.inPort ++ leBytes 1 p.code
              ++ leBytes 1 (desc.puntMark (decide (len < p.bytes.length)))) ∈ e.out)
      ∧ (desc.bad = true → ∃ e, exec (.puntDeliver n raw) s = .next { s with dev := e } ∧ e.punts = s.dev.punts
          ∧ e.get (DMA_RING_STATUS.DESC_ERR n) = 1 ∧ head e ∧ back 13 (leBytes 1 (desc.puntMark false)) ∈ e.out)))
  ∧ (∀ (n : Fin 64) (raw : BitVec 128) (bytes : List Byte) (dt : Nat) (s : State), s.held = false →
    let desc := descOf raw
    let r := 64 + n.val
    let sl := desc.port % 1024 / 32
    let head (e : Dev) : Prop := e.get (DMA_RING_HEAD.HEAD r) = (s.dev.get (DMA_RING_HEAD.HEAD r) + 1) % ringEntries s.dev r
    (ringReady s.dev r = false → exec (.injectFrame n raw bytes dt) s = .next s)
    ∧ (ringReady s.dev r = true → desc.bad = true →
      ∃ e, exec (.injectFrame n raw bytes dt) s = .next { s with dev := e } ∧ e.get (DMA_RING_STATUS.DESC_ERR r) = 1 ∧ head e
        ∧ e.slices = s.dev.slices ∧ e.frames = s.dev.frames)
    ∧ (∀ (got : BpmGot) (d : Dev), ringReady s.dev r = true → desc.bad = false → bpmAlloc (fetchDesc s.dev r) 3 desc.len = (got, d) →
      (got.result ≠ 0 → exec (.injectFrame n raw bytes dt) s = .next { s with dev := d })
      ∧ (got.result = 0 → ∃ e f, exec (.injectFrame n raw bytes dt) s = .next { s with dev := e } ∧ head e
          ∧ e.frame d.nextFid = some f ∧ f.bytes = bytesAt bytes 0 desc.len ∧ f.inPort = desc.port % 1024
          ∧ (desc.pipeline = true → (e.sl sl).staging = (d.sl sl).staging ++ [{ fid := d.nextFid, inPort := desc.port % 1024 }]
              ∧ (e.sl sl).toAdmit = (d.sl sl).toAdmit)
          ∧ (desc.pipeline = false → (e.sl sl).staging = (d.sl sl).staging ∧ ∃ c, c ∈ (e.sl sl).toAdmit ∧ c.port = desc.port % 1024
              ∧ c.q = desc.queue % 8 ∧ c.pkt.fid = d.nextFid ∧ c.pkt.stamped = true ∧ c.pkt.bankB = s.banks.activeB))))

/-- R87-R91, R101. -/
def Obligations.OutOfBand : Prop :=
  ∀ (addr : BitVec 7) (off v : Word) (dt : Nat) (s : State), s.held = false →
    let a := off.toNat
    let pec := s.dev.flag HIF_OOB_CTL.PEC_EN
    let goes (w : Bool) (x : Word) : Prop := mustWait s.dev s.dev.heldAcc ⟨.oob, w, 0, a, .dword, x⟩ = false
    let refused (c : Instr) (k : Nat) (w : Bool) (at_ : OobByte) : Prop := ∃ e, exec c s = .next { s with dev := e }
      ∧ Dev.busErrorLogged .oob k 0 a w s.dev e ∧ e.out.getLast? = some (.oob (some at_) [])
      ∧ Dev.regsOnly busErrorRegs { s.dev with reports := e.reports } e
    (addr.toNat ≠ 0x58 + s.dev.get HIF_OOB_CTL.STRAP →
      (∀ late more, exec (.oobRead32 addr off late more) s = .next s) ∧ (∀ p, exec (.oobWrite32 addr off v p dt) s = .next s)
      ∧ ∀ cmd, exec (.oobBadCommand addr cmd) s = .next s)
    ∧ (addr.toNat = 0x58 + s.dev.get HIF_OOB_CTL.STRAP →
      (∀ h, a % 4 = 0 → checkAccess s.banks s.dev .oob a false 0 = .ok h →
        (goes false 0 → ∀ more : Bool, ∃ e, exec (.oobRead32 addr off false more) s = .next { s with dev := e }
          ∧ (more = false ∨ pec = true → e.out.getLast? = some (.oob none (oobData s.dev a (regValue s.grid s.banks s.dev h a))))
          ∧ (more = true → pec = false → e.out.getLast? = some (.oob none [0xFF])))
        ∧ ∀ more, refused (.oobRead32 addr off true more) beTimeout false .addrR)
      ∧ (∀ late more, a % 4 ≠ 0 → refused (.oobRead32 addr off late more) beAlign false .a3)
      ∧ (∀ late more k, a % 4 = 0 → checkAccess s.banks s.dev .oob a false 0 = .error k → refused (.oobRead32 addr off late more) k false .a3)
      ∧ (∀ h, a % 4 = 0 → checkAccess s.banks s.dev .oob a true v = .ok h → goes true v →
          mbxBase h.loc a = none → pwDomain h a = none → h.row.isAck = false → h.loc.kind ∈ [BKind.id, .time, .prs, .dep, .eq, .cth] →
        ∀ d, d = (s.dev.setWord a (merged s.dev h a v)).emit (.oob none []) →
          (pec = false → exec (.oobWrite32 addr off v none dt) s = .next { s with dev := d }
            ∧ ∀ p, exec (.oobWrite32 addr off v (some p) dt) s = .next { s with dev := d.emit (.oob (some .extra) []) })
          ∧ (pec = true → exec (.oobWrite32 addr off v (some (oobWritePec s.dev a v)) dt) s = .next { s with dev := d }))
      ∧ (∀ k, (a % 4 ≠ 0 ∧ k = beAlign) ∨ (a % 4 = 0 ∧ checkAccess s.banks s.dev .oob a true v = .error k) →
          (pec = false → refused (.oobWrite32 addr off v none dt) k true .d3)
          ∧ (pec = true → refused (.oobWrite32 addr off v (some (oobWritePec s.dev a v)) dt) k true .pec))
      ∧ (pec = true → exec (.oobWrite32 addr off v none dt) s = .next s
        ∧ ∀ p, p ≠ oobWritePec s.dev a v → ∃ e, exec (.oobWrite32 addr off v (some p) dt) s = .next { s with dev := e }
          ∧ e.out.getLast? = some (.oob (some .pec) [])
          ∧ e.get HIF_OOB_STAT.BAD_PEC = (s.dev.get HIF_OOB_STAT.BAD_PEC + 1) % 2 ^ 16 ∧ Dev.regsOnly [HIF_OOB_STAT.word.addr] s.dev e)
      ∧ (∀ cmd : Byte, (cmd = 1 ∨ cmd = 2 → exec (.oobBadCommand addr cmd) s = .next s)
        ∧ (cmd ≠ 1 → cmd ≠ 2 → ∃ e, exec (.oobBadCommand addr cmd) s = .next { s with dev := e }
          ∧ e.out.getLast? = some (.oob (some .command) [])
          ∧ e.get HIF_OOB_STAT.BAD_CMD = (s.dev.get HIF_OOB_STAT.BAD_CMD + 1) % 2 ^ 16 ∧ Dev.regsOnly [HIF_OOB_STAT.word.addr] s.dev e)))
    ∧ exec .oobStopEarly s = .next s ∧ exec .oobSclTimeout s = .next s


/-! ### Lanes and links (chapters 05 and 06) -/

/-- R158-R166: the states before lock. -/
def Obligations.LaneBringUp : Prop :=
  (∀ (p : Fin 1024) (s : State), s.held = false →
    let may : Prop := isPort s.dev p = true ∧ laneState s.dev p = 0 ∧ s.dev.flag (LN_CTL.ADMIN_UP p) = true ∧ lanesMayRun s.dev = true
      ∧ refclkOk s.dev p = true ∧ ∀ l ∈ portLanes s.dev p, s.dev.flag (LN_CTL.TEST_MODE l) = false ∧ laneState s.dev l ≠ 6
    (may → ∃ e, exec (.laneDetectStart p) s = .next { s with dev := e }
      ∧ (∀ l ∈ portLanes s.dev p, laneState e l = 1 ∧ e.get (LN_STATE.POWERED l) = 1)
      ∧ e.get (LN_CNT_DETECT p) = (s.dev.get (LN_CNT_DETECT p) + 1) % 2 ^ 32)
    ∧ (¬ may → exec (.laneDetectStart p) s = .next s))
  ∧ (∀ (l : Fin 1024) (p : Nat) (s : State), s.held = false → portOf s.dev l = some p →
    (laneState s.dev l = 1 → exec (.signalDetected l) s = .next { s with dev := tryTrain s.grid (s.dev.lane l fun h => { h with sig := true }) p })
    ∧ (laneState s.dev l ≠ 1 → exec (.signalDetected l) s = .next s)
    ∧ (laneState s.dev l = 1 → s.dev.flag (LN_CTL.FETS_EN l) = true → ∀ b, exec (.terminationSense l b) s
        = .next { s with dev := tryTrain s.grid (s.dev.lane l fun h => { h with term := b }) p })
    ∧ (laneState s.dev l ≠ 1 ∨ s.dev.flag (LN_CTL.FETS_EN l) = false → ∀ b, exec (.terminationSense l b) s = .next s)
    ∧ (isPort s.dev l = true → laneState s.dev l = 1 → s.dev.flag (LN_CTL.AN_EN l) = true →
      (∀ r : AnResult, r.lanes = (laneMode s.dev l).lanes → r.rate.val = (laneMode s.dev l).rate → exec (.anComplete l r) s
        = .next { s with dev := tryTrain s.grid (s.dev.lane l fun h => { h with anDone := true, anFec := some r.fec.val }) l })
      ∧ (∀ r : AnResult, r.lanes ≠ (laneMode s.dev l).lanes ∨ r.rate.val ≠ (laneMode s.dev l).rate → exec (.anComplete l r) s = .next s)
      ∧ ((laneHid s.dev l).anDone = false → ∃ e, exec (.anRestart l) s = .next { s with dev := e }
          ∧ e.get (LN_CNT_AN_RESTART l) = (s.dev.get (LN_CNT_AN_RESTART l) + 1) % 2 ^ 32 ∧ (laneHid e l).anFec = none
          ∧ e.out.getLast? = some (.autoneg l (laneMode s.dev l).lanes (laneMode s.dev l).rate (fecAbilities (octModeOf s.dev l)))
          ∧ Dev.regsOnly [(LN_CNT_AN_RESTART l).addr] { s.dev with lanes := e.lanes } e))
    ∧ (isPort s.dev l = false ∨ laneState s.dev l ≠ 1 ∨ s.dev.flag (LN_CTL.AN_EN l) = false →
      (∀ r, exec (.anComplete l r) s = .next s) ∧ exec (.anRestart l) s = .next s)
    ∧ ((laneHid s.dev l).anDone = true → exec (.anRestart l) s = .next s))
  ∧ (∀ (g : Grid) (d : Dev) (p : Nat), p < 1024 → laneState d p = 1 →
    let met : Prop := (∀ l ∈ portLanes d p, (laneHid d l).sig = true ∧ (d.flag (LN_CTL.FETS_EN l) = true → (laneHid d l).term = true))
      ∧ (d.flag (LN_CTL.AN_EN p) = true → (laneHid d p).anDone = true)
    (met → ∃ e, tryTrain g d p = flushPort g e p drLinkDown ∧ ∀ l ∈ portLanes d p, laneState e l = 2 ∨ laneState d l = 6)
    ∧ (¬ met → tryTrain g d p = d))
  ∧ (∀ (l : Fin 1024) (p : Nat) (b tx rx : Bool) (loss : BitVec 8) (s : State), s.held = false → portOf s.dev l = some p →
    laneState s.dev l = 2 → laneState s.dev p = 2 →
    let train : Prop := s.dev.flag (LN_CTL.TRAIN_EN p) = true
    let all : Prop := (∀ k ∈ portLanes s.dev p, k ≠ l.val → (laneHid s.dev k).ready = true ∧ (train → (laneHid s.dev k).partnerReady = true))
      ∧ (train → b = true ∨ (laneHid s.dev l).partnerReady = true)
    ∃ e, exec (.receiverReady l b tx rx loss) s = .next { s with dev := e } ∧ e.get (LN_LOSS.LOSS l) = loss.toNat
      ∧ (train → e.get (LN_STATE.PRECODE_TX l) = (if tx then 1 else 0)) ∧ (¬ train → e.get (LN_STATE.PRECODE_TX l) = 0)
      ∧ (all → ∀ k ∈ portLanes s.dev p, laneState e k = 3 ∨ laneState s.dev k = 6)
      ∧ (¬ all → (∀ k, laneState e k = laneState s.dev k) ∧ (laneHid e l).ready = true))
  ∧ (∀ (l : Fin 1024) (p : Nat) (c : Instr) (s : State), s.held = false → portOf s.dev l = some p →
    c = .trainTimeout l ∨ c = .trainSignalLost l →
    (laneState s.dev l = 2 → ∃ e, exec c s = .next { s with dev := e } ∧ laneState e l = 1
      ∧ e.get (LN_CNT_TRAIN_FAIL l) = (s.dev.get (LN_CNT_TRAIN_FAIL l) + 1) % 2 ^ 32
      ∧ e.get (LN_STATUS.TRAIN_FAIL l) = 1 ∧ ∀ k ∈ portLanes s.dev p, laneState e k = 1 ∨ laneState s.dev k = 6)
    ∧ (laneState s.dev l ≠ 2 → exec c s = .next s))
  ∧ (∀ (l : Fin 1024) (b tx rx : Bool) (loss : BitVec 8) (r : AnResult) (s : State),
    (portOf s.dev l = none ∨ laneState s.dev l ≠ 2 → exec (.receiverReady l b tx rx loss) s = .next s)
    ∧ (portOf s.dev l = none → ∀ c ∈ [Instr.signalDetected l, .terminationSense l b, .trainTimeout l, .trainSignalLost l, .anComplete l r,
        .anRestart l], exec c s = .next s))

/-- R159, R167-R172, R182. -/
def Obligations.LaneLockAndSurvey : Prop :=
  (∀ (p : Fin 1024) (skew : Nat) (s : State), s.held = false →
    let locks : Prop := isPort s.dev p = true ∧ laneState s.dev p = 3 ∧ skew ≤ 40 ∧ (laneHid s.dev p).lostIn ≠ 5
    let back : Prop := isPort s.dev p = true ∧ laneState s.dev p = 3 ∧ (laneHid s.dev p).lostIn = 5 ∧ s.dev.flag (LN_CTL.RELOCK_EN p) = true
    let relocks (e : Dev) : Prop := e.get (LN_CNT_RELOCK (laneHid s.dev p).lostLane)
      = (s.dev.get (LN_CNT_RELOCK (laneHid s.dev p).lostLane) + 1) % 2 ^ 32
    (locks → ∃ e, exec (.lockHeld p skew) s = .next { s with dev := e } ∧ e.get (PT_LINK.FEC_ALIGN p) = 1
      ∧ e.get (PT_LINK.SKEW p) = (if (laneMode s.dev p).lanes = 1 then 0 else skew)
      ∧ ((laneHid s.dev p).lostIn = 4 → laneState e p = 4 ∧ relocks e)
      ∧ ((laneHid s.dev p).lostIn ≠ 4 → s.dev.flag (LN_CTL.SURVEY_EN p) = true → laneState e p = 4)
      ∧ ((laneHid s.dev p).lostIn ≠ 4 → s.dev.flag (LN_CTL.SURVEY_EN p) = false → laneState e p = 5))
    ∧ (¬ locks → exec (.lockHeld p skew) s = .next s)
    ∧ (back → ∃ e, exec (.relock p) s = .next { s with dev := e } ∧ laneState e p = 5 ∧ e.get (PT_LINK.FEC_ALIGN p) = 1 ∧ relocks e)
    ∧ (¬ back → exec (.relock p) s = .next s))
  ∧ (∀ (p : Fin 1024) (s : State), s.held = false →
    (isPort s.dev p = true → laneState s.dev p = 4 →
      (∃ e, exec (.exchTimeout p) s = .next { s with dev := e } ∧ laneState e p = 5
        ∧ e.get (LN_CNT_EXCH_TO p) = (s.dev.get (LN_CNT_EXCH_TO p) + 1) % 2 ^ 32
        ∧ e.get (LN_SURVEY_STATE.KIND p) = (if (laneHid s.dev p).rxAck0 then 2 else 0))
      ∧ (s.dev.get (PT_LINK.STATE p) = 2 → exec (.surveyTx p) s = .next s)
      ∧ (s.dev.get (PT_LINK.STATE p) ≠ 2 → s.dev.flag (PT_CFG.LOOP p) = false →
          ∃ e, exec (.surveyTx p) s = .next { s with dev := e } ∧ laneState e p = 4
            ∧ e.out.getLast? = some (.tx p (withFcs (surveyFrame s.grid s.dev p)) false))
      ∧ (∀ frame, s.dev.sliceUp (p.val / 32) = true → s.dev.flag (PT_CFG.LOOP p) = false → halfRx s.dev p = none →
          60 ≤ frame.length → frame.length + 4 ≤ portMtu s.dev p → beNat ((frame.drop 12).take 2) = 0x88CC →
        (∀ b, findSurvey frame.length (frame.drop 14) = some b →
          ∃ e, exec (.surveyRx p frame) s = .next { s with dev := e }
            ∧ e.get (LN_SURVEY_PEER.PORT p) = beNat ((b.drop 18).take 2) ∧ e.get (LN_SURVEY_STATE.VERSION p) = beNat ((b.drop 4).take 1)
            ∧ e.wget (wkey (mbxLn p) 1) = beNat ((b.drop 10).take 8))
        ∧ (findSurvey frame.length (frame.drop 14) = none →
          ∃ e, exec (.surveyRx p frame) s = .next { s with dev := e } ∧ e.lanes = s.dev.lanes ∧ e.wide = s.dev.wide
            ∧ (∀ l, laneState e l = laneState s.dev l)
            ∧ ∀ a ∈ [(LN_SURVEY_STATE.word p).addr, (LN_SURVEY_PEER.word p).addr, (LN_SURVEY_PEER2.word p).addr], e.word a = s.dev.word a)))
    ∧ (isPort s.dev p = false ∨ laneState s.dev p ≠ 4 → exec (.exchTimeout p) s = .next s ∧ exec (.surveyTx p) s = .next s)
    ∧ (receives s.dev p = false → ∀ frame, exec (.surveyRx p frame) s = .next s))
  ∧ (∀ (l : Fin 1024) (s : State), s.held = false →
    (∀ p, portOf s.dev l = some p → laneState s.dev l = 3 →
      ∃ e, exec (.lockTimeout l) s = .next { s with dev := flushPort s.grid e p drLinkDown } ∧ laneState e l = 2
        ∧ e.get (LN_CNT_LOCK_FAIL l) = (s.dev.get (LN_CNT_LOCK_FAIL l) + 1) % 2 ^ 32)
    ∧ (portOf s.dev l = none ∨ laneState s.dev l ≠ 3 → exec (.lockTimeout l) s = .next s))

/-- R159, R181-R183, R205-R207. -/
def Obligations.LaneFaults : Prop :=
  (∀ (l : Fin 1024) (s : State), s.held = false →
    (∀ p, portOf s.dev l = some p → laneState s.dev l = 4 ∨ laneState s.dev l = 5 →
      let lost (e : Dev) : Prop := e.get (LN_CNT_LOL l) = (s.dev.get (LN_CNT_LOL l) + 1) % 2 ^ 32 ∧ e.get (PT_LINK.LIVE p) = 0
        ∧ Dev.reported [(srcLane l, 0)] s.dev e
      (s.dev.flag (LN_CTL.RELOCK_EN p) = true → ∃ e, exec (.lossOfLock l) s = .next { s with dev := e } ∧ laneState e l = 3 ∧ lost e
        ∧ (laneHid e p).lostIn = laneState s.dev l)
      ∧ (s.dev.flag (LN_CTL.RELOCK_EN p) = false → ∃ e, exec (.lossOfLock l) s = .next { s with dev := flushPort s.grid e p drLinkDown }
        ∧ laneState e l = 2 ∧ lost e ∧ e.get (LN_CNT_LOCK_FAIL l) = (s.dev.get (LN_CNT_LOCK_FAIL l) + 1) % 2 ^ 32))
    ∧ (portOf s.dev l = none ∨ (laneState s.dev l ≠ 4 ∧ laneState s.dev l ≠ 5) → exec (.lossOfLock l) s = .next s))
  ∧ (∀ (p : Fin 1024) (s : State), s.held = false → isPort s.dev p = true →
    let answers (e : Dev) : Prop := laneState e p = laneState s.dev p ∧ e.out.getLast? = some (.ordered p (faultSignal e p))
    (laneState s.dev p = 4 ∨ laneState s.dev p = 5 →
      (s.dev.flag (PT_LINK.FEC_ALIGN p) = true → ∃ e, exec (.fecAlignLoss p) s = .next { s with dev := e }
          ∧ e.get (PT_LINK.FEC_ALIGN p) = 0 ∧ Dev.reported [(srcOctet p, 0)] s.dev e ∧ answers e ∧ faultSignal e p = .remoteFault)
      ∧ (s.dev.flag (PT_LINK.FEC_ALIGN p) = false → exec (.fecAlignLoss p) s = .next s)
      ∧ (∃ e, exec (.fecAlignRegained p) s = .next { s with dev := e } ∧ e.get (PT_LINK.FEC_ALIGN p) = 1 ∧ answers e)
      ∧ (∃ e, exec (.faultOrderedSetRx p true) s = .next { s with dev := e } ∧ e.get (PT_LINK.RF p) = 1 ∧ answers e
          ∧ (s.dev.flag (PT_LINK.FEC_ALIGN p) = true → s.dev.flag (PT_LINK.LF p) = false → faultSignal e p = .idle))
      ∧ ∃ e, exec (.faultOrderedSetRx p false) s = .next { s with dev := e } ∧ e.get (PT_LINK.LF p) = 1 ∧ answers e
          ∧ faultSignal e p = .remoteFault)
    ∧ (laneState s.dev p ≠ 4 → laneState s.dev p ≠ 5 → ∀ c ∈ [Instr.fecAlignLoss p, .fecAlignRegained p, .faultOrderedSetRx p true,
        .faultOrderedSetRx p false], exec c s = .next s)
    ∧ (s.dev.flag (PT_LINK.LF p) = true ∨ s.dev.flag (PT_LINK.RF p) = true →
        ∃ e, exec (.linkFaultCleared p) s = .next { s with dev := e }
          ∧ e.get (PT_LINK.LF p) = 0 ∧ e.get (PT_LINK.RF p) = 0 ∧ answers e)
    ∧ (s.dev.flag (PT_LINK.LF p) = false → s.dev.flag (PT_LINK.RF p) = false → exec (.linkFaultCleared p) s = .next s))
  ∧ (∀ (p : Fin 1024) (s : State), isPort s.dev p = false → ∀ c ∈ [Instr.fecAlignLoss p, .fecAlignRegained p, .faultOrderedSetRx p true,
      .faultOrderedSetRx p false, .linkFaultCleared p], exec c s = .next s)
  ∧ (∀ (l : Fin 1024) (p : Nat) (s : State), s.held = false → portOf s.dev l = some p →
    (∀ c : Instr, c = .retrain l ∨ c = .partnerRetrain l →
      (laneState s.dev p = 5 → ∃ e, exec c s = .next { s with dev := flushPort s.grid e p drLinkDown } ∧ laneState e p = 2
        ∧ e.get (LN_CNT_RETRAIN l) = (s.dev.get (LN_CNT_RETRAIN l) + 1) % 2 ^ 32)
      ∧ (laneState s.dev p ≠ 5 → exec c s = .next s))
    ∧ ∃ e, exec (.laneReset l) s = .next { s with dev := flushPort s.grid e p drLinkDown } ∧ e.get (PT_LINK.LIVE p) = 0
        ∧ ∀ k ∈ portLanes s.dev p, laneState e k = 0 ∨ laneState s.dev k = 6)
  ∧ (∀ (l : Fin 1024) (s : State), s.held = false → portOf s.dev l = none →
    exec (.retrain l) s = .next s ∧ exec (.partnerRetrain l) s = .next s
    ∧ ∃ e, exec (.laneReset l) s = .next { s with dev := e } ∧ (laneState e l = 0 ∨ laneState s.dev l = 6))
  ∧ (∀ (die : Fin 16) (s : State), s.held = false →
    (die.val ∉ s.dev.pins.refclkLost →
      (∃ e, exec (.refclkLoss die) s = .next { s with dev := e } ∧ e.pins.refclkLost = die.val :: s.dev.pins.refclkLost
        ∧ ∀ l, 64 * die.val ≤ l → l < 64 * die.val + 64 → laneState e l = 0 ∨ laneState s.dev l = 6)
      ∧ exec (.refclkReturn die) s = .next s)
    ∧ (die.val ∈ s.dev.pins.refclkLost → exec (.refclkLoss die) s = .next s
      ∧ ∃ e, exec (.refclkReturn die) s = .next { s with dev := e } ∧ die.val ∉ e.pins.refclkLost
        ∧ ∀ p, 64 * die.val ≤ p → p < 64 * die.val + 64 → isPort s.dev p = true → laneState s.dev p = 0 →
            s.dev.flag (LN_CTL.ADMIN_UP p) = true → lanesMayRun s.dev = true →
            (∀ l ∈ portLanes s.dev p, s.dev.flag (LN_CTL.TEST_MODE l) = false ∧ laneState s.dev l ≠ 6) → laneState e p = 1))

/-- R159, R174-R189, R208. -/
def Obligations.LaneMeasures : Prop :=
  ∀ (l : Fin 1024) (s : State), s.held = false →
    let st := laneState s.dev l
    (st = 0 → s.dev.flag (LN_CTL.TEST_MODE l) = true →
      ∃ e, exec (.enterTest l) s = .next { s with dev := e } ∧ laneState e l = 6 ∧ e.get (LN_STATE.POWERED l) = 1
        ∧ (laneHid e l).gen = generatorSends e l
        ∧ Dev.regsOnly [(LN_STATE.word l).addr, (LN_PRBS_STAT.word l).addr, (LN_CNT_FREEZE l).addr] { s.dev with lanes := e.lanes } e)
    ∧ (st ≠ 0 ∨ s.dev.flag (LN_CTL.TEST_MODE l) = false → exec (.enterTest l) s = .next s)
    ∧ (st = 6 → s.dev.flag (LN_CTL.TEST_MODE l) = false →
      ∃ e, exec (.leaveTest l) s = .next { s with dev := e } ∧ laneState e l = 0 ∧ e.get (LN_STATUS.DOWN l) = 1
        ∧ e.get (LN_PRBS_STAT.CHK_RUN l) = 0 ∧ (laneHid e l).gen = none ∧ e.get (LN_EYE_STAT.RUNNING l) = 0
        ∧ Dev.regsOnly [(LN_STATE.word l).addr, (LN_STATUS.word l).addr, (LN_PRBS_STAT.word l).addr, (LN_EYE_STAT.word l).addr,
            (LN_CNT_FREEZE l).addr] { s.dev with lanes := e.lanes } e)
    ∧ (st ≠ 6 ∨ s.dev.flag (LN_CTL.TEST_MODE l) = true → exec (.leaveTest l) s = .next s)
    ∧ (s.dev.flag (LN_EYE_STAT.RUNNING l) = false → 3 ≤ st →
      ∃ e, exec (.eyeStart l) s = .next { s with dev := e } ∧ e.get (LN_EYE_STAT.RUNNING l) = 1 ∧ e.get (LN_EYE_STAT.VALID l) = 0
        ∧ laneState e l = st ∧ (∀ x ∈ e.eye, x.1 / 4096 ≠ l.val) ∧ (laneHid e l).scanAt = s.dev.ticks
        ∧ Dev.regsOnly [(LN_EYE_STAT.word l).addr, (LN_STATE.word l).addr, (LN_CNT_FREEZE l).addr]
            { s.dev with lanes := e.lanes, eye := e.eye, free := s.dev.free + 4096 } e)
    ∧ (s.dev.flag (LN_EYE_STAT.RUNNING l) = true ∨ st < 3 →
      exec (.eyeStart l) s = .next { s with dev := s.dev.event (LN_STATUS.CMD_IGNORED l) })
    ∧ (s.dev.flag (LN_EYE_STAT.RUNNING l) = true → ∀ pts,
      ∃ e, exec (.eyeScanDone l pts) s = .next { s with dev := e } ∧ e.get (LN_EYE_STAT.RUNNING l) = 0
        ∧ e.get (LN_EYE_STAT.VALID l) = 1 ∧ e.get (LN_EYE_STAT.POINTS l) = 4096 ∧ Dev.raised (LN_STATUS.SCAN_DONE l) s.dev e
        ∧ (∀ i v, i < 4096 → pts[i]? = some v → e.eye.get 0 (l.val * 4096 + i) = v)
        ∧ Dev.regsOnly [(LN_EYE_STAT.word l).addr, (LN_STATE.word l).addr, (LN_STATUS.word l).addr, (LN_CNT_FREEZE l).addr]
            { s.dev with lanes := e.lanes, eye := e.eye } e)
    ∧ (s.dev.flag (LN_EYE_STAT.RUNNING l) = false → ∀ pts, exec (.eyeScanDone l pts) s = .next s)
    ∧ (st = 6 → s.dev.flag (LN_CTL.MANUAL_ALIGN l) = true →
      ∃ e, exec (.bitslip l) s = .next { s with dev := e } ∧ Dev.regsOnly [(LN_PRBS_STAT.word l).addr] s.dev e
        ∧ e.get (LN_PRBS_STAT.SLIP_POS l)
          = (s.dev.get (LN_PRBS_STAT.SLIP_POS l) + 1) % (if s.dev.get (LN_STATE.RATE l) = 0 then 128 else 64))
    ∧ (st ≠ 6 ∨ s.dev.flag (LN_CTL.MANUAL_ALIGN l) = false →
      exec (.bitslip l) s = .next { s with dev := s.dev.event (LN_STATUS.CMD_IGNORED l) })
    ∧ exec (.chkClear l) s = .next { s with dev := s.dev.setWord (LN_PRBS_ERR.word l).addr 0 }
    ∧ (let selfAligns : Prop := st = 6 ∧ s.dev.flag (LN_CTL.MANUAL_ALIGN l) = false ∧ s.dev.flag (LN_PRBS_STAT.CHK_RUN l) = true
          ∧ s.dev.get (LN_TEST_CTL.RX_PAT l) < 9
      (selfAligns → exec (.checkerSelfAligned l) s = .next { s with dev := s.dev.put (LN_PRBS_STAT.SYNC l) 1 })
      ∧ (¬ selfAligns → exec (.checkerSelfAligned l) s = .next s))
    ∧ (∀ w : LaneWindow, (st < 2 → exec (.fomWindow l w) s = .next s)
      ∧ (2 ≤ st → ∃ e, exec (.fomWindow l w) s = .next { s with dev := e } ∧ e.get (LN_FOM.FOM l) = min 255 (4 * w.snrQ / 64)
          ∧ e.get (LN_FOM.TD l) = w.td.toNat ∧ laneState e l = st
          ∧ (st = 4 ∨ st = 5 → (w.td.toNat < s.dev.get (LN_FOM_CFG.TD_MIN l) → e.get (LN_STATE.FREEZE l) % 2 = 1)
              ∧ (s.dev.get (LN_FOM_CFG.TD_MIN l) + 4 ≤ w.td.toNat → e.get (LN_STATE.FREEZE l) % 2 = 0))
          ∧ (st = 6 → s.dev.flag (LN_PRBS_STAT.CHK_RUN l) = true →
              (e.word (LN_PRBS_ERR.word l).addr).toNat = min ((s.dev.word (LN_PRBS_ERR.word l).addr).toNat + w.errs) (2 ^ 32 - 1))
          ∧ Dev.regsOnly [(LN_FOM.word l).addr, (LN_STATE.word l).addr, (LN_CNT_FREEZE l).addr, (LN_PRBS_ERR.word l).addr]
              { s.dev with lanes := e.lanes, ctr := e.ctr } e))
    ∧ (let rebases : Prop := (st = 4 ∨ st = 5) ∧ s.dev.get (LN_STATE.FREEZE l) = 2
          ∧ s.dev.get (LN_FOM_CFG.FLOOR l) ≤ s.dev.get (LN_FOM.FOM l)
      (rebases → ∃ e, exec (.fomRebase l) s = .next { s with dev := e } ∧ e.get (LN_FOM.LOCK_FOM l) = s.dev.get (LN_FOM.FOM l)
        ∧ e.get (LN_STATE.FREEZE l) = 0 ∧ e.get (LN_CNT_REBASE l) = (s.dev.get (LN_CNT_REBASE l) + 1) % 2 ^ 32
        ∧ Dev.regsOnly [(LN_FOM.word l).addr, (LN_STATE.word l).addr, (LN_CNT_REBASE l).addr] { s.dev with lanes := e.lanes } e)
      ∧ (¬ rebases → exec (.fomRebase l) s = .next s))
    ∧ (let asks : Prop := 2 ≤ st ∧ st ≤ 5 ∧ s.dev.get (LN_FOM.FOM l) < s.dev.get (LN_FOM_CFG.FLOOR l)
      let auto (p : Nat) : Prop := portOf s.dev l = some p ∧ s.dev.flag (LN_CTL.AUTO_RETRAIN p) = true
      (asks → (∀ p, ¬ auto p) → exec (.retrainReq l) s = .next { s with dev := s.dev.event (LN_STATUS.RETRAIN_REQ l) })
      ∧ (asks → ∀ p, auto p → exec (.retrainReq l) s
          = .next { s with dev := retrainPort s.grid (s.dev.event (LN_STATUS.RETRAIN_REQ l)) p l })
      ∧ (¬ asks → exec (.retrainReq l) s = .next s))
    ∧ (let goesLive : Prop := isPort s.dev l = true ∧ s.dev.get (PT_LINK.STATE l) = 1 ∧ s.dev.flag (PT_CFG.DRAIN l) = false
          ∧ s.dev.sliceUp (l.val / 32) = true
      (goesLive → exec (.liveSet l) s = .next { s with dev := s.dev.put (PT_LINK.LIVE l) 1 })
      ∧ (¬ goesLive → exec (.liveSet l) s = .next s))


/-! ### Ports and the packet path (chapters 06-08, 12, 13) -/

/-- R195, R204, R211-R215. -/
def Obligations.PortsAndPause : Prop :=
  (∀ (sl : Fin 32) (k : Fin 4) (mode : Fin 16) (m : Nat) (s : State), s.held = false → m = (if mode.val = 15 then 0 else mode.val) →
    ∃ e, exec (.octetModeChange sl k mode) s = .next { s with dev := e } ∧ e.get (PT_OCT_MODE.MODE sl k) = m
      ∧ (octModeOf s.dev (sl * 32 + k * 8) = m → Dev.regsOnly [(PT_OCT_MODE.word sl k).addr] s.dev e)
      ∧ (octModeOf s.dev (sl * 32 + k * 8) ≠ m → ∀ l ∈ octetLanes sl k,
          e.word (PT_LINK.word l).addr = 0 ∧ e.get (LN_STATE.RATE l) = (modeRow m).rate))
  ∧ (∀ (sl : Fin 32) (p : Nat) (s : State), s.held = false → p = sl.val * 32 + s.dev.get (PT_CMD_PORT.LANE sl) →
    (isPort s.dev p = true → ∃ e, exec (.clearStats sl) s = .next { s with dev := { s.dev with ctr := e } } ∧ ∀ a,
      ((∃ k < 44, a = ptCtr p k) → e.get 0 a = 0) ∧ ((∀ k < 44, a ≠ ptCtr p k) → e.get 0 a = s.dev.ctr.get 0 a))
    ∧ (isPort s.dev p = false → exec (.clearStats sl) s = .next s))
  ∧ (∀ (p : Fin 1024) (op : BitVec 16) (vec : BitVec 8) (qs : List (BitVec 16)) (dt now : Nat) (s : State), s.held = false →
    now = s.grid.nowQ dt →
    let paused (e : Dev) (i : Nat) : Option (Nat × Nat × Nat) := (e.po p).pausedUntil.find? fun x => decide (x.1 = i)
    (receives s.dev p = false → exec (.macControlRx p op vec qs dt) s = .next s)
    ∧ (receives s.dev p = true → s.dev.sliceUp (p.val / 32) = false → ∃ e, exec (.macControlRx p op vec qs dt) s
        = .next { s with dev := { s.dev with ports := e } } ∧ (e.get {} p.val).heldDiscard = (s.dev.po p).heldDiscard + 1)
    ∧ (receives s.dev p = true → s.dev.sliceUp (p.val / 32) = true → s.dev.flag (PT_CFG.LOOP p) = false → halfRx s.dev p = none →
        rxBarred s.dev p false ≠ some drLinkDown → (s.dev.po p).wdLifted = [] →
      ∃ e, exec (.macControlRx p op vec qs dt) s = .next { s with dev := e } ∧ e.regs = s.dev.regs
        ∧ (op = 1 → fcMode s.dev p = 1 → ∀ q r, qs = q :: r → ∀ i < 8,
            (q ≠ 0 → (s.dev.po p).pausedUntil = [] → paused e i = some (i, now, now + quantaQ s.dev p q.toNat))
            ∧ (q = 0 → paused e i = none))
        ∧ (op = 0x0101 → fcMode s.dev p = 2 → qs.length = 8 → ∀ i < 8, ∀ q, qs[i]? = some q →
            ((bit vec.toNat i && bit (s.dev.get (PT_PFC_CFG.RX_MASK p)) i) = true →
              (q ≠ 0 → (s.dev.po p).pausedUntil = [] → paused e i = some (i, now, now + quantaQ s.dev p q.toNat))
              ∧ (q = 0 → paused e i = none))
            ∧ ((bit vec.toNat i && bit (s.dev.get (PT_PFC_CFG.RX_MASK p)) i) = false → paused e i = paused s.dev i))
        ∧ (op ≠ 1 → op ≠ 0x0101 → (e.po p).pausedUntil = (s.dev.po p).pausedUntil
            ∧ e.ctrGet (ptCtr p 10) = (s.dev.ctrGet (ptCtr p 10) + 1) % 2 ^ 64)))
  ∧ (∀ (p : Fin 1024) (prio : Fin 8) (dt : Nat) (s : State), s.held = false →
    (∀ i start stop, (s.dev.po p).pausedUntil.find? (fun x => decide (x.1 = prio.val)) = some (i, start, stop) →
      (stop ≤ s.grid.nowQ dt → ∃ e, exec (.pauseExpire p prio dt) s = .next { s with dev := e } ∧ e.regs = s.dev.regs ∧ e.out = s.dev.out
        ∧ (e.po p).pausedUntil = (s.dev.po p).pausedUntil.filter (fun x => decide (x.1 ≠ prio.val))
        ∧ ∀ a, e.ctrGet a = if a = ptCtr p (36 + prio)
            then (s.dev.ctrGet a + ((s.dev.po p).pausedRem.get 0 prio + (stop - start)) / 4000) % 2 ^ 64 else s.dev.ctrGet a)
      ∧ (s.grid.nowQ dt < stop → exec (.pauseExpire p prio dt) s = .next s))
    ∧ ((s.dev.po p).pausedUntil.find? (fun x => decide (x.1 = prio.val)) = none → exec (.pauseExpire p prio dt) s = .next s))
  ∧ (∀ (p : Fin 1024) (prio : Fin 8) (s : State), s.held = false →
    ((s.dev.po p).xoffSent.contains prio.val = true → lossless s.dev p prio = true →
      exec (.pauseRefresh p prio) s = .next { s with dev := sendPause s.dev p prio (s.dev.get (PT_PAUSE_QUANTA.QUANTA p)) })
    ∧ ((s.dev.po p).xoffSent.contains prio.val = false ∨ lossless s.dev p prio = false → exec (.pauseRefresh p prio) s = .next s)
    ∧ (let bites : Prop := ((s.dev.po p).pausedUntil.any fun x => decide (x.1 = prio.val)) = true
          ∧ (s.dev.po p).wdLifted.contains prio.val = false ∧ s.dev.get (PT_PFC_CFG.WD_MS p) ≠ 0
      (bites → ∃ e, exec (.pfcWatchdog p prio) s = .next { s with dev := e } ∧ Dev.raised (PT_STATUS.PFC_WD p) s.dev e
        ∧ (e.po p).wdLifted = prio.val :: (s.dev.po p).wdLifted ∧ e.ctrGet (ptCtr p 26) = (s.dev.ctrGet (ptCtr p 26) + 1) % 2 ^ 64
        ∧ Dev.regsOnly [(PT_STATUS.word p).addr] { s.dev with ctr := e.ctr, ports := e.ports } e)
      ∧ (¬ bites → exec (.pfcWatchdog p prio) s = .next s))
    ∧ ∃ e, exec (.pfcWatchdogEnd p prio) s = .next { s with dev := { s.dev with ports := e } }
        ∧ (e.get {} p.val).wdLifted = (s.dev.po p).wdLifted.filter (· ≠ prio.val))
  ∧ (∀ (d : Dev) (p prio quanta : Nat) (b : List Byte),
    (fcMode d p = 1 ∧ b = controlFrame d p 1 0 quanta) ∨ (fcMode d p = 2 ∧ b = controlFrame d p 0x0101 (2 ^ prio) quanta) →
    (linkUp d p = false → sendPause d p prio quanta = d)
    ∧ (linkUp d p = true → (d.po p).tx.isNone = true → d.sliceUp (p / 32) = true → d.flag (PT_CFG.LOOP p) = false →
      (sendPause d p prio quanta).out = d.out ++ [.tx p (withFcs b) false])
    ∧ (linkUp d p = true → (d.po p).tx.isNone = false ∨ d.sliceUp (p / 32) = false →
      ((sendPause d p prio quanta).po p).ctlFrames = (d.po p).ctlFrames ++ [b] ∧ (sendPause d p prio quanta).out = d.out))
  ∧ (∀ (d : Dev) (p prio quanta : Nat), fcMode d p ≠ 1 → fcMode d p ≠ 2 → sendPause d p prio quanta = d)

/-- R197, R198, R205, R210, R216, R218. -/
def Obligations.FramesReceived : Prop :=
  ∀ (r : RxFrame) (p n : Nat) (d : Dev) (s : State), s.held = false → d = s.dev → p = r.port.val → n = r.bytes.length →
    let staging (e : Dev) : List Pkt := (e.sl (p / 32)).staging
    let counted (k m : Nat) (e : Dev) : Prop := e.ctrGet (ptCtr p k) = (d.ctrGet (ptCtr p k) + m) % 2 ^ 64
    (r.part ≠ .tail → receives d p = false → exec (.frameRx r) s = .next s)
    ∧ (r.part ≠ .tail → receives d p = true → d.sliceUp (p / 32) = false →
      ∃ e, exec (.frameRx r) s = .next { s with dev := { d with ports := e } } ∧ (e.get {} p).heldDiscard = (d.po p).heldDiscard + 1)
    ∧ (r.part ≠ .tail → receives d p = true → d.sliceUp (p / 32) = true → d.flag (PT_CFG.LOOP p) = false → halfRx d p = none →
      (r.part = .whole → r.fcsOk = true → r.errBlock = false → 64 ≤ n → n ≤ portMtu d p → beNat (bytesAt r.bytes 12 2) ≠ 0x8808 →
        (rxBarred d p r.rateExceeded = none →
          ∃ e, exec (.frameRx r) s = .next { s with dev := e }
            ∧ staging e = staging d ++ [{ fid := d.nextFid, inPort := p }]
            ∧ e.frame d.nextFid = some { inPort := p, bytes := r.bytes, complete := true, rxTs := rxStamp d p (s.grid.nowQ r.dt) }
            ∧ counted 1 1 e ∧ counted 0 n e ∧ e.regs = d.regs ∧ e.out = d.out)
        ∧ (∀ why, rxBarred d p r.rateExceeded = some why → laneState d p ≠ 4 ∨ beNat (bytesAt r.bytes 12 2) ≠ 0x88CC →
          ∃ e, exec (.frameRx r) s = .next { s with dev := e } ∧ staging e = staging d
            ∧ counted 1 1 e ∧ counted (if why = drRateExceeded then 11 else 10) 1 e))
      ∧ (∀ why k, r.part = .whole → rxFault d p n (r.fcsOk && !r.errBlock) = some (why, k) →
        ∃ e, exec (.frameRx r) s = .next { s with dev := e } ∧ staging e = staging d ∧ counted k 1 e ∧ counted 10 1 e ∧ counted 1 0 e)
      ∧ (r.part = .head → rxBarred d p r.rateExceeded = none → isControl r.bytes = false →
        ∃ e, exec (.frameRx r) s = .next { s with dev := e } ∧ staging e = staging d ++ [{ fid := d.nextFid, inPort := p }]
          ∧ e.frame d.nextFid = some { inPort := p, bytes := r.bytes, complete := false, rxTs := rxStamp d p (s.grid.nowQ r.dt)
                                       total := r.total }
          ∧ e.regs = d.regs ∧ e.out = d.out ∧ e.ctr = d.ctr))
    ∧ (r.part = .tail → halfRx d p = none → exec (.frameRx r) s = .next s)
    ∧ (∀ fid f f', r.part = .tail → halfRx d p = some (fid, f) → f.bad = false → receives d p = true → d.sliceUp (p / 32) = true →
        r.fcsOk = true → r.errBlock = false → f.bytes.length + n = f.total → 64 ≤ f.total → f.total ≤ portMtu d p →
        f' = { f with bytes := f.bytes ++ r.bytes, complete := true } →
      ∃ e, exec (.frameRx r) s = .next { s with dev := dropFrame e fid } ∧ staging e = staging d ∧ e.frame fid = some f'
        ∧ counted 1 1 e ∧ counted 0 f.total e ∧ e.regs = d.regs ∧ e.out = d.out)

/-- R16, R48, R223, R229, R237. -/
def Obligations.ParsingBegins : Prop :=
  (∀ (sl : Fin 32) (dt : Nat) (up : Upsets) (s : State), s.held = false →
    (s.dev.sliceUp sl = false ∨ nextParse s.dev sl = none → exec (.parseStart sl dt up) s = .next s)
    ∧ (∀ pk f pk' d' d now, s.dev.sliceUp sl = true → nextParse s.dev sl = some pk → s.dev.frame pk.fid = some f →
        now = s.grid.nowQ dt → stamp s.grid s.banks (countPassed s.dev sl pk) sl now pk = (pk', d') →
        d = spoilEntries d' sl (bankNo pk') up.ttBad →
      (pk.stamped = false → pk'.stamped = true ∧ pk'.bankB = s.banks.activeB ∧ pk'.epoch = epochAt s.grid sl ∧ pk'.entered = now
        ∧ pk'.handle = ((s.dev.sl sl).handle + 1) % 2 ^ 24 ∧ (d.sl sl).handle = pk'.handle)
      ∧ (pk.stamped = true → pk' = pk)
      ∧ (parse d sl (bankNo pk') (parsePort pk') f = none → ∃ e, exec (.parseStart sl dt up) s = .next { s with dev := e }
          ∧ (e.sl sl).staging = (s.dev.sl sl).staging.map (fun y => if y.fid = pk'.fid then pk' else y) ∧ e.queues = s.dev.queues)
      ∧ (∀ p e e', parse d sl (bankNo pk') (parsePort pk') f = some p →
          e = (d.slice sl fun x => { x with staging := (d.sl sl).staging.filter fun y => decide (y.fid ≠ pk'.fid) }) →
          e' = (match p.defer with
            | some q => e.setFrame pk'.fid (some { f with defer := some q })
            | none => e) →
        exec (.parseStart sl dt up) s = .next { s with dev := (
          runIngress s.grid sl (bankNo pk') (parsePort pk') now up f 2 p
            (pk'.act (if pk'.eclass ≠ 0 then pk'.eclass else if pk'.second then 1 else 0) 1)
            (capture (parserCounts e' sl (bankNo pk') up p) sl pk' p f)) })))
  ∧ (∀ (d : Dev) (sl : Nat) (pk : Pkt), nextParse d sl = some pk → pk ∈ (d.sl sl).staging ∧ parseReady d sl pk = true
    ∧ (pk.second = true → (d.sl sl).passedBy < 47 → ∀ a ∈ (d.sl sl).staging, parseReady d sl a = true → a.second = true))
  ∧ (∀ (fid : Nat) (s : State), s.held = false →
    ((∀ f q, s.dev.frame fid = some f → f.defer = some q → f.complete = false) → exec (.lateMalformed fid) s = .next s)
    ∧ (∀ f q d, s.dev.frame fid = some f → f.defer = some q → f.complete = true → d = s.dev.setFrame fid (some { f with defer := none }) →
      (lateFails f q = false → exec (.lateMalformed fid) s = .next { s with dev := dropFrame d fid })
      ∧ (lateFails f q = true → ∃ e, exec (.lateMalformed fid) s = .next { s with dev := e }
          ∧ e = (familyOf d fid).foldl (fun d i => dropFrame (dropFrameCopies s.grid (spoilFrame d i) i drMalformed) i)
              (d.bump (PRS_CNT_LATE_MALF q.slice))
          ∧ ∀ i ∈ familyOf d fid, (∀ n, ∀ c ∈ (e.qu n).pkts, c.pkt.fid ≠ i)
              ∧ (∀ sl, (∀ k ∈ (e.sl sl).staging, k.fid ≠ i) ∧ ∀ c ∈ (e.sl sl).toAdmit, c.pkt.fid ≠ i)
              ∧ ∀ x ∈ e.buf.toRep, x.2.pkt.fid ≠ i)))

/-- R14, R405-R408, R414, R416. -/
def Obligations.AdmissionAndCopies : Prop :=
  (∀ (sl : Fin 32) (dt : Nat) (s : State), s.held = false →
    (nextAdmit s.dev sl = none → exec (.admission sl dt) s = .next s)
    ∧ (∀ c d, nextAdmit s.dev sl = some c →
        d = (s.dev.slice sl fun x => { x with toAdmit := x.toAdmit.filter fun y => decide (y.cid ≠ c.cid) }) →
      (∀ ring code f, c.punt = some (ring, code) → s.dev.frame c.pkt.fid = some f → exec (.admission sl dt) s = .next { s with dev := (
        dropFrame (toPuntRing s.grid d c ring code (copyBytes c f) (sl / 16) sl) c.pkt.fid) })
      ∧ (c.punt = none → exec (.admission sl dt) s = .next { s with dev := admitCopy s.grid d (s.grid.nowQ dt) c })
      ∧ (∀ f n k, c.punt = none → c.q < 7 → s.dev.flag (EQ_QCFG.POL_EN (c.port / 32) (8 * (c.port % 32) + c.q)) = false →
          s.dev.frame c.pkt.fid = some f → n = qid c.port c.q → k = recordCells c.pkt
            + (if f.complete then frameCellsOf (copyBytes c f).length else frameCellsOf (portMtu s.dev c.pkt.inPort)) →
        (∀ acct, admitTest s.dev n k c.pkt.inPort (pfcPrio s.dev c.pkt.inPort c.q) = .ok acct →
          ∃ e, exec (.admission sl dt) s = .next { s with dev := e } ∧ (e.sl sl).toAdmit = (d.sl sl).toAdmit
            ∧ (∃ x, (e.qu n).pkts = (s.dev.qu n).pkts ++ [x] ∧ x.pkt = c.pkt ∧ x.acct = acct ∧ x.cells = k ∧ x.admitT = s.grid.nowQ dt)
            ∧ e.get (BUF_CNT_ADMIT (halfOf c.port)) = (s.dev.get (BUF_CNT_ADMIT (halfOf c.port)) + 1) % 2 ^ 32)
        ∧ (∀ reason, admitTest s.dev n k c.pkt.inPort (pfcPrio s.dev c.pkt.inPort c.q) = .error reason →
          exec (.admission sl dt) s = .next { s with dev := (dropAtAdmission s.grid
            (countAdmitDrop d (qHalf n) c.pkt.inPort (pfcPrio s.dev c.pkt.inPort c.q) reason) c reason) }))))
  ∧ (∀ (d : Dev) (sl : Nat) (c : Copy), nextAdmit d sl = some c → c ∈ (d.sl sl).toAdmit ∧ mayAdmit d sl c = true
    ∧ (c.punt = none → ∀ y ∈ (d.sl sl).toAdmit, y.punt = none → y.port = c.port → y.q = c.q → y.pkt.inPort = c.pkt.inPort → c.ord ≤ y.ord))
  ∧ (∀ (fid : Nat) (s : State), s.held = false →
    ((∀ f, s.dev.frame fid = some f → f.complete = false) → exec (.chargeCorrect fid) s = .next s)
    ∧ (∀ f : Frame, s.dev.frame fid = some f → f.complete = true →
      ∃ e, exec (.chargeCorrect fid) s = .next { s with dev := e } ∧ (∀ n, ∀ c ∈ (e.qu n).pkts, c.pkt.fid = fid → c.early = false)
        ∧ (∀ (n : Nat) (c : Copy), c.pkt.fid = fid → c.early = true →
          s.dev.queues = [(n, { pkts := [c], head := [⟨c.cid, 0, c.cells⟩], shr := c.cells })] → s.dev.ports = [] → s.dev.slices = [] →
          (e.qu n).pkts = [{ c with cells := c.recCells + frameCellsOf (copyBytes c f).length, early := false }])))
  ∧ (∀ (d : Dev) (n k : Nat) (c : Copy), ((correctQueued d n c k).qu n).pkts
    = (d.qu n).pkts.map fun x => if x.cid = c.cid then { x with cells := k, early := false } else x)
  ∧ (∀ (g : Grid) (d : Dev) (h e p o : Nat) (c : Copy), h < 2 → p = bits e 25 16 → o = (if c.ord = 0 then d.nextCid else c.ord) →
    (isPort d p = true → halfOf p = h → ((replicaFor g d h c e).sl c.leaves).toAdmit
      = ((d.sl c.leaves).toAdmit.takeWhile fun y => decide (y.ord ≤ o)) ++ { c with
          cid := d.nextCid, ord := o, port := p, replica := true
          pkt := { c.pkt with vec := c.pkt.vec.put 0 237 (BitVec.ofNat 32 (bits e 15 0)) } }
        :: (d.sl c.leaves).toAdmit.dropWhile fun y => decide (y.ord ≤ o))
    ∧ (isPort d p = false ∨ halfOf p ≠ h → (∀ sl, ((replicaFor g d h c e).sl sl).toAdmit = (d.sl sl).toAdmit)
        ∧ (replicaFor g d h c e).get (BUF_CNT_MC_DROP h) = (d.get (BUF_CNT_MC_DROP h) + 1) % 2 ^ 32))
  ∧ (∀ (h : Fin 2) (s : State), s.held = false →
    let next : Option (Nat × Copy) := s.dev.buf.toRep.find? fun x => decide (x.1 = h.val) && mayReplicate s.dev h x.2
    (next = none → exec (.replicate h) s = .next s)
    ∧ ∀ k c grp, next = some (k, c) → grp = mcGroup s.dev h ((c.pkt.vec.get 0 236).toNat % 65536) →
      ∃ e, exec (.replicate h) s = .next { s with dev := e } ∧ e.buf.toRep = s.dev.buf.toRep.erase (h.val, c)
        ∧ e.get (BUF_CNT_MC_COPIES h) = (s.dev.get (BUF_CNT_MC_COPIES h) + (if bit grp 31 then
            (((List.range (bits grp 28 19)).map fun i => mcEntry s.dev h (bits grp 17 0 + i)).filter fun x =>
              bit x 31 && isPort s.dev (bits x 25 16) && decide (halfOf (bits x 25 16) = h.val)).length else 0)) % 2 ^ 32)

/-- R18, R280, R439, R445, R453. -/
def Obligations.Transmission : Prop :=
  (∀ (p : Fin 1024) (dt now : Nat) (up : Upsets) (s : State), s.held = false → now = s.grid.nowQ dt →
    (canStart s.dev p = false → exec (.schedulerDecision p dt up) s = .next s)
    ∧ (canStart s.dev p = true →
      (chooseQueue (drainControl s.dev p) p now = none → exec (.schedulerDecision p dt up) s = .next { s with dev := drainControl s.dev p })
      ∧ (∀ q d e c f, chooseQueue (drainControl s.dev p) p now = some (q, d) → headCopy d (qid p q) = some c → e = metCell d c up →
          e.frame c.pkt.fid = some f → exec (.schedulerDecision p dt up) s = .next { s with dev := serve s.grid e p q now up c f })
      ∧ (∀ c, headCopy s.dev (qid p 7) = some c → pausedQ s.dev p 7 now = false →
          ((s.dev.po p).credit = none ∨ ∃ k, (s.dev.po p).credit = some k ∧ 0 < k) →
        chooseQueue (drainControl s.dev p) p now = some (7, drainControl s.dev p) ∧ headCopy (drainControl s.dev p) (qid p 7) = some c
        ∧ (∀ f, s.dev.frame c.pkt.fid = some f → c.raw = true → c.lost = false → c.badAt = none → up.badCell = none →
          ∃ e, exec (.schedulerDecision p dt up) s = .next { s with dev := e }
            ∧ (e.qu (qid p 7)).pkts = (s.dev.qu (qid p 7)).pkts.drop 1
            ∧ ∃ t, (e.po p).tx = some t ∧ t.copy = { c with cut := !f.complete } ∧ t.asIs = true ∧ t.start = now))))
  ∧ (∀ (d : Dev) (p now : Nat), ((headCopy d (qid p 7)).isSome && !pausedQ d p 7 now) = false → beEligible d p 6 now = true →
    chooseQueue d p now = some (6, d))
  ∧ (∀ (p : Fin 1024) (dt : Nat) (s : State), s.held = false →
    ((s.dev.po p).tx = none → exec (.txComplete p dt) s = .next s)
    ∧ (∀ t, (s.dev.po p).tx = some t → (s.dev.frame t.copy.pkt.fid = none → exec (.txComplete p dt) s = .next s)
      ∧ ∀ f b, s.dev.frame t.copy.pkt.fid = some f →
        b = txBody t f ++ (if txStomped t f then stompedFcs (txBody t f) else ethFcs (txBody t f)) →
        (f.complete = false ∨ inPages (s.dev.qu (qid p t.copy.q)) t.copy.cid = true → exec (.txComplete p dt) s = .next s)
        ∧ (f.complete = true → inPages (s.dev.qu (qid p t.copy.q)) t.copy.cid = false →
          ∃ e, exec (.txComplete p dt) s = .next { s with dev := e } ∧ (e.po p).tx = none
            ∧ (s.dev.flag (PT_CFG.LOOP p) = false → ∃ o, e.out = s.dev.out ++ .tx p b (txStomped t f) :: o)
            ∧ (s.dev.flag (PT_CFG.LOOP p) = true → ∃ o, (e.po p).looped = (s.dev.po p).looped ++ (b, txStomped t f) :: o))))
  ∧ (∀ (sl : Fin 32) (dt : Nat) (up : Upsets) (s : State), s.held = false →
    ((s.dev.sl sl).recirc = [] ∨ s.dev.sliceUp sl = false → exec (.recircDequeue sl dt up) s = .next s)
    ∧ (∀ c rest d, s.dev.sliceUp sl = true → (s.dev.sl sl).recirc = c :: rest → d = (s.dev.slice sl fun y => { y with recirc := rest }) →
      (s.dev.frame c.pkt.fid = none → exec (.recircDequeue sl dt up) s = .next { s with dev := d })
      ∧ ∀ f e, s.dev.frame c.pkt.fid = some f → e = poolGive (sharedGive d (sl / 16) c.cells) (sl / 16) c ⟨c.cid, 0, c.cells⟩ →
        (f.complete = false → exec (.recircDequeue sl dt up) s = .next s)
        ∧ (f.complete = true → ∃ t, exec (.recircDequeue sl dt up) s = .next { s with dev := dropFrame t c.pkt.fid }
          ∧ (egressPass s.grid e sl (s.grid.nowQ dt) up c f none 0 f.rxTs = .gone t
            ∨ ∃ c' b, egressPass s.grid e sl (s.grid.nowQ dt) up c f none 0 f.rxTs = .send c' b t))))
  ∧ (∀ (sl : Fin 32) (dt : Nat) (s : State), s.held = false → s.dev.sliceUp sl = false →
    exec (.wheelSlotRelease sl dt) s = .next s ∧ exec (.wheelCoarseMove sl dt) s = .next s)
  ∧ (∀ (sl : Fin 32) (dt : Nat) (s : State), s.held = false → s.dev.sliceUp sl = true →
    (∃ e, exec (.wheelSlotRelease sl dt) s = .next { s with dev := { s.dev with queues := e } } ∧ ∀ n, e.get {} n =
      match (s.dev.qu n).wheel with
      | some slot => if n / 256 = sl.val ∧ (s.dev.qu n).coarse = false ∧ slot * 64 ≤ s.grid.nowQ dt then
          { s.dev.qu n with credit := creditAt (s.dev.qu n) (s.grid.nowQ dt), creditT := s.grid.nowQ dt, wheel := none }
        else s.dev.qu n
      | none => s.dev.qu n)
    ∧ ∃ e, exec (.wheelCoarseMove sl dt) s = .next { s with dev := e }
      ∧ Dev.regsOnly [(EQ_CNT_COARSE sl).addr] { s.dev with queues := e.queues } e ∧ ∀ n, e.qu n =
      match (s.dev.qu n).wheel with
      | some slot => if n / 256 = sl.val ∧ (s.dev.qu n).coarse = true
            ∧ slot * 64 / 262144 * 262144 < s.grid.nowQ dt + 262144 then { s.dev.qu n with coarse := false } else s.dev.qu n
      | none => s.dev.qu n)

/-! ### The spill tier, the promise and the fault collector (chapters 12, 13, 18) -/

/-- R422, R423, R434, R435, R438. -/
def Obligations.SpillPages : Prop :=
  (∀ (h : Fin 2) (bad : List CellErr) (s : State), s.held = false →
    (spillPresent s.dev = false ∨ (fromPlace s.dev h (s.dev.buf.rrDown.get 0 h)).find? (wantsDown s.dev) = none →
      exec (.writeDownStart h bad) s = .next s)
    ∧ ∀ n g d, spillPresent s.dev = true → (fromPlace s.dev h (s.dev.buf.rrDown.get 0 h)).find? (wantsDown s.dev) = some n →
      allocPage { s.dev with buf := { s.dev.buf with rrDown := s.dev.buf.rrDown.put 0 h (n + 1) } } h 7 = (g, d) →
      ∃ e, exec (.writeDownStart h bad) s = .next { s with dev := e }
        ∧ (g = none → e.get (SPL_CNT_PAGE_WAIT h) = (s.dev.get (SPL_CNT_PAGE_WAIT h) + 1) % 2 ^ 32
          ∧ (e.qu n).pageWait = true ∧ (e.qu n).down = (s.dev.qu n).down)
        ∧ ∀ ptr w places d', g = some ptr → w = (s.dev.qu n).nextDown →
          checkCells d n w.runs (bad.filter fun e => !w.bad.contains e.place) = (places, d') →
          e.out.getLast? = some (.gddr h (pageDev ptr) true ptr) ∧ e.buf.downs = s.dev.buf.downs ++ [(n, ptr)]
          ∧ (e.qu n).down = placeDown { w with
              ptr := ptr, bad := w.bad ++ places, again := false
              desc := (pageDescs ((w.bad ++ places).foldl (fun d _ => cellErr d n) d') n w.runs (w.bad ++ places)).1 }
            (s.dev.qu n).down)
  ∧ (∀ (q : Queue) (w : WriteDown), (q.down = [] → q.nextDown.runs = (splitRuns 63 q.tail).1 ∧ placeDown w q.down = [w])
    ∧ ((∀ x ∈ q.down, x.again = false) → q.nextDown.runs = (splitRuns 63 q.rest).1 ∧ placeDown w q.down = q.down ++ [w]))
  ∧ (∀ (d : Dev) (n : Nat) (rs : List Run) (bad : List CellErr) (l : List Nat),
    (checkCells d n rs bad).1 = (bad.filter fun e => codeFails e && (cellAt rs e.place).isSome).map (·.place)
    ∧ (pageDescs d n rs l).1.length = sumRuns rs)
  ∧ (∀ (h : Fin 2) (k : Fin 6) (errs : Fin 5) (s : State), s.held = false →
    (downOn s.dev h k = none → exec (.writeDownDone h k errs) s = .next s)
    ∧ ∀ n w, downOn s.dev h k = some (n, w) → ∃ e, exec (.writeDownDone h k errs) s = .next { s with dev := e }
      ∧ (errs.val ≤ 3 → e.get (SPL_CNT_PAGES_WRITTEN h) = (s.dev.get (SPL_CNT_PAGES_WRITTEN h) + 1) % 2 ^ 32
        ∧ ∀ l, l = (s.dev.qu n).down.map (fun (x : WriteDown) =>
            if x.ptr = w.ptr ∧ x.paged = true then { x with done := true } else x) →
          (e.qu n).down = l.dropWhile (·.done)
          ∧ (e.qu n).tail = (l.takeWhile (·.done)).foldl (fun t x => (splitRuns (sumRuns x.runs) t).2) (s.dev.qu n).tail
          ∧ (e.qu n).mid = (s.dev.qu n).mid ++ (l.takeWhile (·.done)).map fun x =>
              { ptr := x.ptr, seq := x.seq, runs := x.runs, bad := x.bad, desc := x.desc })
      ∧ (errs.val = 4 → (e.qu n).mid = (s.dev.qu n).mid ∧ (∀ x ∈ (e.qu n).down, x.paged = true → x.ptr ≠ w.ptr)
        ∧ ((s.dev.qu n).mid ≠ [] → (e.qu n).head = (s.dev.qu n).head ∧ (e.qu n).tail = (s.dev.qu n).tail)
        ∧ sumRuns (e.qu n).head + sumRuns (e.qu n).tail = sumRuns (s.dev.qu n).head + sumRuns (s.dev.qu n).tail
        ∧ e.get (MEM_CNT_RETRY_FAIL h k) = (s.dev.get (MEM_CNT_RETRY_FAIL h k) + 1) % 2 ^ 32))
  ∧ (∀ (h : Fin 2) (s : State), s.held = false →
    (spillPresent s.dev = false ∨ s.dev.get (BUF_SHARED.SHARED h) < s.dev.get (BUF_SHARED_USED.USED h) + 63
        ∨ (fromPlace s.dev h (s.dev.buf.rrUp.get 0 h)).find? (wantsUp s.dev) = none →
      exec (.readUpRequest h) s = .next s)
    ∧ ∀ n p, spillPresent s.dev = true → s.dev.get (BUF_SHARED_USED.USED h) + 63 ≤ s.dev.get (BUF_SHARED.SHARED h) →
      (fromPlace s.dev h (s.dev.buf.rrUp.get 0 h)).find? (wantsUp s.dev) = some n → nextPage (s.dev.qu n) = some p →
      ∃ e, exec (.readUpRequest h) s = .next { s with dev := e } ∧ e.out = s.dev.out ++ [.gddr h (pageDev p.ptr) false p.ptr]
        ∧ e.regs = s.dev.regs
        ∧ (e.qu n).mid = (s.dev.qu n).mid.map fun x => if x.ptr = p.ptr then { x with reading := true } else x)
  ∧ (∀ (h : Fin 2) (buf : Nat) (errs : Fin 5) (corr uncorr : Bool) (bad : List CellErr) (s : State), s.held = false →
    (pageOf s.dev h buf = none → exec (.readUpArrive h buf errs corr uncorr bad) s = .next s)
    ∧ ∀ n p, pageOf s.dev h buf = some (n, p) →
      (errs.val ≤ 3 → uncorr = false → ∃ e, exec (.readUpArrive h buf errs corr uncorr bad) s
            = .next { s with dev := settleSpill (drainUp s.grid e n 8) n }
        ∧ (e.qu n).mid = (s.dev.qu n).mid.map (fun x => if x.ptr = buf then
            { x with arrived := true, bad := x.bad ++ ((bad.filter fun y => !p.bad.contains y.place).filter fun y =>
                codeFails y && (cellAt p.runs y.place).isSome).map (·.place) } else x)
        ∧ (e.qu n).head = (s.dev.qu n).head)
      ∧ (errs.val = 4 ∨ uncorr = true → ∃ e, exec (.readUpArrive h buf errs corr uncorr bad) s
            = .next { s with dev := losePage s.grid e n p } ∧ e.qu n = s.dev.qu n
        ∧ (errs.val = 4 → e.get (MEM_CNT_RETRY_FAIL h (pageDev buf))
            = (s.dev.get (MEM_CNT_RETRY_FAIL h (pageDev buf)) + 1) % 2 ^ 32)))
  ∧ (∀ (g : Grid) (d : Dev) (n : Nat) (p : Page), (∀ c ∈ (d.qu n).pkts, c.marked = false) →
    ((bringUp g d n p).qu n).mid = (d.qu n).mid.filter (fun x => decide (x.ptr ≠ p.ptr))
    ∧ ((bringUp g d n p).qu n).head = (d.qu n).head ++ p.runs.filter fun r => (copyOf d n r.cid).isSome)

/-- R431, R433, R436, R437, R440. -/
def Obligations.SpillDevices : Prop :=
  ∀ (h : Fin 2) (k : Fin 6) (s : State), s.held = false →
    (spillPresent s.dev = false → ∀ t x, exec (.exclude h k) s = .next s ∧ exec (.deviceExclude h k) s = .next s
      ∧ exec (.restore h k t) s = .next s ∧ exec (.memRetrain h k) s = .next s ∧ exec (.dataRateChange h k) s = .next s
      ∧ exec (.deviceRetrainDone h k t x) s = .next s ∧ exec (.driftCompensation h k) s = .next s)
    ∧ (spillPresent s.dev = true →
      exec (.exclude h k) s = .next { s with dev := excludeDev s.grid s.dev h k }
      ∧ (s.dev.get (MEM_CRC_CFG.LIMIT h k) ≠ 0 → s.dev.get (MEM_CRC_CFG.LIMIT h k) ≤ s.dev.buf.memFail.get 0 (h.val * 6 + k.val) →
          exec (.deviceExclude h k) s = .next { s with dev := excludeDev s.grid s.dev h k })
      ∧ (s.dev.get (MEM_CRC_CFG.LIMIT h k) = 0
          ∨ s.dev.buf.memFail.get 0 (h.val * 6 + k.val) < s.dev.get (MEM_CRC_CFG.LIMIT h k) →
          exec (.deviceExclude h k) s = .next s)
      ∧ (devOut s.dev h k = true → exec (.exclude h k) s = .next s)
      ∧ (devOut s.dev h k = false → ∀ t, exec (.restore h k t) s = .next s)
      ∧ (s.dev.buf.retraining.contains (h.val * 6 + k.val) = true → exec (.memRetrain h k) s = .next s)
      ∧ (devOut s.dev h k = true ∨ runningRate s.dev h k = wantedRate s.dev h k ∨ (∃ j < 6, h.val * 6 + j ∈ s.dev.buf.retraining) →
          exec (.dataRateChange h k) s = .next s)
      ∧ (devOut s.dev h k = false → (∀ x ∈ s.dev.queues, (∀ w ∈ x.2.down, pageDev w.ptr ≠ k.val) ∧ ∀ p ∈ x.2.mid, pageDev p.ptr ≠ k.val) →
        ∃ e, exec (.exclude h k) s = .next { s with dev := e } ∧ devOut e h k = true ∧ e.get (MEM_STATUS.OUT h k) = 1
          ∧ (3, h.val * 6 + k.val) ∈ e.flt.shadows ∧ e.get (SPL_STATUS.DEVICE_OUT h) = 1
          ∧ Dev.regsOnly [(SPL_DEV.word h).addr, (MEM_STATUS.word h k).addr, (SPL_STATUS.word h).addr]
              { s.dev with flt := { s.dev.flt with shadows := e.flt.shadows } } e)
      ∧ (devOut s.dev h k = true →
        (∃ e, exec (.restore h k true) s = .next { s with dev := e } ∧ devOut e h k = false
          ∧ bit (e.get (SPL_DEV.TRAINED h)) k = true ∧ Dev.raised (MEM_STATUS.TRAINED h k) s.dev e
          ∧ Dev.regsOnly [(SPL_DEV.word h).addr, (MEM_STATUS.word h k).addr] s.dev e)
        ∧ ∃ e, exec (.restore h k false) s = .next { s with dev := e } ∧ devOut e h k = true
          ∧ Dev.raised (MEM_STATUS.TRAIN_FAIL h k) s.dev e ∧ Dev.regsOnly [(MEM_STATUS.word h k).addr] s.dev e)
      ∧ (s.dev.buf.retraining.contains (h.val * 6 + k.val) = false →
        ∃ e, exec (.memRetrain h k) s = .next { s with dev := e } ∧ e.buf.retraining = s.dev.buf.retraining ++ [h.val * 6 + k.val]
          ∧ (3, h.val * 6 + k.val) ∈ e.flt.shadows ∧ e.regs = s.dev.regs ∧ e.out = s.dev.out)
      ∧ (devOut s.dev h k = false → runningRate s.dev h k ≠ wantedRate s.dev h k →
          (∀ j < 6, h.val * 6 + j ∉ s.dev.buf.retraining) →
        ∃ e, exec (.dataRateChange h k) s = .next { s with dev := e } ∧ e.buf.retraining = s.dev.buf.retraining ++ [h.val * 6 + k.val]
          ∧ runningRate e h k = wantedRate s.dev h k ∧ e.regs = s.dev.regs)
      ∧ (∀ x, mixedDensity s.dev h k x.val = false →
        ∃ e, exec (.deviceRetrainDone h k true x) s = .next { s with dev := e } ∧ h.val * 6 + k.val ∉ e.buf.retraining
          ∧ bit (e.get (SPL_DEV.TRAINED h)) k = true ∧ e.get (MEM_CFG.DENSITY h k) = x.val
          ∧ Dev.raised (MEM_STATUS.TRAINED h k) s.dev e)
      ∧ (∀ t x, t = false ∨ mixedDensity s.dev h k x.val = true →
        ∃ e, exec (.deviceRetrainDone h k t x) s = .next { s with dev := excludeDev s.grid e h k }
          ∧ h.val * 6 + k.val ∉ e.buf.retraining ∧ bit (e.get (SPL_DEV.TRAINED h)) k = false
          ∧ Dev.raised (MEM_STATUS.TRAIN_FAIL h k) s.dev e
          ∧ Dev.regsOnly [(SPL_DEV.word h).addr, (MEM_STATUS.word h k).addr] { s.dev with buf := e.buf } e)
      ∧ (∃ e, exec (.driftCompensation h k) s = .next { s with dev := e }
          ∧ e.get (MEM_CNT_DRIFT_COMP h k) = (s.dev.get (MEM_CNT_DRIFT_COMP h k) + 1) % 2 ^ 32
          ∧ Dev.regsOnly [(MEM_CNT_DRIFT_COMP h k).addr] s.dev e))

/-- R459, R461, R462, R602. -/
def Obligations.PromiseCommands : Prop :=
  (∀ (c : Instr) (op : Nat) (s : State), s.held = false → (c = .add ∧ op = 1) ∨ (c = .remove ∧ op = 2) ∨ (c = .setPort ∧ op = 3) →
    (s.dev.flag SCH_CMD_STAT.BUSY = true → ∃ e, exec c s = .next { s with dev := e } ∧ Dev.raised SCH_STATUS.CMD_LOST s.dev e
      ∧ Dev.regsOnly [SCH_STATUS.word.addr] s.dev e)
    ∧ (s.dev.flag SCH_CMD_STAT.BUSY = false → s.dev.serves (schEngine op (staged s.dev)) = true →
      ∃ e, exec c s = .next { s with dev := e } ∧ e.get SCH_CMD_STAT.BUSY = 1
        ∧ e.get SCH_CMD_STAT.RESULT = (schBody (s.dev.put SCH_CMD_STAT.BUSY 1) op (staged s.dev)).1
        ∧ e.resv = (schBody (s.dev.put SCH_CMD_STAT.BUSY 1) op (staged s.dev)).2.2.resv)
    ∧ (s.dev.flag SCH_CMD_STAT.BUSY = false → s.dev.serves (schEngine op (staged s.dev)) = false →
      ∃ e, exec c s = .next { s with dev := e } ∧ e.get SCH_CMD_STAT.BUSY = 1
        ∧ e.hk.sch = some (op, BitVec.ofNat 128 (staged s.dev)) ∧ Dev.regsOnly [SCH_CMD_STAT.word.addr] { s.dev with hk := e.hk } e))
  ∧ (∀ (d e : Dev) (v res id : Nat), schAdd d v = (res, id, e) →
    (res ≠ 0 → e.resv = d.resv)
    ∧ (res = 0 → isPort d (bits (dataWord v 0) 9 0) = true ∧ isPort d (bits (dataWord v 0) 25 16) = true
      ∧ d.get (EQ_PROM.DEADLINE (bits (dataWord v 0) 25 16 / 32) (bits (dataWord v 0) 25 16 % 32)) ≠ 0
      ∧ (∀ r ∈ resvOf d (bits (dataWord v 0) 25 16), r.ingress ≠ bits (dataWord v 0) 9 0)
      ∧ 0 < dataWord v 1 ∧ portMtu d (bits (dataWord v 0) 9 0) + 20 ≤ bits (dataWord v 2) 23 0
      ∧ dataWord v 1 ≤ portSpeed d (bits (dataWord v 0) 9 0) * 1000
      ∧ id / 512 = bits (dataWord v 0) 25 16 / 32 ∧ d.resv.get none id = none
      ∧ (∀ i, i ≠ id → e.resv.get none i = d.resv.get none i)
      ∧ ∃ r, e.resv.get none id = some r ∧ r.ingress = bits (dataWord v 0) 9 0 ∧ r.egress = bits (dataWord v 0) 25 16
        ∧ r.rho = dataWord v 1 ∧ r.sigma = bits (dataWord v 2) 23 0 ∧ r.tokens = r.sigma * 8000 ∧ r.acts = false
        ∧ rateSum (resvOf d r.egress ++ [r]) * 256
            ≤ d.get (EQ_PROM.SHARE (r.egress / 32) (r.egress % 32)) * portSpeed d r.egress * 1000
        ∧ promBound d r.egress (resvOf d r.egress ++ [r]) ≤ d.get (EQ_PROM.DEADLINE (r.egress / 32) (r.egress % 32)) * 1024000))
  ∧ (∀ (d : Dev) (v : Nat), (d.resv.get none (bits (dataWord v 3) 13 0) = none → schRemove d v = (6, bits (dataWord v 3) 13 0, d))
    ∧ ((d.resv.get none (bits (dataWord v 3) 13 0)).isSome = true → (schRemove d v).1 = 0
      ∧ ∀ i, (schRemove d v).2.2.resv.get none i = if i = bits (dataWord v 3) 13 0 then none else d.resv.get none i))
  ∧ (∀ s : State, s.held = false → (s.dev.flag SCH_CMD_STAT.BUSY = false → exec .schCmdDone s = .next s)
    ∧ (∀ op v, s.dev.flag SCH_CMD_STAT.BUSY = true → s.dev.hk.sch = some (op, v) → s.dev.serves (schEngine op v.toNat) = false →
      exec .schCmdDone s = .next s)
    ∧ (∀ d, s.dev.flag SCH_CMD_STAT.BUSY = true →
        (s.dev.hk.sch = none ∧ d = s.dev) ∨ (∃ op v, s.dev.hk.sch = some (op, v) ∧ s.dev.serves (schEngine op v.toNat) = true
          ∧ d = schRun { s.dev with hk := { s.dev.hk with sch := none } } op v.toNat) →
      (belowFloor d = true → exec .schCmdDone s = .next { s with dev := d })
      ∧ (belowFloor d = false →
        ∃ e, exec .schCmdDone s = .next { s with dev := e } ∧ e.get SCH_CMD_STAT.BUSY = 0 ∧ e.get SCH_STATUS.CMD_DONE = 1
          ∧ (d.get SCH_CMD_STAT.RESULT ≠ 0 → e.get SCH_STATUS.REFUSED = 1)
          ∧ (∀ i, e.resv.get none i = (d.resv.get none i).map fun r => { r with acts := true })
          ∧ Dev.regsOnly [SCH_CMD_STAT.word.addr, SCH_STATUS.word.addr] { d with resv := e.resv } e)))
  ∧ (∀ (p : Fin 1024) (s : State), s.held = false → (s.dev.resv.map (·.1)).Nodup →
    ∃ e, exec (.reservationRecheck p) s = .next { s with dev := e }
      ∧ (∀ i, e.resv.get none i = match s.dev.resv.get none i with
        | some r => if isPort s.dev r.ingress = true ∧ isPort s.dev r.egress = true then some r else none
        | none => none)
      ∧ ((∃ x ∈ s.dev.resv, ∃ r, x.2 = some r ∧ (isPort s.dev r.ingress = false ∨ isPort s.dev r.egress = false)) →
        e.get SCH_STATUS.RESV_LOST = 1))
  ∧ (∀ (p : Fin 1024) (s : State), s.held = false →
    (∀ x ∈ s.dev.resv, ∀ r, x.2 = some r → isPort s.dev r.ingress = true ∧ isPort s.dev r.egress = true) →
    ((∀ x ∈ s.dev.resv, ∀ r, x.2 = some r → r.ingress ≠ p ∧ r.egress ≠ p) → exec (.reservationRecheck p) s = .next s)
    ∧ ∀ k r, s.dev.resv = [(k, some r)] → r.ingress = p ∨ r.egress = p →
      exec (.reservationRecheck p) s = .next { s with dev := checkPort s.dev r.egress })
  ∧ (∀ (d : Dev) (e : Nat), e < 1024 →
    (checkPort d e).get (EQ_PROM.UNSOUND (e / 32) (e % 32)) = (if resvOf d e = []
      ∨ (rateSum (resvOf d e) * 256 ≤ d.get (EQ_PROM.SHARE (e / 32) (e % 32)) * portSpeed d e * 1000
        ∧ promBound d e (resvOf d e) ≤ d.get (EQ_PROM.DEADLINE (e / 32) (e % 32)) * 1024000
        ∧ ∀ r ∈ resvOf d e, r.rho ≤ portSpeed d r.ingress * 1000) then 0 else 1)
    ∧ (checkPort d e).resv = d.resv)

/-- R608, R610, R611, R614, R619, R620, R623, R625, R631. -/
def Obligations.FaultEvents : Prop :=
  (∀ (dt : Nat) (s : State), s.held = false → (s.dev.reports = [] → exec (.faultEvent dt) s = .next s)
    ∧ (∀ r rest, s.dev.reports = r :: rest →
      exec (.faultEvent dt) s = .next { s with dev := handleEvent s.grid { s.dev with reports := rest } r (s.grid.nowNs dt) false })
    ∧ (∀ cmd : Word, (validSource (bits cmd.toNat 27 16) = false → exec (.inject cmd dt) s = .next s)
      ∧ (validSource (bits cmd.toNat 27 16) = true → ∃ e, exec (.inject cmd dt) s
          = .next { s with dev := handleEvent s.grid e (shadowed s.dev (bits cmd.toNat 27 16) 0xFFFFFFFF false) (s.grid.nowNs dt) true }
        ∧ e.get FLT_CNT_INJECTED = (s.dev.get FLT_CNT_INJECTED + 1) % 2 ^ 32 ∧ Dev.regsOnly [FLT_CNT_INJECTED.addr] s.dev e)))
  ∧ (∀ (g : Grid) (d : Dev) (r : Report) (now : Nat) (inj : Bool), d.flag (PMU_CTL.EN 0) = false → d.flt.dead = false →
    ((sourceMap d r.src).2.2 = true → handleEvent g d r now inj = d)
    ∧ (validSource r.src = true → (sourceMap d r.src).2.2 = false →
      ((sourceMap d r.src).2.1 = true ∨ r.masked = true → handleEvent g d r now inj = d.bump FLT_CNT_MASKED)
      ∧ ((sourceMap d r.src).2.1 = false → r.masked = false → r.conseq = true → d.flt.log.length < 256 → ∃ e,
          handleEvent g d r now inj = e ∧ e.get FLT_CNT_CONSEQ = (d.get FLT_CNT_CONSEQ + 1) % 2 ^ 32
          ∧ e.flt.counts = d.flt.counts ∧ e.flt.wins = d.flt.wins ∧ e.word FLT_FIRST.word.addr = d.word FLT_FIRST.word.addr
          ∧ e.flt.log.length = d.flt.log.length + 1)
      ∧ ((sourceMap d r.src).2.1 = false → r.masked = false → r.conseq = false →
          handleEvent g d r now inj = countEvent g d r.src (sourceMap d r.src).1 r.detail now inj)))
  ∧ (∀ (g : Grid) (d : Dev) (src cls detail now : Nat) (inj : Bool), src < 4096 → cls < 32 → detail < 2 ^ 32 →
    ((d.get (FLT_CLASS.N cls) = 0 ∨ (if windowOpen d src then d.flt.counts.get 0 src else 0) + 1 < d.get (FLT_CLASS.N cls)) →
      ∃ e, countEvent g d src cls detail now inj = e ∧ e.get FLT_CNT_EVENTS = (d.get FLT_CNT_EVENTS + 1) % 2 ^ 32
        ∧ e.get FLT_CNT_SEVERE = d.get FLT_CNT_SEVERE
        ∧ e.flt.counts.get 0 src = (if windowOpen d src then d.flt.counts.get 0 src else 0) + 1
        ∧ (d.flag FLT_FIRST.VALID = false → e.get FLT_FIRST.SOURCE = src ∧ e.get FLT_FIRST.CLASS = cls
          ∧ e.get FLT_FIRST_DETAIL.DETAIL = detail ∧ e.get FLT_FIRST.VALID = 1 ∧ e.flt.firstTime = now)
        ∧ (d.flag FLT_FIRST.VALID = true → e.get FLT_FIRST.SOURCE = d.get FLT_FIRST.SOURCE
          ∧ e.get FLT_FIRST_DETAIL.DETAIL = d.get FLT_FIRST_DETAIL.DETAIL ∧ e.get FLT_FIRST.OVERFLOW = 1)
        ∧ (d.flt.log.length < 256 → e.flt.log = d.flt.log ++ [{ src := src, cls := cls, conseq := false, severe := false, react := 0
                                                                inj := inj, detail := detail, time := now }])
        ∧ (256 ≤ d.flt.log.length → e.flt.log = d.flt.log ∧ e.get FLT_CNT_LOG_LOST = (d.get FLT_CNT_LOG_LOST + 1) % 2 ^ 32))
    ∧ (d.get (FLT_CLASS.N cls) ≠ 0 → d.get (FLT_CLASS.N cls) ≤ (if windowOpen d src then d.flt.counts.get 0 src else 0) + 1 →
      ∃ e, countEvent g d src cls detail now inj = faultPin (react g e src (reaction d src cls))
        ∧ e.get FLT_CNT_SEVERE = (d.get FLT_CNT_SEVERE + 1) % 2 ^ 32 ∧ e.flt.counts.get 0 src = 0 ∧ e.flt.wins.get 0 src = 0
        ∧ e.get FLT_SEV_STATUS.SOURCE = src ∧ e.get FLT_SEV_STATUS.CLASS = cls ∧ e.get FLT_SEV_STATUS.SEVERE = 1
        ∧ e.get FLT_SEV_STATUS.REACTION = reaction d src cls
        ∧ (d.flag (FLT_CLASS.FAULT_N_EN cls) = true → e.flt.pulse = true
          ∧ (d.flag FLT_CTL.FAULT_HOLD = true → e.flt.latched = true))
        ∧ (d.flt.log.length < 256 → e.flt.log = d.flt.log ++ [{ src := src, cls := cls, conseq := false, severe := true
                                                                react := reaction d src cls, inj := inj, detail := detail
                                                                time := now }]))
    ∧ (d.get (FLT_CLASS.N cls) ≠ 0 → d.get (FLT_CLASS.N cls) ≤ (if windowOpen d src then d.flt.counts.get 0 src else 0) + 1 →
        reaction d src cls = 0 →
      ∃ e, countEvent g d src cls detail now inj = e ∧ e.get FLT_CNT_SEVERE = (d.get FLT_CNT_SEVERE + 1) % 2 ^ 32
        ∧ e.flt.counts.get 0 src = 0 ∧ e.flt.wins.get 0 src = 0 ∧ e.get FLT_SEV_STATUS.SOURCE = src
        ∧ e.get FLT_SEV_STATUS.CLASS = cls ∧ e.get FLT_SEV_STATUS.SEVERE = 1))
  ∧ (∀ (src : BitVec 12) (s : State), s.held = false →
    (validSource src.toNat = false ∨ (sourceMap s.dev src.toNat).2.2 = true → exec (.pathFailed src) s = .next s)
    ∧ (windowDue s.dev src.toNat = false → exec (.faultWindowClose src) s = .next s)
    ∧ (validSource src.toNat = true → (sourceMap s.dev src.toNat).2.2 = false → ∃ e, exec (.pathFailed src) s = .next { s with dev := e }
      ∧ (sourceMap e src.toNat).2.2 = true ∧ e.get FLT_CNT_PATH = (s.dev.get FLT_CNT_PATH + 1) % 2 ^ 32
      ∧ Dev.raised FLT_STATUS.PATH s.dev e ∧ Dev.reported [(0x050, src.toNat)] s.dev e)
    ∧ (windowDue s.dev src.toNat = true → ∃ e, exec (.faultWindowClose src) s = .next { s with dev := e }
      ∧ e.flt.counts.get 0 src.toNat = 0 ∧ e.flt.wins.get 0 src.toNat = 0 ∧ e.regs = s.dev.regs))
  ∧ (∀ (h : Fin 2) (lane : Fin 32) (retries : Nat) (sl : Fin 32) (s : State), s.held = false →
    exec (.fabricCrcError h lane 0 sl) s = .next s
    ∧ (s.dev.flt.fabricFails.get 0 (h.val * 32 + lane.val) < 16 ∨ 4 ≤ s.dev.get (spares h) →
      exec (.fabricLaneSpare h lane) s = .next s)
    ∧ (8 < retries → s.dev.flag (PMU_CTL.EN (halfPmu h)) = false →
      ∃ e, exec (.fabricCrcError h lane retries sl) s = .next { s with dev := fabricLost e h sl }
        ∧ (fabricLost e h sl).get FLT_CNT_FABRIC_LOST = (s.dev.get FLT_CNT_FABRIC_LOST + 1) % 2 ^ 32
        ∧ e.get FLT_CNT_FABRIC_RETRY = (s.dev.get FLT_CNT_FABRIC_RETRY + 8) % 2 ^ 32
        ∧ e.flt.fabricFails.get 0 (h.val * 32 + lane.val) = s.dev.flt.fabricFails.get 0 (h.val * 32 + lane.val) + 9
        ∧ e.reports.length = s.dev.reports.length + 9 ∧ Dev.regsOnly [FLT_CNT_FABRIC_RETRY.addr]
          { s.dev with flt := e.flt, reports := e.reports } e)
    ∧ (0 < retries → retries ≤ 8 → s.dev.flag (PMU_CTL.EN (halfPmu h)) = false →
      ∃ e, exec (.fabricCrcError h lane retries sl) s = .next { s with dev := e }
        ∧ e.get FLT_CNT_FABRIC_RETRY = (s.dev.get FLT_CNT_FABRIC_RETRY + retries) % 2 ^ 32
        ∧ e.flt.fabricFails.get 0 (h.val * 32 + lane.val) = s.dev.flt.fabricFails.get 0 (h.val * 32 + lane.val) + retries
        ∧ e.reports.length = s.dev.reports.length + retries ∧ Dev.regsOnly [FLT_CNT_FABRIC_RETRY.addr]
          { s.dev with flt := e.flt, reports := e.reports } e)
    ∧ (16 ≤ s.dev.flt.fabricFails.get 0 (h.val * 32 + lane.val) → s.dev.get (spares h) < 4 →
      ∃ e, exec (.fabricLaneSpare h lane) s = .next { s with dev := e } ∧ e.get (spares h) = s.dev.get (spares h) + 1
        ∧ e.get FLT_CNT_FABRIC_SPARED = (s.dev.get FLT_CNT_FABRIC_SPARED + 1) % 2 ^ 32
        ∧ e.flt.fabricFails.get 0 (h.val * 32 + lane.val) = 0 ∧ (4, h.val * 32 + lane.val) ∈ e.flt.shadows))

/-- R616, R617, R621, R622, R628, R629. -/
def Obligations.FaultControl : Prop :=
  ∀ s : State, s.held = false →
    (s.dev.flag FLT_STATE.SAFE = false → ∃ e, exec .safeEnter s = .next { s with dev := e } ∧ exec .leaveSafe s = .next s ∧ e.get FLT_STATE.SAFE = 1
      ∧ e.get FLT_STATE.FAULT_N = 1 ∧ e.get FLT_STATE.HELD = 1 ∧ Dev.raised FLT_STATUS.SAFE s.dev e
      ∧ Dev.reported [(0x051, 0)] s.dev e
      ∧ Dev.regsOnly [FLT_STATE.word.addr, FLT_STATUS.word.addr] { s.dev with reports := e.reports } e)
    ∧ (s.dev.flag FLT_STATE.SAFE = true → exec .safeEnter s = .next s
      ∧ ∃ e, exec .leaveSafe s = .next { s with dev := e } ∧ e.get FLT_STATE.SAFE = 0 ∧ e.flt.counts = [] ∧ e.flt.wins = []
        ∧ Dev.regsOnly [FLT_STATE.word.addr] { s.dev with flt := e.flt } e)
    ∧ (∃ e, exec .faultNRelease s = .next { s with dev := e } ∧ e.flt.pulse = false
      ∧ e.get FLT_STATE.FAULT_N = (if faultHeld s.dev || s.dev.flt.latched then 1 else 0)
      ∧ Dev.regsOnly [FLT_STATE.word.addr] { s.dev with flt := e.flt } e)
    ∧ (s.dev.flag FLT_STATE.SAFE = false → s.dev.hk.wardenFailed = false → s.dev.flt.fatalDue = false → bothOut s.dev = false →
      ∃ e, exec .release s = .next { s with dev := e } ∧ e.flt.latched = false ∧ e.flt.fatal = false
        ∧ e.get FLT_STATE.FAULT_N = (if s.dev.flt.pulse || s.dev.flt.dead || s.dev.pins.coreLost then 1 else 0)
        ∧ e.get FLT_STATE.HELD = (if s.dev.flt.dead || s.dev.pins.coreLost then 1 else 0)
        ∧ Dev.regsOnly [FLT_STATE.word.addr] { s.dev with flt := e.flt } e)
    ∧ (s.dev.flag FLT_STATE.SAFE = true ∨ s.dev.hk.wardenFailed = true ∨ s.dev.flt.fatalDue = true ∨ bothOut s.dev = true →
      exec .release s = .next s)
    ∧ (∀ sl : Fin 32,
      (fenced s.dev sl = true → ∃ e, exec (.unfence sl) s = .next { s with dev := e } ∧ fenced e sl = false
        ∧ e.get FLT_CNT_SLICE_RESETS = (s.dev.get FLT_CNT_SLICE_RESETS + 1) % 2 ^ 32 ∧ (e.sl sl).resetAt = []
        ∧ (e.sl sl).inReset = (s.dev.sl sl).inReset
        ∧ Dev.regsOnly [FLT_FENCED.word.addr, FLT_CNT_SLICE_RESETS.addr] { s.dev with slices := e.slices } e)
      ∧ (fenced s.dev sl = false → exec (.unfence sl) s = .next s)
      ∧ ((s.dev.sl sl).inReset = false ∨ fenced s.dev sl = true → exec (.sliceRejoin sl) s = .next s)
      ∧ ((s.dev.sl sl).inReset = true → fenced s.dev sl = false →
        ∃ g b e, exec (.sliceRejoin sl) s = .next { s with grid := g, banks := b, dev := e }
          ∧ (g, b, e) = releaseHeld (s.grid, s.banks, sliceReturns s.dev sl (s.grid.nowQ 0)))
      ∧ ((s.dev.sl sl).inReset = true → fenced s.dev sl = false → s.dev.heldAcc = [] →
        exec (.sliceRejoin sl) s = .next { s with dev := sliceReturns s.dev sl (s.grid.nowQ 0) }
        ∧ (sliceReturns s.dev sl (s.grid.nowQ 0)).sliceUp sl = true))
    ∧ (∀ (kind : Fin 5) (n : Nat), (kind.val, n) ∉ s.dev.flt.shadows ∨ unitBack s.dev kind n = false →
      exec (.resetShadowEnd kind n) s = .next s)
    ∧ (∀ (kind : Fin 5) (n : Nat), (kind.val, n) ∈ s.dev.flt.shadows → unitBack s.dev kind n = true →
      ∃ e, exec (.resetShadowEnd kind n) s = .next { s with dev := e } ∧ (kind.val, n) ∉ e.flt.shadows
        ∧ ∀ a, a ≠ FLT_SHADOW.word.addr → e.word a = s.dev.word a)
    ∧ (s.dev.hk.wardenFailed = true ∨ s.dev.flt.dead = true → ∀ b, exec (.wardenStall b) s = .next s ∧ exec .collectorStall s = .next s)
    ∧ (s.dev.hk.wardenFailed = false → s.dev.flt.dead = false →
      (∃ e, exec (.wardenStall true) s = .next { s with dev := e } ∧ Dev.reported [(0x052, 0)] s.dev e ∧ ∀ i : Fin 2,
        e.tstate i = (if (s.dev.tansy i).failed ∧ s.dev.tstate i = tsStopped ∧ s.dev.flag HK_CTL.AUTO_RESTART = true then tsRestarting
          else s.dev.tstate i))
      ∧ (∃ e, exec (.wardenStall false) s = .next { s with dev := e } ∧ e.hk.wardenFailed = true ∧ e.get FLT_STATE.FAULT_N = 1
        ∧ e.get FLT_STATE.WARDEN_OK = 0 ∧ Dev.reported [(0x052, 0), (0x0A5, 0)] s.dev e)
      ∧ ((∀ i : Fin 2, (s.dev.tansy i).failed = false) → ∃ e, exec (.wardenStall true) s = .next { s with dev := e }
        ∧ Dev.reported [(0x052, 0)] s.dev e ∧ e = { s.dev with reports := e.reports })
      ∧ ∃ e, exec .collectorStall s = .next { s with dev := e } ∧ e.flt.dead = true ∧ e.get FLT_STATE.FAULT_N = 1
        ∧ e.get HK_STATUS.SEQ = (s.dev.get HK_STATUS.SEQ + 1) % 256)

/-! ### The Gazetteer (chapter 09) -/

/-- R313-R317, R339, R340. -/
def Obligations.GazetteerPort : Prop :=
  -- a port's command completes with an image: what becomes of the device d
  let answered (p : Fin 3) (c : GzCmd) (img : Nat) (d e : Dev) : Prop :=
    e.gcmd p = none
    ∧ (∀ t, c.target = some t → e.gaz.portTarget.get 0 p = t)
    ∧ (p.val < 2 → e.get (GZ_CMD_STAT.BUSY p) = 0 ∧ e.get (GZ_CMD_STAT.RESULT p) = c.result ∧ Dev.raised (GZ_STATUS.CMD_DONE p) d e
      ∧ (e.word (GZ_EVENT.word p).addr).toNat / 2 ^ 24 = gcTable c.word * 16
      ∧ (∀ l, c.loc = some l → e.get ⟨(GZ_CMD_STAT.word p).addr, 19, 0⟩ = l.2.1 % 2 ^ 20)
      ∧ (∀ t, c.target = some t → e.get (GZ_CMD_TARGET.TARGET p) = t.toNat % 2 ^ 32))
    ∧ (p.val = 2 → e.hk.cur = d.hk.cur.map fun r => { r with answer := some (c.result, BitVec.ofNat 32 (locField d c.loc).1,
        (match c.target with
          | some t => t.truncate 32
          | none => 0), BitVec.ofNat 512 img) })
  (∀ (c : Instr) (op : Nat) (src : Src) (h : Fin 2) (cmd : Word) (s : State), s.held = false →
    (c = .insert src h cmd ∧ op = 1) ∨ (c = .delete src h cmd ∧ op = 2) ∨ (c = .search src h cmd ∧ op = 3)
      ∨ (c = .next src h cmd ∧ op = 4) ∨ (c = .flushByPort src h cmd ∧ op = 5) ∨ (c = .age src h cmd ∧ op = 6)
      ∨ (c = .gzBadOp src h cmd ∧ op = 0 ∧ gcOp cmd ≤ 6) ∨ (c = .gzBadOp src h cmd ∧ op = gcOp cmd ∧ 6 < gcOp cmd) →
    (srcSecure src = false → bit (s.dev.word WLD_GZ_TABLE.word.addr).toNat (gcTable cmd) = true →
      ∃ e, exec c s = .next { s with dev := e } ∧ Dev.busErrorLogged src beWorld 0 (GZ_CMD.word h).addr true s.dev e
        ∧ Dev.regsOnly busErrorRegs { s.dev with reports := e.reports } e)
    ∧ (srcSecure src = true ∨ bit (s.dev.word WLD_GZ_TABLE.word.addr).toNat (gcTable cmd) = false →
      (s.dev.flag (GZ_CMD_STAT.BUSY h) = true → ∃ e, exec c s = .next { s with dev := e }
        ∧ Dev.raised (GZ_STATUS.CMD_LOST h) s.dev e ∧ (e.word (GZ_EVENT.word h).addr).toNat / 2 ^ 24 = gcTable cmd * 16 + 9
        ∧ Dev.regsOnly [(GZ_STATUS.word h).addr, (GZ_EVENT.word h).addr] { s.dev with free := e.free } e)
      ∧ (s.dev.flag (GZ_CMD_STAT.BUSY h) = false →
        (s.dev.flag (GZ_TBL_CFG.EN h (gcTable cmd)) = false ∨ op = 0 ∨ 6 < op → ∃ e, exec c s = .next { s with dev := e }
          ∧ e.get (GZ_CMD_STAT.RESULT h) = (if s.dev.flag (GZ_TBL_CFG.EN h (gcTable cmd)) then 7 else 6)
          ∧ e.get (GZ_CMD_STAT.BUSY h) = 0 ∧ Dev.raised (GZ_STATUS.CMD_DONE h) s.dev e
          ∧ (e.word (GZ_EVENT.word h).addr).toNat / 2 ^ 24 = gcTable cmd * 16
          ∧ Dev.regsOnly [(GZ_CMD_STAT.word h).addr, (GZ_STATUS.word h).addr, (GZ_EVENT.word h).addr]
              { s.dev with free := e.free } e)
        ∧ (s.dev.flag (GZ_TBL_CFG.EN h (gcTable cmd)) = true → 1 ≤ op → op ≤ 6 →
          (s.dev.serves (ownerOf s.dev (gcTable cmd)) = false ∨ op = 3 ∨ op = 4 → ∃ e x, exec c s = .next { s with dev := e }
            ∧ e.get (GZ_CMD_STAT.BUSY h) = 1 ∧ Dev.regsOnly [(GZ_CMD_STAT.word h).addr] { s.dev with gaz := e.gaz } e
            ∧ e.gcmd h = some x ∧ x.half = h ∧ gcOp x.word = op ∧ gcTable x.word = gcTable cmd ∧ x.planned = false
            ∧ x.cursor = s.dev.word (GZ_CMD_CURSOR.word h).addr ∧ x.target = none ∧ x.seq = s.dev.gaz.arrivals
            ∧ e.gaz.eng = s.dev.gaz.eng)
          ∧ (s.dev.serves (ownerOf s.dev (gcTable cmd)) = true → op = 1 ∨ op = 2 ∨ op = 5 ∨ op = 6 →
            ∃ e x, exec c s = .next { s with dev := e } ∧ e.get (GZ_CMD_STAT.BUSY h) = 1 ∧ e.gcmd h = some x ∧ x.planned = true
              ∧ gcOp x.word = op ∧ e.gaz.slots = s.dev.gaz.slots ∧ e.gaz.ovf = s.dev.gaz.ovf)))))
  ∧ (∀ (d : Dev) (c : GzCmd), d.get (GZ_TBL_STATE.STATE c.half (gcTable c.word)) = 1 → planInsert d c = ({ c with result := 8 }, d))
  ∧ (∀ (d : Dev) (c : GzCmd) (x : GzLoc × Nat) (r : List (GzLoc × Nat)),
    d.get (GZ_TBL_STATE.STATE c.half (gcTable c.word)) ≠ 1 → gcReplace c.word = false →
    (gzPlan d).find (gzTbl d c.half (gcTable c.word)) (gcTable c.word) (gzKey (gzTbl d c.half (gcTable c.word)).width
      (gzTbl d c.half (gcTable c.word)).kw (c.image.toNat % 2 ^ (128 * (gzTbl d c.half (gcTable c.word)).width))) = x :: r →
    planInsert d c = ({ c with result := 3, loc := some x.1 }, d))
  ∧ (∀ (d : Dev) (c : GzCmd), (gzPlan d).find (gzTbl d c.half (gcTable c.word)) (gcTable c.word)
      (gzKey (gzTbl d c.half (gcTable c.word)).width (gzTbl d c.half (gcTable c.word)).kw
        (c.image.toNat % 2 ^ (128 * (gzTbl d c.half (gcTable c.word)).width))) = [] →
    planDelete d c = ({ c with result := 2 }, d))
  ∧ (∀ (p : Fin 3) (bad : List (Bool × Nat)) (s : State), s.held = false → (s.dev.gcmd p = none → exec (.gzCmdDone p bad) s = .next s)
    ∧ ∀ c, s.dev.gcmd p = some c →
      (c.planned = false → readsOnly c = true →
        (s.dev.serves (ownerOf s.dev (gcTable c.word)) = false ∨ s.grid.epoch < s.dev.gaz.portTarget.get 0 p →
          exec (.gzCmdDone p bad) s = .next s)
        ∧ (s.dev.serves (ownerOf s.dev (gcTable c.word)) = true → s.dev.gaz.portTarget.get 0 p ≤ s.grid.epoch → ∀ c' img d,
            (if gcOp c.word = 3 then planSearch (gzMeets s.dev c bad) p c else planNext (gzMeets s.dev c bad) p c) = (c', img, d) →
            (∀ l, c'.loc = some l → l.2.2 < 4) →
          ∃ e, exec (.gzCmdDone p bad) s = .next { s with dev := e } ∧ answered p c' img d e
            ∧ (c'.result = 1 → p.val < 2 → ∀ q < 4, e.wget (wkey (mbxGz c.half) (4 + q)) = bits img (128 * q + 127) (128 * q))))
      ∧ (c.planned = false → readsOnly c = false → s.dev.serves (ownerOf s.dev (gcTable c.word)) = false →
        ∃ g, exec (.gzCmdDone p bad) s = .next { s with dev := { s.dev with gaz := { s.dev.gaz with cmds := g } } }
          ∧ ∀ k, g.get none k = s.dev.gcmd k)
      ∧ (c.planned = true ∨ readsOnly c = false ∧ s.dev.serves (ownerOf s.dev (gcTable c.word)) = true → ∀ c' d,
          gzPlanCmd (planBefore s.dev (ownerOf s.dev (gcTable c.word)) c.seq) c bad = (c', d) →
        c'.planned = true
        ∧ (∀ w, c'.wait = some w → (d.ge w.1).armed < w.2 → exec (.gzCmdDone p bad) s = .next { s with dev := d.setGcmd p (some c') })
        ∧ ((∀ w, c'.wait = some w → w.2 ≤ (d.ge w.1).armed) → c'.result < 16 → (∀ l, c'.loc = some l → l.2.2 < 4) →
          ∃ e, exec (.gzCmdDone p bad) s = .next { s with dev := e } ∧ answered p c' 0 d e)))

/-- R306-R311, R315, R327, R328, R338. -/
def Obligations.GazetteerBatches : Prop :=
  (∀ (e : Fin 2) (s : State), s.held = false →
    ((s.dev.ge e).steps = [] ∨ s.dev.serves e = false ∨ (s.dev.ge e).lastArm = some s.grid.epoch ∨ batchFits s.dev e = false →
      exec (.gzBatchArm e) s = .next s)
    ∧ ((s.dev.ge e).steps ≠ [] → s.dev.serves e = true → (s.dev.ge e).lastArm ≠ some s.grid.epoch → batchFits s.dev e = true →
      ∃ d x rest, exec (.gzBatchArm e) s = .next { s with dev := d } ∧ (s.dev.ge e).steps = x ++ rest ∧ x ≠ []
        ∧ ((∀ y ∈ (s.dev.ge e).steps, weights y.writes ≤ 1024) → weights (x.flatMap (·.writes)) ≤ 1024)
        ∧ (d.ge e).steps = rest ∧ (d.ge e).batches = (s.dev.ge e).batches ++ [(s.grid.epoch + 2, x.flatMap (·.writes))]
        ∧ (d.ge e).lastArm = some s.grid.epoch ∧ (d.ge e).armed = (s.dev.ge e).armed + x.length
        ∧ d.gaz.slots = s.dev.gaz.slots ∧ d.gaz.ovf = s.dev.gaz.ovf
        ∧ ∀ p c, s.dev.gcmd p = some c → ∃ c', d.gcmd p = some c' ∧ (c.wait = none → c' = c)
          ∧ ∀ n, c.wait = some (e.val, n) → c.target = none → n ≤ (s.dev.ge e).armed + x.length → c'.target = some (s.grid.epoch + 2)))
  ∧ (∀ (target : BitVec 64) (h : Nat) (d : Dev) (loc : Nat) (v : BitVec 512) (w : Nat) (side : GzMeta), h < 2 → loc < 2 ^ 22 →
    ∃ e, applyWrite target h d (.ent false loc v w side) = e ∧ e.gaz.slots.get 0 (h * 2 ^ 22 + loc) = v.truncate 128
      ∧ (∀ k, k ≠ h * 2 ^ 22 + loc → e.gaz.slots.get 0 k = d.gaz.slots.get 0 k) ∧ e.gaz.ovf = d.gaz.ovf
      ∧ e.gaz.log = d.gaz.log ++ [{ half := h, ovf := false, loc := loc, target := target, held := 0, w := w
                                    prev := (d.gaz.slots.get 0 (h * 2 ^ 22 + loc)).zeroExtend 512 }]
      ∧ (side = .keep → e.gaz.hits = d.gaz.hits ∧ e.gaz.ages = d.gaz.ages)
      ∧ (side = .fresh → hitAt e h (false, loc / 4, loc % 4) = false)
      ∧ (∀ o l, side = .from o l → hitAt e h (false, loc / 4, loc % 4) = d.gaz.hits.get false (locKey h o l)))
  ∧ (∀ s : State, s.held = false → ∃ g, exec .versionRecordRetire s = .next { s with dev := { s.dev with gaz := { s.dev.gaz with log := g } } }
    ∧ (oldestEpoch s.dev = none → g = []) ∧ (∀ n, oldestEpoch s.dev = some n → g = s.dev.gaz.log.filter fun r => decide (n < r.target.toNat)))
  ∧ (∀ (h : Fin 2) (s : State), s.held = false →
    ((∀ r ∈ s.dev.gaz.log, r.half ≠ h.val) → exec (.gzPinExpire h) s = .next s)
    ∧ ∀ r, s.dev.gaz.log.find? (fun r => decide (r.half = h.val)) = some r →
      (s.dev.get (GZ_UPD_CFG.PIN_LIMIT h) = 0 ∨ r.held < s.dev.get (GZ_UPD_CFG.PIN_LIMIT h) ∨ logHeld s.dev h < 65536
          ∨ s.dev.serves h = false → exec (.gzPinExpire h) s = .next s)
      ∧ (s.dev.get (GZ_UPD_CFG.PIN_LIMIT h) ≠ 0 → s.dev.get (GZ_UPD_CFG.PIN_LIMIT h) ≤ r.held → 65536 ≤ logHeld s.dev h →
          s.dev.serves h = true → ∃ n d, retireAll s.grid s.dev drTableRetired (fun p => decide (p.epoch < r.target))
              (fun q => { q with markEpoch := some r.target }) = (n, d)
            ∧ exec (.gzPinExpire h) s = .next { s with dev := d.addTo (GZ_CNT_RETIRED h) n }))
  ∧ (∀ (h : Fin 2) (ovf : Bool) (i : Nat) (s : State), s.held = false → i < (if ovf then 2 ^ 14 else 2 ^ 20) →
    let bad (d : Dev) (k : Nat) : Bool := if ovf then d.gaz.badOvf.contains (k, i) else d.gaz.badBuckets.contains (k, i)
    let t := tableAt s.dev h ovf i
    let o := ownerOf s.dev t
    let healing : Bool := (owed (s.dev.ge o)).contains (.heal ovf i)
    (bad s.dev h = false ∨ healing = true → ∀ other, exec (.bucketRestoreDone h ovf i other) s = .next s)
    ∧ (bad s.dev h = true → healing = false → bad s.dev (1 - h) = false →
      ∃ e, exec (.bucketRestoreDone h ovf i false) s = .next { s with dev := e } ∧ bad e h = false
        ∧ (ovf = false → e.gaz.ovf = s.dev.gaz.ovf
          ∧ ∀ k < 4, e.gaz.slots.get 0 (slotKey h i k) = s.dev.gaz.slots.get 0 (slotKey (1 - h.val) i k))
        ∧ (ovf = true → e.gaz.slots = s.dev.gaz.slots
          ∧ e.gaz.ovf.get 0 (ovfKey h i) = s.dev.gaz.ovf.get 0 (ovfKey (1 - h.val) i))
        ∧ e.get (GZ_CNT_RESTORED h) = (s.dev.get (GZ_CNT_RESTORED h) + 1) % 2 ^ 32
        ∧ Dev.regsOnly [(GZ_CNT_RESTORED h).addr] { s.dev with gaz := e.gaz } e)
    ∧ (∀ other, bad s.dev h = true → healing = false → other = true ∨ bad s.dev (1 - h) = true →
      ∃ e, exec (.bucketRestoreDone h ovf i other) s = .next { s with dev := e } ∧ bad e 0 = true ∧ bad e 1 = true
        ∧ e.gaz.slots = s.dev.gaz.slots ∧ e.gaz.ovf = s.dev.gaz.ovf ∧ e.get (GZ_STATUS.REPLICA_BAD h) = 1
        ∧ e.get (GZ_CNT_RESTORED h) = s.dev.get (GZ_CNT_RESTORED h)
        ∧ (e.ge o).steps = (s.dev.ge o).steps ++ [{ later := false, writes := (if ovf then [.ent true i 0 (gzTbl s.dev h t).width .fresh]
            else (List.range 4).map fun k => .ent false (i * 4 + k) 0 1 .fresh) ++ [.heal ovf i] }]))
  ∧ (∀ (target : BitVec 64) (h : Nat) (d : Dev) (ovf : Bool) (i : Nat),
    (if ovf then (applyWrite target h d (.heal ovf i)).gaz.badOvf else (applyWrite target h d (.heal ovf i)).gaz.badBuckets)
      = (if ovf then d.gaz.badOvf else d.gaz.badBuckets).filter fun x => decide (x ≠ (h, i)))

/-- R320, R322, R323, R325, R326, R340. -/
def Obligations.GazetteerMigration : Prop :=
  (∀ (h : Fin 2) (cmd : Word) (s : State), s.held = false →
    let t := gcTable cmd
    let base := bits (s.dev.word (GZ_REHASH_PART.word h).addr).toNat 9 0
    let rows := bits (s.dev.word (GZ_REHASH_PART.word h).addr).toNat 25 16
    let room : Prop := s.dev.get (GZ_TBL_STATE.STATE h t) = 0 ∧ base + rows ≤ 640
      ∧ (∀ u < 16, ∀ y, y = gzTbl s.dev h u ∨ y = tblSoon s.dev u (tblEff s.dev u 0) → y.en = true →
          overlap base rows y.base y.rows = false)
      ∧ ∀ y ∈ partsInUse s.dev, overlap base rows y.1 y.2 = false
    (¬ room → ∃ e, exec (.rehashStart h cmd) s = .next { s with dev := e } ∧ Dev.raised (GZ_STATUS.CFG_REJECT h) s.dev e
        ∧ (e.word (GZ_EVENT.word h).addr).toNat / 2 ^ 24 = t * 16 + 8
        ∧ Dev.regsOnly [(GZ_STATUS.word h).addr, (GZ_EVENT.word h).addr] { s.dev with free := e.free } e)
    ∧ (room → ∃ e, exec (.rehashStart h cmd) s = .next { s with dev := e }
        ∧ (∀ k < 2, e.get (GZ_TBL_STATE.STATE k t) = 1)
        ∧ e.gaz = { s.dev.gaz with moved := e.gaz.moved, oldPart := e.gaz.oldPart } ∧ t ∉ e.gaz.moved
        ∧ e.gaz.oldPart.get (0, 0) t = (s.dev.get (GZ_TBL_PART.BASE_ROW 0 t), s.dev.get (GZ_TBL_PART.ROWS 0 t))
        ∧ dataWord (e.wget (wkey (mbxGz 0) (3 * 2 ^ 28 + t))) 0 = (s.dev.word (GZ_REHASH_SEED.word h).addr).toNat
        ∧ dataWord (e.wget (wkey (mbxGz 0) (3 * 2 ^ 28 + t))) 1 = (s.dev.word (GZ_TBL_SEED.word h t).addr).toNat
        ∧ bits (dataWord (e.wget (wkey (mbxGz 0) (3 * 2 ^ 28 + t))) 2) 9 0 = base
        ∧ bits (dataWord (e.wget (wkey (mbxGz 0) (3 * 2 ^ 28 + t))) 2) 25 16 = rows
        ∧ bits (dataWord (e.wget (wkey (mbxGz 0) (3 * 2 ^ 28 + t))) 3) 19 0 = 0))
  ∧ (∀ (t : Fin 16) (bad : List (Fin 2 × Bool × Nat)) (s : State), s.held = false →
    (s.dev.get (GZ_TBL_STATE.STATE 0 t) ≠ 1 ∨ s.dev.gaz.moved.contains t.val = true ∨ s.dev.serves (ownerOf s.dev t) = false →
      exec (.rehashSwitch t bad) s = .next s)
    ∧ (∀ d, s.dev.get (GZ_TBL_STATE.STATE 0 t) = 1 → s.dev.gaz.moved.contains t.val = false → s.dev.serves (ownerOf s.dev t) = true →
      d = engineMeets s.dev t bad →
      ∀ r, copyAll (gzTbl d 0 t) (d.get (GZ_TBL_CFG.MAX_KICKS 0 t))
          ⟨BitVec.ofNat 32 (dataWord (s.dev.wget (wkey (mbxGz 0) (3 * 2 ^ 28 + t))) 0),
            bits (dataWord (s.dev.wget (wkey (mbxGz 0) (3 * 2 ^ 28 + t))) 2) 9 0,
            bits (dataWord (s.dev.wget (wkey (mbxGz 0) (3 * 2 ^ 28 + t))) 2) 25 16⟩
          (((gzPlan d).entries (gzTbl d 0 t) t).filter fun x => !x.1.1) (gzPlan d) [] = r →
        ∃ e, exec (.rehashSwitch t bad) s = .next { s with dev := e }
          ∧ (r = none → (∀ k < 2, e.get (GZ_TBL_STATE.STATE k t) = 3) ∧ e.gaz = d.gaz)
          ∧ (∀ ys, r = some ys → t.val ∈ e.gaz.moved ∧ e.get (GZ_TBL_STATE.STATE 0 t) = 1 ∧ e.gaz.slots = s.dev.gaz.slots
            ∧ .switch t.val ∈ owed (e.ge (ownerOf s.dev t))))
    ∧ (∀ base rows, s.dev.gaz.oldPart.get (0, 0) t = (base, rows) →
      let left : Prop := (∃ x ∈ s.dev.gaz.slots, 1024 * base ≤ x.1 % 2 ^ 22 / 4 ∧ x.1 % 2 ^ 22 / 4 < 1024 * (base + rows))
        ∨ ∃ loc v w m, .ent false loc v w m ∈ owed (s.dev.ge (ownerOf s.dev t)) ∧ 1024 * base ≤ loc / 4 ∧ loc / 4 < 1024 * (base + rows)
      (s.dev.get (GZ_TBL_STATE.STATE 0 t) ≠ 2 ∨ left → exec (.rehashDone t) s = .next s)
      ∧ (s.dev.get (GZ_TBL_STATE.STATE 0 t) = 2 → ¬ left →
        ∃ e, exec (.rehashDone t) s = .next { s with dev := e } ∧ (∀ k < 2, e.get (GZ_TBL_STATE.STATE k t) = 0)
          ∧ (e.word (GZ_EVENT.word (ownerOf s.dev t)).addr).toNat / 2 ^ 24 = t.val * 16 + 2
          ∧ Dev.raised (GZ_STATUS.REHASH_DONE (ownerOf s.dev t)) s.dev e ∧ t.val ∉ e.gaz.moved))
    ∧ (s.dev.get (GZ_TBL_STATE.STATE 0 t) ≠ 3 → exec (.rehashFail t) s = .next s)
    ∧ (s.dev.get (GZ_TBL_STATE.STATE 0 t) = 3 → ∃ e, exec (.rehashFail t) s = .next { s with dev := e }
        ∧ (∀ k < 2, e.get (GZ_TBL_STATE.STATE k t) = 0) ∧ Dev.raised (GZ_STATUS.REHASH_FAIL (ownerOf s.dev t)) s.dev e
        ∧ (e.word (GZ_EVENT.word (ownerOf s.dev t)).addr).toNat / 2 ^ 24 = t.val * 16 + 3 ∧ e.gaz = s.dev.gaz)
    ∧ (∀ i d, d = (if s.dev.serves (ownerOf s.dev t) then engineMeets s.dev t bad else s.dev) →
      (entriesIn (gzPlan d) (gzTbl d 0 t) t true i = [] ∨ s.dev.serves (ownerOf s.dev t) = false ∨ s.dev.get (GZ_TBL_STATE.STATE 0 t) ≠ 0 →
        exec (.overflowMoveBack t i bad) s = .next { s with dev := d })
      ∧ ∀ x l key, entriesIn (gzPlan d) (gzTbl d 0 t) t true i = x :: l → key = gzKey (gzTbl d 0 t).width (gzTbl d 0 t).kw x.2 →
        ((∀ c < 2, (gzPlan d).freeRuns (gzTbl d 0 t).width ((partOf (gzTbl d 0 t)).bucket (gzTbl d 0 t).kw key c) = []) →
          exec (.overflowMoveBack t i bad) s = .next { s with dev := d })
        ∧ (∀ c < 2, ∀ b p r, b = (partOf (gzTbl d 0 t)).bucket (gzTbl d 0 t).kw key c → (gzPlan d).freeRuns (gzTbl d 0 t).width b = p :: r →
            (c = 1 → (gzPlan d).freeRuns (gzTbl d 0 t).width ((partOf (gzTbl d 0 t)).bucket (gzTbl d 0 t).kw key 0) = []) →
            s.dev.serves (ownerOf s.dev t) = true → s.dev.get (GZ_TBL_STATE.STATE 0 t) = 0 →
          ∃ e, exec (.overflowMoveBack t i bad) s = .next { s with dev := e } ∧ e.gaz.slots = s.dev.gaz.slots
            ∧ (e.ge (ownerOf s.dev t)).steps = (s.dev.ge (ownerOf s.dev t)).steps ++
              [⟨entryWrites (gzTbl d 0 t).width (false, b, p) x.2 (.from true i) ++ [.moved t.val], false⟩,
                ⟨freeWrites (gzTbl d 0 t).width x.1, true⟩])))

/-- R326, R331-R337, R572. -/
def Obligations.LearningAndAging : Prop :=
  (∀ (sl : Fin 32) (bad : List (Fin 2 × Bool × Nat)) (s : State), s.held = false →
    ((s.dev.sl sl).learn = [] → exec (.learnEventArrive sl bad) s = .next s)
    ∧ ∀ x r o d, (s.dev.sl sl).learn = x :: r → o = ownerOf s.dev x.table → d = (s.dev.slice sl fun y => { y with learn := r }) →
      (4096 ≤ (s.dev.ge o).learn.length ∨ (∀ k < 2, s.dev.get (HK_ENGINE.STATE k) = 4) →
        ∃ e, exec (.learnEventArrive sl bad) s = .next { s with dev := e } ∧ (e.sl sl).learn = r
          ∧ e.get (GZ_CNT_LEARN_DROP o) = (s.dev.get (GZ_CNT_LEARN_DROP o) + 1) % 2 ^ 32
          ∧ Dev.regsOnly [(GZ_CNT_LEARN_DROP o).addr] { s.dev with slices := e.slices } e)
      ∧ ((s.dev.ge o).learn.length < 4096 → s.dev.serves o = false → (∃ k < 2, s.dev.get (HK_ENGINE.STATE k) ≠ 4) →
        exec (.learnEventArrive sl bad) s = .next { s with dev := d.setGe o fun y => { y with learn := y.learn ++ [x] } })
      ∧ (∀ m, (s.dev.ge o).learn = [] → s.dev.serves o = true → m = engineMeets d x.table bad →
        (s.dev.get (GZ_TBL_STATE.STATE 0 x.table) = 1 →
          ∃ e, exec (.learnEventArrive sl bad) s = .next { s with dev := e } ∧ (e.sl sl).learn = r ∧ e.gaz.windows = s.dev.gaz.windows
            ∧ e.get (GZ_CNT_HELD o) = (m.get (GZ_CNT_HELD o) + 1) % 2 ^ 32)
        ∧ (s.dev.get (GZ_TBL_STATE.STATE 0 x.table) ≠ 1 → s.dev.gaz.holds = [] → s.dev.gaz.windows = [] →
          (gzPlan m).find (gzTbl m 0 x.table) x.table x.key.toNat = [] →
          ∃ e, exec (.learnEventArrive sl bad) s = .next { s with dev := e } ∧ (e.sl sl).learn = r ∧ e.regs = m.regs
            ∧ e.gaz.windows = [{ table := x.table, key := x.key, cand := x.port
                                 left := max 1 (s.dev.get (GZ_TBL_LEARN.SETTLE 0 x.table)) }])))
  ∧ (∀ (bad : List (Fin 2 × Bool × Nat)) (s : State), s.held = false →
    ((∀ w ∈ s.dev.gaz.windows, w.left ≠ 0 ∨ s.dev.serves (ownerOf s.dev w.table) = false) → exec (.settleWindowClose bad) s = .next s)
    ∧ (∀ w o d, s.dev.gaz.windows.find? (fun w => decide (w.left = 0) && s.dev.serves (ownerOf s.dev w.table)) = some w →
        o = ownerOf s.dev w.table → d = engineMeets s.dev w.table bad →
      ∃ e, exec (.settleWindowClose bad) s = .next { s with dev := e } ∧ e.gaz.windows = s.dev.gaz.windows.erase w
        ∧ e.gaz.slots = s.dev.gaz.slots
        ∧ (s.dev.get (GZ_TBL_STATE.STATE 0 w.table) = 1 →
            e.get (GZ_CNT_HELD o) = (d.get (GZ_CNT_HELD o) + 1) % 2 ^ 32 ∧ e.gaz.eng = s.dev.gaz.eng)
        ∧ (s.dev.get (GZ_TBL_STATE.STATE 0 w.table) ≠ 1 → (gzTbl s.dev 0 w.table).en = true → ∀ y l,
            (gzPlan d).find (gzTbl s.dev 0 w.table) w.table w.key.toNat = y :: l →
            (hdrStatic (gzHeader (gzTbl s.dev 0 w.table).width y.2) = true
              ∨ hdrPort (gzHeader (gzTbl s.dev 0 w.table).width y.2) = w.cand →
              e = { d with gaz := { d.gaz with windows := s.dev.gaz.windows.erase w } })
            ∧ (hdrStatic (gzHeader (gzTbl s.dev 0 w.table).width y.2) = false →
              hdrPort (gzHeader (gzTbl s.dev 0 w.table).width y.2) ≠ w.cand →
              (e.ge o).steps.length = (s.dev.ge o).steps.length + 1
              ∧ e.get (GZ_CNT_LEARNED o) = (d.get (GZ_CNT_LEARNED o) + 1) % 2 ^ 32))
        ∧ (s.dev.get (GZ_TBL_STATE.STATE 0 w.table) ≠ 1 → (gzTbl s.dev 0 w.table).en = false →
            e = { d with gaz := { d.gaz with windows := s.dev.gaz.windows.erase w } })))
  ∧ (∀ s : State, s.held = false → ∃ l, exec .flapHoldEnd s = .next { s with dev := { s.dev with gaz := { s.dev.gaz with holds := l } } }
        ∧ ∀ x, x ∈ l ↔ x ∈ s.dev.gaz.holds ∧ x.2.2 ≠ 0)
  ∧ (∀ (t : Fin 16) (bad : List (Fin 2 × Bool × Nat)) (s : State), s.held = false →
    (s.dev.get (GZ_TBL_AGE.AGE_FRAMES 0 t) = 0 ∨ s.dev.gaz.ageCnt.get 0 t < s.dev.get (GZ_TBL_AGE.AGE_FRAMES 0 t) →
      exec (.ageStepDue t) s = .next s)
    ∧ (s.dev.get (GZ_TBL_AGE.AGE_FRAMES 0 t) ≠ 0 → s.dev.get (GZ_TBL_AGE.AGE_FRAMES 0 t) ≤ s.dev.gaz.ageCnt.get 0 t →
      ∃ e, exec (.ageStepDue t) s = .next { s with dev := { s.dev with gaz := e } } ∧ e.ageCnt.get 0 t = 0
        ∧ e.ageDue.get 0 t = 1 ∧ e.slots = s.dev.gaz.slots)
    ∧ (s.dev.gaz.ageDue.get 0 t = 0 ∨ s.dev.get (GZ_TBL_STATE.STATE 0 t) ≠ 0 ∨ s.dev.flag (GZ_TBL_CFG.EN 0 t) = false
        ∨ s.dev.serves (ownerOf s.dev t) = false → exec (.ageStep t bad) s = .next s)
    ∧ (s.dev.gaz.ageDue.get 0 t ≠ 0 → s.dev.get (GZ_TBL_STATE.STATE 0 t) = 0 → s.dev.flag (GZ_TBL_CFG.EN 0 t) = true →
        s.dev.serves (ownerOf s.dev t) = true →
      ∃ e, exec (.ageStep t bad) s = .next { s with dev := e } ∧ e.gaz.ageDue.get 0 t = s.dev.gaz.ageDue.get 0 t - 1
        ∧ e.gaz.slots = s.dev.gaz.slots
        ∧ e = (gzAge (engineMeets { s.dev with gaz := { s.dev.gaz with ageDue := e.gaz.ageDue } } t bad) t).2.2))

/-! ### ASE, buffer pools, telemetry, performance monitors (chapters 10, 11, 14, 15) -/

/-- R359-R361, R364-R366, R368. -/
def Obligations.AseUpdates : Prop :=
  (∀ (sl : Fin 32) (cmd : Word) (s : State), s.held = false →
    (s.dev.flag (ASE_UPD_STAT.BUSY sl) = true → ∃ e, exec (.aseUpdate sl cmd) s = .next { s with dev := e }
      ∧ e.get ⟨(ASE_STATUS.word sl).addr, 2, 2⟩ = 1 ∧ Dev.regsOnly [(ASE_EVENT.word sl).addr, (ASE_STATUS.word sl).addr] s.dev e)
    ∧ (s.dev.flag (ASE_UPD_STAT.BUSY sl) = false →
      (∀ r, (r = 1 ∧ (aseBanks s.dev ≤ bits cmd.toNat 14 11 ∨ s.dev.flag (ASE_BANK_CFG.EN sl (bits cmd.toNat 14 11)) = false
              ∨ s.dev.flag (ASE_BANK_CFG.MIRROR sl (bits cmd.toNat 14 11)) = true))
          ∨ (r = 2 ∧ bits cmd.toNat 14 11 < aseBanks s.dev ∧ s.dev.flag (ASE_BANK_CFG.EN sl (bits cmd.toNat 14 11)) = true
              ∧ s.dev.flag (ASE_BANK_CFG.MIRROR sl (bits cmd.toNat 14 11)) = false
              ∧ bits cmd.toNat 10 0 % aseWidth s.dev sl (bits cmd.toNat 14 11) ≠ 0)
          ∨ (r = 3 ∧ bits cmd.toNat 14 11 < aseBanks s.dev ∧ s.dev.flag (ASE_BANK_CFG.EN sl (bits cmd.toNat 14 11)) = true
              ∧ s.dev.flag (ASE_BANK_CFG.MIRROR sl (bits cmd.toNat 14 11)) = false
              ∧ bits cmd.toNat 10 0 % aseWidth s.dev sl (bits cmd.toNat 14 11) = 0
              ∧ (aseStaged s.dev sl (aseWidth s.dev sl (bits cmd.toNat 14 11))).valid = true
              ∧ breaksFilter s.dev sl (bits cmd.toNat 14 11) (bits cmd.toNat 10 0)
                  (aseStaged s.dev sl (aseWidth s.dev sl (bits cmd.toNat 14 11))) = true) →
        ∃ e, exec (.aseUpdate sl cmd) s = .next { s with dev := e } ∧ e.get (ASE_UPD_STAT.RESULT sl) = r
          ∧ e.get (ASE_UPD_STAT.BUSY sl) = 0 ∧ e.get ⟨(ASE_STATUS.word sl).addr, 1, 1⟩ = 1
          ∧ Dev.regsOnly [(ASE_UPD_STAT.word sl).addr, (ASE_EVENT.word sl).addr, (ASE_STATUS.word sl).addr] s.dev e)
      ∧ (bits cmd.toNat 14 11 < aseBanks s.dev → s.dev.flag (ASE_BANK_CFG.EN sl (bits cmd.toNat 14 11)) = true →
          s.dev.flag (ASE_BANK_CFG.MIRROR sl (bits cmd.toNat 14 11)) = false →
          bits cmd.toNat 10 0 % aseWidth s.dev sl (bits cmd.toNat 14 11) = 0 →
          (aseStaged s.dev sl (aseWidth s.dev sl (bits cmd.toNat 14 11))).valid = false
            ∨ breaksFilter s.dev sl (bits cmd.toNat 14 11) (bits cmd.toNat 10 0)
                (aseStaged s.dev sl (aseWidth s.dev sl (bits cmd.toNat 14 11))) = false →
        ∃ e, exec (.aseUpdate sl cmd) s = .next { s with dev := e } ∧ e.get (ASE_UPD_STAT.BUSY sl) = 1
          ∧ (e.sl sl).aseUpd = some (bits cmd.toNat 14 11, bits cmd.toNat 10 0,
              aseStaged s.dev sl (aseWidth s.dev sl (bits cmd.toNat 14 11)))
          ∧ Dev.regsOnly [(ASE_UPD_STAT.word sl).addr] { s.dev with slices := e.slices } e)))
  ∧ (∀ (sl : Fin 32) (s : State), s.held = false →
    (s.dev.sliceUp sl = false ∨ (s.dev.sl sl).aseUpd = none → exec (.aseUpdateCommit sl) s = .next s)
    ∧ ∀ b row x, s.dev.sliceUp sl = true → (s.dev.sl sl).aseUpd = some (b, row, x) → b < 16 → row < 2048 →
      ∃ e, exec (.aseUpdateCommit sl) s = .next { s with dev := e } ∧ e.ase.get {} (aseKey sl b row) = x
        ∧ (∀ k, k ≠ aseKey sl b row → e.ase.get {} k = s.dev.ase.get {} k) ∧ (e.sl sl).aseUpd = none
        ∧ e.get (ASE_UPD_STAT.BUSY sl) = 0 ∧ e.get (ASE_UPD_STAT.RESULT sl) = 0
        ∧ e.get (ASE_CNT_UPDATES sl) = (s.dev.get (ASE_CNT_UPDATES sl) + 1) % 2 ^ 32
        ∧ e.get ⟨(ASE_STATUS.word sl).addr, 0, 0⟩ = 1
        ∧ (b < aseBanks s.dev → ∀ q < aseWidth s.dev sl b, e.aseFlips.get (0, 0) (aseKey sl b (row + q)) = (0, 0)))
  ∧ (∀ (sl : Fin 32) (wrong bad : List (Fin 16)) (s : State), s.held = false →
    (s.dev.sliceUp sl = false ∨ s.dev.ticks / 32 ≤ (s.dev.sl sl).scrubDone → exec (.aseScrubRow sl wrong bad) s = .next s)
    ∧ (s.dev.sliceUp sl = true → (s.dev.sl sl).scrubDone < s.dev.ticks / 32 →
      let row := s.dev.get (ASE_SCRUB.ROW sl)
      let lost (b : Nat) : Bool := bad.any fun x => decide (x.val = b)
      let differs (b : Nat) : Bool := (wrong.any fun x => decide (x.val = b)) || decide (s.dev.aseFlips.get (0, 0) (aseKey sl b row) ≠ (0, 0))
      ∃ e, exec (.aseScrubRow sl wrong bad) s = .next { s with dev := e }
        ∧ e.get (ASE_SCRUB.ROW sl) = (row + 1) % 2048 ∧ (e.sl sl).scrubDone = (s.dev.sl sl).scrubDone + 1
        ∧ (∀ b < aseBanks s.dev, e.aseFlips.get (0, 0) (aseKey sl b row) = (0, 0))
        ∧ e.get (ASE_CNT_SCRUB_FIX sl) = (s.dev.get (ASE_CNT_SCRUB_FIX sl)
            + ((List.range (aseBanks s.dev)).filter fun b => !lost b && differs b).length) % 2 ^ 32
        ∧ e.reports.length = s.dev.reports.length + ((List.range (aseBanks s.dev)).filter fun b => lost b || differs b).length
        ∧ (∀ b ∈ bad, b.val < aseBanks s.dev → aseMirrored s.dev sl b = false →
            (e.ase.get {} (aseKey sl b (row - row % aseWidth s.dev sl b))).valid = false)
        ∧ ((∀ b ∈ bad, aseMirrored s.dev sl b = true) → e.ase = s.dev.ase)))

/-- R382-R387, R393-R395. -/
def Obligations.BufferPools : Prop :=
  (∀ (src : Src) (cmd : Word) (x : TagErrors) (s : State), s.held = false →
    (srcSecure src = false → bit cmd.toNat 20 = true → poolSecure s.dev (bits cmd.toNat 19 17) = true →
      ∃ e, exec (.bpmAlloc src cmd x) s = .next { s with dev := e } ∧ Dev.busErrorLogged src beWorld 0 BPM_ALLOC.word.addr true s.dev e
        ∧ Dev.regsOnly busErrorRegs { s.dev with reports := e.reports } e)
    ∧ (srcSecure src = true ∨ bit cmd.toNat 20 = false ∨ poolSecure s.dev (bits cmd.toNat 19 17) = false →
        s.dev.flag BPM_ALLOC_STAT.BUSY = true →
      ∃ e, exec (.bpmAlloc src cmd x) s = .next { s with dev := e } ∧ Dev.raised BPM_STATUS.CMD_LOST s.dev e
        ∧ Dev.regsOnly [BPM_STATUS.word.addr] s.dev e)
    ∧ (srcSecure src = true ∨ bit cmd.toNat 20 = false ∨ poolSecure s.dev (bits cmd.toNat 19 17) = false →
        s.dev.flag BPM_ALLOC_STAT.BUSY = false → ∀ g d,
        bpmAlloc (tagErrors s.dev x) (swRequester src) (bits cmd.toNat 16 0) (srcSecure src)
          (if bit cmd.toNat 20 then some (bits cmd.toNat 19 17) else none) = (g, d) →
      ∃ e, exec (.bpmAlloc src cmd x) s = .next { s with dev := e } ∧ e.bpm = d.bpm
        ∧ e.get BPM_ALLOC_STAT.RESULT = g.result ∧ e.get BPM_ALLOC_STAT.BUSY = 1
        ∧ (g.result = 0 → g.pool < 8 → g.index < 2 ^ 22 → g.ptr < 2 ^ 128 → e.get BPM_ALLOC_STAT.POOL = g.pool
          ∧ e.get BPM_ALLOC_STAT.INDEX = g.index ∧ e.wget (wkey mbxBpm 1) = g.ptr)))
  ∧ (∀ (d e : Dev) (r len : Nat) (sec : Bool) (force : Option Nat) (g : BpmGot), r < 9 → bpmAlloc d r len sec force = (g, e) →
    g.result ≤ 3
    ∧ (g.result ≠ 0 → e.bpm.tags = d.bpm.tags)
    ∧ (g.result = 0 → g.pool < 8 ∧ d.flag (BPM_POOL_CFG.EN g.pool) = true ∧ len ≤ poolSize d g.pool
      ∧ g.index < d.get (BPM_POOL_CFG.COUNT g.pool) ∧ g.ptr = bpmPtr d g.pool g.index
      ∧ (sec = false → poolSecure d g.pool = false) ∧ (∀ q, force = some q → g.pool = q)
      ∧ bpmTag d g.pool g.index < 0x80 ∧ bpmTag e g.pool g.index = 0x80 + r
      ∧ (∀ k, k ≠ g.pool * 2 ^ 22 + g.index → e.bpm.tags.get 0x0E k = d.bpm.tags.get 0x0E k)
      ∧ e.get (BPM_POOL_FREE.FREE g.pool) = d.get (BPM_POOL_FREE.FREE g.pool) - 1))
  ∧ (∀ (src : Src) (x : TagErrors) (s : State), s.held = false →
    (∀ p, srcSecure src = false → poolAt s.dev (s.dev.wget (wkey mbxBpm 0) % 2 ^ 40) = some p → poolSecure s.dev p = true →
      ∃ e, exec (.bpmFree src x) s = .next { s with dev := e } ∧ Dev.busErrorLogged src beWorld 0 BPM_FREE.word.addr true s.dev e
        ∧ Dev.regsOnly busErrorRegs { s.dev with reports := e.reports } e)
    ∧ ((srcSecure src = true ∨ ∀ p, poolAt s.dev (s.dev.wget (wkey mbxBpm 0) % 2 ^ 40) = some p → poolSecure s.dev p = false) →
        s.dev.flag BPM_FREE_STAT.BUSY = true →
      ∃ e, exec (.bpmFree src x) s = .next { s with dev := e } ∧ Dev.raised BPM_STATUS.CMD_LOST s.dev e
        ∧ Dev.regsOnly [BPM_STATUS.word.addr] s.dev e)
    ∧ ((srcSecure src = true ∨ ∀ p, poolAt s.dev (s.dev.wget (wkey mbxBpm 0) % 2 ^ 40) = some p → poolSecure s.dev p = false) →
        s.dev.flag BPM_FREE_STAT.BUSY = false →
      ∃ e, exec (.bpmFree src x) s = .next { s with dev := e } ∧ e.get BPM_FREE_STAT.BUSY = 1
        ∧ e.get BPM_FREE_STAT.RESULT = (bpmFree (tagErrors s.dev x) (swRequester src) (s.dev.wget (wkey mbxBpm 0) % 2 ^ 40)).1
        ∧ e.bpm = (bpmFree (tagErrors s.dev x) (swRequester src) (s.dev.wget (wkey mbxBpm 0) % 2 ^ 40)).2.bpm))
  ∧ (∀ (d e : Dev) (r ptr k : Nat), r < 9 → bpmFree d r ptr = (k, e) →
    (k ≠ 0 → e.bpm.tags = d.bpm.tags ∧ e.get (BPM_CNT_REJECT.COUNT r) = (d.get (BPM_CNT_REJECT.COUNT r) + 1) % 2 ^ 32
      ∧ e.reports.length = d.reports.length + 1 ∧ e.get BPM_ERR.KIND = k)
    ∧ (k = 1 ↔ poolAt d ptr = none)
    ∧ (k = 0 → ∃ p i, poolAt d ptr = some p ∧ ptr % 2 ^ 38 = d.get (BPM_POOL_BASE.BASE p) * poolSize d p + i * poolSize d p
      ∧ bpmTag d p i % 16 = r ∧ 0x80 ≤ bpmTag d p i
      ∧ bpmTag e p i = r ∧ ∀ j, j ≠ p * 2 ^ 22 + i → e.bpm.tags.get 0x0E j = d.bpm.tags.get 0x0E j))
  ∧ (∀ (cmd : Word) (x : TagErrors) (s : State), s.held = false → s.dev.bpm.tags.wf (fun _ => 0x0E) = true →
    ∃ e, exec (.bpmReclaim cmd x) s = .next { s with dev := e } ∧ ∀ p i, i < 2 ^ 22 → bpmTag e p i =
      if p = bits cmd.toNat 2 0 ∧ bpmTag (tagErrors s.dev x) p i = 0x80 + bits cmd.toNat 7 4 then bits cmd.toNat 7 4
      else bpmTag (tagErrors s.dev x) p i)
  ∧ (∀ (d : Dev) (n : Nat), tagErrors d ⟨n, []⟩ = d.addTo BPM_CNT_TAG_CORR n)
  ∧ (∀ (d : Dev) (p : Fin 8) (i : BitVec 22) (n : Nat), i.toNat < d.get (BPM_POOL_CFG.COUNT p) →
    d.flag (BPM_POOL_CFG.EN p) = true → bpmTag d p i.toNat ≠ 0x8F →
    ∃ e, tagErrors d ⟨n, [(p, i)]⟩ = e ∧ bpmTag e p i.toNat = 0x8F
      ∧ (∀ k, k ≠ p.val * 2 ^ 22 + i.toNat → e.bpm.tags.get 0x0E k = d.bpm.tags.get 0x0E k)
      ∧ e.get (BPM_POOL_FREE.FREE p) = d.get (BPM_POOL_FREE.FREE p) - (if bpmTag d p i.toNat < 0x80 then 1 else 0)
      ∧ e.get BPM_STATUS.TAG_UNCORR = 1 ∧ e.get BPM_CNT_TAG_CORR = (d.get BPM_CNT_TAG_CORR + n) % 2 ^ 32
      ∧ e.get BPM_CNT_TAG_UNCORR = (d.get BPM_CNT_TAG_UNCORR + 1) % 2 ^ 32 ∧ e.reports.length = d.reports.length + 1)

/-- R486, R487. -/
def Obligations.FlowExpiry : Prop :=
  ∀ (h : Fin 2) (s : State), s.held = false →
    (∀ n bad, 2 ^ 18 ≤ n ∨ flowAt s.dev h n = none →
      exec (.flowIdleExpire h n bad) s = .next s ∧ exec (.flowActiveExpire h n bad) s = .next s)
    ∧ (∀ n f, n < 2 ^ 18 → flowAt s.dev h n = some f →
      ∃ e, exec (.flowIdleExpire h n true) s = .next { s with dev := e } ∧ exec (.flowActiveExpire h n true) s = .next { s with dev := e }
        ∧ flowAt e h n = none ∧ (∀ k, k ≠ h * 2 ^ 18 + n → e.tel.flows.get none k = s.dev.tel.flows.get none k)
        ∧ Dev.raised TEL_STATUS.FLOW_ECC s.dev e ∧ e.get TEL_CNT_FLOW_ECC = (s.dev.get TEL_CNT_FLOW_ECC + 1) % 2 ^ 32
        ∧ e.reports.length = s.dev.reports.length + 1
        ∧ Dev.regsOnly [TEL_STATUS.word.addr, TEL_CNT_FLOW_ECC.addr] { s.dev with tel := e.tel, reports := e.reports } e)
    ∧ (∀ n f, n < 2 ^ 18 → flowAt s.dev h n = some f →
      (s.dev.get (TEL_FLOW_CFG.IDLE_FRAMES h) = 0 ∨ f.idle < s.dev.get (TEL_FLOW_CFG.IDLE_FRAMES h) →
        exec (.flowIdleExpire h n false) s = .next s)
      ∧ (s.dev.get (TEL_FLOW_CFG.IDLE_FRAMES h) ≠ 0 → s.dev.get (TEL_FLOW_CFG.IDLE_FRAMES h) ≤ f.idle →
        ∃ e, exec (.flowIdleExpire h n false) s = .next { s with dev := e } ∧ flowAt e h n = none
          ∧ (∀ k, k ≠ h * 2 ^ 18 + n → e.tel.flows.get none k = s.dev.tel.flows.get none k)
          ∧ e.get TEL_CNT_FLOWS_EXPORTED = (s.dev.get TEL_CNT_FLOWS_EXPORTED + 1) % 2 ^ 32)
      ∧ (s.dev.get (TEL_FLOW_CFG.ACTIVE_FRAMES h) = 0 ∨ f.active < s.dev.get (TEL_FLOW_CFG.ACTIVE_FRAMES h) →
        exec (.flowActiveExpire h n false) s = .next s)
      ∧ (s.dev.get (TEL_FLOW_CFG.ACTIVE_FRAMES h) ≠ 0 → s.dev.get (TEL_FLOW_CFG.ACTIVE_FRAMES h) ≤ f.active →
        ∃ e, exec (.flowActiveExpire h n false) s = .next { s with dev := e }
          ∧ (∃ x, flowAt e h n = some x ∧ x.active = 0 ∧ x.octets = 0 ∧ x.copies = 0 ∧ x.firstTs = f.lastTs ∧ x.key = f.key)
          ∧ (∀ k, k ≠ h * 2 ^ 18 + n → e.tel.flows.get none k = s.dev.tel.flows.get none k)
          ∧ e.get TEL_CNT_FLOWS_EXPORTED = (s.dev.get TEL_CNT_FLOWS_EXPORTED + 1) % 2 ^ 32))
    ∧ (∀ bad, s.dev.tel.flows.wf (fun _ => none) = true → ∃ e, exec (.flowFlush h bad) s = .next { s with dev := e }
      ∧ ∀ k, e.tel.flows.get none k = if k / 2 ^ 18 = h.val then none else s.dev.tel.flows.get none k)

/-- R498-R503. -/
def Obligations.ExportMessages : Prop :=
  ∀ (r : Fin 16) (s : State), s.held = false →
    (s.dev.flag (TEL_RING_CFG.EN r) = false ∨ (s.dev.ri r).templateDue = false → exec (.templateSend r) s = .next s)
    ∧ (s.dev.flag (TEL_RING_CFG.EN r) = true → (s.dev.ri r).templateDue = true →
      ∃ e, exec (.templateSend r) s = .next { s with dev := { s.dev with tel := { s.dev.tel with rings := e } } }
        ∧ e.get {} r.val = { s.dev.ri r with msgs := (s.dev.ri r).msgs ++ [.templates], templateDue := false }
        ∧ ∀ k, k ≠ r.val → e.get {} k = s.dev.ri k)
    ∧ ((s.dev.ri r).staged = [] → exec (.messageFlushTimeout r) s = .next s)
    ∧ ((s.dev.ri r).staged ≠ [] →
      ∃ e, exec (.messageFlushTimeout r) s = .next { s with dev := { s.dev with tel := { s.dev.tel with rings := e } } }
        ∧ (e.get {} r.val).msgs = (s.dev.ri r).msgs ++ [.records (s.dev.ri r).staged] ∧ (e.get {} r.val).staged = []
        ∧ ∀ k, k ≠ r.val → e.get {} k = s.dev.ri k)
    ∧ (∀ dt, (s.dev.ri r).msgs = [] ∨ s.dev.flag (TEL_RING_CFG.EN r) = false
        ∨ (s.dev.get (TEL_RING_CFG.KIND r) = 1 ∧ hostUp s.dev = false) → exec (.exportMessageSend r dt) s = .next s)
    ∧ (∀ dt m rest msg rate lost, (s.dev.ri r).msgs = m :: rest → s.dev.flag (TEL_RING_CFG.EN r) = true →
        (s.dev.get (TEL_RING_CFG.KIND r) = 1 → hostUp s.dev = true) →
        msg = ringBytes s.dev r (s.grid.nowNs dt) m → rate = (s.dev.word (TEL_RING_RATE.word r).addr).toNat →
        lost = ((decide (s.dev.get (TEL_RING_CFG.KIND r) = 1) && !dmaFits s.dev r msg.length)
          || (decide (2 ≤ s.dev.get (TEL_RING_CFG.KIND r)) && (s.dev.ri r).bufs.isEmpty)) →
      (rate ≠ 0 → rate < (s.dev.ri r).spent + (msg.length - (s.dev.ri r).part) →
        ∃ e, exec (.exportMessageSend r dt) s = .next { s with dev := { s.dev with tel := { s.dev.tel with rings := e } } }
          ∧ e.get {} r.val = { s.dev.ri r with
              part := (s.dev.ri r).part + (rate - (s.dev.ri r).spent), spent := max (s.dev.ri r).spent rate }
          ∧ ∀ k, k ≠ r.val → e.get {} k = s.dev.ri k)
      ∧ (∀ x, rate = 0 ∨ (s.dev.ri r).spent + (msg.length - (s.dev.ri r).part) ≤ rate →
          x = { s.dev.ri r with msgs := rest, spent := (s.dev.ri r).spent + (msg.length - (s.dev.ri r).part), part := 0
                                seqNo := if lost then (s.dev.ri r).seqNo else ((s.dev.ri r).seqNo + m.recs.length) % 2 ^ 32 } →
        (s.dev.get (TEL_RING_CFG.KIND r) = 0 →
          ∃ e, exec (.exportMessageSend r dt) s = .next { s with dev := e } ∧ (e.ri r).msgs = rest ∧ (e.ri r).seqNo = x.seqNo
            ∧ e.get (TEL_RING_SENT.SENT r) = (s.dev.get (TEL_RING_SENT.SENT r) + 1) % 2 ^ 32
            ∧ ∃ f, e.frame s.dev.nextFid = some f ∧ f.complete = true ∧ f.inPort = s.dev.get (TEL_RING_CFG.PORT r))
        ∧ (s.dev.get (TEL_RING_CFG.KIND r) = 1 →
          ∃ d, exec (.exportMessageSend r dt) s = .next { s with dev := dmaSend d r msg } ∧ d.ri r = x
            ∧ d.word (TEL_RING_PROD.word r).addr = s.dev.word (TEL_RING_PROD.word r).addr
            ∧ d.word (TEL_RING_CONS.word r).addr = s.dev.word (TEL_RING_CONS.word r).addr)
        ∧ (2 ≤ s.dev.get (TEL_RING_CFG.KIND r) →
          ∃ e, exec (.exportMessageSend r dt) s = .next { s with dev := e }
            ∧ (lost = false → e.ri r = archWrite (archSize s.dev r) (msg.length + 2) msg true x
              ∧ e.get (TEL_RING_SENT.SENT r) = (s.dev.get (TEL_RING_SENT.SENT r) + 1) % 2 ^ 32)
            ∧ (lost = true → e.ri r = x
              ∧ e.get (TEL_RING_DROP.DROP r) = (s.dev.get (TEL_RING_DROP.DROP r) + 1) % 2 ^ 32))))
    ∧ (∀ (d : Dev) (msg : List Byte), 2 ^ max 16 (min 30 (d.get (TEL_RING_SIZE.LOG2_SIZE r))) ≤ msg.length →
      Dev.raised TEL_STATUS.RING_FULL d (dmaSend d r msg)
        ∧ (dmaSend d r msg).get (TEL_RING_DROP.DROP r) = (d.get (TEL_RING_DROP.DROP r) + 1) % 2 ^ 32
        ∧ (dmaSend d r msg).get (TEL_RING_PROD.PROD r) = d.get (TEL_RING_PROD.PROD r))
    ∧ (∀ (d : Dev) (msg : List Byte), msg.length < 2 ^ max 16 (min 30 (d.get (TEL_RING_SIZE.LOG2_SIZE r))) →
        d.word (TEL_RING_PROD.word r).addr = 0 → d.word (TEL_RING_CONS.word r).addr = 0 →
      (dmaSend d r msg).get (TEL_RING_PROD.PROD r) = msg.length
        ∧ (dmaSend d r msg).get (TEL_RING_SENT.SENT r) = (d.get (TEL_RING_SENT.SENT r) + 1) % 2 ^ 32
        ∧ .hostWrite (telPf d r) (BitVec.ofNat 64 (d.wget (wkey mbxTel (2 ^ 28 + r)))) msg ∈ (dmaSend d r msg).out)
    ∧ (∀ cmd src dest, src = bits cmd.toNat 23 20 → dest = bits cmd.toNat 19 16 →
      (s.dev.flag ID_CAP.ARCHIVE_PRESENT = false ∨ ringOfKind s.dev src 2 = false ∨ ringOfKind s.dev dest 1 = false → ∃ e, 
        exec (.archiveCopy cmd) s = .next { s with dev := e } ∧ Dev.raised TEL_STATUS.CFG_REJECT s.dev e ∧ Dev.regsOnly [TEL_STATUS.word.addr] s.dev e)
      ∧ (s.dev.flag ID_CAP.ARCHIVE_PRESENT = true → ringOfKind s.dev src 2 = true → ringOfKind s.dev dest 1 = true →
        ∃ e, exec (.archiveCopy cmd) s = .next { s with dev := { s.dev with tel := e } } ∧ e.archBusy = true
          ∧ e.rings.get {} dest = { s.dev.ri dest with msgs := (s.dev.ri dest).msgs ++ archPages s.dev cmd }
          ∧ ∀ k, k ≠ dest → e.rings.get {} k = s.dev.ri k))
    ∧ (s.dev.tel.archBusy = false ∨ copying s.dev = true → exec .archDone s = .next s)
    ∧ (s.dev.tel.archBusy = true → copying s.dev = false → ∃ e, exec .archDone s = .next { s with dev := e } ∧ e.tel.archBusy = false
        ∧ Dev.raised TEL_STATUS.ARCH_DONE s.dev e ∧ Dev.regsOnly [TEL_STATUS.word.addr] { s.dev with tel := e.tel } e)

/-- R515, R518, R526-R534. -/
def Obligations.PerformanceMonitors : Prop :=
  (∀ s : State, s.held = false →
    (∀ us, s.dev.pmu.taken = none → exec (.snapshotComplete us) s = .next s)
    ∧ (∀ us v, s.dev.pmu.taken = some v → ∃ e, exec (.snapshotComplete us) s = .next { s with dev := e } ∧ e.pmu.taken = none
      ∧ e.pmu.shown.regs = v.regs ∧ e.pmu.shown.seq = (s.dev.get PMU_SNAP_SEQ.SNAP_SEQ + 1) % 2 ^ 32
      ∧ e.get PMU_SNAP_SEQ.SNAP_SEQ = (s.dev.get PMU_SNAP_SEQ.SNAP_SEQ + 1) % 2 ^ 32
      ∧ e.get PMU_SNAP_LAT.LAT = min us 65535 ∧ (200 < us → e.get PMU_DEV_STATUS.SNAP_LATE = 1))
    ∧ (∀ us v n seq, s.dev.pmu.taken = some v → n = sweepSlots s.dev → seq = (s.dev.get PMU_SNAP_SEQ.SNAP_SEQ + 1) % 2 ^ 32 →
      ∃ e, exec (.snapshotComplete us) s = .next { s with dev := e }
        ∧ (s.dev.flag PMU_SWEEP_CFG.EN = false ∨ seq % 2 ^ min 10 (s.dev.get PMU_SWEEP_CFG.EVERY_LOG2) ≠ 0
            ∨ s.dev.pmu.sweeping.isSome = true → e.pmu.sweeping = s.dev.pmu.sweeping)
        ∧ (s.dev.flag PMU_SWEEP_CFG.EN = true → seq % 2 ^ min 10 (s.dev.get PMU_SWEEP_CFG.EVERY_LOG2) = 0 →
            s.dev.pmu.sweeping = none →
          ((s.dev.get PMU_SWEEP_PROD.PROD + 1) % n = s.dev.get PMU_SWEEP_CONS.CONS % n →
            e.pmu.sweeping = none ∧ e.get PMU_DEV_STATUS.SWEEP_SKIPPED = 1
            ∧ e.get PMU_CNT_SWEEP_SKIPPED = (s.dev.get PMU_CNT_SWEEP_SKIPPED + 1) % 2 ^ 32)
          ∧ ((s.dev.get PMU_SWEEP_PROD.PROD + 1) % n ≠ s.dev.get PMU_SWEEP_CONS.CONS % n → e.pmu.sweeping = some e.pmu.shown)))
    ∧ (s.dev.pmu.sweeping = none ∨ sweepOverdue s.dev = true ∨ hostUp s.dev = false → exec .sweepDone s = .next s)
    ∧ (sweepOverdue s.dev = false → exec .sweepOverrun s = .next s)
    ∧ (∀ v, s.dev.pmu.sweeping = some v → sweepOverdue s.dev = false → hostUp s.dev = true →
      ∃ e, exec .sweepDone s = .next { s with dev := e } ∧ e.pmu.sweeping = none ∧ Dev.raised PMU_DEV_STATUS.SWEEP_DONE s.dev e
        ∧ .sweep (if bit (s.dev.word WLD_DEV.word.addr).toNat 11 then 1 else 0)
            (BitVec.ofNat 64 (s.dev.wget (wkey mbxPmu (3 * 2 ^ 28)) + s.dev.get PMU_SWEEP_PROD.PROD * 0x800000))
            (s.dev.get PMU_SWEEP_CFG.PARTS) (s.dev.get PMU_SWEEP_SLICES.SLICES) v ∈ e.out
        ∧ e.get PMU_SWEEP_PROD.PROD = (s.dev.get PMU_SWEEP_PROD.PROD + 1) % sweepSlots s.dev
        ∧ e.get PMU_CNT_SWEEPS = (s.dev.get PMU_CNT_SWEEPS + 1) % 2 ^ 32)
    ∧ (sweepOverdue s.dev = true →
      ∃ e, exec .sweepOverrun s = .next { s with dev := e } ∧ e.pmu.sweeping = none ∧ e.pmu.sweptLate = true
        ∧ Dev.raised PMU_DEV_STATUS.SWEEP_OVERRUN s.dev e
        ∧ e.get PMU_CNT_SWEEP_OVERRUN = (s.dev.get PMU_CNT_SWEEP_OVERRUN + 1) % 2 ^ 32)
    ∧ (∀ c k, (c = .start ∧ k = 0) ∨ (c = .stop ∧ k = 1) ∨ (c = .clear ∧ k = 2) →
      ∃ n, exec c s = .next { s with dev := { s.dev with pmu := { s.dev.pmu with sync := n } } } ∧ bit n k = true
        ∧ ∀ j, j ≠ k → bit n j = bit s.dev.pmu.sync j)
    ∧ (∀ m : Fin 35, (∃ e, exec (.pmuCmdClear m) s = .next { s with dev := e } ∧ (∀ i < 8, e.ctrGet (pmuCtr m i) = 0)
        ∧ e.get (PMU_STATUS.OVF m) = 0 ∧ e.ctrGet (pmuCtr m 8) = s.dev.ctrGet (pmuCtr m 8)
        ∧ (∀ a, (∀ i < 8, a ≠ pmuCtr m i) → e.ctrGet a = s.dev.ctrGet a)
        ∧ Dev.regsOnly [(PMU_STATUS.word m).addr] { s.dev with ctr := e.ctr } e)
      ∧ ∃ x, exec (.clearCycle m) s = .next { s with dev := { s.dev with ctr := x } } ∧ x.get 0 (pmuCtr m 8) = 0
        ∧ ∀ a, a ≠ pmuCtr m 8 → x.get 0 a = s.dev.ctr.get 0 a))
  ∧ (∀ (sl : Fin 32) (s : State), s.held = false → ((s.dev.sl sl).smpDue = [] → exec (.sliceSample sl) s = .next s)
    ∧ ∀ x rest, (s.dev.sl sl).smpDue = x :: rest → ∃ e, exec (.sliceSample sl) s = .next { s with dev := e }
      ∧ (e.sl sl).smpDue = rest ∧ e.get (SMP_CNT_SAMPLES sl) = (s.dev.get (SMP_CNT_SAMPLES sl) + 1) % 2 ^ 32
      ∧ ((s.dev.sl sl).samples.length < 1024 → (e.sl sl).samples = (s.dev.sl sl).samples ++ [x])
      ∧ (1024 ≤ (s.dev.sl sl).samples.length → e.get (SMP_CNT_LOST sl) = (s.dev.get (SMP_CNT_LOST sl) + 1) % 2 ^ 32
        ∧ e.get (SMP_STATUS.FULL sl) = 1
        ∧ (e.sl sl).samples = if s.dev.flag (SMP_CFG.WRAP sl) then (s.dev.sl sl).samples.drop 1 ++ [x] else (s.dev.sl sl).samples))
  ∧ (∀ (en : Fin 2) (entry word : BitVec 16) (cycles : Nat) (m l c : Bool) (s : State), s.held = false →
    (s.dev.flag (PMU_TS_CFG.EN en) = false ∨ s.dev.get (HK_ENGINE.STATE en) ≠ 0 →
      exec (.tansySample en entry word cycles m l c) s = .next s)
    ∧ (s.dev.flag (PMU_TS_CFG.EN en) = true → s.dev.get (HK_ENGINE.STATE en) = 0 → (s.dev.pmu.tansy.get [] en.val).length < 256 →
      ∃ e x, exec (.tansySample en entry word cycles m l c) s = .next { s with dev := e }
        ∧ e.pmu.tansy.get [] en.val = s.dev.pmu.tansy.get [] en.val ++ [x]
        ∧ x.toNat % 2 ^ 32 = entry.toNat * 2 ^ 16 + word.toNat ∧ x.toNat / 2 ^ 96 = s.grid.epoch.toNat % 2 ^ 32
        ∧ Dev.regsOnly [(PMU_TS_STAT.word en).addr] { s.dev with pmu := e.pmu } e)
    ∧ (s.dev.flag (PMU_TS_CFG.EN en) = true → s.dev.get (HK_ENGINE.STATE en) = 0 → 256 ≤ (s.dev.pmu.tansy.get [] en.val).length →
      ∃ e, exec (.tansySample en entry word cycles m l c) s = .next { s with dev := e }
        ∧ e.get PMU_CNT_TS_LOST = (s.dev.get PMU_CNT_TS_LOST + 1) % 2 ^ 32 ∧ e.get PMU_DEV_STATUS.TS_FULL = 1
        ∧ (s.dev.flag (PMU_TS_CFG.WRAP en) = false → e.pmu.tansy = s.dev.pmu.tansy)
        ∧ (s.dev.flag (PMU_TS_CFG.WRAP en) = true → ∃ x, e.pmu.tansy.get [] en.val = (s.dev.pmu.tansy.get [] en.val).drop 1 ++ [x])))

/-- R540, R566-R571. -/
def Obligations.EngineLife : Prop :=
  ∀ (e : Fin 2) (s : State), s.held = false →
    (∀ (code : Fin 10) (uaddr : BitVec 16) (post : Bool),
      let w := BitVec.ofNat 32 (uaddr.toNat * 65536 + (if post then 2048 else 0) + code.val)
      (code.val = 0 ∨ (s.dev.tstate e ≠ tsRunning ∧ (s.dev.tstate e ≠ tsRestarting ∨ (s.dev.tansy e).routine = false)) →
        exec (.engineFailure e code uaddr post) s = .next s)
      ∧ (code.val ≠ 0 → s.dev.tstate e = tsRestarting → (s.dev.tansy e).routine = true →
        ∃ d, exec (.engineFailure e code uaddr post) s = .next { s with dev := d } ∧ d.tstate e = tsDead
          ∧ d.word (HK_FAULT.word e).addr = w)
      ∧ (code.val ≠ 0 → s.dev.tstate e = tsRunning →
        ∃ d, exec (.engineFailure e code uaddr post) s = .next { s with dev := d } ∧ d.word (HK_FAULT.word e).addr = w
          ∧ (d.tansy e).failed = true ∧ d.tstate e ≠ tsRunning ∧ d.tstate (1 - e.val) = s.dev.tstate (1 - e.val))
      ∧ (code.val ≠ 0 → s.dev.tstate e = tsRunning → s.dev.tstate (1 - e.val) = tsRunning →
        ∃ d, exec (.engineFailure e code uaddr post) s = .next { s with dev := d } ∧ d.word (HK_FAULT.word e).addr = w
          ∧ (d.tansy e).failed = true ∧ d.get HK_STATUS.FAILED = 1 ∧ d.tstate (1 - e.val) = tsRunning
          ∧ d.tansy (1 - e.val) = s.dev.tansy (1 - e.val)
          ∧ (max 1 (s.dev.get HK_CTL.RESTART_MAX) ≤ s.dev.get (HK_ENGINE.RESTARTS e) → d.tstate e = tsDead
            ∧ d.get (HK_ENGINE.DUTIES_HELD_BY_PEER e) = 1 ∧ Dev.reported [(0x0A0 + e, w.toNat), (0x0A2 + e, w.toNat)] s.dev d)
          ∧ (s.dev.get (HK_ENGINE.RESTARTS e) < max 1 (s.dev.get HK_CTL.RESTART_MAX) →
            Dev.reported [(0x0A0 + e, w.toNat)] s.dev d
            ∧ (s.dev.flag HK_CTL.AUTO_RESTART = true → s.dev.hk.wardenFailed = false → d.tstate e = tsRestarting
              ∧ (d.tansy e).routine = false ∧ d.get (HK_ENGINE.RESTARTS e) = min 255 (s.dev.get (HK_ENGINE.RESTARTS e) + 1)
              ∧ (d.tansy e).window = (if s.dev.get (HK_ENGINE.RESTARTS e) = 0 then some 1024 else (s.dev.tansy e).window)
              ∧ (2, e.val) ∈ d.flt.shadows)
            ∧ (s.dev.flag HK_CTL.AUTO_RESTART = false ∨ s.dev.hk.wardenFailed = true → d.tstate e = tsStopped))))
    ∧ (s.dev.tstate e ≠ tsRunning ∨ s.dev.tstate (1 - e.val) ≠ tsRunning ∨ (s.dev.tansy (1 - e.val)).missRun < hbLimit s.dev
        ∨ s.dev.hk.wardenFailed = true ∨ (s.dev.tansy (1 - e.val)).stillRun < hbLimit s.dev →
      exec (.peerSilent e) s = .next s)
    ∧ (s.dev.tstate e = tsRunning → s.dev.tstate (1 - e.val) = tsRunning → hbLimit s.dev ≤ (s.dev.tansy (1 - e.val)).missRun →
        s.dev.hk.wardenFailed = false → hbLimit s.dev ≤ (s.dev.tansy (1 - e.val)).stillRun →
      ∃ d, exec (.peerSilent e) s = .next { s with dev := d } ∧ d.get (HK_FAULT.CODE (1 - e.val)) = 8
        ∧ (d.tansy (1 - e.val)).failed = true ∧ d.tstate (1 - e.val) ≠ tsRunning ∧ d.tstate e = tsRunning)
    ∧ (s.dev.tstate e ≠ tsRunning ∨ s.dev.hk.wardenFailed = true ∨ (s.dev.tansy e).stillRun < hbLimit s.dev + 2 →
      exec (.heartbeatFail e) s = .next s)
    ∧ (s.dev.tstate e = tsRunning → s.dev.hk.wardenFailed = false → hbLimit s.dev + 2 ≤ (s.dev.tansy e).stillRun →
      ∃ d, exec (.heartbeatFail e) s = .next { s with dev := d } ∧ d.get (HK_FAULT.CODE e) = 8 ∧ (d.tansy e).failed = true
        ∧ d.tstate e ≠ tsRunning)
    ∧ (∀ bad : List Nat,
      (s.dev.tstate e ≠ tsLoading → (s.dev.tstate e ≠ tsRestarting ∨ (s.dev.tansy e).routine = true) →
        exec (.patchReloadDone e bad) s = .next s)
      ∧ ((s.dev.tstate e = tsLoading ∨ (s.dev.tstate e = tsRestarting ∧ (s.dev.tansy e).routine = false)) →
        ∃ d, exec (.patchReloadDone e bad) s = .next { s with dev := d } ∧ d.tstate e = tsRestarting ∧ (d.tansy e).routine = true
          ∧ (∀ part < 2, ∀ w < 2048, w ∉ bad → d.wget (liveWord part e w) = s.dev.wget (liveWord part e w))
          ∧ ((∀ w ∈ bad, 2048 ≤ w) → Dev.regsOnly [(HK_ENGINE.word e).addr] { s.dev with hk := d.hk } d)
          ∧ ∀ w ∈ bad, w < 2048 → d.get HK_STATUS.SHADOW_BAD = 1 ∧ Dev.reported [(0x0A6, 0)] s.dev d
            ∧ ∀ m < 32, s.dev.flag (HK_MATCH.VALID e m) = true → s.dev.get (HK_MATCH.PATCH_WORD e m) = w →
              d.flag (HK_MATCH.VALID e m) = false))
    ∧ (s.dev.tstate e ≠ tsRestarting ∨ (s.dev.tansy e).routine = false → exec (.engineRunning e) s = .next s)
    ∧ (s.dev.tstate e = tsRestarting → (s.dev.tansy e).routine = true →
      (∀ g b d, redoApply e (s.grid, s.banks, s.dev) = (g, b, d) →
        exec (.engineRunning e) s = .next { s with grid := g, banks := b, dev := engineRunning d e })
      ∧ ((s.dev.tansy e).redo = [] → s.dev.hk.applySwap = none → s.dev.tstate (1 - e.val) ≠ tsDead →
        ∃ d, exec (.engineRunning e) s = .next { s with dev := d } ∧ d.tstate e = tsRunning
          ∧ d.get (HK_ENGINE.DUTIES_HELD_BY_PEER e) = 0 ∧ d.get HK_STATUS.RESTARTED = 1
          ∧ (d.tansy e).routine = false ∧ (d.tansy e).swap = false ∧ (d.tansy e).failed = false ∧ (d.tansy e).stillRun = 0
          ∧ d.tstate (1 - e.val) = s.dev.tstate (1 - e.val) ∧ d.reports = s.dev.reports
          ∧ ((s.dev.tansy e).swap = true → d.get HK_CMD_STAT.BUSY = 0 ∧ d.get HK_CMD_STAT.RESULT = 0
            ∧ d.get HK_STATUS.PATCH_DONE = 1)))
    ∧ ((s.dev.tansy e).window ≠ some 0 → exec (.restartWindowClose e) s = .next s)
    ∧ ((s.dev.tansy e).window = some 0 → ∃ d, exec (.restartWindowClose e) s = .next { s with dev := d }
      ∧ d.get (HK_ENGINE.RESTARTS e) = 0 ∧ d.tstate e = s.dev.tstate e ∧ (d.tansy e).window = none
      ∧ d.tansy (1 - e.val) = s.dev.tansy (1 - e.val)
      ∧ Dev.regsOnly [(HK_ENGINE.word e).addr] { s.dev with hk := d.hk } d)

/-- R332, R339, R571-R574, R577, R629; R546, R548, R554, R556. -/
def Obligations.HkCommands : Prop :=
  (∀ (e : Fin 4) (s : State), s.held = false →
    (s.dev.flag HK_CMD_STAT.BUSY = true → exec (.hkStop e) s = .next s ∧ exec (.hkStart e) s = .next s
      ∧ exec (.hkRestart e) s = .next s ∧ exec (.patchSwap e) s = .next s)
    ∧ (s.dev.flag HK_CMD_STAT.BUSY = false → (s.dev.hk.wardenFailed = true ∨ 1 < e.val) →
      ∀ r, r = (if s.dev.hk.wardenFailed then 4 else 3) →
      (∀ c, c = .hkStop e ∨ c = .hkStart e ∨ c = .hkRestart e →
        ∃ d, exec c s = .next { s with dev := d } ∧ d.get HK_CMD_STAT.RESULT = r ∧ Dev.regsOnly [HK_CMD_STAT.word.addr] s.dev d)
      ∧ ∃ d, exec (.patchSwap e) s = .next { s with dev := d } ∧ d.get HK_CMD_STAT.RESULT = r
        ∧ Dev.raised HK_STATUS.PATCH_REJECT s.dev d ∧ Dev.regsOnly [HK_CMD_STAT.word.addr, HK_STATUS.word.addr] s.dev d)
    ∧ (s.dev.flag HK_CMD_STAT.BUSY = false → s.dev.hk.wardenFailed = false → e.val < 2 →
      (s.dev.tstate e = tsRunning → ∃ d, exec (.hkStop e) s = .next { s with dev := d } ∧ d.tstate e = tsStopped
        ∧ d.get HK_CMD_STAT.RESULT = 0 ∧ Dev.regsOnly [(HK_ENGINE.word e).addr, HK_CMD_STAT.word.addr] s.dev d)
      ∧ (s.dev.tstate e ≠ tsRunning → ∃ d, exec (.hkStop e) s = .next { s with dev := d } ∧ d.get HK_CMD_STAT.RESULT = 4
        ∧ Dev.regsOnly [HK_CMD_STAT.word.addr] s.dev d)
      ∧ (s.dev.tstate e = tsStopped → ∃ m, exec (.hkStart e) s = .next { s with dev := gzResume m } ∧ (gzResume m).tstate e = tsRunning
        ∧ (gzResume m).get HK_CMD_STAT.RESULT = 0 ∧ ((gzResume m).tansy e).failed = false
        ∧ Dev.regsOnly [(HK_ENGINE.word e).addr, HK_CMD_STAT.word.addr] { s.dev with hk := m.hk } m
        ∧ ((∀ p < 3, s.dev.gcmd p = none) → (∀ k < 2, (s.dev.ge k).learn = []) → gzResume m = m))
      ∧ (s.dev.tstate e ≠ tsStopped → ∃ d, exec (.hkStart e) s = .next { s with dev := d } ∧ d.get HK_CMD_STAT.RESULT = 4
        ∧ Dev.regsOnly [HK_CMD_STAT.word.addr] s.dev d)
      ∧ (s.dev.tstate e = tsLoading → ∃ d, exec (.hkRestart e) s = .next { s with dev := d } ∧ d.get HK_CMD_STAT.RESULT = 4
        ∧ Dev.regsOnly [HK_CMD_STAT.word.addr] s.dev d)
      ∧ (s.dev.tstate e ≠ tsLoading → s.dev.tstate e ≤ tsDead → ∃ d, exec (.hkRestart e) s = .next { s with dev := d }
        ∧ d.tstate e = tsRestarting ∧ d.get HK_CMD_STAT.RESULT = 0 ∧ d.get (HK_ENGINE.RESTARTS e) = 0
        ∧ (d.tansy e).routine = false ∧ (d.tansy e).window = none ∧ (2, e.val) ∈ d.flt.shadows
        ∧ d.get (HK_CNT_RESTART0.cnt e) = (s.dev.get (HK_CNT_RESTART0.cnt e) + 1) % 2 ^ 32
        ∧ Dev.regsOnly [(HK_ENGINE.word e).addr, HK_CMD_STAT.word.addr, (HK_CNT_RESTART0.cnt e).addr]
          { s.dev with hk := d.hk, flt := d.flt } d)
      ∧ (∀ r, ((s.dev.tstate e = tsLoading ∨ s.dev.tstate e = tsRestarting) ∧ r = 4)
          ∨ ((s.dev.tstate e < 2 ∨ s.dev.tstate e = tsDead) ∧ (headerOk s.dev = false ∨ bit (headerEngines s.dev) e = false) ∧ r = 1)
          ∨ ((s.dev.tstate e < 2 ∨ s.dev.tstate e = tsDead) ∧ headerOk s.dev = true ∧ bit (headerEngines s.dev) e = true
            ∧ s.dev.tstate (1 - e.val) ≠ tsRunning ∧ r = 2) →
        ∃ d, exec (.patchSwap e) s = .next { s with dev := d } ∧ d.get HK_CMD_STAT.RESULT = r
          ∧ Dev.raised HK_STATUS.PATCH_REJECT s.dev d ∧ Dev.regsOnly [HK_CMD_STAT.word.addr, HK_STATUS.word.addr] s.dev d)
      ∧ ((s.dev.tstate e < 2 ∨ s.dev.tstate e = tsDead) → headerOk s.dev = true → bit (headerEngines s.dev) e = true →
          s.dev.tstate (1 - e.val) = tsRunning →
        ∃ d, exec (.patchSwap e) s = .next { s with dev := d } ∧ d.tstate e = tsLoading ∧ d.flag HK_CMD_STAT.BUSY = true
          ∧ (d.tansy e).swap = true ∧ d.get (HK_PATCH_VERSION.VERSION e) = headerVersion s.dev
          ∧ (∀ w < headerWords s.dev, d.wget (liveWord 0 e w) = s.dev.wget (stagedWord 0 w)
            ∧ d.wget (liveWord 1 e w) = s.dev.wget (stagedWord 1 w) % 2 ^ 16)
          ∧ (∀ m < 32, d.word (HK_MATCH.word e m).addr = if m < headerMatches s.dev then
              BitVec.ofNat 32 (dataWord (s.dev.wget (stagedMatch m)) 0) &&& 0x83FFFFFF else 0)
          ∧ d.tstate (1 - e.val) = tsRunning)))
  ∧ (∀ (e : Fin 2) (x : TRoutine) (s : State), s.held = false →
    (s.dev.tstate e ≠ tsRunning ∨ wordsLeft s.dev e x.must x.spent = 0 ∨ (x.signal = true ∧ s.dev.hk.signals.get 0 e.val = 0)
        ∨ (lateWaits s.dev e x.spent = true ∧ ¬(x.must = true ∧ x.late = true)) →
      exec (.tansyRoutine e x) s = .next s)
    ∧ (s.dev.tstate e = tsRunning → wordsLeft s.dev e x.must x.spent ≠ 0 → (x.signal = false ∨ s.dev.hk.signals.get 0 e.val ≠ 0) →
      (lateWaits s.dev e x.spent = true → x.must = true ∧ x.late = true) →
      (∀ g b d, tRoutine 2 e x (wordsLeft s.dev e x.must x.spent) 0 (s.grid, s.banks, s.dev.addTo HK_CNT_UCORR x.corr) = (g, b, d) →
        exec (.tansyRoutine e x) s = .next { s with grid := g, banks := b, dev := d })
      ∧ (0x8800 ≤ x.entry.toNat → ∃ d, exec (.tansyRoutine e x) s = .next { s with dev := d }
        ∧ d.get (HK_FAULT.CODE e) = 9 ∧ d.get (HK_FAULT.UADDR e) = x.entry.toNat ∧ d.tstate e ≠ tsRunning)))

/-- R85, R539, R559-R565, R602. -/
def Obligations.HostCommandRing : Prop :=
  ∀ s : State, s.held = false →
    (∀ entry,
      (ringServed s.dev = false ∨ s.dev.hk.cur.isSome = true
          ∨ s.dev.get HK_CMD_CONS.CONS % cmdSlots s.dev = s.dev.get HK_CMD_PROD.PROD % cmdSlots s.dev →
        exec (.commandFetch entry) s = .next s)
      ∧ (ringServed s.dev = true → s.dev.hk.cur = none →
          s.dev.get HK_CMD_CONS.CONS % cmdSlots s.dev ≠ s.dev.get HK_CMD_PROD.PROD % cmdSlots s.dev →
        (rspFull s.dev = true → ∃ e, exec (.commandFetch entry) s = .next { s with dev := e }
          ∧ Dev.raised HK_RING_STATUS.RSP_FULL s.dev e ∧ Dev.regsOnly [HK_RING_STATUS.word.addr] s.dev e)
        ∧ (rspFull s.dev = false → ∃ e c, exec (.commandFetch entry) s = .next { s with dev := e } ∧ e.hk.cur = some c
          ∧ e.get HK_CMD_CONS.CONS = (s.dev.get HK_CMD_CONS.CONS + 1) % cmdSlots s.dev
          ∧ .hostRead (hkPf s.dev) (BitVec.ofNat 64 (s.dev.wget (wkey mbxHk (3 * 2 ^ 28))
              + 128 * (s.dev.get HK_CMD_CONS.CONS % cmdSlots s.dev))) 128 ∈ e.out
          ∧ e.get HK_CNT_CMDS = (s.dev.get HK_CNT_CMDS + 1) % 2 ^ 32
          ∧ c.op = leField entry 0 2 ∧ c.tag = leField entry 2 2 ∧ c.image.toNat = leField entry 16 64 % 2 ^ 512
          ∧ (1 ≤ leField entry 0 2 → leField entry 0 2 ≤ 4 → leField entry 4 1 < 2 → leField entry 5 3 = 0 →
              leField entry 80 48 = 0 → c.answer = none ∧ c.half = leField entry 4 1 ∧ e.get HK_RING_STATUS.SEQ = s.dev.get HK_RING_STATUS.SEQ)
          ∧ ((leField entry 0 2 = 0 ∨ 4 < leField entry 0 2 ∨ 2 ≤ leField entry 4 1 ∨ leField entry 5 3 ≠ 0
              ∨ leField entry 80 48 ≠ 0) → (c.answer.map fun a => a.1) = some 0xFF ∧ Dev.raised HK_RING_STATUS.CMD_BAD s.dev e)
          ∧ Dev.regsOnly [HK_CMD_CONS.word.addr, HK_CNT_CMDS.addr, HK_RING_STATUS.word.addr] { s.dev with hk := e.hk } e)))
    ∧ ((ringCur s.dev 1).isSome = false ∨ s.dev.serves 0 = false → exec .nop s = .next s)
    ∧ ((ringCur s.dev 4).isSome = false ∨ s.dev.serves 0 = false ∨ s.grid.epoch < s.dev.gaz.portTarget.get 0 2 →
      exec .fence s = .next s)
    ∧ (∀ c cmd, ringCur s.dev (if cmd = .nop then 1 else 4) = some c → cmd = .nop ∨ (cmd = .fence ∧ s.dev.gaz.portTarget.get 0 2 ≤ s.grid.epoch) →
        s.dev.serves 0 = true →
      exec cmd s = .next { s with dev := { s.dev with hk := { s.dev.hk with cur := (
        some { c with started := true, answer := some (0, 0, 0, 0) }) } } })
    ∧ ((ringCur s.dev 2).isSome = false ∨ s.dev.serves 0 = false → exec .gz s = .next s)
    ∧ (∀ c, ringCur s.dev 2 = some c → s.dev.serves 0 = true →
      (s.dev.flag (GZ_TBL_CFG.EN c.half (gcTable c.word)) = false → ∃ e r, exec .gz s = .next { s with dev := e }
        ∧ e.hk.cur = some { c with started := true, answer := some (gzBadTable, r, 0, 0) } ∧ e.gaz = s.dev.gaz)
      ∧ (bit (s.dev.word WLD_GZ_TABLE.word.addr).toNat (gcTable c.word) = true → secureBlock s.dev ⟨.hk, 0, 0, 0⟩ = false →
        ∃ e r, exec .gz s = .next { s with dev := e }
          ∧ e.hk.cur = some { c with started := true, answer := some (gzBadTable, r, 0, 0) } ∧ e.gaz = s.dev.gaz)
      ∧ (s.dev.flag (GZ_TBL_CFG.EN c.half (gcTable c.word)) = true →
          secureBlock s.dev ⟨.hk, 0, 0, 0⟩ = true ∨ bit (s.dev.word WLD_GZ_TABLE.word.addr).toNat (gcTable c.word) = false →
        ((gcOp c.word = 0 ∨ 6 < gcOp c.word) → ∃ e r, exec .gz s = .next { s with dev := e }
          ∧ e.hk.cur = some { c with started := true, answer := some (gzBadOp, r, 0, 0) } ∧ e.gaz = s.dev.gaz)
        ∧ (0 < gcOp c.word → gcOp c.word ≤ 6 → ∃ e g, exec .gz s = .next { s with dev := e }
          ∧ e.hk.cur = some { c with started := true } ∧ e.gcmd 2 = some g ∧ g.half = c.half ∧ g.word = c.word
          ∧ g.image = c.image ∧ g.cursor = c.cursor)))
    ∧ ((ringCur s.dev 3).isSome = false → exec .sch s = .next s)
    ∧ (∀ c, ringCur s.dev 3 = some c →
      let op := bits c.word.toNat 3 0
      let v := c.image.toNat % 2 ^ 128
      (s.dev.flag SCH_CMD_STAT.BUSY = true ∨ s.dev.serves (schEngine op v) = false → exec .sch s = .next s)
      ∧ (s.dev.flag SCH_CMD_STAT.BUSY = false → s.dev.serves (schEngine op v) = true →
        ∃ e r, exec .sch s = .next { s with dev := e } ∧ e.resv = (schBody s.dev op v).2.2.resv
          ∧ e.hk.cur = some { c with
              started := true, answer := some ((schBody s.dev op v).1, BitVec.ofNat 32 (schBody s.dev op v).2.1, 0, r) }))
    ∧ (s.dev.hk.cur = none ∨ ringServed s.dev = false → exec .responseWrite s = .next s)
    ∧ (∀ c, s.dev.hk.cur = some c → c.answer = none → exec .responseWrite s = .next s)
    ∧ (∀ c a, s.dev.hk.cur = some c → c.answer = some a → ringServed s.dev = true →
      (c.op = 3 → belowFloor s.dev = true → exec .responseWrite s = .next s)
      ∧ ((c.op ≠ 3 ∨ belowFloor s.dev = false) → rspFull s.dev = true → ∃ e, exec .responseWrite s = .next { s with dev := e }
        ∧ Dev.raised HK_RING_STATUS.RSP_FULL s.dev e ∧ Dev.regsOnly [HK_RING_STATUS.word.addr] s.dev e)
      ∧ ((c.op ≠ 3 ∨ belowFloor s.dev = false) → rspFull s.dev = false → ∃ e, exec .responseWrite s = .next { s with dev := e }
        ∧ e.hk.cur = none ∧ e.get HK_RSP_PROD.PROD = (s.dev.get HK_RSP_PROD.PROD + 1) % rspSlots s.dev
        ∧ Dev.raised HK_RING_STATUS.RSP_WRITTEN s.dev e
        ∧ .hostWrite (hkPf s.dev) (BitVec.ofNat 64 (s.dev.wget (wkey mbxHk (3 * 2 ^ 28 + 1)) + 128 * s.dev.get HK_RSP_PROD.PROD))
            (bytesAt (responseBytes c a) 0 128) ∈ e.out
        ∧ Dev.regsOnly [HK_RSP_PROD.word.addr, HK_RING_STATUS.word.addr] { s.dev with hk := e.hk, resv := e.resv } e))
    ∧ (s.dev.hk.events = [] ∨ ringServed s.dev = false → exec .hostEventPost s = .next s)
    ∧ (∀ x rest, s.dev.hk.events = x :: rest → ringServed s.dev = true →
      (rspFull s.dev = true → ∃ e, exec .hostEventPost s = .next { s with dev := e }
        ∧ Dev.raised HK_RING_STATUS.RSP_FULL s.dev e ∧ Dev.regsOnly [HK_RING_STATUS.word.addr] s.dev e)
      ∧ (rspFull s.dev = false → ∃ e, exec .hostEventPost s = .next { s with dev := e } ∧ e.hk.events = rest
        ∧ e.get HK_EVT_HELD.HELD = rest.length % 2 ^ 7 ∧ e.get HK_CNT_EVENTS = (s.dev.get HK_CNT_EVENTS + 1) % 2 ^ 32
        ∧ e.get HK_RSP_PROD.PROD = (s.dev.get HK_RSP_PROD.PROD + 1) % rspSlots s.dev
        ∧ Dev.raised HK_RING_STATUS.RSP_WRITTEN s.dev e
        ∧ .hostWrite (hkPf s.dev) (BitVec.ofNat 64 (s.dev.wget (wkey mbxHk (3 * 2 ^ 28 + 1)) + 128 * s.dev.get HK_RSP_PROD.PROD))
            (bytesAt (eventBytes s.grid x) 0 128) ∈ e.out))

/-- R583, R588-R593. -/
def Obligations.PowerControl : Prop :=
  ∀ s : State, s.held = false →
    (pwrLive s.dev = false ∨ s.dev.serves 0 = false ∨ s.dev.pwr.stale = 0 → exec .controlStep s = .next s)
    ∧ (pwrLive s.dev = true → s.dev.serves 0 = true → 1 ≤ s.dev.pwr.stale →
      ∃ e, exec .controlStep s = .next { s with dev := e } ∧ e.pwr.stale = 0 ∧ e.pwr.staleRaised = false
        ∧ e.get PWR_STATE.TARGET = targetPoint e % 8 ∧ pointNow e = pointNow s.dev
        ∧ (s.dev.get PWR_TEMP.TJ_MAX ≤ s.dev.get PWR_THERM.T_THROTTLE → e.pwr.trip = false ∧ e.pwr.therm ≤ s.dev.pwr.therm
          ∧ s.dev.pwr.therm ≤ e.pwr.therm + 1)
        ∧ (s.dev.get PWR_THERM.T_THROTTLE < s.dev.get PWR_TEMP.TJ_MAX → e.pwr.trip = s.dev.pwr.trip
          ∧ e.pwr.therm = min 5 (max s.dev.pwr.therm (pointNow s.dev) + 1))
        ∧ e.pwr.cur ≤ s.dev.pwr.cur ∧ s.dev.pwr.cur ≤ e.pwr.cur + 1
        ∧ (s.dev.pwr.stage ≠ 0 → e.pwr.acts = s.dev.pwr.acts ∧ e.pwr.cap = s.dev.pwr.cap)
        ∧ (capMw s.dev < avgPower s.dev → e.pwr.acts = s.dev.pwr.acts ∨ ∃ a, e.pwr.acts = a :: s.dev.pwr.acts)
        ∧ (avgPower s.dev ≤ capMw s.dev → e.pwr.acts = s.dev.pwr.acts ∨ ∃ a, s.dev.pwr.acts = a :: e.pwr.acts)
        ∧ (∀ r ∈ e.reports, r ∈ s.dev.reports ∨ r.src = 0x0B0))
    ∧ (s.dev.pwr.stale < 4 ∨ s.dev.pwr.staleRaised = true → exec .stepStale s = .next s)
    ∧ (4 ≤ s.dev.pwr.stale → s.dev.pwr.staleRaised = false → ∃ e, exec .stepStale s = .next { s with dev := e }
      ∧ e.pwr = { s.dev.pwr with staleRaised := true } ∧ Dev.raised PWR_STATUS.STEP_STALE s.dev e
      ∧ Dev.regsOnly [PWR_STATUS.word.addr] { s.dev with pwr := e.pwr } e)
    ∧ (∀ (sensor : Fin 112) (tj : BitVec 8),
      ∃ e, exec (.sensorRead sensor tj) s = .next { s with dev := e } ∧ e.get PWR_TEMP.TJ_MAX = tj.toNat
        ∧ e.get PWR_TEMP.SENSOR = sensor.val
        ∧ Dev.reported ((if tripTemp s.dev < tj.toNat ∧ s.dev.pwr.trip = false then [(0x0B1, 0)] else [])
            ++ (if 108 ≤ tj.toNat ∧ s.dev.get PWR_TEMP.TJ_MAX < 108 then [(0x0B2, 0)] else [])) s.dev e
        ∧ (tripTemp s.dev < tj.toNat → s.dev.pwr.trip = false → e.pwr.trip = true ∧ e.pwr.therm = 5
          ∧ e.get PWR_CNT_TRIPS = (s.dev.get PWR_CNT_TRIPS + 1) % 2 ^ 32 ∧ e.get PWR_STATUS.THERMAL_TRIP = 1)
        ∧ (tj.toNat ≤ tripTemp s.dev ∨ s.dev.pwr.trip = true → e.pwr.trip = s.dev.pwr.trip ∧ e.pwr.therm = s.dev.pwr.therm
          ∧ Dev.regsOnly [PWR_TEMP.word.addr] { s.dev with pwr := e.pwr, reports := e.reports } e))

/-- R580-R582, R586, R587, R596, R598. -/
def Obligations.ClocksAndSupplies : Prop :=
  ∀ s : State, s.held = false →
    (s.dev.pwr.rising = false ∨ s.dev.pwr.settled = false ∨ pointNow s.dev ≤ targetPoint s.dev →
      exec .clockSwitchShallower s = .next s)
    ∧ (s.dev.pwr.rising = true → s.dev.pwr.settled = true → targetPoint s.dev < pointNow s.dev →
      ∃ e, exec .clockSwitchShallower s = .next { s with dev := e } ∧ pointNow e + 1 = pointNow s.dev
        ∧ e.get PWR_CNT_STEPS_UP = (s.dev.get PWR_CNT_STEPS_UP + 1) % 2 ^ 32 ∧ e.pwr.settled = false
        ∧ e.reports = s.dev.reports)
    ∧ (∃ e, exec (.avsReadPoll none) s = .next { s with dev := e } ∧ e.pwr.avsBad = true ∧ e.pwr.rising = false
      ∧ e.get PWR_STATUS.AVS_ERR = 1 ∧ e.get PWR_CNT_AVS_ERR = (s.dev.get PWR_CNT_AVS_ERR + 1) % 2 ^ 32
      ∧ Dev.reported [(0x0B3, 0)] s.dev e ∧ pointNow e = pointNow s.dev)
    ∧ (∀ vc ic vs is, ∃ e, exec (.avsReadPoll (some ((vc, ic), (vs, is)))) s = .next { s with dev := e }
      ∧ e.pwr.avsBad = false ∧ e.get PWR_IOUT.CORE_A = ic % 2 ^ 16 ∧ e.get PWR_IOUT.SRAM_A = is % 2 ^ 16
      ∧ e.pwr.accP = s.dev.pwr.accP + vc * ic + vs * is ∧ e.pwr.accN = s.dev.pwr.accN + 1
      ∧ (e.pwr.curMove = true ↔ s.dev.pwr.curMove = true ∨ (s.dev.get PWR_ICC.ICC_MAX ≤ ic ∧ fixedMode s.dev = false
        ∧ s.dev.pwr.cur < 5 ∧ targetPoint s.dev ≤ pointNow s.dev))
      ∧ e.pwr.cur = s.dev.pwr.cur ∧ pointNow e = pointNow s.dev ∧ e.reports = s.dev.reports)
    ∧ (∀ dom : Fin 34,
      (dom.val ∈ s.dev.pwr.drooped → exec (.droopDetect dom) s = .next s)
      ∧ (dom.val ∉ s.dev.pwr.drooped → ∃ e, exec (.droopDetect dom) s = .next { s with dev := e }
        ∧ (∀ n, n ∈ e.pwr.drooped ↔ n = dom.val ∨ n ∈ s.dev.pwr.drooped)
        ∧ e.get PWR_CNT_DROOP = (s.dev.get PWR_CNT_DROOP + 1) % 2 ^ 32 ∧ bit (e.get PWR_STATE.REASONS) 3 = true
        ∧ pointNow e = pointNow s.dev
        ∧ Dev.regsOnly [PWR_STATE.word.addr, PWR_STATUS.word.addr, PWR_CNT_DROOP.addr] { s.dev with pwr := e.pwr } e)
      ∧ ∃ e, exec (.droopRecover dom) s = .next { s with dev := e } ∧ (∀ n, n ∈ e.pwr.drooped ↔ n ≠ dom.val ∧ n ∈ s.dev.pwr.drooped)
        ∧ (bit (e.get PWR_STATE.REASONS) 3 = true ↔ e.pwr.drooped ≠ []) ∧ pointNow e = pointNow s.dev
        ∧ Dev.regsOnly [PWR_STATE.word.addr, PWR_STATUS.word.addr] { s.dev with pwr := e.pwr } e)
    ∧ (∀ low : BitVec 3, ∃ e, exec (.paceSample low) s = .next { s with dev := e }
      ∧ e.get PWR_STATE.PACE_IN = (if s.dev.flag PWR_PACE_CFG.PACE_EN = false then 0 else if low.getLsbD 2 then 3
        else if low.getLsbD 1 then 2 else if low.getLsbD 0 then 1 else 0)
      ∧ pointNow e = pointNow s.dev ∧ Dev.regsOnly [PWR_STATE.word.addr] s.dev e)
end

