-- ==== Sys2Proof/Laws/SMap.lean ====
section
/-!
SUPPORT. Laws of the sparse map: a read after a write, and that writes keep the canonical form.
-/
namespace Sys2Proof.Machine

variable {α : Type}

@[simp] theorem SMap.get_nil (d : α) (k : Nat) : SMap.get [] d k = d := rfl

theorem SMap.get_ins_same (m : SMap α) (d : α) (k : Nat) (v : α) : SMap.get (SMap.ins m k v) d k = v := by
  induction m with
  | nil => simp [SMap.ins, SMap.get]
  | cons e r ih =>
    obtain ⟨k', v'⟩ := e
    simp only [SMap.ins]
    split
    · simp [SMap.get]
    · split
      · simp [SMap.get]
      · next _ hn => simp [SMap.get, hn, ih]

theorem SMap.get_ins_other (m : SMap α) (d : α) {k j : Nat} (v : α) (h : j ≠ k) :
    SMap.get (SMap.ins m k v) d j = SMap.get m d j := by
  induction m with
  | nil => simp [SMap.ins, SMap.get, h]
  | cons e r ih =>
    obtain ⟨k', v'⟩ := e
    simp only [SMap.ins]
    split
    · simp [SMap.get, h]
    · split
      · next _ he => subst he; simp [SMap.get, h]
      · simp [SMap.get, ih]

theorem SMap.get_erase_same (m : SMap α) (d : α) (k : Nat) : SMap.get (SMap.erase m k) d k = d := by
  induction m with
  | nil => rfl
  | cons e r ih =>
    obtain ⟨k', v'⟩ := e
    simp only [SMap.erase]
    split
    · exact ih
    · next hn => simp [SMap.get, hn, ih]

theorem SMap.get_erase_other (m : SMap α) (d : α) {k j : Nat} (h : j ≠ k) :
    SMap.get (SMap.erase m k) d j = SMap.get m d j := by
  induction m with
  | nil => rfl
  | cons e r ih =>
    obtain ⟨k', v'⟩ := e
    simp only [SMap.erase]
    split
    · next he => subst he; simp [SMap.get, h, ih]
    · simp [SMap.get, ih]

/-- A read after a write of the same key gives the value written. -/
@[simp] theorem SMap.get_put_same [DecidableEq α] (m : SMap α) (d : α) (k : Nat) (v : α) :
    SMap.get (SMap.put m d k v) d k = v := by
  unfold SMap.put
  split
  · next h => rw [SMap.get_erase_same, h]
  · exact SMap.get_ins_same ..

/-- A write leaves every other key alone. -/
theorem SMap.get_put_other [DecidableEq α] (m : SMap α) (d d' : α) {k j : Nat} (v : α) (h : j ≠ k) :
    SMap.get (SMap.put m d k v) d' j = SMap.get m d' j := by
  unfold SMap.put
  split
  · exact SMap.get_erase_other _ _ h
  · exact SMap.get_ins_other _ _ _ h

theorem SMap.rising_weaken (m : SMap α) {a b : Nat} (h : a ≤ b) (hr : SMap.rising m (some b) = true) :
    SMap.rising m (some a) = true := by
  cases m with
  | nil => rfl
  | cons e r =>
    obtain ⟨k, v⟩ := e
    simp only [SMap.rising, Bool.and_eq_true, decide_eq_true_eq] at hr ⊢
    exact ⟨by omega, hr.2⟩

theorem SMap.rising_none (m : SMap α) {b : Nat} (hr : SMap.rising m (some b) = true) :
    SMap.rising m none = true := by
  cases m with
  | nil => rfl
  | cons e r =>
    obtain ⟨k, v⟩ := e
    simp only [SMap.rising, Bool.and_eq_true, decide_eq_true_eq] at hr ⊢
    exact ⟨trivial, hr.2⟩

theorem SMap.rising_erase (m : SMap α) (k : Nat) (lo : Option Nat) (h : SMap.rising m lo = true) :
    SMap.rising (SMap.erase m k) lo = true := by
  induction m generalizing lo with
  | nil => rfl
  | cons e r ih =>
    obtain ⟨k', v'⟩ := e
    simp only [SMap.rising, Bool.and_eq_true] at h
    simp only [SMap.erase]
    split
    · apply ih
      cases lo with
      | none => exact SMap.rising_none r h.2
      | some b => exact SMap.rising_weaken r (by simpa using Nat.le_of_lt (by simpa using h.1)) h.2
    · simp only [SMap.rising, Bool.and_eq_true]
      exact ⟨h.1, ih _ h.2⟩

theorem SMap.rising_ins (m : SMap α) (k : Nat) (v : α) (lo : Option Nat) (h : SMap.rising m lo = true)
    (hk : ∀ b, lo = some b → b < k) : SMap.rising (SMap.ins m k v) lo = true := by
  induction m generalizing lo with
  | nil =>
    cases lo with
    | none => rfl
    | some b => simp [SMap.ins, SMap.rising, hk b rfl]
  | cons e r ih =>
    obtain ⟨k', v'⟩ := e
    simp only [SMap.rising, Bool.and_eq_true] at h
    simp only [SMap.ins]
    split
    · next hlt =>
      simp only [SMap.rising, Bool.and_eq_true, decide_eq_true_eq]
      refine ⟨?_, hlt, h.2⟩
      cases lo with
      | none => rfl
      | some b => simp [hk b rfl]
    · split
      · next he =>
        subst he
        simp only [SMap.rising, Bool.and_eq_true]
        exact ⟨h.1, h.2⟩
      · next h1 h2 =>
        simp only [SMap.rising, Bool.and_eq_true]
        refine ⟨h.1, ih _ h.2 ?_⟩
        intro b hb; cases hb; omega

theorem SMap.mem_erase (m : SMap α) (k : Nat) {e : Nat × α} (h : e ∈ SMap.erase m k) : e ∈ m := by
  induction m with
  | nil => exact h
  | cons x r ih =>
    obtain ⟨k', v'⟩ := x
    simp only [SMap.erase] at h
    split at h
    · exact List.mem_cons_of_mem _ (ih h)
    · cases List.mem_cons.mp h with
      | inl h => exact h ▸ List.mem_cons_self ..
      | inr h => exact List.mem_cons_of_mem _ (ih h)

theorem SMap.mem_ins (m : SMap α) (k : Nat) (v : α) {e : Nat × α} (h : e ∈ SMap.ins m k v) :
    e = (k, v) ∨ e ∈ m := by
  induction m with
  | nil => simp [SMap.ins] at h; exact .inl h
  | cons x r ih =>
    obtain ⟨k', v'⟩ := x
    simp only [SMap.ins] at h
    split at h
    · simp only [List.mem_cons] at h ⊢; tauto
    · split at h
      · simp only [List.mem_cons] at h ⊢; tauto
      · simp only [List.mem_cons] at h ⊢
        rcases h with h | h
        · exact .inr (.inl h)
        · rcases ih h with h | h
          · exact .inl h
          · exact .inr (.inr h)

/-- A write keeps the canonical form. -/
theorem SMap.wf_put [DecidableEq α] (m : SMap α) (d : Nat → α) (k : Nat) (v : α) (h : SMap.wf m d = true) :
    SMap.wf (SMap.put m (d k) k v) d = true := by
  simp only [SMap.wf, Bool.and_eq_true, List.all_eq_true, decide_eq_true_eq] at h ⊢
  unfold SMap.put
  split
  · exact ⟨SMap.rising_erase m k none h.1, fun e he => h.2 e (SMap.mem_erase m k he)⟩
  · next hv =>
    refine ⟨SMap.rising_ins m k v none h.1 (by intro b hb; cases hb), ?_⟩
    intro e he
    rcases SMap.mem_ins m k v he with he | he
    · subst he; exact hv
    · exact h.2 e he

theorem SMap.rising_keep (m : SMap α) (p : Nat → Bool) (lo : Option Nat) (h : SMap.rising m lo = true) :
    SMap.rising (SMap.keep m p) lo = true := by
  induction m generalizing lo with
  | nil => rfl
  | cons e r ih =>
    obtain ⟨k', v'⟩ := e
    simp only [SMap.rising, Bool.and_eq_true] at h
    simp only [SMap.keep, List.filter]
    split
    · simp only [SMap.rising, Bool.and_eq_true]; exact ⟨h.1, ih _ h.2⟩
    · apply ih
      cases lo with
      | none => exact SMap.rising_none r h.2
      | some b => exact SMap.rising_weaken r (by simpa using Nat.le_of_lt (by simpa using h.1)) h.2

/-- Dropping entries keeps the canonical form. -/
theorem SMap.wf_keep [DecidableEq α] (m : SMap α) (d : Nat → α) (p : Nat → Bool) (h : SMap.wf m d = true) :
    SMap.wf (SMap.keep m p) d = true := by
  simp only [SMap.wf, Bool.and_eq_true, List.all_eq_true, decide_eq_true_eq] at h ⊢
  exact ⟨SMap.rising_keep m p none h.1, fun e he => h.2 e (List.mem_of_mem_filter he)⟩

@[simp] theorem SMap.wf_nil [DecidableEq α] (d : Nat → α) : SMap.wf ([] : SMap α) d = true := rfl

end Sys2Proof.Machine
end

