-- ==== Sys2Proof/Laws/State.lean ====
section
/-!
SUPPORT. What each update of the state's parts leaves: one lemma per field, by rfl but for the interrupts.
-/
namespace Sys2Proof.Machine

@[simp] theorem withDev_eq (s : State) (f : Dev → Dev) (h : s.held = false) :
    s.withDev f = .next { s with dev := f s.dev } := by simp [State.withDev, h]

@[simp] theorem withAll_eq (s : State) (f : Grid → Banks → Dev → Grid × Banks × Dev) (h : s.held = false) :
    s.withAll f = .next { s with
      grid := (f s.grid s.banks s.dev).1, banks := (f s.grid s.banks s.dev).2.1, dev := (f s.grid s.banks s.dev).2.2 } := by
  simp [State.withAll, h]

/-- A command on the device always answers a state with the same queue, Graticule and banks. -/
theorem withDev_next (s : State) (f : Dev → Dev) : ∃ d, s.withDev f = .next { s with dev := d } := by
  unfold State.withDev; split
  · exact ⟨s.dev, rfl⟩
  · exact ⟨f s.dev, rfl⟩

/-- A command on the device answers a state with the same queue, Graticule and banks. -/
theorem withDev_frame (s t : State) (f : Dev → Dev) (h : s.withDev f = .next t) :
    t.pending = s.pending ∧ t.grid = s.grid ∧ t.banks = s.banks := by
  obtain ⟨d, e⟩ := withDev_next s f
  rw [e] at h; cases h; exact ⟨rfl, rfl, rfl⟩

/-- A command on everything but the queue answers a state, with the same queue. -/
theorem withAll_next (s : State) (f : Grid → Banks → Dev → Grid × Banks × Dev) :
    ∃ g b d, s.withAll f = .next { s with grid := g, banks := b, dev := d } := by
  unfold State.withAll; split
  · exact ⟨s.grid, s.banks, s.dev, rfl⟩
  · exact ⟨_, _, _, rfl⟩

/-! ### Dev.setWord -/

@[simp] theorem Dev.setWord_wide (d : Dev) (a : Nat) (v : Word) : (d.setWord a v).wide = d.wide := rfl
@[simp] theorem Dev.setWord_ctr (d : Dev) (a : Nat) (v : Word) : (d.setWord a v).ctr = d.ctr := rfl
@[simp] theorem Dev.setWord_out (d : Dev) (a : Nat) (v : Word) : (d.setWord a v).out = d.out := rfl
@[simp] theorem Dev.setWord_reports (d : Dev) (a : Nat) (v : Word) : (d.setWord a v).reports = d.reports := rfl
@[simp] theorem Dev.setWord_free (d : Dev) (a : Nat) (v : Word) : (d.setWord a v).free = d.free := rfl
@[simp] theorem Dev.setWord_serial (d : Dev) (a : Nat) (v : Word) : (d.setWord a v).serial = d.serial := rfl
@[simp] theorem Dev.setWord_rollback (d : Dev) (a : Nat) (v : Word) : (d.setWord a v).rollback = d.rollback := rfl
@[simp] theorem Dev.setWord_keyHash (d : Dev) (a : Nat) (v : Word) : (d.setWord a v).keyHash = d.keyHash := rfl
@[simp] theorem Dev.setWord_fuses (d : Dev) (a : Nat) (v : Word) : (d.setWord a v).fuses = d.fuses := rfl
@[simp] theorem Dev.setWord_pins (d : Dev) (a : Nat) (v : Word) : (d.setWord a v).pins = d.pins := rfl
@[simp] theorem Dev.setWord_msix (d : Dev) (a : Nat) (v : Word) : (d.setWord a v).msix = d.msix := rfl
@[simp] theorem Dev.setWord_pba (d : Dev) (a : Nat) (v : Word) : (d.setWord a v).pba = d.pba := rfl
@[simp] theorem Dev.setWord_lanes (d : Dev) (a : Nat) (v : Word) : (d.setWord a v).lanes = d.lanes := rfl
@[simp] theorem Dev.setWord_eye (d : Dev) (a : Nat) (v : Word) : (d.setWord a v).eye = d.eye := rfl
@[simp] theorem Dev.setWord_frames (d : Dev) (a : Nat) (v : Word) : (d.setWord a v).frames = d.frames := rfl
@[simp] theorem Dev.setWord_nextFid (d : Dev) (a : Nat) (v : Word) : (d.setWord a v).nextFid = d.nextFid := rfl
@[simp] theorem Dev.setWord_nextCid (d : Dev) (a : Nat) (v : Word) : (d.setWord a v).nextCid = d.nextCid := rfl
@[simp] theorem Dev.setWord_slices (d : Dev) (a : Nat) (v : Word) : (d.setWord a v).slices = d.slices := rfl
@[simp] theorem Dev.setWord_queues (d : Dev) (a : Nat) (v : Word) : (d.setWord a v).queues = d.queues := rfl
@[simp] theorem Dev.setWord_ports (d : Dev) (a : Nat) (v : Word) : (d.setWord a v).ports = d.ports := rfl
@[simp] theorem Dev.setWord_policers (d : Dev) (a : Nat) (v : Word) : (d.setWord a v).policers = d.policers := rfl
@[simp] theorem Dev.setWord_resv (d : Dev) (a : Nat) (v : Word) : (d.setWord a v).resv = d.resv := rfl
@[simp] theorem Dev.setWord_lateRaised (d : Dev) (a : Nat) (v : Word) : (d.setWord a v).lateRaised = d.lateRaised := rfl
@[simp] theorem Dev.setWord_punts (d : Dev) (a : Nat) (v : Word) : (d.setWord a v).punts = d.punts := rfl
@[simp] theorem Dev.setWord_dmaIdx (d : Dev) (a : Nat) (v : Word) : (d.setWord a v).dmaIdx = d.dmaIdx := rfl
@[simp] theorem Dev.setWord_ase (d : Dev) (a : Nat) (v : Word) : (d.setWord a v).ase = d.ase := rfl
@[simp] theorem Dev.setWord_aseFlips (d : Dev) (a : Nat) (v : Word) : (d.setWord a v).aseFlips = d.aseFlips := rfl
@[simp] theorem Dev.setWord_gaz (d : Dev) (a : Nat) (v : Word) : (d.setWord a v).gaz = d.gaz := rfl
@[simp] theorem Dev.setWord_badEntries (d : Dev) (a : Nat) (v : Word) : (d.setWord a v).badEntries = d.badEntries := rfl
@[simp] theorem Dev.setWord_badSeen (d : Dev) (a : Nat) (v : Word) : (d.setWord a v).badSeen = d.badSeen := rfl
@[simp] theorem Dev.setWord_rowFails (d : Dev) (a : Nat) (v : Word) : (d.setWord a v).rowFails = d.rowFails := rfl
@[simp] theorem Dev.setWord_spareRows (d : Dev) (a : Nat) (v : Word) : (d.setWord a v).spareRows = d.spareRows := rfl
@[simp] theorem Dev.setWord_bpm (d : Dev) (a : Nat) (v : Word) : (d.setWord a v).bpm = d.bpm := rfl
@[simp] theorem Dev.setWord_tel (d : Dev) (a : Nat) (v : Word) : (d.setWord a v).tel = d.tel := rfl
@[simp] theorem Dev.setWord_buf (d : Dev) (a : Nat) (v : Word) : (d.setWord a v).buf = d.buf := rfl
@[simp] theorem Dev.setWord_pmu (d : Dev) (a : Nat) (v : Word) : (d.setWord a v).pmu = d.pmu := rfl
@[simp] theorem Dev.setWord_hk (d : Dev) (a : Nat) (v : Word) : (d.setWord a v).hk = d.hk := rfl
@[simp] theorem Dev.setWord_pwr (d : Dev) (a : Nat) (v : Word) : (d.setWord a v).pwr = d.pwr := rfl
@[simp] theorem Dev.setWord_flt (d : Dev) (a : Nat) (v : Word) : (d.setWord a v).flt = d.flt := rfl
@[simp] theorem Dev.setWord_boot (d : Dev) (a : Nat) (v : Word) : (d.setWord a v).boot = d.boot := rfl
@[simp] theorem Dev.setWord_mbxBusy (d : Dev) (a : Nat) (v : Word) : (d.setWord a v).mbxBusy = d.mbxBusy := rfl
@[simp] theorem Dev.setWord_pw (d : Dev) (a : Nat) (v : Word) : (d.setWord a v).pw = d.pw := rfl
@[simp] theorem Dev.setWord_heldAcc (d : Dev) (a : Nat) (v : Word) : (d.setWord a v).heldAcc = d.heldAcc := rfl
@[simp] theorem Dev.setWord_ticks (d : Dev) (a : Nat) (v : Word) : (d.setWord a v).ticks = d.ticks := rfl
@[simp] theorem Dev.setWord_silent (d : Dev) (a : Nat) (v : Word) : (d.setWord a v).silent = d.silent := rfl
@[simp] theorem Dev.setWord_energy (d : Dev) (a : Nat) (v : Word) : (d.setWord a v).energy = d.energy := rfl
@[simp] theorem Dev.setWord_energyGrp (d : Dev) (a : Nat) (v : Word) : (d.setWord a v).energyGrp = d.energyGrp := rfl

/-! ### Dev.put -/

@[simp] theorem Dev.put_wide (d : Dev) (f : Fld) (v : Nat) : (d.put f v).wide = d.wide := rfl
@[simp] theorem Dev.put_ctr (d : Dev) (f : Fld) (v : Nat) : (d.put f v).ctr = d.ctr := rfl
@[simp] theorem Dev.put_out (d : Dev) (f : Fld) (v : Nat) : (d.put f v).out = d.out := rfl
@[simp] theorem Dev.put_reports (d : Dev) (f : Fld) (v : Nat) : (d.put f v).reports = d.reports := rfl
@[simp] theorem Dev.put_free (d : Dev) (f : Fld) (v : Nat) : (d.put f v).free = d.free := rfl
@[simp] theorem Dev.put_serial (d : Dev) (f : Fld) (v : Nat) : (d.put f v).serial = d.serial := rfl
@[simp] theorem Dev.put_rollback (d : Dev) (f : Fld) (v : Nat) : (d.put f v).rollback = d.rollback := rfl
@[simp] theorem Dev.put_keyHash (d : Dev) (f : Fld) (v : Nat) : (d.put f v).keyHash = d.keyHash := rfl
@[simp] theorem Dev.put_fuses (d : Dev) (f : Fld) (v : Nat) : (d.put f v).fuses = d.fuses := rfl
@[simp] theorem Dev.put_pins (d : Dev) (f : Fld) (v : Nat) : (d.put f v).pins = d.pins := rfl
@[simp] theorem Dev.put_msix (d : Dev) (f : Fld) (v : Nat) : (d.put f v).msix = d.msix := rfl
@[simp] theorem Dev.put_pba (d : Dev) (f : Fld) (v : Nat) : (d.put f v).pba = d.pba := rfl
@[simp] theorem Dev.put_lanes (d : Dev) (f : Fld) (v : Nat) : (d.put f v).lanes = d.lanes := rfl
@[simp] theorem Dev.put_eye (d : Dev) (f : Fld) (v : Nat) : (d.put f v).eye = d.eye := rfl
@[simp] theorem Dev.put_frames (d : Dev) (f : Fld) (v : Nat) : (d.put f v).frames = d.frames := rfl
@[simp] theorem Dev.put_nextFid (d : Dev) (f : Fld) (v : Nat) : (d.put f v).nextFid = d.nextFid := rfl
@[simp] theorem Dev.put_nextCid (d : Dev) (f : Fld) (v : Nat) : (d.put f v).nextCid = d.nextCid := rfl
@[simp] theorem Dev.put_slices (d : Dev) (f : Fld) (v : Nat) : (d.put f v).slices = d.slices := rfl
@[simp] theorem Dev.put_queues (d : Dev) (f : Fld) (v : Nat) : (d.put f v).queues = d.queues := rfl
@[simp] theorem Dev.put_ports (d : Dev) (f : Fld) (v : Nat) : (d.put f v).ports = d.ports := rfl
@[simp] theorem Dev.put_policers (d : Dev) (f : Fld) (v : Nat) : (d.put f v).policers = d.policers := rfl
@[simp] theorem Dev.put_resv (d : Dev) (f : Fld) (v : Nat) : (d.put f v).resv = d.resv := rfl
@[simp] theorem Dev.put_lateRaised (d : Dev) (f : Fld) (v : Nat) : (d.put f v).lateRaised = d.lateRaised := rfl
@[simp] theorem Dev.put_punts (d : Dev) (f : Fld) (v : Nat) : (d.put f v).punts = d.punts := rfl
@[simp] theorem Dev.put_dmaIdx (d : Dev) (f : Fld) (v : Nat) : (d.put f v).dmaIdx = d.dmaIdx := rfl
@[simp] theorem Dev.put_ase (d : Dev) (f : Fld) (v : Nat) : (d.put f v).ase = d.ase := rfl
@[simp] theorem Dev.put_aseFlips (d : Dev) (f : Fld) (v : Nat) : (d.put f v).aseFlips = d.aseFlips := rfl
@[simp] theorem Dev.put_gaz (d : Dev) (f : Fld) (v : Nat) : (d.put f v).gaz = d.gaz := rfl
@[simp] theorem Dev.put_badEntries (d : Dev) (f : Fld) (v : Nat) : (d.put f v).badEntries = d.badEntries := rfl
@[simp] theorem Dev.put_badSeen (d : Dev) (f : Fld) (v : Nat) : (d.put f v).badSeen = d.badSeen := rfl
@[simp] theorem Dev.put_rowFails (d : Dev) (f : Fld) (v : Nat) : (d.put f v).rowFails = d.rowFails := rfl
@[simp] theorem Dev.put_spareRows (d : Dev) (f : Fld) (v : Nat) : (d.put f v).spareRows = d.spareRows := rfl
@[simp] theorem Dev.put_bpm (d : Dev) (f : Fld) (v : Nat) : (d.put f v).bpm = d.bpm := rfl
@[simp] theorem Dev.put_tel (d : Dev) (f : Fld) (v : Nat) : (d.put f v).tel = d.tel := rfl
@[simp] theorem Dev.put_buf (d : Dev) (f : Fld) (v : Nat) : (d.put f v).buf = d.buf := rfl
@[simp] theorem Dev.put_pmu (d : Dev) (f : Fld) (v : Nat) : (d.put f v).pmu = d.pmu := rfl
@[simp] theorem Dev.put_hk (d : Dev) (f : Fld) (v : Nat) : (d.put f v).hk = d.hk := rfl
@[simp] theorem Dev.put_pwr (d : Dev) (f : Fld) (v : Nat) : (d.put f v).pwr = d.pwr := rfl
@[simp] theorem Dev.put_flt (d : Dev) (f : Fld) (v : Nat) : (d.put f v).flt = d.flt := rfl
@[simp] theorem Dev.put_boot (d : Dev) (f : Fld) (v : Nat) : (d.put f v).boot = d.boot := rfl
@[simp] theorem Dev.put_mbxBusy (d : Dev) (f : Fld) (v : Nat) : (d.put f v).mbxBusy = d.mbxBusy := rfl
@[simp] theorem Dev.put_pw (d : Dev) (f : Fld) (v : Nat) : (d.put f v).pw = d.pw := rfl
@[simp] theorem Dev.put_heldAcc (d : Dev) (f : Fld) (v : Nat) : (d.put f v).heldAcc = d.heldAcc := rfl
@[simp] theorem Dev.put_ticks (d : Dev) (f : Fld) (v : Nat) : (d.put f v).ticks = d.ticks := rfl
@[simp] theorem Dev.put_silent (d : Dev) (f : Fld) (v : Nat) : (d.put f v).silent = d.silent := rfl
@[simp] theorem Dev.put_energy (d : Dev) (f : Fld) (v : Nat) : (d.put f v).energy = d.energy := rfl
@[simp] theorem Dev.put_energyGrp (d : Dev) (f : Fld) (v : Nat) : (d.put f v).energyGrp = d.energyGrp := rfl

/-! ### Dev.addTo -/

@[simp] theorem Dev.addTo_wide (d : Dev) (f : Fld) (n : Nat) : (d.addTo f n).wide = d.wide := rfl
@[simp] theorem Dev.addTo_ctr (d : Dev) (f : Fld) (n : Nat) : (d.addTo f n).ctr = d.ctr := rfl
@[simp] theorem Dev.addTo_out (d : Dev) (f : Fld) (n : Nat) : (d.addTo f n).out = d.out := rfl
@[simp] theorem Dev.addTo_reports (d : Dev) (f : Fld) (n : Nat) : (d.addTo f n).reports = d.reports := rfl
@[simp] theorem Dev.addTo_free (d : Dev) (f : Fld) (n : Nat) : (d.addTo f n).free = d.free := rfl
@[simp] theorem Dev.addTo_serial (d : Dev) (f : Fld) (n : Nat) : (d.addTo f n).serial = d.serial := rfl
@[simp] theorem Dev.addTo_rollback (d : Dev) (f : Fld) (n : Nat) : (d.addTo f n).rollback = d.rollback := rfl
@[simp] theorem Dev.addTo_keyHash (d : Dev) (f : Fld) (n : Nat) : (d.addTo f n).keyHash = d.keyHash := rfl
@[simp] theorem Dev.addTo_fuses (d : Dev) (f : Fld) (n : Nat) : (d.addTo f n).fuses = d.fuses := rfl
@[simp] theorem Dev.addTo_pins (d : Dev) (f : Fld) (n : Nat) : (d.addTo f n).pins = d.pins := rfl
@[simp] theorem Dev.addTo_msix (d : Dev) (f : Fld) (n : Nat) : (d.addTo f n).msix = d.msix := rfl
@[simp] theorem Dev.addTo_pba (d : Dev) (f : Fld) (n : Nat) : (d.addTo f n).pba = d.pba := rfl
@[simp] theorem Dev.addTo_lanes (d : Dev) (f : Fld) (n : Nat) : (d.addTo f n).lanes = d.lanes := rfl
@[simp] theorem Dev.addTo_eye (d : Dev) (f : Fld) (n : Nat) : (d.addTo f n).eye = d.eye := rfl
@[simp] theorem Dev.addTo_frames (d : Dev) (f : Fld) (n : Nat) : (d.addTo f n).frames = d.frames := rfl
@[simp] theorem Dev.addTo_nextFid (d : Dev) (f : Fld) (n : Nat) : (d.addTo f n).nextFid = d.nextFid := rfl
@[simp] theorem Dev.addTo_nextCid (d : Dev) (f : Fld) (n : Nat) : (d.addTo f n).nextCid = d.nextCid := rfl
@[simp] theorem Dev.addTo_slices (d : Dev) (f : Fld) (n : Nat) : (d.addTo f n).slices = d.slices := rfl
@[simp] theorem Dev.addTo_queues (d : Dev) (f : Fld) (n : Nat) : (d.addTo f n).queues = d.queues := rfl
@[simp] theorem Dev.addTo_ports (d : Dev) (f : Fld) (n : Nat) : (d.addTo f n).ports = d.ports := rfl
@[simp] theorem Dev.addTo_policers (d : Dev) (f : Fld) (n : Nat) : (d.addTo f n).policers = d.policers := rfl
@[simp] theorem Dev.addTo_resv (d : Dev) (f : Fld) (n : Nat) : (d.addTo f n).resv = d.resv := rfl
@[simp] theorem Dev.addTo_lateRaised (d : Dev) (f : Fld) (n : Nat) : (d.addTo f n).lateRaised = d.lateRaised := rfl
@[simp] theorem Dev.addTo_punts (d : Dev) (f : Fld) (n : Nat) : (d.addTo f n).punts = d.punts := rfl
@[simp] theorem Dev.addTo_dmaIdx (d : Dev) (f : Fld) (n : Nat) : (d.addTo f n).dmaIdx = d.dmaIdx := rfl
@[simp] theorem Dev.addTo_ase (d : Dev) (f : Fld) (n : Nat) : (d.addTo f n).ase = d.ase := rfl
@[simp] theorem Dev.addTo_aseFlips (d : Dev) (f : Fld) (n : Nat) : (d.addTo f n).aseFlips = d.aseFlips := rfl
@[simp] theorem Dev.addTo_gaz (d : Dev) (f : Fld) (n : Nat) : (d.addTo f n).gaz = d.gaz := rfl
@[simp] theorem Dev.addTo_badEntries (d : Dev) (f : Fld) (n : Nat) : (d.addTo f n).badEntries = d.badEntries := rfl
@[simp] theorem Dev.addTo_badSeen (d : Dev) (f : Fld) (n : Nat) : (d.addTo f n).badSeen = d.badSeen := rfl
@[simp] theorem Dev.addTo_rowFails (d : Dev) (f : Fld) (n : Nat) : (d.addTo f n).rowFails = d.rowFails := rfl
@[simp] theorem Dev.addTo_spareRows (d : Dev) (f : Fld) (n : Nat) : (d.addTo f n).spareRows = d.spareRows := rfl
@[simp] theorem Dev.addTo_bpm (d : Dev) (f : Fld) (n : Nat) : (d.addTo f n).bpm = d.bpm := rfl
@[simp] theorem Dev.addTo_tel (d : Dev) (f : Fld) (n : Nat) : (d.addTo f n).tel = d.tel := rfl
@[simp] theorem Dev.addTo_buf (d : Dev) (f : Fld) (n : Nat) : (d.addTo f n).buf = d.buf := rfl
@[simp] theorem Dev.addTo_pmu (d : Dev) (f : Fld) (n : Nat) : (d.addTo f n).pmu = d.pmu := rfl
@[simp] theorem Dev.addTo_hk (d : Dev) (f : Fld) (n : Nat) : (d.addTo f n).hk = d.hk := rfl
@[simp] theorem Dev.addTo_pwr (d : Dev) (f : Fld) (n : Nat) : (d.addTo f n).pwr = d.pwr := rfl
@[simp] theorem Dev.addTo_flt (d : Dev) (f : Fld) (n : Nat) : (d.addTo f n).flt = d.flt := rfl
@[simp] theorem Dev.addTo_boot (d : Dev) (f : Fld) (n : Nat) : (d.addTo f n).boot = d.boot := rfl
@[simp] theorem Dev.addTo_mbxBusy (d : Dev) (f : Fld) (n : Nat) : (d.addTo f n).mbxBusy = d.mbxBusy := rfl
@[simp] theorem Dev.addTo_pw (d : Dev) (f : Fld) (n : Nat) : (d.addTo f n).pw = d.pw := rfl
@[simp] theorem Dev.addTo_heldAcc (d : Dev) (f : Fld) (n : Nat) : (d.addTo f n).heldAcc = d.heldAcc := rfl
@[simp] theorem Dev.addTo_ticks (d : Dev) (f : Fld) (n : Nat) : (d.addTo f n).ticks = d.ticks := rfl
@[simp] theorem Dev.addTo_silent (d : Dev) (f : Fld) (n : Nat) : (d.addTo f n).silent = d.silent := rfl
@[simp] theorem Dev.addTo_energy (d : Dev) (f : Fld) (n : Nat) : (d.addTo f n).energy = d.energy := rfl
@[simp] theorem Dev.addTo_energyGrp (d : Dev) (f : Fld) (n : Nat) : (d.addTo f n).energyGrp = d.energyGrp := rfl

/-! ### Dev.bump -/

@[simp] theorem Dev.bump_wide (d : Dev) (f : Fld) : (d.bump f).wide = d.wide := rfl
@[simp] theorem Dev.bump_ctr (d : Dev) (f : Fld) : (d.bump f).ctr = d.ctr := rfl
@[simp] theorem Dev.bump_out (d : Dev) (f : Fld) : (d.bump f).out = d.out := rfl
@[simp] theorem Dev.bump_reports (d : Dev) (f : Fld) : (d.bump f).reports = d.reports := rfl
@[simp] theorem Dev.bump_free (d : Dev) (f : Fld) : (d.bump f).free = d.free := rfl
@[simp] theorem Dev.bump_serial (d : Dev) (f : Fld) : (d.bump f).serial = d.serial := rfl
@[simp] theorem Dev.bump_rollback (d : Dev) (f : Fld) : (d.bump f).rollback = d.rollback := rfl
@[simp] theorem Dev.bump_keyHash (d : Dev) (f : Fld) : (d.bump f).keyHash = d.keyHash := rfl
@[simp] theorem Dev.bump_fuses (d : Dev) (f : Fld) : (d.bump f).fuses = d.fuses := rfl
@[simp] theorem Dev.bump_pins (d : Dev) (f : Fld) : (d.bump f).pins = d.pins := rfl
@[simp] theorem Dev.bump_msix (d : Dev) (f : Fld) : (d.bump f).msix = d.msix := rfl
@[simp] theorem Dev.bump_pba (d : Dev) (f : Fld) : (d.bump f).pba = d.pba := rfl
@[simp] theorem Dev.bump_lanes (d : Dev) (f : Fld) : (d.bump f).lanes = d.lanes := rfl
@[simp] theorem Dev.bump_eye (d : Dev) (f : Fld) : (d.bump f).eye = d.eye := rfl
@[simp] theorem Dev.bump_frames (d : Dev) (f : Fld) : (d.bump f).frames = d.frames := rfl
@[simp] theorem Dev.bump_nextFid (d : Dev) (f : Fld) : (d.bump f).nextFid = d.nextFid := rfl
@[simp] theorem Dev.bump_nextCid (d : Dev) (f : Fld) : (d.bump f).nextCid = d.nextCid := rfl
@[simp] theorem Dev.bump_slices (d : Dev) (f : Fld) : (d.bump f).slices = d.slices := rfl
@[simp] theorem Dev.bump_queues (d : Dev) (f : Fld) : (d.bump f).queues = d.queues := rfl
@[simp] theorem Dev.bump_ports (d : Dev) (f : Fld) : (d.bump f).ports = d.ports := rfl
@[simp] theorem Dev.bump_policers (d : Dev) (f : Fld) : (d.bump f).policers = d.policers := rfl
@[simp] theorem Dev.bump_resv (d : Dev) (f : Fld) : (d.bump f).resv = d.resv := rfl
@[simp] theorem Dev.bump_lateRaised (d : Dev) (f : Fld) : (d.bump f).lateRaised = d.lateRaised := rfl
@[simp] theorem Dev.bump_punts (d : Dev) (f : Fld) : (d.bump f).punts = d.punts := rfl
@[simp] theorem Dev.bump_dmaIdx (d : Dev) (f : Fld) : (d.bump f).dmaIdx = d.dmaIdx := rfl
@[simp] theorem Dev.bump_ase (d : Dev) (f : Fld) : (d.bump f).ase = d.ase := rfl
@[simp] theorem Dev.bump_aseFlips (d : Dev) (f : Fld) : (d.bump f).aseFlips = d.aseFlips := rfl
@[simp] theorem Dev.bump_gaz (d : Dev) (f : Fld) : (d.bump f).gaz = d.gaz := rfl
@[simp] theorem Dev.bump_badEntries (d : Dev) (f : Fld) : (d.bump f).badEntries = d.badEntries := rfl
@[simp] theorem Dev.bump_badSeen (d : Dev) (f : Fld) : (d.bump f).badSeen = d.badSeen := rfl
@[simp] theorem Dev.bump_rowFails (d : Dev) (f : Fld) : (d.bump f).rowFails = d.rowFails := rfl
@[simp] theorem Dev.bump_spareRows (d : Dev) (f : Fld) : (d.bump f).spareRows = d.spareRows := rfl
@[simp] theorem Dev.bump_bpm (d : Dev) (f : Fld) : (d.bump f).bpm = d.bpm := rfl
@[simp] theorem Dev.bump_tel (d : Dev) (f : Fld) : (d.bump f).tel = d.tel := rfl
@[simp] theorem Dev.bump_buf (d : Dev) (f : Fld) : (d.bump f).buf = d.buf := rfl
@[simp] theorem Dev.bump_pmu (d : Dev) (f : Fld) : (d.bump f).pmu = d.pmu := rfl
@[simp] theorem Dev.bump_hk (d : Dev) (f : Fld) : (d.bump f).hk = d.hk := rfl
@[simp] theorem Dev.bump_pwr (d : Dev) (f : Fld) : (d.bump f).pwr = d.pwr := rfl
@[simp] theorem Dev.bump_flt (d : Dev) (f : Fld) : (d.bump f).flt = d.flt := rfl
@[simp] theorem Dev.bump_boot (d : Dev) (f : Fld) : (d.bump f).boot = d.boot := rfl
@[simp] theorem Dev.bump_mbxBusy (d : Dev) (f : Fld) : (d.bump f).mbxBusy = d.mbxBusy := rfl
@[simp] theorem Dev.bump_pw (d : Dev) (f : Fld) : (d.bump f).pw = d.pw := rfl
@[simp] theorem Dev.bump_heldAcc (d : Dev) (f : Fld) : (d.bump f).heldAcc = d.heldAcc := rfl
@[simp] theorem Dev.bump_ticks (d : Dev) (f : Fld) : (d.bump f).ticks = d.ticks := rfl
@[simp] theorem Dev.bump_silent (d : Dev) (f : Fld) : (d.bump f).silent = d.silent := rfl
@[simp] theorem Dev.bump_energy (d : Dev) (f : Fld) : (d.bump f).energy = d.energy := rfl
@[simp] theorem Dev.bump_energyGrp (d : Dev) (f : Fld) : (d.bump f).energyGrp = d.energyGrp := rfl

/-! ### Dev.subFrom -/

@[simp] theorem Dev.subFrom_wide (d : Dev) (f : Fld) (n : Nat) : (d.subFrom f n).wide = d.wide := rfl
@[simp] theorem Dev.subFrom_ctr (d : Dev) (f : Fld) (n : Nat) : (d.subFrom f n).ctr = d.ctr := rfl
@[simp] theorem Dev.subFrom_out (d : Dev) (f : Fld) (n : Nat) : (d.subFrom f n).out = d.out := rfl
@[simp] theorem Dev.subFrom_reports (d : Dev) (f : Fld) (n : Nat) : (d.subFrom f n).reports = d.reports := rfl
@[simp] theorem Dev.subFrom_free (d : Dev) (f : Fld) (n : Nat) : (d.subFrom f n).free = d.free := rfl
@[simp] theorem Dev.subFrom_serial (d : Dev) (f : Fld) (n : Nat) : (d.subFrom f n).serial = d.serial := rfl
@[simp] theorem Dev.subFrom_rollback (d : Dev) (f : Fld) (n : Nat) : (d.subFrom f n).rollback = d.rollback := rfl
@[simp] theorem Dev.subFrom_keyHash (d : Dev) (f : Fld) (n : Nat) : (d.subFrom f n).keyHash = d.keyHash := rfl
@[simp] theorem Dev.subFrom_fuses (d : Dev) (f : Fld) (n : Nat) : (d.subFrom f n).fuses = d.fuses := rfl
@[simp] theorem Dev.subFrom_pins (d : Dev) (f : Fld) (n : Nat) : (d.subFrom f n).pins = d.pins := rfl
@[simp] theorem Dev.subFrom_msix (d : Dev) (f : Fld) (n : Nat) : (d.subFrom f n).msix = d.msix := rfl
@[simp] theorem Dev.subFrom_pba (d : Dev) (f : Fld) (n : Nat) : (d.subFrom f n).pba = d.pba := rfl
@[simp] theorem Dev.subFrom_lanes (d : Dev) (f : Fld) (n : Nat) : (d.subFrom f n).lanes = d.lanes := rfl
@[simp] theorem Dev.subFrom_eye (d : Dev) (f : Fld) (n : Nat) : (d.subFrom f n).eye = d.eye := rfl
@[simp] theorem Dev.subFrom_frames (d : Dev) (f : Fld) (n : Nat) : (d.subFrom f n).frames = d.frames := rfl
@[simp] theorem Dev.subFrom_nextFid (d : Dev) (f : Fld) (n : Nat) : (d.subFrom f n).nextFid = d.nextFid := rfl
@[simp] theorem Dev.subFrom_nextCid (d : Dev) (f : Fld) (n : Nat) : (d.subFrom f n).nextCid = d.nextCid := rfl
@[simp] theorem Dev.subFrom_slices (d : Dev) (f : Fld) (n : Nat) : (d.subFrom f n).slices = d.slices := rfl
@[simp] theorem Dev.subFrom_queues (d : Dev) (f : Fld) (n : Nat) : (d.subFrom f n).queues = d.queues := rfl
@[simp] theorem Dev.subFrom_ports (d : Dev) (f : Fld) (n : Nat) : (d.subFrom f n).ports = d.ports := rfl
@[simp] theorem Dev.subFrom_policers (d : Dev) (f : Fld) (n : Nat) : (d.subFrom f n).policers = d.policers := rfl
@[simp] theorem Dev.subFrom_resv (d : Dev) (f : Fld) (n : Nat) : (d.subFrom f n).resv = d.resv := rfl
@[simp] theorem Dev.subFrom_lateRaised (d : Dev) (f : Fld) (n : Nat) : (d.subFrom f n).lateRaised = d.lateRaised := rfl
@[simp] theorem Dev.subFrom_punts (d : Dev) (f : Fld) (n : Nat) : (d.subFrom f n).punts = d.punts := rfl
@[simp] theorem Dev.subFrom_dmaIdx (d : Dev) (f : Fld) (n : Nat) : (d.subFrom f n).dmaIdx = d.dmaIdx := rfl
@[simp] theorem Dev.subFrom_ase (d : Dev) (f : Fld) (n : Nat) : (d.subFrom f n).ase = d.ase := rfl
@[simp] theorem Dev.subFrom_aseFlips (d : Dev) (f : Fld) (n : Nat) : (d.subFrom f n).aseFlips = d.aseFlips := rfl
@[simp] theorem Dev.subFrom_gaz (d : Dev) (f : Fld) (n : Nat) : (d.subFrom f n).gaz = d.gaz := rfl
@[simp] theorem Dev.subFrom_badEntries (d : Dev) (f : Fld) (n : Nat) : (d.subFrom f n).badEntries = d.badEntries := rfl
@[simp] theorem Dev.subFrom_badSeen (d : Dev) (f : Fld) (n : Nat) : (d.subFrom f n).badSeen = d.badSeen := rfl
@[simp] theorem Dev.subFrom_rowFails (d : Dev) (f : Fld) (n : Nat) : (d.subFrom f n).rowFails = d.rowFails := rfl
@[simp] theorem Dev.subFrom_spareRows (d : Dev) (f : Fld) (n : Nat) : (d.subFrom f n).spareRows = d.spareRows := rfl
@[simp] theorem Dev.subFrom_bpm (d : Dev) (f : Fld) (n : Nat) : (d.subFrom f n).bpm = d.bpm := rfl
@[simp] theorem Dev.subFrom_tel (d : Dev) (f : Fld) (n : Nat) : (d.subFrom f n).tel = d.tel := rfl
@[simp] theorem Dev.subFrom_buf (d : Dev) (f : Fld) (n : Nat) : (d.subFrom f n).buf = d.buf := rfl
@[simp] theorem Dev.subFrom_pmu (d : Dev) (f : Fld) (n : Nat) : (d.subFrom f n).pmu = d.pmu := rfl
@[simp] theorem Dev.subFrom_hk (d : Dev) (f : Fld) (n : Nat) : (d.subFrom f n).hk = d.hk := rfl
@[simp] theorem Dev.subFrom_pwr (d : Dev) (f : Fld) (n : Nat) : (d.subFrom f n).pwr = d.pwr := rfl
@[simp] theorem Dev.subFrom_flt (d : Dev) (f : Fld) (n : Nat) : (d.subFrom f n).flt = d.flt := rfl
@[simp] theorem Dev.subFrom_boot (d : Dev) (f : Fld) (n : Nat) : (d.subFrom f n).boot = d.boot := rfl
@[simp] theorem Dev.subFrom_mbxBusy (d : Dev) (f : Fld) (n : Nat) : (d.subFrom f n).mbxBusy = d.mbxBusy := rfl
@[simp] theorem Dev.subFrom_pw (d : Dev) (f : Fld) (n : Nat) : (d.subFrom f n).pw = d.pw := rfl
@[simp] theorem Dev.subFrom_heldAcc (d : Dev) (f : Fld) (n : Nat) : (d.subFrom f n).heldAcc = d.heldAcc := rfl
@[simp] theorem Dev.subFrom_ticks (d : Dev) (f : Fld) (n : Nat) : (d.subFrom f n).ticks = d.ticks := rfl
@[simp] theorem Dev.subFrom_silent (d : Dev) (f : Fld) (n : Nat) : (d.subFrom f n).silent = d.silent := rfl
@[simp] theorem Dev.subFrom_energy (d : Dev) (f : Fld) (n : Nat) : (d.subFrom f n).energy = d.energy := rfl
@[simp] theorem Dev.subFrom_energyGrp (d : Dev) (f : Fld) (n : Nat) : (d.subFrom f n).energyGrp = d.energyGrp := rfl

/-! ### Dev.emit -/

@[simp] theorem Dev.emit_regs (d : Dev) (o : Output) : (d.emit o).regs = d.regs := rfl
@[simp] theorem Dev.emit_wide (d : Dev) (o : Output) : (d.emit o).wide = d.wide := rfl
@[simp] theorem Dev.emit_ctr (d : Dev) (o : Output) : (d.emit o).ctr = d.ctr := rfl
@[simp] theorem Dev.emit_reports (d : Dev) (o : Output) : (d.emit o).reports = d.reports := rfl
@[simp] theorem Dev.emit_free (d : Dev) (o : Output) : (d.emit o).free = d.free := rfl
@[simp] theorem Dev.emit_serial (d : Dev) (o : Output) : (d.emit o).serial = d.serial := rfl
@[simp] theorem Dev.emit_rollback (d : Dev) (o : Output) : (d.emit o).rollback = d.rollback := rfl
@[simp] theorem Dev.emit_keyHash (d : Dev) (o : Output) : (d.emit o).keyHash = d.keyHash := rfl
@[simp] theorem Dev.emit_fuses (d : Dev) (o : Output) : (d.emit o).fuses = d.fuses := rfl
@[simp] theorem Dev.emit_pins (d : Dev) (o : Output) : (d.emit o).pins = d.pins := rfl
@[simp] theorem Dev.emit_msix (d : Dev) (o : Output) : (d.emit o).msix = d.msix := rfl
@[simp] theorem Dev.emit_pba (d : Dev) (o : Output) : (d.emit o).pba = d.pba := rfl
@[simp] theorem Dev.emit_lanes (d : Dev) (o : Output) : (d.emit o).lanes = d.lanes := rfl
@[simp] theorem Dev.emit_eye (d : Dev) (o : Output) : (d.emit o).eye = d.eye := rfl
@[simp] theorem Dev.emit_frames (d : Dev) (o : Output) : (d.emit o).frames = d.frames := rfl
@[simp] theorem Dev.emit_nextFid (d : Dev) (o : Output) : (d.emit o).nextFid = d.nextFid := rfl
@[simp] theorem Dev.emit_nextCid (d : Dev) (o : Output) : (d.emit o).nextCid = d.nextCid := rfl
@[simp] theorem Dev.emit_slices (d : Dev) (o : Output) : (d.emit o).slices = d.slices := rfl
@[simp] theorem Dev.emit_queues (d : Dev) (o : Output) : (d.emit o).queues = d.queues := rfl
@[simp] theorem Dev.emit_ports (d : Dev) (o : Output) : (d.emit o).ports = d.ports := rfl
@[simp] theorem Dev.emit_policers (d : Dev) (o : Output) : (d.emit o).policers = d.policers := rfl
@[simp] theorem Dev.emit_resv (d : Dev) (o : Output) : (d.emit o).resv = d.resv := rfl
@[simp] theorem Dev.emit_lateRaised (d : Dev) (o : Output) : (d.emit o).lateRaised = d.lateRaised := rfl
@[simp] theorem Dev.emit_punts (d : Dev) (o : Output) : (d.emit o).punts = d.punts := rfl
@[simp] theorem Dev.emit_dmaIdx (d : Dev) (o : Output) : (d.emit o).dmaIdx = d.dmaIdx := rfl
@[simp] theorem Dev.emit_ase (d : Dev) (o : Output) : (d.emit o).ase = d.ase := rfl
@[simp] theorem Dev.emit_aseFlips (d : Dev) (o : Output) : (d.emit o).aseFlips = d.aseFlips := rfl
@[simp] theorem Dev.emit_gaz (d : Dev) (o : Output) : (d.emit o).gaz = d.gaz := rfl
@[simp] theorem Dev.emit_badEntries (d : Dev) (o : Output) : (d.emit o).badEntries = d.badEntries := rfl
@[simp] theorem Dev.emit_badSeen (d : Dev) (o : Output) : (d.emit o).badSeen = d.badSeen := rfl
@[simp] theorem Dev.emit_rowFails (d : Dev) (o : Output) : (d.emit o).rowFails = d.rowFails := rfl
@[simp] theorem Dev.emit_spareRows (d : Dev) (o : Output) : (d.emit o).spareRows = d.spareRows := rfl
@[simp] theorem Dev.emit_bpm (d : Dev) (o : Output) : (d.emit o).bpm = d.bpm := rfl
@[simp] theorem Dev.emit_tel (d : Dev) (o : Output) : (d.emit o).tel = d.tel := rfl
@[simp] theorem Dev.emit_buf (d : Dev) (o : Output) : (d.emit o).buf = d.buf := rfl
@[simp] theorem Dev.emit_pmu (d : Dev) (o : Output) : (d.emit o).pmu = d.pmu := rfl
@[simp] theorem Dev.emit_hk (d : Dev) (o : Output) : (d.emit o).hk = d.hk := rfl
@[simp] theorem Dev.emit_pwr (d : Dev) (o : Output) : (d.emit o).pwr = d.pwr := rfl
@[simp] theorem Dev.emit_flt (d : Dev) (o : Output) : (d.emit o).flt = d.flt := rfl
@[simp] theorem Dev.emit_boot (d : Dev) (o : Output) : (d.emit o).boot = d.boot := rfl
@[simp] theorem Dev.emit_mbxBusy (d : Dev) (o : Output) : (d.emit o).mbxBusy = d.mbxBusy := rfl
@[simp] theorem Dev.emit_pw (d : Dev) (o : Output) : (d.emit o).pw = d.pw := rfl
@[simp] theorem Dev.emit_heldAcc (d : Dev) (o : Output) : (d.emit o).heldAcc = d.heldAcc := rfl
@[simp] theorem Dev.emit_ticks (d : Dev) (o : Output) : (d.emit o).ticks = d.ticks := rfl
@[simp] theorem Dev.emit_silent (d : Dev) (o : Output) : (d.emit o).silent = d.silent := rfl
@[simp] theorem Dev.emit_energy (d : Dev) (o : Output) : (d.emit o).energy = d.energy := rfl
@[simp] theorem Dev.emit_energyGrp (d : Dev) (o : Output) : (d.emit o).energyGrp = d.energyGrp := rfl

/-! ### Dev.report -/

@[simp] theorem Dev.report_regs (d : Dev) (src detail : Nat) : (d.report src detail).regs = d.regs := rfl
@[simp] theorem Dev.report_wide (d : Dev) (src detail : Nat) : (d.report src detail).wide = d.wide := rfl
@[simp] theorem Dev.report_ctr (d : Dev) (src detail : Nat) : (d.report src detail).ctr = d.ctr := rfl
@[simp] theorem Dev.report_out (d : Dev) (src detail : Nat) : (d.report src detail).out = d.out := rfl
@[simp] theorem Dev.report_free (d : Dev) (src detail : Nat) : (d.report src detail).free = d.free := rfl
@[simp] theorem Dev.report_serial (d : Dev) (src detail : Nat) : (d.report src detail).serial = d.serial := rfl
@[simp] theorem Dev.report_rollback (d : Dev) (src detail : Nat) : (d.report src detail).rollback = d.rollback := rfl
@[simp] theorem Dev.report_keyHash (d : Dev) (src detail : Nat) : (d.report src detail).keyHash = d.keyHash := rfl
@[simp] theorem Dev.report_fuses (d : Dev) (src detail : Nat) : (d.report src detail).fuses = d.fuses := rfl
@[simp] theorem Dev.report_pins (d : Dev) (src detail : Nat) : (d.report src detail).pins = d.pins := rfl
@[simp] theorem Dev.report_msix (d : Dev) (src detail : Nat) : (d.report src detail).msix = d.msix := rfl
@[simp] theorem Dev.report_pba (d : Dev) (src detail : Nat) : (d.report src detail).pba = d.pba := rfl
@[simp] theorem Dev.report_lanes (d : Dev) (src detail : Nat) : (d.report src detail).lanes = d.lanes := rfl
@[simp] theorem Dev.report_eye (d : Dev) (src detail : Nat) : (d.report src detail).eye = d.eye := rfl
@[simp] theorem Dev.report_frames (d : Dev) (src detail : Nat) : (d.report src detail).frames = d.frames := rfl
@[simp] theorem Dev.report_nextFid (d : Dev) (src detail : Nat) : (d.report src detail).nextFid = d.nextFid := rfl
@[simp] theorem Dev.report_nextCid (d : Dev) (src detail : Nat) : (d.report src detail).nextCid = d.nextCid := rfl
@[simp] theorem Dev.report_slices (d : Dev) (src detail : Nat) : (d.report src detail).slices = d.slices := rfl
@[simp] theorem Dev.report_queues (d : Dev) (src detail : Nat) : (d.report src detail).queues = d.queues := rfl
@[simp] theorem Dev.report_ports (d : Dev) (src detail : Nat) : (d.report src detail).ports = d.ports := rfl
@[simp] theorem Dev.report_policers (d : Dev) (src detail : Nat) : (d.report src detail).policers = d.policers := rfl
@[simp] theorem Dev.report_resv (d : Dev) (src detail : Nat) : (d.report src detail).resv = d.resv := rfl
@[simp] theorem Dev.report_lateRaised (d : Dev) (src detail : Nat) : (d.report src detail).lateRaised = d.lateRaised := rfl
@[simp] theorem Dev.report_punts (d : Dev) (src detail : Nat) : (d.report src detail).punts = d.punts := rfl
@[simp] theorem Dev.report_dmaIdx (d : Dev) (src detail : Nat) : (d.report src detail).dmaIdx = d.dmaIdx := rfl
@[simp] theorem Dev.report_ase (d : Dev) (src detail : Nat) : (d.report src detail).ase = d.ase := rfl
@[simp] theorem Dev.report_aseFlips (d : Dev) (src detail : Nat) : (d.report src detail).aseFlips = d.aseFlips := rfl
@[simp] theorem Dev.report_gaz (d : Dev) (src detail : Nat) : (d.report src detail).gaz = d.gaz := rfl
@[simp] theorem Dev.report_badEntries (d : Dev) (src detail : Nat) : (d.report src detail).badEntries = d.badEntries := rfl
@[simp] theorem Dev.report_badSeen (d : Dev) (src detail : Nat) : (d.report src detail).badSeen = d.badSeen := rfl
@[simp] theorem Dev.report_rowFails (d : Dev) (src detail : Nat) : (d.report src detail).rowFails = d.rowFails := rfl
@[simp] theorem Dev.report_spareRows (d : Dev) (src detail : Nat) : (d.report src detail).spareRows = d.spareRows := rfl
@[simp] theorem Dev.report_bpm (d : Dev) (src detail : Nat) : (d.report src detail).bpm = d.bpm := rfl
@[simp] theorem Dev.report_tel (d : Dev) (src detail : Nat) : (d.report src detail).tel = d.tel := rfl
@[simp] theorem Dev.report_buf (d : Dev) (src detail : Nat) : (d.report src detail).buf = d.buf := rfl
@[simp] theorem Dev.report_pmu (d : Dev) (src detail : Nat) : (d.report src detail).pmu = d.pmu := rfl
@[simp] theorem Dev.report_hk (d : Dev) (src detail : Nat) : (d.report src detail).hk = d.hk := rfl
@[simp] theorem Dev.report_pwr (d : Dev) (src detail : Nat) : (d.report src detail).pwr = d.pwr := rfl
@[simp] theorem Dev.report_flt (d : Dev) (src detail : Nat) : (d.report src detail).flt = d.flt := rfl
@[simp] theorem Dev.report_boot (d : Dev) (src detail : Nat) : (d.report src detail).boot = d.boot := rfl
@[simp] theorem Dev.report_mbxBusy (d : Dev) (src detail : Nat) : (d.report src detail).mbxBusy = d.mbxBusy := rfl
@[simp] theorem Dev.report_pw (d : Dev) (src detail : Nat) : (d.report src detail).pw = d.pw := rfl
@[simp] theorem Dev.report_heldAcc (d : Dev) (src detail : Nat) : (d.report src detail).heldAcc = d.heldAcc := rfl
@[simp] theorem Dev.report_ticks (d : Dev) (src detail : Nat) : (d.report src detail).ticks = d.ticks := rfl
@[simp] theorem Dev.report_silent (d : Dev) (src detail : Nat) : (d.report src detail).silent = d.silent := rfl
@[simp] theorem Dev.report_energy (d : Dev) (src detail : Nat) : (d.report src detail).energy = d.energy := rfl
@[simp] theorem Dev.report_energyGrp (d : Dev) (src detail : Nat) : (d.report src detail).energyGrp = d.energyGrp := rfl

/-! ### Interrupts and status events -/

/-- A signalled vector becomes pending or leaves the device. -/
theorem Dev.signal_frame (d : Dev) (pf vec : Nat) : ∃ o p, d.signal pf vec = { d with out := o, pba := p } := by
  unfold Dev.signal
  split
  · exact ⟨_, _, rfl⟩
  · exact ⟨_, _, rfl⟩

theorem Dev.signalBlock_frame (d : Dev) (l : Loc) (vec : Nat) :
    ∃ o p, d.signalBlock l vec = { d with out := o, pba := p } := by
  unfold Dev.signalBlock
  split
  · obtain ⟨o, p, h⟩ := Dev.signal_frame d 0 vec
    obtain ⟨o', p', h'⟩ := Dev.signal_frame (d.signal 0 vec) 1 vec
    exact ⟨o', p', by rw [h', h]⟩
  · exact Dev.signal_frame ..

/-- A field's write changes the registers alone. -/
theorem Dev.put_frame (d : Dev) (f : Fld) (v : Nat) : ∃ r, d.put f v = { d with regs := r } := ⟨_, rfl⟩

theorem Dev.signalAt_frame (e : Dev) (x : Option Loc) :
    ∃ o p, (match x with
      | some l => match vectorOf l with
        | some v => e.signalBlock l v
        | none => e
      | none => e) = { e with out := o, pba := p } := by
  cases x with
  | none => exact ⟨e.out, e.pba, rfl⟩
  | some l =>
    dsimp only
    cases vectorOf l with
    | none => exact ⟨e.out, e.pba, rfl⟩
    | some v => exact Dev.signalBlock_frame ..

/-- What an event does to the device before its interrupt. -/
theorem Dev.event_shape (d : Dev) (f : Fld) :
    ∃ o p, d.event f = { (d.put ⟨f.addr, f.lo, f.lo⟩ 1).bump ⟨f.addr, 31, 24⟩ with out := o, pba := p } := by
  simp only [Dev.event]
  exact Dev.signalAt_frame _ _

/-- An event changes registers, and signals at most an interrupt. -/
theorem Dev.event_frame (d : Dev) (f : Fld) : ∃ r o p, d.event f = { d with regs := r, out := o, pba := p } := by
  obtain ⟨o, p, h⟩ := Dev.event_shape d f
  obtain ⟨r1, h1⟩ := Dev.put_frame d ⟨f.addr, f.lo, f.lo⟩ 1
  unfold Dev.bump Dev.addTo at h
  rw [h1] at h
  generalize Dev.get _ _ + 1 = n at h
  obtain ⟨r2, h2⟩ := Dev.put_frame { d with regs := r1 } ⟨f.addr, 31, 24⟩ n
  rw [h2] at h
  exact ⟨r2, o, p, h⟩

/-- An event writes its bit and SEQ. -/
theorem Dev.event_regs (d : Dev) (f : Fld) :
    (d.event f).regs = ((d.put ⟨f.addr, f.lo, f.lo⟩ 1).bump ⟨f.addr, 31, 24⟩).regs := by
  obtain ⟨o, p, h⟩ := Dev.event_shape d f
  rw [h]

@[simp] theorem Dev.event_wide (d : Dev) (f : Fld) : (d.event f).wide = d.wide := by
  obtain ⟨_, _, _, h⟩ := Dev.event_frame d f; rw [h]
@[simp] theorem Dev.event_ctr (d : Dev) (f : Fld) : (d.event f).ctr = d.ctr := by
  obtain ⟨_, _, _, h⟩ := Dev.event_frame d f; rw [h]
@[simp] theorem Dev.event_reports (d : Dev) (f : Fld) : (d.event f).reports = d.reports := by
  obtain ⟨_, _, _, h⟩ := Dev.event_frame d f; rw [h]
@[simp] theorem Dev.event_free (d : Dev) (f : Fld) : (d.event f).free = d.free := by
  obtain ⟨_, _, _, h⟩ := Dev.event_frame d f; rw [h]
@[simp] theorem Dev.event_serial (d : Dev) (f : Fld) : (d.event f).serial = d.serial := by
  obtain ⟨_, _, _, h⟩ := Dev.event_frame d f; rw [h]
@[simp] theorem Dev.event_rollback (d : Dev) (f : Fld) : (d.event f).rollback = d.rollback := by
  obtain ⟨_, _, _, h⟩ := Dev.event_frame d f; rw [h]
@[simp] theorem Dev.event_keyHash (d : Dev) (f : Fld) : (d.event f).keyHash = d.keyHash := by
  obtain ⟨_, _, _, h⟩ := Dev.event_frame d f; rw [h]
@[simp] theorem Dev.event_fuses (d : Dev) (f : Fld) : (d.event f).fuses = d.fuses := by
  obtain ⟨_, _, _, h⟩ := Dev.event_frame d f; rw [h]
@[simp] theorem Dev.event_pins (d : Dev) (f : Fld) : (d.event f).pins = d.pins := by
  obtain ⟨_, _, _, h⟩ := Dev.event_frame d f; rw [h]
@[simp] theorem Dev.event_msix (d : Dev) (f : Fld) : (d.event f).msix = d.msix := by
  obtain ⟨_, _, _, h⟩ := Dev.event_frame d f; rw [h]
@[simp] theorem Dev.event_lanes (d : Dev) (f : Fld) : (d.event f).lanes = d.lanes := by
  obtain ⟨_, _, _, h⟩ := Dev.event_frame d f; rw [h]
@[simp] theorem Dev.event_eye (d : Dev) (f : Fld) : (d.event f).eye = d.eye := by
  obtain ⟨_, _, _, h⟩ := Dev.event_frame d f; rw [h]
@[simp] theorem Dev.event_frames (d : Dev) (f : Fld) : (d.event f).frames = d.frames := by
  obtain ⟨_, _, _, h⟩ := Dev.event_frame d f; rw [h]
@[simp] theorem Dev.event_nextFid (d : Dev) (f : Fld) : (d.event f).nextFid = d.nextFid := by
  obtain ⟨_, _, _, h⟩ := Dev.event_frame d f; rw [h]
@[simp] theorem Dev.event_nextCid (d : Dev) (f : Fld) : (d.event f).nextCid = d.nextCid := by
  obtain ⟨_, _, _, h⟩ := Dev.event_frame d f; rw [h]
@[simp] theorem Dev.event_slices (d : Dev) (f : Fld) : (d.event f).slices = d.slices := by
  obtain ⟨_, _, _, h⟩ := Dev.event_frame d f; rw [h]
@[simp] theorem Dev.event_queues (d : Dev) (f : Fld) : (d.event f).queues = d.queues := by
  obtain ⟨_, _, _, h⟩ := Dev.event_frame d f; rw [h]
@[simp] theorem Dev.event_ports (d : Dev) (f : Fld) : (d.event f).ports = d.ports := by
  obtain ⟨_, _, _, h⟩ := Dev.event_frame d f; rw [h]
@[simp] theorem Dev.event_policers (d : Dev) (f : Fld) : (d.event f).policers = d.policers := by
  obtain ⟨_, _, _, h⟩ := Dev.event_frame d f; rw [h]
@[simp] theorem Dev.event_resv (d : Dev) (f : Fld) : (d.event f).resv = d.resv := by
  obtain ⟨_, _, _, h⟩ := Dev.event_frame d f; rw [h]
@[simp] theorem Dev.event_lateRaised (d : Dev) (f : Fld) : (d.event f).lateRaised = d.lateRaised := by
  obtain ⟨_, _, _, h⟩ := Dev.event_frame d f; rw [h]
@[simp] theorem Dev.event_punts (d : Dev) (f : Fld) : (d.event f).punts = d.punts := by
  obtain ⟨_, _, _, h⟩ := Dev.event_frame d f; rw [h]
@[simp] theorem Dev.event_dmaIdx (d : Dev) (f : Fld) : (d.event f).dmaIdx = d.dmaIdx := by
  obtain ⟨_, _, _, h⟩ := Dev.event_frame d f; rw [h]
@[simp] theorem Dev.event_ase (d : Dev) (f : Fld) : (d.event f).ase = d.ase := by
  obtain ⟨_, _, _, h⟩ := Dev.event_frame d f; rw [h]
@[simp] theorem Dev.event_aseFlips (d : Dev) (f : Fld) : (d.event f).aseFlips = d.aseFlips := by
  obtain ⟨_, _, _, h⟩ := Dev.event_frame d f; rw [h]
@[simp] theorem Dev.event_gaz (d : Dev) (f : Fld) : (d.event f).gaz = d.gaz := by
  obtain ⟨_, _, _, h⟩ := Dev.event_frame d f; rw [h]
@[simp] theorem Dev.event_badEntries (d : Dev) (f : Fld) : (d.event f).badEntries = d.badEntries := by
  obtain ⟨_, _, _, h⟩ := Dev.event_frame d f; rw [h]
@[simp] theorem Dev.event_badSeen (d : Dev) (f : Fld) : (d.event f).badSeen = d.badSeen := by
  obtain ⟨_, _, _, h⟩ := Dev.event_frame d f; rw [h]
@[simp] theorem Dev.event_rowFails (d : Dev) (f : Fld) : (d.event f).rowFails = d.rowFails := by
  obtain ⟨_, _, _, h⟩ := Dev.event_frame d f; rw [h]
@[simp] theorem Dev.event_spareRows (d : Dev) (f : Fld) : (d.event f).spareRows = d.spareRows := by
  obtain ⟨_, _, _, h⟩ := Dev.event_frame d f; rw [h]
@[simp] theorem Dev.event_bpm (d : Dev) (f : Fld) : (d.event f).bpm = d.bpm := by
  obtain ⟨_, _, _, h⟩ := Dev.event_frame d f; rw [h]
@[simp] theorem Dev.event_tel (d : Dev) (f : Fld) : (d.event f).tel = d.tel := by
  obtain ⟨_, _, _, h⟩ := Dev.event_frame d f; rw [h]
@[simp] theorem Dev.event_buf (d : Dev) (f : Fld) : (d.event f).buf = d.buf := by
  obtain ⟨_, _, _, h⟩ := Dev.event_frame d f; rw [h]
@[simp] theorem Dev.event_pmu (d : Dev) (f : Fld) : (d.event f).pmu = d.pmu := by
  obtain ⟨_, _, _, h⟩ := Dev.event_frame d f; rw [h]
@[simp] theorem Dev.event_hk (d : Dev) (f : Fld) : (d.event f).hk = d.hk := by
  obtain ⟨_, _, _, h⟩ := Dev.event_frame d f; rw [h]
@[simp] theorem Dev.event_pwr (d : Dev) (f : Fld) : (d.event f).pwr = d.pwr := by
  obtain ⟨_, _, _, h⟩ := Dev.event_frame d f; rw [h]
@[simp] theorem Dev.event_flt (d : Dev) (f : Fld) : (d.event f).flt = d.flt := by
  obtain ⟨_, _, _, h⟩ := Dev.event_frame d f; rw [h]
@[simp] theorem Dev.event_boot (d : Dev) (f : Fld) : (d.event f).boot = d.boot := by
  obtain ⟨_, _, _, h⟩ := Dev.event_frame d f; rw [h]
@[simp] theorem Dev.event_mbxBusy (d : Dev) (f : Fld) : (d.event f).mbxBusy = d.mbxBusy := by
  obtain ⟨_, _, _, h⟩ := Dev.event_frame d f; rw [h]
@[simp] theorem Dev.event_pw (d : Dev) (f : Fld) : (d.event f).pw = d.pw := by
  obtain ⟨_, _, _, h⟩ := Dev.event_frame d f; rw [h]
@[simp] theorem Dev.event_heldAcc (d : Dev) (f : Fld) : (d.event f).heldAcc = d.heldAcc := by
  obtain ⟨_, _, _, h⟩ := Dev.event_frame d f; rw [h]
@[simp] theorem Dev.event_ticks (d : Dev) (f : Fld) : (d.event f).ticks = d.ticks := by
  obtain ⟨_, _, _, h⟩ := Dev.event_frame d f; rw [h]
@[simp] theorem Dev.event_silent (d : Dev) (f : Fld) : (d.event f).silent = d.silent := by
  obtain ⟨_, _, _, h⟩ := Dev.event_frame d f; rw [h]
@[simp] theorem Dev.event_energy (d : Dev) (f : Fld) : (d.event f).energy = d.energy := by
  obtain ⟨_, _, _, h⟩ := Dev.event_frame d f; rw [h]
@[simp] theorem Dev.event_energyGrp (d : Dev) (f : Fld) : (d.event f).energyGrp = d.energyGrp := by
  obtain ⟨_, _, _, h⟩ := Dev.event_frame d f; rw [h]
@[simp] theorem Dev.signal_regs (d : Dev) (pf vec : Nat) : (d.signal pf vec).regs = d.regs := by
  obtain ⟨_, _, h⟩ := Dev.signal_frame d pf vec; rw [h]
@[simp] theorem Dev.signal_wide (d : Dev) (pf vec : Nat) : (d.signal pf vec).wide = d.wide := by
  obtain ⟨_, _, h⟩ := Dev.signal_frame d pf vec; rw [h]
@[simp] theorem Dev.signal_ctr (d : Dev) (pf vec : Nat) : (d.signal pf vec).ctr = d.ctr := by
  obtain ⟨_, _, h⟩ := Dev.signal_frame d pf vec; rw [h]
@[simp] theorem Dev.signal_reports (d : Dev) (pf vec : Nat) : (d.signal pf vec).reports = d.reports := by
  obtain ⟨_, _, h⟩ := Dev.signal_frame d pf vec; rw [h]
@[simp] theorem Dev.signal_free (d : Dev) (pf vec : Nat) : (d.signal pf vec).free = d.free := by
  obtain ⟨_, _, h⟩ := Dev.signal_frame d pf vec; rw [h]
@[simp] theorem Dev.signal_serial (d : Dev) (pf vec : Nat) : (d.signal pf vec).serial = d.serial := by
  obtain ⟨_, _, h⟩ := Dev.signal_frame d pf vec; rw [h]
@[simp] theorem Dev.signal_rollback (d : Dev) (pf vec : Nat) : (d.signal pf vec).rollback = d.rollback := by
  obtain ⟨_, _, h⟩ := Dev.signal_frame d pf vec; rw [h]
@[simp] theorem Dev.signal_keyHash (d : Dev) (pf vec : Nat) : (d.signal pf vec).keyHash = d.keyHash := by
  obtain ⟨_, _, h⟩ := Dev.signal_frame d pf vec; rw [h]
@[simp] theorem Dev.signal_fuses (d : Dev) (pf vec : Nat) : (d.signal pf vec).fuses = d.fuses := by
  obtain ⟨_, _, h⟩ := Dev.signal_frame d pf vec; rw [h]
@[simp] theorem Dev.signal_pins (d : Dev) (pf vec : Nat) : (d.signal pf vec).pins = d.pins := by
  obtain ⟨_, _, h⟩ := Dev.signal_frame d pf vec; rw [h]
@[simp] theorem Dev.signal_msix (d : Dev) (pf vec : Nat) : (d.signal pf vec).msix = d.msix := by
  obtain ⟨_, _, h⟩ := Dev.signal_frame d pf vec; rw [h]
@[simp] theorem Dev.signal_lanes (d : Dev) (pf vec : Nat) : (d.signal pf vec).lanes = d.lanes := by
  obtain ⟨_, _, h⟩ := Dev.signal_frame d pf vec; rw [h]
@[simp] theorem Dev.signal_eye (d : Dev) (pf vec : Nat) : (d.signal pf vec).eye = d.eye := by
  obtain ⟨_, _, h⟩ := Dev.signal_frame d pf vec; rw [h]
@[simp] theorem Dev.signal_frames (d : Dev) (pf vec : Nat) : (d.signal pf vec).frames = d.frames := by
  obtain ⟨_, _, h⟩ := Dev.signal_frame d pf vec; rw [h]
@[simp] theorem Dev.signal_nextFid (d : Dev) (pf vec : Nat) : (d.signal pf vec).nextFid = d.nextFid := by
  obtain ⟨_, _, h⟩ := Dev.signal_frame d pf vec; rw [h]
@[simp] theorem Dev.signal_nextCid (d : Dev) (pf vec : Nat) : (d.signal pf vec).nextCid = d.nextCid := by
  obtain ⟨_, _, h⟩ := Dev.signal_frame d pf vec; rw [h]
@[simp] theorem Dev.signal_slices (d : Dev) (pf vec : Nat) : (d.signal pf vec).slices = d.slices := by
  obtain ⟨_, _, h⟩ := Dev.signal_frame d pf vec; rw [h]
@[simp] theorem Dev.signal_queues (d : Dev) (pf vec : Nat) : (d.signal pf vec).queues = d.queues := by
  obtain ⟨_, _, h⟩ := Dev.signal_frame d pf vec; rw [h]
@[simp] theorem Dev.signal_ports (d : Dev) (pf vec : Nat) : (d.signal pf vec).ports = d.ports := by
  obtain ⟨_, _, h⟩ := Dev.signal_frame d pf vec; rw [h]
@[simp] theorem Dev.signal_policers (d : Dev) (pf vec : Nat) : (d.signal pf vec).policers = d.policers := by
  obtain ⟨_, _, h⟩ := Dev.signal_frame d pf vec; rw [h]
@[simp] theorem Dev.signal_resv (d : Dev) (pf vec : Nat) : (d.signal pf vec).resv = d.resv := by
  obtain ⟨_, _, h⟩ := Dev.signal_frame d pf vec; rw [h]
@[simp] theorem Dev.signal_lateRaised (d : Dev) (pf vec : Nat) : (d.signal pf vec).lateRaised = d.lateRaised := by
  obtain ⟨_, _, h⟩ := Dev.signal_frame d pf vec; rw [h]
@[simp] theorem Dev.signal_punts (d : Dev) (pf vec : Nat) : (d.signal pf vec).punts = d.punts := by
  obtain ⟨_, _, h⟩ := Dev.signal_frame d pf vec; rw [h]
@[simp] theorem Dev.signal_dmaIdx (d : Dev) (pf vec : Nat) : (d.signal pf vec).dmaIdx = d.dmaIdx := by
  obtain ⟨_, _, h⟩ := Dev.signal_frame d pf vec; rw [h]
@[simp] theorem Dev.signal_ase (d : Dev) (pf vec : Nat) : (d.signal pf vec).ase = d.ase := by
  obtain ⟨_, _, h⟩ := Dev.signal_frame d pf vec; rw [h]
@[simp] theorem Dev.signal_aseFlips (d : Dev) (pf vec : Nat) : (d.signal pf vec).aseFlips = d.aseFlips := by
  obtain ⟨_, _, h⟩ := Dev.signal_frame d pf vec; rw [h]
@[simp] theorem Dev.signal_gaz (d : Dev) (pf vec : Nat) : (d.signal pf vec).gaz = d.gaz := by
  obtain ⟨_, _, h⟩ := Dev.signal_frame d pf vec; rw [h]
@[simp] theorem Dev.signal_badEntries (d : Dev) (pf vec : Nat) : (d.signal pf vec).badEntries = d.badEntries := by
  obtain ⟨_, _, h⟩ := Dev.signal_frame d pf vec; rw [h]
@[simp] theorem Dev.signal_badSeen (d : Dev) (pf vec : Nat) : (d.signal pf vec).badSeen = d.badSeen := by
  obtain ⟨_, _, h⟩ := Dev.signal_frame d pf vec; rw [h]
@[simp] theorem Dev.signal_rowFails (d : Dev) (pf vec : Nat) : (d.signal pf vec).rowFails = d.rowFails := by
  obtain ⟨_, _, h⟩ := Dev.signal_frame d pf vec; rw [h]
@[simp] theorem Dev.signal_spareRows (d : Dev) (pf vec : Nat) : (d.signal pf vec).spareRows = d.spareRows := by
  obtain ⟨_, _, h⟩ := Dev.signal_frame d pf vec; rw [h]
@[simp] theorem Dev.signal_bpm (d : Dev) (pf vec : Nat) : (d.signal pf vec).bpm = d.bpm := by
  obtain ⟨_, _, h⟩ := Dev.signal_frame d pf vec; rw [h]
@[simp] theorem Dev.signal_tel (d : Dev) (pf vec : Nat) : (d.signal pf vec).tel = d.tel := by
  obtain ⟨_, _, h⟩ := Dev.signal_frame d pf vec; rw [h]
@[simp] theorem Dev.signal_buf (d : Dev) (pf vec : Nat) : (d.signal pf vec).buf = d.buf := by
  obtain ⟨_, _, h⟩ := Dev.signal_frame d pf vec; rw [h]
@[simp] theorem Dev.signal_pmu (d : Dev) (pf vec : Nat) : (d.signal pf vec).pmu = d.pmu := by
  obtain ⟨_, _, h⟩ := Dev.signal_frame d pf vec; rw [h]
@[simp] theorem Dev.signal_hk (d : Dev) (pf vec : Nat) : (d.signal pf vec).hk = d.hk := by
  obtain ⟨_, _, h⟩ := Dev.signal_frame d pf vec; rw [h]
@[simp] theorem Dev.signal_pwr (d : Dev) (pf vec : Nat) : (d.signal pf vec).pwr = d.pwr := by
  obtain ⟨_, _, h⟩ := Dev.signal_frame d pf vec; rw [h]
@[simp] theorem Dev.signal_flt (d : Dev) (pf vec : Nat) : (d.signal pf vec).flt = d.flt := by
  obtain ⟨_, _, h⟩ := Dev.signal_frame d pf vec; rw [h]
@[simp] theorem Dev.signal_boot (d : Dev) (pf vec : Nat) : (d.signal pf vec).boot = d.boot := by
  obtain ⟨_, _, h⟩ := Dev.signal_frame d pf vec; rw [h]
@[simp] theorem Dev.signal_mbxBusy (d : Dev) (pf vec : Nat) : (d.signal pf vec).mbxBusy = d.mbxBusy := by
  obtain ⟨_, _, h⟩ := Dev.signal_frame d pf vec; rw [h]
@[simp] theorem Dev.signal_pw (d : Dev) (pf vec : Nat) : (d.signal pf vec).pw = d.pw := by
  obtain ⟨_, _, h⟩ := Dev.signal_frame d pf vec; rw [h]
@[simp] theorem Dev.signal_heldAcc (d : Dev) (pf vec : Nat) : (d.signal pf vec).heldAcc = d.heldAcc := by
  obtain ⟨_, _, h⟩ := Dev.signal_frame d pf vec; rw [h]
@[simp] theorem Dev.signal_ticks (d : Dev) (pf vec : Nat) : (d.signal pf vec).ticks = d.ticks := by
  obtain ⟨_, _, h⟩ := Dev.signal_frame d pf vec; rw [h]
@[simp] theorem Dev.signal_silent (d : Dev) (pf vec : Nat) : (d.signal pf vec).silent = d.silent := by
  obtain ⟨_, _, h⟩ := Dev.signal_frame d pf vec; rw [h]
@[simp] theorem Dev.signal_energy (d : Dev) (pf vec : Nat) : (d.signal pf vec).energy = d.energy := by
  obtain ⟨_, _, h⟩ := Dev.signal_frame d pf vec; rw [h]
@[simp] theorem Dev.signal_energyGrp (d : Dev) (pf vec : Nat) : (d.signal pf vec).energyGrp = d.energyGrp := by
  obtain ⟨_, _, h⟩ := Dev.signal_frame d pf vec; rw [h]

end Sys2Proof.Machine
end

