-- ==== Sys2Proof/Laws/Fields.lean ====
section
/-!
SUPPORT. Laws of register fields (R102, R106) and of status events (R107): a read after a write, and what a write, an
event and a counter's step leave alone.
-/
namespace Sys2Proof.Machine

/-- The bits of a field's value. -/
theorem Fld.testBit_read (f : Fld) (w : Word) (j : Nat) :
    (f.read w).testBit j = (decide (j < f.hi + 1 - f.lo) && w.toNat.testBit (f.lo + j)) := by
  unfold Fld.read
  simp [Nat.testBit_mod_two_pow, Nat.testBit_div_two_pow, Nat.add_comm f.lo]

/-- The bits of a word with a field replaced. -/
theorem Fld.testBit_write (f : Fld) (w : Word) (v j : Nat) (h : f.lo ≤ f.hi) (h31 : f.hi < 32) :
    (f.write w v).toNat.testBit j
      = if f.lo ≤ j ∧ j ≤ f.hi then v.testBit (j - f.lo) else w.toNat.testBit j := by
  have hn : f.hi + 1 = f.lo + (f.hi + 1 - f.lo) := by omega
  have e : 2 ^ (f.hi + 1) = 2 ^ f.lo * 2 ^ (f.hi + 1 - f.lo) := by rw [← Nat.pow_add, ← hn]
  set n := f.hi + 1 - f.lo with hdn
  set L := w.toNat % 2 ^ f.lo with hL
  set H := w.toNat / 2 ^ (f.hi + 1) with hH
  have hM : f.read w < 2 ^ n := Nat.mod_lt _ (Nat.two_pow_pos _)
  have hLlt : L < 2 ^ f.lo := Nat.mod_lt _ (Nat.two_pow_pos _)
  have hw : w.toNat = 2 ^ f.lo * (2 ^ n * H + f.read w) + L := by
    have h1 := Nat.div_add_mod w.toNat (2 ^ f.lo)
    have h2 := Nat.div_add_mod (w.toNat / 2 ^ f.lo) (2 ^ n)
    rw [Nat.div_div_eq_div_mul, ← e] at h2
    have : f.read w = w.toNat / 2 ^ f.lo % 2 ^ n := rfl
    rw [this, hH, h2, hL, h1]
  have hv : v % 2 ^ n < 2 ^ n := Nat.mod_lt _ (Nat.two_pow_pos _)
  have hsum : w.toNat - f.read w * 2 ^ f.lo + v % 2 ^ n * 2 ^ f.lo = 2 ^ f.lo * (2 ^ n * H + v % 2 ^ n) + L := by
    have : w.toNat - f.read w * 2 ^ f.lo = 2 ^ f.lo * (2 ^ n * H) + L := by
      rw [hw, Nat.mul_add, Nat.mul_comm (f.read w)]; omega
    rw [this, Nat.mul_add]; ring
  have hlt : 2 ^ f.lo * (2 ^ n * H + v % 2 ^ n) + L < 2 ^ 32 := by
    have hHlt : H < 2 ^ (32 - (f.hi + 1)) := by
      rw [hH, Nat.div_lt_iff_lt_mul (Nat.two_pow_pos _), ← Nat.pow_add]
      have : 32 - (f.hi + 1) + (f.hi + 1) = 32 := by omega
      rw [this]; exact w.isLt
    have h1 : 2 ^ n * H + v % 2 ^ n < 2 ^ n * 2 ^ (32 - (f.hi + 1)) := by
      calc 2 ^ n * H + v % 2 ^ n < 2 ^ n * H + 2 ^ n := by omega
        _ = 2 ^ n * (H + 1) := by ring
        _ ≤ _ := Nat.mul_le_mul_left _ hHlt
    calc 2 ^ f.lo * (2 ^ n * H + v % 2 ^ n) + L < 2 ^ f.lo * (2 ^ n * H + v % 2 ^ n) + 2 ^ f.lo := by omega
      _ = 2 ^ f.lo * (2 ^ n * H + v % 2 ^ n + 1) := by ring
      _ ≤ 2 ^ f.lo * (2 ^ n * 2 ^ (32 - (f.hi + 1))) := Nat.mul_le_mul_left _ h1
      _ = 2 ^ 32 := by rw [← Nat.mul_assoc, ← e, ← Nat.pow_add]; congr 1; omega
  have hval : (f.write w v).toNat = 2 ^ f.lo * (2 ^ n * H + v % 2 ^ n) + L := by
    unfold Fld.write
    rw [BitVec.toNat_ofNat, ← hdn, hsum, Nat.mod_eq_of_lt hlt]
  rw [hval, Nat.testBit_two_pow_mul_add _ hLlt]
  conv_rhs => rw [hw, Nat.testBit_two_pow_mul_add _ hLlt]
  by_cases hj : j < f.lo
  · have : ¬ (f.lo ≤ j ∧ j ≤ f.hi) := by omega
    simp [hj, this]
  · simp only [hj, if_false]
    rw [Nat.testBit_two_pow_mul_add _ hv, Nat.testBit_two_pow_mul_add _ hM]
    by_cases hk : j - f.lo < n
    · have : f.lo ≤ j ∧ j ≤ f.hi := by omega
      simp [hk, this, Nat.testBit_mod_two_pow]
    · have : ¬ (f.lo ≤ j ∧ j ≤ f.hi) := by omega
      simp [hk, this]

/-- Reading the field just written. -/
theorem Fld.read_write_same (f : Fld) (w : Word) (v : Nat) (h : f.lo ≤ f.hi) (h31 : f.hi < 32) :
    f.read (f.write w v) = v % 2 ^ (f.hi + 1 - f.lo) := by
  apply Nat.eq_of_testBit_eq; intro j
  rw [Fld.testBit_read, Fld.testBit_write f w v _ h h31, Nat.testBit_mod_two_pow]
  by_cases hj : j < f.hi + 1 - f.lo
  · have : f.lo ≤ f.lo + j ∧ f.lo + j ≤ f.hi := by omega
    simp [hj, this]
  · simp [hj]

/-- Reading a field that shares no bit with the one written. -/
theorem Fld.read_write_disjoint (f g : Fld) (w : Word) (v : Nat) (h : f.lo ≤ f.hi) (h31 : f.hi < 32)
    (hd : f.hi < g.lo ∨ g.hi < f.lo) : g.read (f.write w v) = g.read w := by
  apply Nat.eq_of_testBit_eq; intro j
  rw [Fld.testBit_read, Fld.testBit_read, Fld.testBit_write f w v _ h h31]
  by_cases hj : j < g.hi + 1 - g.lo
  · have : ¬ (f.lo ≤ g.lo + j ∧ g.lo + j ≤ f.hi) := by omega
    simp [this]
  · simp [hj]

theorem Fld.read_lt (f : Fld) (w : Word) : f.read w < 2 ^ (f.hi + 1 - f.lo) := Nat.mod_lt _ (Nat.two_pow_pos _)

@[simp] theorem Dev.word_setWord (d : Dev) (a : Nat) (v : Word) : (d.setWord a v).word a = v := by
  simp [Dev.word, Dev.setWord]

theorem Dev.word_setWord_other (d : Dev) {a b : Nat} (v : Word) (h : b ≠ a) : (d.setWord a v).word b = d.word b := by
  simp [Dev.word, Dev.setWord, SMap.get_put_other _ _ _ _ h]

@[simp] theorem Dev.word_put (d : Dev) (f : Fld) (v : Nat) : (d.put f v).word f.addr = f.write (d.word f.addr) v := by
  simp [Dev.put]

theorem Dev.word_put_other (d : Dev) (f : Fld) (v : Nat) {b : Nat} (h : b ≠ f.addr) : (d.put f v).word b = d.word b :=
  Dev.word_setWord_other _ _ h

/-- A field reads as what was last written to it, cut to its width. -/
theorem Dev.get_put (d : Dev) (f : Fld) (v : Nat) (h : f.lo ≤ f.hi) (h31 : f.hi < 32) :
    (d.put f v).get f = v % 2 ^ (f.hi + 1 - f.lo) := by
  rw [Dev.get, Dev.word_put, Fld.read_write_same f _ v h h31]

/-- A write of a field changes no field of another register, and none that shares no bit with it. -/
theorem Dev.get_put_other (d : Dev) (f g : Fld) (v : Nat) (h : f.lo ≤ f.hi) (h31 : f.hi < 32)
    (hd : g.addr ≠ f.addr ∨ f.hi < g.lo ∨ g.hi < f.lo) : (d.put f v).get g = d.get g := by
  by_cases ha : g.addr = f.addr
  · have : f.hi < g.lo ∨ g.hi < f.lo := by rcases hd with hd | hd; exact absurd ha hd; exact hd
    rw [Dev.get, ha, Dev.word_put, Fld.read_write_disjoint f g _ v h h31 this, Dev.get, ha]
  · rw [Dev.get, Dev.word_put_other _ _ _ ha, Dev.get]

/-! ### Status events -/

theorem Dev.event_word (d : Dev) (f : Fld) (a : Nat) :
    (d.event f).word a = ((d.put ⟨f.addr, f.lo, f.lo⟩ 1).bump ⟨f.addr, 31, 24⟩).word a := by
  simp only [Dev.word, Dev.event_regs]

theorem Dev.event_word_other (d : Dev) (f : Fld) {a : Nat} (h : a ≠ f.addr) : (d.event f).word a = d.word a := by
  rw [Dev.event_word, Dev.bump, Dev.addTo, Dev.word_put_other _ _ _ (by exact h), Dev.word_put_other _ _ _ (by exact h)]

theorem Dev.event_get (d : Dev) (f g : Fld) :
    (d.event f).get g = ((d.put ⟨f.addr, f.lo, f.lo⟩ 1).bump ⟨f.addr, 31, 24⟩).get g := by
  simp only [Dev.get, Dev.event_word]

/-- The bit of the event is set. -/
theorem Dev.event_bit (d : Dev) (f : Fld) (h : f.lo < 24) : (d.event f).get ⟨f.addr, f.lo, f.lo⟩ = 1 := by
  rw [Dev.event_get, Dev.bump, Dev.addTo,
    Dev.get_put_other _ _ _ _ (by simp) (by simp) (by right; right; simp; omega),
    Dev.get_put _ _ _ (by simp) (by simp; omega)]
  simp

/-- SEQ has counted the event. -/
theorem Dev.event_seq (d : Dev) (f : Fld) (h : f.lo < 24) :
    (d.event f).get ⟨f.addr, 31, 24⟩ = (d.get ⟨f.addr, 31, 24⟩ + 1) % 256 := by
  rw [Dev.event_get, Dev.bump, Dev.addTo, Dev.get_put _ _ _ (by simp) (by simp),
    Dev.get_put_other _ _ _ _ (by simp) (by simp; omega) (by right; left; simp; omega)]
  rfl

/-- Every other field keeps its value. -/
theorem Dev.event_get_other (d : Dev) (f g : Fld) (h : f.lo < 24)
    (hg : g.addr ≠ f.addr ∨ (g.hi < 24 ∧ (g.hi < f.lo ∨ f.lo < g.lo))) : (d.event f).get g = d.get g := by
  rw [Dev.event_get, Dev.bump, Dev.addTo,
    Dev.get_put_other _ _ _ _ (by simp) (by simp) (by rcases hg with hg | hg; exact .inl hg; right; right; simp; omega),
    Dev.get_put_other _ _ _ _ (by simp) (by simp; omega) (by rcases hg with hg | hg; exact .inl hg; right; simp; omega)]

end Sys2Proof.Machine
end

