-- ==== Sys2Proof/Laws/Frames.lean ====
section
/-!
SUPPORT. What the shared operations do, in the words claims use: frames of field writes and events, the outcome of a
command on a device that is not held.
-/
namespace Sys2Proof.Machine

/-- A field write changes its register alone. -/
theorem Dev.regsOnly_put (d : Dev) (f : Fld) (v : Nat) : Dev.regsOnly [f.addr] d (d.put f v) :=
  ⟨⟨_, _, _, rfl⟩, fun _ h => Dev.word_put_other d f v (by simpa using h)⟩

/-- An event changes its register alone (R107). -/
theorem Dev.regsOnly_event (d : Dev) (f : Fld) : Dev.regsOnly [f.addr] d (d.event f) :=
  ⟨Dev.event_frame d f, fun _ h => Dev.event_word_other d f (by simpa using h)⟩

/-- An event sets its bit and counts in SEQ (R107). -/
theorem Dev.raised_event (d : Dev) (f : Fld) (h : f.lo < 24) : Dev.raised f d (d.event f) :=
  ⟨Dev.event_bit d f h, Dev.event_seq d f h⟩

/-- A frame holds over more registers too. -/
theorem Dev.regsOnly_mono {l m : List Nat} {d e : Dev} (h : Dev.regsOnly l d e) (hs : ∀ a ∈ l, a ∈ m) :
    Dev.regsOnly m d e :=
  ⟨h.1, fun a ha => h.2 a (fun hl => ha (hs a hl))⟩

/-- Frames compose. -/
theorem Dev.regsOnly_trans {l : List Nat} {d e f : Dev} (h : Dev.regsOnly l d e) (k : Dev.regsOnly l e f) :
    Dev.regsOnly l d f := by
  obtain ⟨⟨r, o, p, h1⟩, h2⟩ := h
  obtain ⟨⟨r', o', p', k1⟩, k2⟩ := k
  exact ⟨⟨r', o', p', by rw [k1, h1]⟩, fun a ha => (k2 a ha).trans (h2 a ha)⟩

/-- A report adds one entry, of its source and detail (R611). -/
theorem Dev.reported_report (d : Dev) (src detail : Nat) : Dev.reported [(src, detail)] d (d.report src detail) :=
  ⟨[shadowed d src detail false], rfl, rfl⟩

/-- A command on the device alone, in power-on reset. -/
theorem State.withDev_held {s : State} (f : Dev → Dev) (h : s.held = true) : s.withDev f = .next s := by
  simp [State.withDev, h]

/-- A command on the device alone, outside power-on reset. -/
theorem State.withDev_live {s : State} (f : Dev → Dev) (h : s.held = false) : s.withDev f = .next { s with dev := f s.dev } := by
  simp [State.withDev, h]

/-- A command on Graticule, banks and device, outside power-on reset. -/
theorem State.withAll_live {s : State} (f : Grid → Banks → Dev → Grid × Banks × Dev) (h : s.held = false) :
    s.withAll f = .next { s with grid := (f s.grid s.banks s.dev).1, banks := (f s.grid s.banks s.dev).2.1
                                 dev := (f s.grid s.banks s.dev).2.2 } := by
  simp [State.withAll, h]

end Sys2Proof.Machine
end

