-- ==== Sys2Proof/WellFormed.lean ====
section
/-!
DEFINITION. Which commands the outside world can send: checks on operands that their types do not make. A command that
fails them is no event of the hardware; its meaning still answers (log entry 10).
-/
namespace Sys2Proof

/-- R223, R197: the first part of a frame brings at least 256 bytes, and a part brings at most a longest frame's. -/
def RxFrame.wellFormed (r : RxFrame) : Bool :=
  match r.part with
  | .whole => decide (1 ≤ r.bytes.length)
  | .head => decide (256 ≤ r.bytes.length)
  | .tail => true

/-- R211: a PAUSE frame carries one quanta value, a PFC frame eight. -/
def pauseOperands (opcode : BitVec 16) (quanta : List (BitVec 16)) : Bool :=
  if opcode = 1 then decide (quanta.length = 1)
  else if opcode = 0x0101 then decide (quanta.length = 8)
  else true

/-- Whether the outside world can send a command. -/
def Instr.wellFormed (i : Instr) : Bool :=
  match i with
  | .frameRx r => r.wellFormed
  | .macControlRx _ opcode _ quanta _ => pauseOperands opcode quanta
  | .eyeScanDone _ points => decide (points.length = 4096)
  | .lockHeld _ skew => decide (skew ≤ 40)
  | .readUpArrive _ _ _ _ _ badCells => decide (badCells.length ≤ 63)
  | _ => true

end Sys2Proof
end

