-- ==== Sys2Proof/Tests/Slice0.lean ====
section
/-!
SUPPORT. The model's own tests: what WellFormed refuses, and for every statement states and operands that meet its
hypotheses, clause by clause (theorems wit_<statement>), with a value or two the spec gives after one command.
-/
namespace Sys2Proof.Tests
open Sys2Proof Sys2Proof.Machine

set_option Elab.async false

/-! ### Helpers -/

/-- The reset state with its device changed. -/
def dv (f : Dev → Dev) : State := { State.reset with dev := f State.reset.dev }

/-- The state after a command. -/
def after (c : Instr) (s : State) : State := match exec c s with
  | .next t => t
  | _ => s

/-- The device after a command. -/
def devAfter (c : Instr) (s : State) : Dev := (after c s).dev

/-! ### Commands no outside world sends (WellFormed) -/

/-- A frame of no bytes (R197). -/
theorem test_wf_whole : (Instr.frameRx ⟨0, .whole, [], true, false, false, 0, 0⟩).wellFormed = false := by decide

/-- A frame's first part shorter than 256 bytes (R223). -/
theorem test_wf_head : (Instr.frameRx ⟨0, .head, [0], true, false, false, 0, 300⟩).wellFormed = false := by decide

/-- A PAUSE frame with no quanta, and a PFC frame with one (R211). -/
theorem test_wf_pause : (Instr.macControlRx 0 1 0 [] 0).wellFormed = false
    ∧ (Instr.macControlRx 0 0x0101 0xFF [5] 0).wellFormed = false
    ∧ (Instr.macControlRx 0 1 0 [5] 0).wellFormed = true := by decide

/-- An eye scan with other than 4,096 points (R186). -/
theorem test_wf_eye : (Instr.eyeScanDone 0 [0]).wellFormed = false := by decide

/-- A skew above 40 ns (R172). -/
theorem test_wf_skew : (Instr.lockHeld 0 41).wellFormed = false ∧ (Instr.lockHeld 0 40).wellFormed = true := by decide

/-- More bad cells than a page has (R435). -/
theorem test_wf_cells : (Instr.readUpArrive 0 0 0 false false (List.replicate 64 ⟨0, [], 0⟩)).wellFormed = false := by decide

/-! ### The block, its queue, its reset -/

theorem wit_StepRunsFront : ({ State.reset with pending := [.nop, .fence] }).pending = .nop :: [.fence] := by decide

theorem wit_EmptyQueueIdles : State.reset.pending = [] := by decide

theorem wit_HeldDeviceIsStill :
    (dv fun d => { d with pins := { d.pins with porst := true } }).held = true
      ∧ (dv fun d => { d with pins := { d.pins with rail := true } }).held = true ∧ powerPin .sysrstRelease = false := by decide

theorem wit_DeviceCommandsFrame : deviceOnly (.droopDetect 33) = true ∧ (after (.droopDetect 33) State.reset).dev ≠ State.reset.dev
    ∧ deviceOnly .coreRefReturn = false := by decide

theorem wit_FieldReadAfterWrite : PWR_STATE.REASONS.lo ≤ PWR_STATE.REASONS.hi ∧ HK_STATUS.SEQ.hi < 32
    ∧ ((State.reset.dev.put HK_STATUS.SEQ 0x1FF).get HK_STATUS.SEQ = 0xFF)
    ∧ (PWR_STATE.PACE_IN.hi < PWR_STATE.ASE_LEVEL.lo) := by decide

theorem wit_SequenceClearedStatus : HK_STATUS.SHADOW_BAD.lo < 24 ∧ 0xFF < 2 ^ 24
    ∧ (0x01000001 : Word).toNat / 2 ^ 24 = (State.reset.dev.event HK_STATUS.FAILED).get ⟨HK_STATUS.FAILED.addr, 31, 24⟩
    ∧ (0x00000001 : Word).toNat / 2 ^ 24 ≠ (State.reset.dev.event HK_STATUS.FAILED).get ⟨HK_STATUS.FAILED.addr, 31, 24⟩
    ∧ ((State.reset.dev.event HK_STATUS.FAILED).ackStatus HK_STATUS.FAILED.addr 0xFF 0x01000001).word HK_STATUS.FAILED.addr = 0x01000000
    := by decide

/-! ### The Graticule -/

/-- A jump is due at the PTP time of two frames and a tick. -/
def aheadGrid : Grid := { State.reset.grid with
  state := .ahead, base := 3 * fineFrame, jumpFrom := some (3 * fineFrame - 1) }

theorem wit_EpochNeverDecreases : State.reset.held = false ∧ tickFalls State.reset.grid State.reset.dev = true
    ∧ (after (.tick {}) State.reset).grid.epoch = 1
    ∧ (after .porstAssert { State.reset with grid := aheadGrid }).grid = {} := by decide +kernel

theorem wit_TickAndJump_tick : State.reset.held = false ∧ tickFalls State.reset.grid State.reset.dev = true
    ∧ ({ a := .armed, seqA := 1, targetA := 1 } : Banks).due false ≤ State.reset.grid.epoch + 1
    ∧ State.reset.grid.epoch + 1 < ({ a := .armed, seqA := 1, targetA := 2 } : Banks).due false
    ∧ ({ a := .active, seqA := 1, b := .armed, seqB := 2, targetB := 0 } : Banks).st (!true) ≠ .armed
    ∧ tickFalls aheadGrid (State.reset.dev) = true
    ∧ tickFalls State.reset.grid { State.reset.dev with pins := { State.reset.dev.pins with coreLost := true } } = false := by decide

/-- The tick that begins EPOCH 1 takes a swap with target 1, and leaves one with target 2 armed. -/
theorem test_swap_at_boundary :
    (boundary {} false ({ State.reset.grid with epoch := 1 }, { a := .armed, seqA := 1, targetA := 1 }, State.reset.dev)).2.1.a = .active
    ∧ (boundary {} false ({ State.reset.grid with epoch := 1 }, { a := .armed, seqA := 1, targetA := 2 }, State.reset.dev)).2.1.a = .armed
    := by decide

theorem wit_TickAndJump_jump : State.reset.dev.pins.coreLost = false ∧ jumpAt aheadGrid = some (4 * fineFrame)
    ∧ jumpAt State.reset.grid = none := by decide

/-- A jump tick takes an armed swap whatever its target (R51), and sets EPOCH by PTP time (R41). -/
theorem test_jump_boundary : (jumpedTo aheadGrid (4 * fineFrame)).epoch = 4096
    ∧ (boundary {} true (aheadGrid, { a := .armed, seqA := 1, targetA := 9 }, State.reset.dev)).2.1.a = .active := by decide

theorem wit_JumpReqAndLateLimit : State.reset.dev.flag GRT_EPOCH_CTL.TRACK_EN = true
    ∧ { aheadGrid with jumpFrom := none }.err > fineFrame ∧ { aheadGrid with jumpFrom := none }.jumpFrom = none
    ∧ (after (.jumpReq 1) { State.reset with grid := { aheadGrid with jumpFrom := none } }).grid.jumpFrom
      = some (3 * fineFrame + fineQ)
    ∧ State.reset.grid.state ≠ .ahead
    ∧ (State.reset.dev.put (GRT_LATE_RUN.LATE_NOW 2) 16).get (GRT_LATE_CFG.LATE_LIMIT 2) ≠ 0
    ∧ (State.reset.dev.put (GRT_LATE_RUN.LATE_NOW 2) 16).get (GRT_LATE_CFG.LATE_LIMIT 2)
      ≤ (State.reset.dev.put (GRT_LATE_RUN.LATE_NOW 2) 16).get (GRT_LATE_RUN.LATE_NOW 2)
    ∧ (devAfter (.lateLimit 2) (dv fun d => d.put (GRT_LATE_RUN.LATE_NOW 2) 16)).lateRaised = [2]
    ∧ devAfter (.lateLimit 2) (dv fun d => d.put (GRT_LATE_RUN.LATE_NOW 2) 15)
      = State.reset.dev.put (GRT_LATE_RUN.LATE_NOW 2) 15 := by decide

/-- A second of PTP time in the layout of R71. -/
theorem wit_TimeSteps : follower State.reset.dev = false
    ∧ follower (State.reset.dev.put GRT_GSYNC_CTL.ROLE 2) = true
    ∧ (after (.timeStep .pf1 (2 ^ 32) 0) State.reset).grid.base = 4000000000 * fineQ
    ∧ (after (.timeOffset .pf1 (BitVec.ofInt 64 (-5)) 0) State.reset).grid.base = 0
    ∧ (devAfter (.timeStep .pf1 5 0) (dv fun d => d.put GRT_GSYNC_CTL.ROLE 2)).get HIF_BUSERR_CNT.COUNT = 1 := by decide

theorem wit_PpsPins : State.reset.dev.flag TIME_CTL.PPS_IN_EN = false ∧ State.reset.dev.flag TIME_CTL.PPS_OUT_EN = false
    ∧ (State.reset.dev.put TIME_CTL.PPS_IN_EN 1).flag TIME_CTL.PPS_IN_EN = true
    ∧ (State.reset.dev.put TIME_CTL.PPS_OUT_EN 1).flag TIME_CTL.PPS_OUT_EN = true
    ∧ State.reset.dev.pins.ppsOut = false ∧ (devAfter (.ppsOutPulse 0 true) State.reset).pins.ppsOut = false
    ∧ (devAfter (.ppsOutPulse 0 true) (dv fun d => d.put TIME_CTL.PPS_OUT_EN 1)).pins.ppsOut = true
    ∧ (devAfter (.ppsOutPulse 0 false) (dv fun d => { d with pins := { d.pins with ppsOut := true } })).pins.ppsOut = false
    ∧ (devAfter (.ppsInEdge 3) (dv fun d => d.put TIME_CTL.PPS_IN_EN 1)).get TIME_CNT_PPS_IN = 1 := by decide

/-- A word of EPOCH 1,024 from a leader of chip 3 at the end of one hop. -/
def someWord : BitVec 128 := gsyncWord (1024 + 3 * 2 ^ 64 + 2 ^ 68)

theorem wit_Gsync : gsyncCrc someWord.toNat = bits someWord.toNat 127 112 ∧ gsyncCrc 0 ≠ bits 0 127 112
    ∧ State.reset.grid.state ≠ .holdover ∧ State.reset.dev.get GRT_GSYNC_CTL.ROLE = 0
    ∧ (State.reset.dev.put GRT_GSYNC_CTL.ROLE 3).get GRT_GSYNC_CTL.ROLE = 3
    ∧ (after (.gsyncWordRx someWord 0) { dv (fun d => d.put GRT_GSYNC_CTL.ROLE 2) with
        grid := { State.reset.grid with state := .holdover } }).grid.good = 1
    ∧ (after (.gsyncWordRx someWord 0) { dv (fun d => d.put GRT_GSYNC_CTL.ROLE 2) with
        grid := { State.reset.grid with state := .holdover, good := 1 } }).grid.base = (1048576 + 6656) * fineNs
    ∧ (devAfter (.gsyncWordRx 0 7000000) (dv fun d => d.put GRT_GSYNC_CTL.ROLE 1)).get GRT_GSYNC_RTT.RTT = 1750000 - 6656
    ∧ (devAfter (.gsyncWordRx someWord 0) (dv fun d => d.put GRT_GSYNC_CTL.ROLE 1)).get GRT_GSYNC_STATUS.HOP = 1
    ∧ (after (.gsyncWordRx someWord 0) (dv fun d => d.put GRT_GSYNC_CTL.ROLE 2)).grid.base = (1048576 + 6656) * fineNs
    ∧ (devAfter (.gsyncWordRx 0 0) (dv fun d => d.put GRT_GSYNC_CTL.ROLE 2)).get GRT_GSYNC_STATUS.CRC_ERR = 1 := by decide +kernel

theorem wit_Gsync_holdover : follower (State.reset.dev.put GRT_GSYNC_CTL.ROLE 2) = true
    ∧ (State.reset.dev.put GRT_GSYNC_CTL.ROLE 2).flag GRT_EPOCH_CTL.TRACK_EN = true
    ∧ (after .gsyncHoldover { dv (fun d => d.put GRT_GSYNC_CTL.ROLE 2) with grid := { State.reset.grid with missed := 5 } }).grid.state
      = .holdover
    ∧ (after .gsyncHoldover { dv (fun d => d.put GRT_GSYNC_CTL.ROLE 2) with grid := { State.reset.grid with missed := 4 } }).grid.state
      ≠ .holdover := by decide

/-! ### Banks, flash, boot, resets -/

theorem wit_BanksStayLegal : State.reset.banks.a ≠ .active ∧ State.reset.banks.seqA = 0
    ∧ (after (.bankSeal 1 7) State.reset).banks.b = .sealed ∧ (after (.bankSeal 1 7) State.reset).banks.seqB = 7 := by decide

/-- A sealed with SEQ 7, B active with SEQ 6. -/
def bankA7 : Banks := { a := .sealed, seqA := 7, b := .active, seqB := 6, activeB := true }

theorem wit_BankCommands : State.reset.banks.st (decide ((0 : Fin 2) = 1)) = .free ∧ (1 : BitVec 16) ≠ State.reset.banks.activeSeq
    ∧ bankA7.st false = .sealed ∧ bankA7.st (!false) ≠ .sealed
    ∧ { bankA7 with b := .sealed }.a = .sealed ∧ { bankA7 with b := .sealed }.b = .sealed
    ∧ (after .bankSwapArm { State.reset with banks := { bankA7 with b := .armed } }).banks.a = .armed
    ∧ { bankA7 with a := .draining, drainReady := true }.draining = some false
    ∧ bankA7.draining = none ∧ bankA7.st (decide ((1 : Fin 2) = 1)) ≠ .free
    ∧ (after (.bankSeal 1 5) { State.reset with banks := bankA7 }).banks.reject = 1
    ∧ (0x3 : Word).getLsbD 0 = true ∧ (0x3 : Word).getLsbD 1 = true
    ∧ (after (.bankSeal 0 0) State.reset).banks.reject = 2 ∧ (after .bankSwapArm State.reset).banks.reject = 3
    ∧ (after .bankUnseal State.reset).banks.reject = 4
    ∧ (after (.bankSeal 0 6) { State.reset with banks := { bankA7 with a := .free } }).banks.reject = 2
    ∧ (after .bankSwapArm { State.reset with banks := bankA7 }).banks.target = 2 := by decide

theorem wit_BankDrainExpiry : { bankA7 with a := .draining }.draining = some false
    ∧ (State.reset.dev.put BOOT_BANK_CTL.DRAIN_LIMIT 3).get BOOT_BANK_CTL.DRAIN_LIMIT = 3
    ∧ (State.reset.dev.put (HK_ENGINE.STATE 0) 0).serves 0 = true ∧ State.reset.banks.draining = none
    ∧ State.reset.dev.serves 0 = false ∧ State.reset.dev.serves 1 = false
    ∧ (after .bankDrainExpire { dv (fun d => (d.put BOOT_BANK_CTL.DRAIN_LIMIT 3).put (HK_ENGINE.STATE 0) 0) with
        banks := { bankA7 with a := .draining, drainFrames := 3 } }).dev.get BOOT_STATUS.DRAIN_EXPIRED = 1
    ∧ (after .bankDrainExpire { dv (fun d => (d.put BOOT_BANK_CTL.DRAIN_LIMIT 3).put (HK_ENGINE.STATE 0) 0) with
        banks := { bankA7 with a := .draining, drainFrames := 2 } }).dev.get BOOT_STATUS.DRAIN_EXPIRED = 0 := by decide

theorem wit_FlashCommands : State.reset.dev.flag BOOT_FL_STAT.BUSY = false
    ∧ (State.reset.dev.put BOOT_FL_STAT.BUSY 1).flag BOOT_FL_STAT.BUSY = true
    ∧ (State.reset.dev.put BOOT_STATE.SOURCE 0).flag BOOT_FL_CFG.PROTECT_RUNNING = true
    ∧ (State.reset.dev.put BOOT_STATE.SOURCE 0).get BOOT_FL_ADDR.ADDR / 0x2000000 = 0
    ∧ (devAfter .erase4k (dv fun d => d.put BOOT_STATE.SOURCE 0)).get BOOT_FL_STAT.PROTECT_HIT = 1
    ∧ (devAfter .erase64k (dv fun d => d.put BOOT_FL_ADDR.ADDR 0x1FFFF)).boot.flash = some (4, 0x10000)
    ∧ (devAfter .readPage (dv fun d => (d.put BOOT_STATE.SOURCE 0).put BOOT_FL_ADDR.ADDR 0x1FF)).boot.flash = some (1, 0x100)
    ∧ (devAfter (.flashCmdDone false []) { State.reset with
        dev := devAfter .erase64k (dv fun d => d.put BOOT_FL_ADDR.ADDR 0x1FFFF) }).get BOOT_FL_STAT.FLASH_ERR = 1 := by decide

/-- The header of a good image (R123): SEQ 7, three sections of 16 zero bytes (types 5, 6 and 9), signed with a key of the
test's own. -/
def goodHeader : List Byte :=
  beBytes 48 0x48524c310100000007000000300000000000000000000000000000000000000000000000000000000000000000000000
    ++ beBytes 48 0x500000000000000100000000000000006000000100000001000000000000000
    ++ beBytes 48 0x90000002000000010000000000000000000000000000000000000000000000000000000000000000000000000000000
    ++ beBytes 48 0x0
    ++ beBytes 48 0x0
    ++ beBytes 48 0x0
    ++ beBytes 48 0xb411d0aab58e3a666452573417b05586
    ++ beBytes 48 0x5d7a415ac7ef00a651074581b5a2865f1b1adc13af89172d7a2344e7183ff542fbf96095915eb587390f850ec95b35f6
    ++ beBytes 48 0x18ae121c72a70808ad8f9f4c261b602b63541743e395f7c778e52bb28c18dc83016a6ff3f72c9368326ad50a3bd148a5
    ++ beBytes 48 0x3cd2213bb480e4730ad019db87ae100995ec65df011e19811a15dc9ddfc9ab3ca82c2c0fa0200451504c42a5c1eedbdc
    ++ beBytes 48 0x1f27f0a77b2694ede45235b5e92e96be77146b243e21b2e4013e96814816a2fa08f7481eb349720a16053035606106b9
    ++ beBytes 32 0x1344f25698533de38c997adcdfe74e705f5823df96e247a6ccf0c8baa37cc9c1

/-- A good image of SEQ 7 with empty content. -/
def goodImage : Image := {
  readable := true, header := goodHeader, body := List.replicate 48 0
  sections := [⟨5, true, []⟩, ⟨6, true, []⟩, ⟨9, true, []⟩] }

/-- No image at all. -/
def noImage : Image := { goodImage with readable := false }

/-- The device whose fuses hold the hash of the test's key. -/
def keyed (d : Dev) : Dev :=
  { d with keyHash := 0xd00eea0f947b339441327289a7879edcd12bf4e39f5998cdc30b9dd3d22026dd32eb4fa7f4f45ebf1542415338ba9cae }

/-- The boot ROM has an image to choose. -/
def booting : State := dv fun d => { keyed d with boot := { d.boot with waiting := true } }

/-- SHA-384 of "abc", as FIPS 180-4's example gives it (R128). -/
theorem test_sha384 : sha384 [0x61, 0x62, 0x63]
    = 0xcb00753f45a35e8bb5a03d699ac65007272c32ab0eded1631a8b605a43ff5bed8086072ba1e7cc2358baeca134c825a7 := by decide +kernel

theorem wit_goodImage : headerCode (keyed State.reset.dev) goodImage = 0 ∧ bodyCode (keyed State.reset.dev) goodImage = 0
    ∧ goodImage.seq = 7 ∧ goodImage.length = 48 := by decide +kernel

/-- A rollback floor above the image's is code 5, SEQ of all ones 6, another magic 2, LENGTH 24 is 3, another key 8, another SEQ 7. -/
theorem test_image_codes : headerCode { State.reset.dev with rollback := 1 } goodImage = 5
    ∧ headerCode State.reset.dev (goodImage.withSeq 0xFFFFFFFF) = 6
    ∧ headerCode State.reset.dev { goodImage with header := 0 :: goodHeader.tail } = 2
    ∧ headerCode State.reset.dev { goodImage with header := overwrite goodHeader 0xC [24] } = 3
    ∧ bodyCode State.reset.dev goodImage = 8 ∧ bodyCode (keyed State.reset.dev) (goodImage.withSeq 6) = 7 := by decide +kernel

theorem wit_BootChoosesImage : booting.held = false ∧ booting.dev.boot.waiting = true ∧ mayBoot booting.dev.pins = true
    ∧ mayBoot { booting.dev.pins with sysrst := true } = false
    ∧ noImage.readable = false ∧ goodImage.readable = true
    ∧ (loadImage goodImage (booting.grid, booting.banks, ((writeVolts { booting.dev with boot := { booting.dev.boot with waiting := false } } 5).put
        BOOT_FL_CFG.SIZE_LOG2 26).setWord BOOT_SLOT_SEQ_A.SEQ_A.addr goodImage.seq)).isSome = true
    ∧ (loadImage goodImage (booting.grid, booting.banks, (((writeVolts { booting.dev with boot := { booting.dev.boot with waiting := false } } 5).put
        BOOT_FL_CFG.SIZE_LOG2 26).setWord BOOT_SLOT_SEQ_A.SEQ_A.addr goodImage.seq).setWord BOOT_SLOT_SEQ_B.SEQ_B.addr goodImage.seq)).isSome = true
    ∧ (devAfter (.bootImageSelect (some 26) noImage noImage) booting).get BOOT_STATE.STATE = 6
    ∧ (State.reset.dev.put BOOT_STATE.STATE 4).get BOOT_STATE.STATE = 4
    ∧ (devAfter (.bootRunning 1499) (dv fun d => d.put BOOT_STATE.STATE 4)).get BOOT_STATE.STATE
      = (if lanesSettled State.reset.dev then 5 else 4) := by decide +kernel

theorem wit_BootCommands : State.reset.dev.flag BOOT_CMD_RESULT.BUSY = false ∧ State.reset.dev.get BOOT_STATE.STATE ≠ 6
    ∧ (dv fun d => d.put BOOT_STATE.STATE 6).dev.get BOOT_STATE.STATE = 6
    ∧ (loadImage goodImage (State.reset.grid, {}, (bootIssue (keyed (State.reset.dev.put BOOT_STATE.STATE 6)) 3 0).emit
        (.hostRead 1 0 (0x1000 + goodImage.length)))).isSome = true
    ∧ (devAfter (.verify goodImage 0) (dv fun d => keyed (d.setWord BOOT_CMD_SEQ.SEQ.addr 7))).boot.cmd = some (1, 0, some 0)
    ∧ (devAfter (.verify goodImage 0) (dv fun d => keyed (d.setWord BOOT_CMD_SEQ.SEQ.addr 8))).boot.cmd = some (1, 0, some 7)
    ∧ (devAfter (.verify noImage 1) State.reset).boot.cmd = some (1, 1, some 13)
    ∧ (devAfter (.loadHost goodImage) State.reset).boot.cmd = some (3, 0, some 14)
    ∧ (devAfter .bootCmdComplete (dv fun d => { d with boot := { d.boot with cmd := some (1, 0, some 255) } })).get
        BOOT_CMD_RESULT.RESULT = 255
    ∧ (devAfter .bootCmdComplete (dv fun d => { (d.put BOOT_STATE.SOURCE 0).put BOOT_ROLLBACK.RUN 9 with
        boot := { d.boot with cmd := some (4, 0, none) } })).rollback = 9
    ∧ (devAfter .bootCmdComplete (dv fun d => { (d.put BOOT_STATE.SOURCE 3).put BOOT_ROLLBACK.RUN 9 with
        boot := { d.boot with cmd := some (4, 0, none) } })).rollback = 0 := by decide +kernel

theorem wit_BootCommands_apply : ({ bankA7 with a := .free, seqA := 0 } : Banks).st (!false) = .active
    ∧ freeBank { bankA7 with a := .free, seqA := 0 } = some false ∧ bankA7.a ≠ .free ∧ bankA7.b ≠ .free
    ∧ checkSlot goodImage (State.reset.grid, { bankA7 with a := .free, seqA := 0 }, bootIssue (keyed State.reset.dev) 2 0) = 0
    ∧ ((loadSection goodImage 5 false (State.reset.grid, { bankA7 with a := .free, seqA := 0 }, bootIssue (keyed State.reset.dev) 2 0)).bind
        (loadSection goodImage 6 false)).isSome = true
    ∧ (after (.apply goodImage 0) { dv keyed with banks := { bankA7 with a := .free, seqA := 0 } }).banks.seqA = 7
    ∧ (after (.apply goodImage 0) { dv keyed with banks := { bankA7 with a := .free, seqA := 0, seqB := 0xFFFF } }).banks.seqA = 1
    := by decide +kernel

theorem wit_PowerOnReset : ({ State.reset.dev.pins with porst := true } : Pins).porst = true
    ∧ ({ State.reset.dev.pins with rail := true } : Pins).rail = true ∧ State.reset.dev.boot.cmd = none
    ∧ State.reset.dev.fuses.wf resetWord = true
    ∧ (devAfter (.porstRelease 3 true) (dv fun d => { d with pins := { d.pins with porst := true } })).get HIF_OOB_CTL.STRAP = 3 := by decide

theorem wit_WarmDeviceReset : State.reset.dev.pins.sysrst = false ∧ State.reset.dev.flag BOOT_CMD_RESULT.BUSY = false
    ∧ ({ State.reset.dev.flt with fatalDue := true } : Flt).fatalDue = true
    ∧ ({ State.reset.dev.pins with coreLost := true } : Pins).coreLost = true
    ∧ (devAfter (.sysrstPulse true) State.reset).get BOOT_STATE.LAST_RESET = 1
    ∧ (devAfter .reboot State.reset).get BOOT_STATE.LAST_RESET = 2
    ∧ (devAfter .fatalReset (dv fun d => { d with flt := { d.flt with fatalDue := true } })).get BOOT_STATE.LAST_RESET = 3 := by decide


/-! ### The host's accesses -/

/-- The core runs. -/
def live (f : Dev → Dev) : State := dv fun d => f (d.put BOOT_STATE.STATE 5)

/-- An access passes its checks and its register is such. -/
def passes (x : Except Nat Hit) (p : Hit → Bool) : Bool := match x with
  | .ok h => p h
  | .error _ => false

/-- An access fails its checks with a kind. -/
def fails (x : Except Nat Hit) (k : Nat) : Bool := match x with
  | .ok _ => false
  | .error j => decide (j = k)

/-- An access that need not wait (R94, R616). -/
def goes (d : Dev) (src : Src) (write : Bool) (a : Nat) (v : Word) : Bool := !mustWait d d.heldAcc ⟨src, write, 0, a, .dword, v⟩

/-- An access of PF0 to slice 3, in reset, and one behind it. -/
def waiting3 (d : Dev) : Dev :=
  { d.slice 3 fun x => { x with inReset := true } with heldAcc := [⟨.pf0, true, 0, (EQ_QCFG.word 3 0).addr, .dword, 5⟩] }

/-- BAR0 address of HIF_SCRATCH3, the last register of HIF. -/
def scratch3 : BitVec 27 := 0x1003C

theorem wit_RegisterAccess : State.reset.held = false ∧ scratch3.toNat % 4 = 0
    ∧ passes (checkAccess State.reset.banks State.reset.dev .pf0 scratch3.toNat false 0) (fun _ => goes State.reset.dev .pf0 false scratch3.toNat 0) = true
    ∧ goes (waiting3 State.reset.dev) .pf0 false scratch3.toNat 0 = false
    ∧ mustWait (waiting3 State.reset.dev) (waiting3 State.reset.dev).heldAcc ⟨.pf0, false, 0, 0, .zeroLen, 0⟩ = true
    ∧ goes (waiting3 State.reset.dev) .oob false scratch3.toNat 0 = true
    ∧ passes (checkAccess State.reset.banks State.reset.dev .pf0 scratch3.toNat true 7) (fun h => goes State.reset.dev .pf0 true scratch3.toNat 7
        && (mbxBase h.loc scratch3.toNat).isNone && (pwDomain h scratch3.toNat).isNone && !h.row.isAck && decide (h.loc.kind = .hif)) = true
    ∧ fails (checkAccess State.reset.banks State.reset.dev .pf0 0x20 false 0) beReserved = true
    ∧ fails (checkAccess State.reset.banks State.reset.dev .pf0 0x30000 true 0) beWorld = true
    ∧ fails (checkAccess State.reset.banks State.reset.dev .pf0 0 true 0) beReadonly = true
    ∧ regAt 0x20 = none
    ∧ (devAfter (.registerWrite .pf0 0 scratch3 .dword 7 0) State.reset).word 0x1003C = 7
    ∧ (devAfter (.registerRead .pf0 0 0 .dword 0) State.reset).out = [.readDone .pf0 0 0x10244FD7]
    ∧ (devAfter (.registerWrite .pf1 0 0x1003D .dword 7 0) State.reset).get HIF_BUSERR.KIND = beSize
    ∧ (devAfter (.registerWrite .pf1 1 0 .dword 7 0) State.reset).get HIF_BUSERR.KIND = beBar2Write := by decide

theorem wit_WorldsAreApart : secureBlock State.reset.dev ⟨.boot, 0, 0, 0⟩ = true ∧ answers State.reset.dev .boot = true
    ∧ absent State.reset.dev ⟨.boot, 0, 0, 0⟩ = false ∧ ((regAt 0x30000).map fun h => h.loc) = some ⟨.boot, 0, 0, 0⟩
    ∧ locSlice ⟨.boot, 0, 0, 0⟩ = none ∧ (State.reset.dev.put WLD_LOCK.LOCK 1).flag WLD_LOCK.LOCK = true
    ∧ (devAfter (.registerWrite .pf0 0 0x30000 .dword 7 0) State.reset).get HIF_BUSERR.KIND = beWorld
    ∧ (devAfter (.registerWrite .pf1 0 0x20008 .dword 7 0) (live id)).word 0x20008 = 7
    ∧ (devAfter (.registerWrite .pf1 0 0x20008 .dword 7 0) (live fun d => d.put WLD_LOCK.LOCK 1)).word 0x20008 = 0 := by decide

theorem wit_AcksAndLocks : pwrLive (live id).dev = true ∧ (live id).dev.wget (onceKey WLD_LOCK.word.addr) ≠ 1
    ∧ (live fun d => d.wput (onceKey WLD_LOCK.word.addr) 1).dev.wget (onceKey WLD_LOCK.word.addr) = 1
    ∧ passes (checkAccess State.reset.banks State.reset.dev .pf0 0x10008 true 0) (fun h => goes State.reset.dev .pf0 true 0x10008 0 && h.row.isAck
        && (mbxBase h.loc 0x10008).isNone && (pwDomain h 0x10008).isNone) = true ∧ (regAt (0x10008 - 4)).isSome = true
    ∧ (devAfter (.wldLockSet .pf1 1) (live id)).get WLD_LOCK.LOCK = 1
    ∧ (devAfter (.wldLockSet .pf1 0) (live fun d => d.wput (onceKey WLD_LOCK.word.addr) 1)).get HIF_BUSERR.KIND = beLocked
    ∧ (devAfter (.statusAck .pf0 0x10008 0x01000000) (dv fun d => d.event HIF_STATUS.LINK_DOWN)).word 0x10004 = 0x01000000
    ∧ (devAfter (.statusAck .pf0 0x10008 0x02000000) (dv fun d => d.event HIF_STATUS.LINK_DOWN)).get HIF_STATUS.LINK_DOWN = 1 := by decide

/-- DMA's mailbox. -/
def dmaMbx : BitVec 27 := 0x82000

theorem wit_Mailboxes : dmaMbx.toNat % 4 = 0
    ∧ passes (checkAccess State.reset.banks (live id).dev .pf0 (dmaMbx.toNat + 0x14) true 0x100) (fun h => goes (live id).dev .pf0 true (dmaMbx.toNat + 0x14) 0x100
        && decide (mbxBase h.loc (dmaMbx.toNat + 0x14) = some dmaMbx.toNat) && decide (h.loc.kind = .dma)
        && (wideValue State.reset.grid State.reset.banks (live id).dev h.loc dmaMbx.toNat 0 0).isSome) = true
    ∧ passes (checkAccess State.reset.banks (live id).dev .pf0 (dmaMbx.toNat + 0x14) true 0x102) (fun h => (wideMask h.loc 0).isSome
        && decide (wideErr State.reset.grid State.reset.banks (live id).dev h.loc dmaMbx.toNat 0 0 0 = 0)) = true
    ∧ dmaMbx.toNat ∉ (live id).dev.mbxBusy ∧ mbxSecret (live id).dev ⟨.dma, 0, 0, 0x2014⟩ 0 = false
    ∧ (devAfter (.mailboxWrite .pf0 dmaMbx 0) (live fun d => (d.setWord 0x82000 127).setWord 0x82004 0xABC)).wget (wkey 0x82000 127) = 0xABC
    ∧ (devAfter (.mailboxRead .pf0 dmaMbx 0 .none) (live fun d => { d with mbxBusy := [0x82000] })).get ⟨0x82014, 15, 12⟩ = 3
    ∧ (devAfter (.mailboxComplete dmaMbx) (live fun d => { d with mbxBusy := [0x82000] })).get ⟨0x82014, 0, 0⟩ = 1 := by decide

theorem wit_PostedWrites :
    passes (checkAccess State.reset.banks State.reset.dev .pf1 TIME_FREQ.word.addr true 5) (fun h => goes State.reset.dev .pf1 true TIME_FREQ.word.addr 5
      && (mbxBase h.loc TIME_FREQ.word.addr).isNone
      && decide (pwDomain h TIME_FREQ.word.addr = some (1041, TIME_PW_STATUS.word.addr))) = true
    ∧ State.reset.dev.get ⟨TIME_PW_STATUS.word.addr, 0, 0⟩ = 0
    ∧ (State.reset.dev.put TIME_PW_STATUS.PW_BUSY 1).get ⟨TIME_PW_STATUS.word.addr, 0, 0⟩ = 1
    ∧ ((regAt TIME_CTL.word.addr).map fun h => h.loc.kind) = some .time
    ∧ ((regAt (LN_CTL.word 1023).addr).map fun h => (h.loc.kind, h.loc.unit, h.loc.sub)) = some (.ln, 31, 31)
    ∧ (devAfter (.timeFreqWrite .pf1 5) State.reset).pw.get none 1041 = some (TIME_FREQ.word.addr, 5)
    ∧ (devAfter (.postedWriteApply .ptp 0) (after (.timeFreqWrite .pf1 5) State.reset)).word TIME_FREQ.word.addr = 5
    ∧ (devAfter (.timeFreqWrite .pf1 6) (after (.timeFreqWrite .pf1 5) State.reset)).get TIME_PW_STATUS.WRITE_LOST = 1
    ∧ (devAfter (.timeFreqWrite .pf1 5) (dv fun d => d.put GRT_GSYNC_CTL.ROLE 2)).get HIF_BUSERR.KIND = beLocked := by decide

/-- A logged fault. -/
def someLog : FltLog := ⟨0x051, 1, false, true, 0, false, 7, 9⟩

theorem wit_PoppingReads : pwrLive (live id).dev = true ∧ mbxPt 31 ∉ (live id).dev.mbxBusy ∧ fenced (live id).dev 31 = false
    ∧ ((live id).dev.sl 31).inReset = false ∧ mbxPmu ∉ (live id).dev.mbxBusy ∧ mbxFlt ∉ State.reset.dev.mbxBusy ∧ mbxSmp 0 ∉ (live id).dev.mbxBusy
    ∧ (devAfter (.samplePop 0 1) (live fun d => { d with pmu := { d.pmu with tansy := d.pmu.tansy.put [] 1 [7, 8] } })).pmu.tansy.get [] 1 = [8]
    ∧ ((devAfter (.samplePop 3 0) (live fun d => d.slice 0 fun x => { x with samples := [7, 8] })).sl 0).samples = [8]
    ∧ (devAfter .logPop (dv fun d => { d with flt := { d.flt with log := [someLog] } })).flt.log = []
    ∧ (devAfter .logPop (dv fun d => { d with flt := { d.flt with log := [someLog] } })).word (mbxFlt + 4)
      = BitVec.ofNat 32 (0x051 + 2 ^ 12 + 2 ^ 18) := by decide

theorem wit_FunctionsAndLink : hostUp (State.reset.dev.put HIF_LINK.SPEED 5) = true ∧ State.reset.dev.pins.perst = false
    ∧ (devAfter .pcieLinkDown (dv fun d => d.put HIF_LINK.SPEED 5)).get HIF_STATUS.LINK_DOWN = 1
    ∧ (devAfter (.pcieLinkUp 3 4 false) State.reset).get HIF_STATUS.LOW_RATE = 1
    ∧ (devAfter (.pcieLinkUp 4 4 false) State.reset).get HIF_STATUS.LOW_RATE = 0 := by decide

/-- A copy of a packet, and a frame of it on its way to punt ring 63. -/
def aCopy : Copy := { cid := 1, pkt := { fid := 9, inPort := 2 }, port := 5, q := 0 }
def aPunt : Punt := ⟨63, 4, aCopy, [1, 2, 3], 0⟩

/-- Two bytes at 0x1000 (R82). -/
def someDesc : BitVec 128 := 0x1000 + 2 <<< 64

/-- Ring n runs with one descriptor posted, of 64. -/
def ringOn (n : Nat) (d : Dev) : Dev :=
  { (d.put (DMA_RING_CTL.ENABLE n) 1).put HIF_LINK.SPEED 5 with dmaIdx := d.dmaIdx.put 0 n 1 }

theorem wit_HostRings : ringPf State.reset.dev 127 = 0 ∧ (State.reset.dev.put (DMA_RING_CTL.ENABLE 127) 1).flag (DMA_RING_CTL.ENABLE 127) = true
    ∧ (63 : Word).toNat % 65536 < ringEntries State.reset.dev 127
    ∧ ringReady (ringOn 63 State.reset.dev) 63 = true ∧ puntsOf { ringOn 63 State.reset.dev with punts := [aPunt] } 63 = [aPunt]
    ∧ (devAfter (.doorbellWrite .pf0 0x7F000 .dword 63) (dv fun d => d.put (DMA_RING_CTL.ENABLE 127) 1)).dmaIdx.get 0 127 = 63
    ∧ (devAfter (.doorbellWrite .pf0 0x7F000 .dword 64) (dv fun d => d.put (DMA_RING_CTL.ENABLE 127) 1)).get (DMA_RING_STATUS.DB_ERR 127) = 1
    ∧ (descOf someDesc).bad = false ∧ (descOf 0x1000).bad = true ∧ (descOf (someDesc + 1 <<< 112)).bad = true
    ∧ Output.hostWrite 0 0x1000 [1, 2] ∈ (devAfter (.puntDeliver 63 someDesc)
        (dv fun d => { ringOn 63 d with punts := [aPunt] })).out
    ∧ (devAfter (.puntDeliver 63 0x1000) (dv fun d => { ringOn 63 d with punts := [aPunt] })).get
        (DMA_RING_STATUS.DESC_ERR 63) = 1 := by decide

/-- Pool 7 in use: 16 buffers of 2,048 bytes, all free. -/
def pool7 (d : Dev) : Dev :=
  (((((d.put (BPM_POOL_CFG.EN 7) 1).put (BPM_POOL_CFG.COUNT 7) 16).put (BPM_POOL_CFG.SIZE_CODE 7) 3).put (BPM_POOL_FREE.FREE 7) 16).put
    (BPM_QUOTA.LIMIT 3 7) 16)

theorem wit_HostRings_inject : ringReady (ringOn 127 (pool7 State.reset.dev)) (64 + 63) = true
    ∧ (bpmAlloc (ringOn 127 (pool7 State.reset.dev)) 3 64).1.result = 0
    ∧ ((devAfter (.injectFrame 63 (0x1000 + 64 <<< 64 + 1023 <<< 80 + 2 <<< 104) (List.replicate 64 0) 0) (dv fun d => ringOn 127 (pool7 d))).sl 31).staging.length = 1
    := by decide

theorem wit_OutOfBand :
    passes (checkAccess State.reset.banks State.reset.dev .oob 0 false 0) (fun _ => goes State.reset.dev .oob false 0 0) = true
    ∧ passes (checkAccess State.reset.banks (live id).dev .oob (EQ_QCFG.word 31 255).addr true 5) (fun h => goes (live id).dev .oob true (EQ_QCFG.word 31 255).addr 5
        && (mbxBase h.loc (EQ_QCFG.word 31 255).addr).isNone && (pwDomain h (EQ_QCFG.word 31 255).addr).isNone && !h.row.isAck
        && decide (h.loc.kind = .eq)) = true
    ∧ State.reset.dev.flag HIF_OOB_CTL.PEC_EN = false ∧ (State.reset.dev.put HIF_OOB_CTL.PEC_EN 1).flag HIF_OOB_CTL.PEC_EN = true
    ∧ ¬ ((0x59 : BitVec 7).toNat = 0x58 + State.reset.dev.get HIF_OOB_CTL.STRAP)
    ∧ (devAfter (.oobRead32 0x58 0 false false) State.reset).out = [.oob none [0xD7, 0x4F, 0x24, 0x10]]
    ∧ (devAfter (.oobRead32 0x59 0 false false) State.reset).out = []
    ∧ (devAfter (.oobRead32 0x58 0 true false) State.reset).get HIF_BUSERR.KIND = beTimeout
    ∧ (devAfter (.oobRead32 0x58 2 false false) State.reset).get HIF_BUSERR.KIND = beAlign
    ∧ (devAfter (.oobWrite32 0x58 0x1003C 7 (some 0) 0) (dv fun d => d.put HIF_OOB_CTL.PEC_EN 1)).get HIF_OOB_STAT.BAD_PEC = 1
    ∧ (devAfter (.oobWrite32 0x58 0x1003C 7 none 0) State.reset).word 0x1003C = 7
    ∧ (devAfter (.oobBadCommand 0x58 3) State.reset).get HIF_OOB_STAT.BAD_CMD = 1
    ∧ (devAfter (.oobBadCommand 0x58 2) State.reset).get HIF_OOB_STAT.BAD_CMD = 0 := by decide +kernel

/-- CRC-8 of polynomial 0x07 over "123456789" is 0xF4 (SMBus; R89's PEC). -/
theorem test_pec : crc8 [0x31, 0x32, 0x33, 0x34, 0x35, 0x36, 0x37, 0x38, 0x39] = 0xF4 := by decide +kernel

/-! ### Lanes -/

/-- The last octet in the mode of two-lane ports at 400G; lanes 1022 and 1023 are the last port's, in state st. -/
def octet4 (st : Nat) (d : Dev) : Dev :=
  ((d.put (PT_OCT_MODE.MODE 31 3) 4).put (LN_STATE.STATE 1022) st).put (LN_STATE.STATE 1023) st

theorem wit_LaneBringUp : isPort (octet4 0 State.reset.dev) 1022 = true ∧ portLanes (octet4 0 State.reset.dev) 1022 = [1022, 1023]
    ∧ portOf (octet4 1 State.reset.dev) 1023 = some 1022
    ∧ laneState (octet4 0 (live fun d => d.put (LN_CTL.ADMIN_UP 1022) 1).dev) 1022 = 0
    ∧ (octet4 0 (live fun d => d.put (LN_CTL.ADMIN_UP 1022) 1).dev).flag (LN_CTL.ADMIN_UP 1022) = true
    ∧ lanesMayRun (live id).dev = true ∧ refclkOk State.reset.dev 1022 = true
    ∧ (octet4 0 State.reset.dev).flag (LN_CTL.TEST_MODE 1023) = false
    ∧ ((octet4 1 State.reset.dev).put (LN_CTL.FETS_EN 1023) 1).flag (LN_CTL.FETS_EN 1023) = true
    ∧ ((octet4 1 State.reset.dev).put (LN_CTL.AN_EN 1022) 1).flag (LN_CTL.AN_EN 1022) = true
    ∧ laneState (devAfter (.laneDetectStart 1022) (live fun d => octet4 0 (d.put (LN_CTL.ADMIN_UP 1022) 1))) 1023 = 1
    ∧ laneState (devAfter (.signalDetected 1023) (dv fun d => octet4 1 (d.lane 1022 fun h => { h with sig := true }))) 1022 = 2
    ∧ laneState (devAfter (.signalDetected 1023) (dv (octet4 1))) 1022 = 1
    ∧ laneState (devAfter (.receiverReady 1023 true false false 7) (dv fun d =>
        octet4 2 (d.lane 1022 fun h => { h with ready := true, partnerReady := true }))) 1022 = 3
    ∧ laneState (devAfter (.trainTimeout 1023) (dv (octet4 2))) 1022 = 1
    ∧ laneState (devAfter (.anComplete 1022 ⟨2, 2, 0⟩) (dv fun d => octet4 1 ((d.put (LN_CTL.AN_EN 1022) 1).lane 1022 fun h => { h with
        sig := true }))) 1022 = 1
    ∧ (laneHid (devAfter (.anComplete 1022 ⟨(laneMode (octet4 1 State.reset.dev) 1022).lanes, Fin.ofNat 4 (laneMode (octet4 1 State.reset.dev) 1022).rate, 3⟩)
        (dv fun d => octet4 1 (d.put (LN_CTL.AN_EN 1022) 1))) 1022).anFec = some 3
    ∧ (laneMode (octet4 1 State.reset.dev) 1022).rate < 4
    ∧ (devAfter (.trainSignalLost 1023) (dv (octet4 2))).get (LN_CNT_TRAIN_FAIL 1023) = 1
    ∧ (devAfter (.anRestart 1022) (dv fun d => octet4 1 (d.put (LN_CTL.AN_EN 1022) 1))).get (LN_CNT_AN_RESTART 1022) = 1 := by decide +kernel

/-- A Survey of version 1 from port 0x1234 in an LLDP frame. -/
def someSurvey : List Byte :=
  beBytes 12 0 ++ beBytes 2 0x88CC ++ beBytes 2 (127 * 512 + 36) ++ beBytes 3 0x5AD731 ++ [1, 1, 0] ++ beBytes 12 0 ++ beBytes 2 0x1234
    ++ beBytes 16 0 ++ beBytes 8 0

theorem wit_LaneLockAndSurvey : laneState (octet4 3 State.reset.dev) 1022 = 3 ∧ (laneHid (octet4 3 State.reset.dev) 1022).lostIn = 0
    ∧ ((octet4 3 State.reset.dev).put (LN_CTL.RELOCK_EN 1022) 1).flag (LN_CTL.RELOCK_EN 1022) = true
    ∧ beNat ((someSurvey.drop 12).take 2) = 0x88CC ∧ (findSurvey someSurvey.length (someSurvey.drop 14)).isSome = true
    ∧ laneState (devAfter (.lockHeld 1022 40) (dv fun d => octet4 3 (d.put (LN_CTL.SURVEY_EN 1022) 1))) 1023 = 4
    ∧ laneState (devAfter (.lockHeld 1022 0) (dv fun d => octet4 3 (d.put (LN_CTL.SURVEY_EN 1022) 0))) 1023 = 5
    ∧ laneState (devAfter (.lockHeld 1022 41) (dv (octet4 3))) 1023 = 3
    ∧ laneState (devAfter (.lockHeld 1022 40) (dv fun d => (octet4 3 d).lane 1022 fun h => { h with lostIn := 4 })) 1022 = 4
    ∧ laneState (devAfter (.lockHeld 1022 40) (dv fun d => (octet4 3 d).lane 1022 fun h => { h with lostIn := 5 })) 1022 = 3
    ∧ (octet4 4 State.reset.dev).sliceUp 31 = true ∧ (octet4 4 State.reset.dev).flag (PT_CFG.LOOP 1022) = false
    ∧ halfRx (octet4 4 State.reset.dev) 1022 = none ∧ 60 ≤ someSurvey.length
    ∧ someSurvey.length + 4 ≤ portMtu (octet4 4 State.reset.dev) 1022
    ∧ (octet4 4 State.reset.dev).get (PT_LINK.STATE 1022) ≠ 2 ∧ receives (octet4 0 State.reset.dev) 1022 = false
    ∧ findSurvey 14 (List.replicate 46 0) = none
    ∧ laneState (devAfter (.relock 1022) (dv fun d => octet4 3 ((d.put (LN_CTL.RELOCK_EN 1022) 1).lane 1022 fun h =>
        { h with lostIn := 5 }))) 1023 = 5
 := by decide +kernel

theorem test_survey : laneState (devAfter (.exchTimeout 1022) (dv (octet4 4))) 1023 = 5
    ∧ (devAfter (.surveyRx 1022 someSurvey) (dv (octet4 4))).get (LN_SURVEY_PEER.PORT 1022) = 0x1234
    ∧ laneState (devAfter (.lockTimeout 1023) (dv (octet4 3))) 1022 = 2 := by decide +kernel

theorem wit_LaneFaults : ((octet4 5 State.reset.dev).put (PT_LINK.FEC_ALIGN 1022) 1).flag (PT_LINK.FEC_ALIGN 1022) = true
    ∧ ((octet4 5 State.reset.dev).put (PT_LINK.LF 1022) 1).flag (PT_LINK.LF 1022) = true
    ∧ laneState (devAfter (.lossOfLock 1023) (dv fun d => octet4 5 (d.put (LN_CTL.RELOCK_EN 1022) 1))) 1022 = 3
    ∧ (laneHid (devAfter (.lossOfLock 1023) (dv fun d => octet4 4 (d.put (LN_CTL.RELOCK_EN 1022) 1))) 1022).lostIn = 4
    ∧ (devAfter (.faultOrderedSetRx 1022 true) (dv fun d => octet4 5 (d.put (PT_LINK.FEC_ALIGN 1022) 1))).out.getLast? = some (.ordered 1022 .idle)
    ∧ (devAfter (.faultOrderedSetRx 1022 true) (dv (octet4 4))).out.getLast? = some (.ordered 1022 .remoteFault)
    ∧ laneState (devAfter (.lossOfLock 1023) (dv fun d => octet4 5 (d.put (LN_CTL.RELOCK_EN 1022) 0))) 1022 = 2
    ∧ isPort State.reset.dev 1 = false ∧ portOf (State.reset.dev.put (PT_OCT_MODE.MODE 0 0) 0) 1 = none
    ∧ laneState (devAfter (.laneReset 1023) (dv (octet4 5))) 1022 = 0
    ∧ (devAfter (.linkFaultCleared 1022) (dv fun d => octet4 5 (d.put (PT_LINK.RF 1022) 1))).flag (PT_LINK.RF 1022) = false
    ∧ (devAfter (.fecAlignLoss 1022) (dv fun d => octet4 5 (d.put (PT_LINK.FEC_ALIGN 1022) 1))).get (PT_LINK.FEC_ALIGN 1022) = 0
 := by decide +kernel

theorem test_retrain : laneState (devAfter (.retrain 1022) (dv (octet4 5))) 1023 = 2
    ∧ laneState (devAfter (.partnerRetrain 1022) (dv (octet4 5))) 1023 = 2
    ∧ (15 : Fin 16).val ∉ State.reset.dev.pins.refclkLost := by decide +kernel

theorem wit_LaneMeasures : laneState State.reset.dev 1023 = 0 ∧ (State.reset.dev.put (LN_CTL.TEST_MODE 1023) 1).flag (LN_CTL.TEST_MODE 1023) = true
    ∧ State.reset.dev.flag (LN_EYE_STAT.RUNNING 1023) = false ∧ 3 ≤ laneState (octet4 3 State.reset.dev) 1023
    ∧ (State.reset.dev.put (LN_CTL.MANUAL_ALIGN 1023) 1).flag (LN_CTL.MANUAL_ALIGN 1023) = true
    ∧ State.reset.dev.get (LN_TEST_CTL.RX_PAT 1023) < 9
    ∧ (State.reset.dev.put (LN_STATE.FREEZE 1023) 2).get (LN_STATE.FREEZE 1023) = 2
    ∧ (State.reset.dev.put (LN_FOM_CFG.FLOOR 1023) 255).get (LN_FOM.FOM 1023) < (State.reset.dev.put (LN_FOM_CFG.FLOOR 1023) 255).get (LN_FOM_CFG.FLOOR 1023)
    ∧ ((octet4 5 State.reset.dev).put (PT_LINK.STATE 1022) 1).get (PT_LINK.STATE 1022) = 1 ∧ State.reset.dev.sliceUp 31 = true
    ∧ State.reset.dev.flag (PT_CFG.DRAIN 1022) = false
    ∧ laneState (devAfter (.enterTest 1023) (dv fun d => d.put (LN_CTL.TEST_MODE 1023) 1)) 1023 = 6
    ∧ laneState (devAfter (.leaveTest 1023) (dv (octet4 6))) 1023 = 0
    ∧ (devAfter (.eyeStart 1023) (dv (octet4 3))).get (LN_EYE_STAT.RUNNING 1023) = 1
    ∧ (devAfter (.eyeStart 1023) (dv (octet4 2))).get (LN_STATUS.CMD_IGNORED 1023) = 1
    ∧ (devAfter (.fomWindow 1023 ⟨255 * 64 / 4, 9, 0, 0, 0, 0⟩) (dv (octet4 5))).get (LN_FOM.FOM 1023) = 255
    ∧ (devAfter (.fomWindow 1023 ⟨256, 9, 0, 0, 0, 0⟩) (dv (octet4 1))).get (LN_FOM.FOM 1023) = 0
    ∧ (devAfter (.fomWindow 1023 ⟨255, 7, 3, 0, 0, 0⟩) (dv fun d => octet4 6 (d.put (LN_PRBS_STAT.CHK_RUN 1023) 1))).word
        (LN_PRBS_ERR.word 1023).addr = 3
    ∧ (devAfter (.fomWindow 1023 ⟨255, 0, 0, 0, 0, 0⟩) (dv fun d => octet4 4 (d.put (LN_FOM_CFG.TD_MIN 1023) 1))).get
        (LN_STATE.FREEZE 1023) = 1
    ∧ (devAfter (.fomWindow 1023 ⟨255, 5, 0, 0, 0, 0⟩) (dv fun d => (octet4 4 (d.put (LN_FOM_CFG.TD_MIN 1023) 1)).put
        (LN_STATE.FREEZE 1023) 1)).get (LN_STATE.FREEZE 1023) = 0
    ∧ (devAfter (.bitslip 1023) (dv fun d => (octet4 6 (d.put (LN_CTL.MANUAL_ALIGN 1023) 1)).put (LN_PRBS_STAT.SLIP_POS 1023) 127)).get
        (LN_PRBS_STAT.SLIP_POS 1023) = 0
    ∧ (devAfter (.liveSet 1022) (dv fun d => (octet4 5 d).put (PT_LINK.STATE 1022) 1)).get (PT_LINK.LIVE 1022) = 1 := by decide +kernel


/-! ### Ports and the packet path -/

/-- Port 1022 is in service at 400 Gb/s. -/
def portUp (d : Dev) : Dev := octet4 5 ((d.put (PT_LINK.STATE 1022) 1).put (PT_LINK.FEC_ALIGN 1022) 1)

/-- A whole 64-byte frame. -/
def rx64 : RxFrame := ⟨1022, .whole, List.replicate 64 1, true, false, false, 0, 0⟩

theorem wit_PortsAndPause : octModeOf State.reset.dev (31 * 32 + 3 * 8) = 0 ∧ octModeOf (octet4 0 State.reset.dev) (31 * 32 + 3 * 8) ≠ 0
    ∧ isPort (octet4 0 (State.reset.dev.put (PT_CMD_PORT.LANE 31) 30)) (31 * 32 + 30) = true
    ∧ receives (portUp State.reset.dev) 1022 = true ∧ linkUp (portUp State.reset.dev) 1022 = true
    ∧ (portUp State.reset.dev).sliceUp 31 = true ∧ (portUp State.reset.dev).flag (PT_CFG.LOOP 1022) = false
    ∧ fcMode ((portUp State.reset.dev).put (PT_CFG.FC_MODE 1022) 1) 1022 = 1 ∧ (State.reset.dev.po 1022).wdLifted = []
    ∧ (State.reset.dev.po 1022).tx.isNone = true ∧ fcMode ((portUp State.reset.dev).put (PT_CFG.FC_MODE 1022) 2) 1022 = 2
    ∧ (State.reset.dev.put (PT_PFC_CFG.WD_MS 1022) 9).get (PT_PFC_CFG.WD_MS 1022) ≠ 0
    ∧ lossless (State.reset.dev.put (PT_PFC_CFG.TX_MASK 1022) 0x80) 1022 7 = true ∧ lossless State.reset.dev 1022 7 = false
    ∧ rxBarred (portUp State.reset.dev) 1022 false = none
    ∧ (devAfter (.macControlRx 1022 2 0 [] 0) (dv portUp)).ctrGet (ptCtr 1022 10) = 1
    ∧ (((State.reset.dev.port 1022 fun x => { x with xoffSent := [7] }).po 1022).xoffSent.contains 7) = true := by decide +kernel

theorem test_pause : ((devAfter (.macControlRx 1022 1 0 [400] 0) (dv fun d => (portUp d).put (PT_CFG.FC_MODE 1022) 1)).po 1022).pausedUntil.length = 8
    ∧ (devAfter (.pauseExpire 1022 7 8000) (dv fun d => d.port 1022 fun x => { x with pausedUntil := [(7, 0, 8000)] })).ctrGet (ptCtr 1022 43) = 2
    ∧ ((devAfter (.pauseExpire 1022 7 7999) (dv fun d => d.port 1022 fun x => { x with pausedUntil := [(7, 0, 8000)] })).po 1022).pausedUntil
      = [(7, 0, 8000)]
    ∧ (devAfter (.pfcWatchdog 1022 7) (dv fun d => (d.put (PT_PFC_CFG.WD_MS 1022) 9).port 1022 fun x =>
        { x with pausedUntil := [(7, 0, 8000)] })).get (PT_STATUS.PFC_WD 1022) = 1
    ∧ ((devAfter (.pfcWatchdogEnd 1022 7) (dv fun d => d.port 1022 fun x => { x with wdLifted := [7] })).po 1022).wdLifted = [] := by decide +kernel

theorem wit_FramesReceived : receives State.reset.dev 1022 = false ∧ receives (portUp State.reset.dev) rx64.port = true
    ∧ ((portUp State.reset.dev).slice 31 fun x => { x with inReset := true }).sliceUp 31 = false
    ∧ halfRx (portUp State.reset.dev) 1022 = none ∧ rxBarred (portUp State.reset.dev) 1022 true = some drRateExceeded
    ∧ rxBarred (octet4 4 (portUp State.reset.dev)) 1022 false = some drNotReady ∧ isControl (List.replicate 256 1) = false
    ∧ laneState (portUp State.reset.dev) 1022 = 5
    ∧ 64 ≤ rx64.bytes.length ∧ rx64.bytes.length ≤ portMtu (portUp State.reset.dev) 1022 ∧ beNat (bytesAt rx64.bytes 12 2) ≠ 0x8808
    ∧ rxFault State.reset.dev 1022 63 true = some (drUndersize, 6) ∧ rxFault State.reset.dev 1022 9417 false = some (drOversize, 9)
    ∧ rxFault State.reset.dev 1022 64 false = some (drFcsErr, 5) := by decide +kernel

theorem test_frame_received : ((devAfter (.frameRx rx64) (dv portUp)).sl 31).staging.map (fun x => x.inPort) = [1022]
    ∧ (devAfter (.frameRx rx64) (dv portUp)).ctrGet (ptCtr 1022 1) = 1
    ∧ ((devAfter (.frameRx { rx64 with fcsOk := false }) (dv portUp)).sl 31).staging = []
    ∧ ((devAfter (.frameRx { rx64 with part := .tail }) (after (.frameRx ⟨1022, .head, List.replicate 256 1, true, false, false, 0, 320⟩)
        (dv portUp))).frame 1).map (fun f => (f.complete, f.bytes.length)) = some (true, 320)
    ∧ (devAfter (.frameRx { rx64 with fcsOk := false }) (dv portUp)).ctrGet (ptCtr 1022 5) = 1 := by decide +kernel

/-- A received frame, whole, and a packet of it. -/
def frame64 : Frame := { inPort := 1022, bytes := List.replicate 64 1, complete := true }
def pkt7 : Pkt := { fid := 7, inPort := 1022 }
def withFrame (f : Frame) (d : Dev) : Dev := d.setFrame 7 (some f)

theorem wit_ParsingBegins : (State.reset.dev.sl 31).staging = [] ∧ State.reset.dev.sliceUp 31 = true
    ∧ ((State.reset.dev.slice 31 fun x => { x with staging := [pkt7] }).sl 31).staging = [pkt7]
    ∧ (withFrame frame64 State.reset.dev).frame 7 = some frame64 ∧ ({} : Upsets).ttBad = []
    ∧ (parse (withFrame frame64 State.reset.dev) 31 0 30 frame64).isSome = true
    ∧ nextParse State.reset.dev 31 = none
    ∧ nextParse (withFrame frame64 (State.reset.dev.slice 31 fun x => { x with staging := [{ pkt7 with second := true }, pkt7] })) 31
      = some pkt7
    ∧ nextParse (withFrame frame64 (State.reset.dev.slice 31 fun x => { x with passedBy := 47, staging := [pkt7, { pkt7 with second := true }] })) 31
      = some { pkt7 with second := true }
    ∧ (withFrame { frame64 with complete := false } State.reset.dev).frame 7 = some { frame64 with complete := false }
    ∧ lateFails frame64 ⟨[61], none, 0, 31⟩ = true ∧ lateFails frame64 ⟨[60], some 50, 10, 31⟩ = false
    ∧ lateFails frame64 ⟨[60], some 50, 9, 31⟩ = true := by decide +kernel

theorem test_late_malformed : ((devAfter (.lateMalformed 7) (dv (withFrame { frame64 with defer := some ⟨[60], none, 0, 31⟩ }))).frame 7).map
      (fun f => f.defer) = none
    ∧ (devAfter (.lateMalformed 7) (dv (withFrame { frame64 with defer := some ⟨[60], none, 0, 31⟩ }))).get (PRS_CNT_LATE_MALF 31) = 0
    ∧ (devAfter (.lateMalformed 7) (dv (withFrame { frame64 with defer := some ⟨[61], none, 0, 31⟩ }))).get (PRS_CNT_LATE_MALF 31) = 1 := by decide +kernel

/-- A copy of that packet for queue q of port 1022. -/
def copy7 (q : Nat) : Copy := { cid := 3, pkt := pkt7, port := 1022, q := q }

/-- It waits for admission in slice 31. -/
def admitting (c : Copy) (d : Dev) : Dev := (withFrame frame64 d).slice 31 fun x => { x with toAdmit := [c] }

theorem wit_AdmissionAndCopies : nextAdmit (admitting (copy7 0) State.reset.dev) 31 = some (copy7 0)
    ∧ nextAdmit (admitting { copy7 0 with punt := some (63, 4) } State.reset.dev) 31 = some { copy7 0 with punt := some (63, 4) }
    ∧ nextAdmit State.reset.dev 31 = none ∧ mayReplicate { State.reset.dev with buf := { State.reset.dev.buf with toRep := [(1, copy7 0)] } } 1
      (copy7 0) = true ∧ (copy7 0).port < 1024 ∧ (copy7 6).q < 7
    ∧ { copy7 0 with punt := some (63, 4) }.punt = some (63, 4)
    ∧ State.reset.dev.flag (EQ_QCFG.POL_EN 31 (8 * 30 + 6)) = false
    ∧ (match admitTest (portUp State.reset.dev) (qid 1022 0) 2 1022 0 with
      | .ok _ => true
      | .error _ => false) = true
    ∧ (match admitTest State.reset.dev (qid 1022 0) 2 1022 0 with
      | .ok _ => false
      | .error r => decide (r = drNoEgress)) = true
    ∧ (withFrame frame64 { State.reset.dev with queues := [(qid 1022 0, { pkts := [{ copy7 0 with early := true }], head := [⟨3, 0, 1⟩], shr := 1 })] }).ports = []
    ∧ isPort (portUp State.reset.dev) (bits (1022 * 2 ^ 16) 25 16) = true ∧ halfOf 1022 = 1
    ∧ ({ State.reset.dev.buf with toRep := [(1, copy7 0)] } : BufHid).toRep = [((1 : Fin 2).val, copy7 0)] := by decide +kernel

theorem test_admission : ((devAfter (.admission 31 5) (dv fun d => admitting (copy7 0) (portUp d))).qu (qid 1022 0)).pkts.length = 1
    ∧ (devAfter (.admission 31 5) (dv fun d => admitting (copy7 0) (portUp d))).get (BUF_CNT_ADMIT 1) = 1
    ∧ (devAfter (.admission 31 5) (dv fun d => admitting (copy7 0) (octet4 2 (portUp d)))).get (BUF_CNT_ADMIT 1) = 0 := by decide +kernel

/-- A raw copy at the front of q7 of port 1022. -/
def queued7 (d : Dev) : Dev :=
  { withFrame frame64 (portUp d) with
    queues := [(qid 1022 7, { pkts := [{ copy7 7 with raw := true, cells := 1 }], head := [⟨3, 0, 1⟩], shr := 1 })] }

/-- Port 1022 sends it. -/
def sending (f : Frame) (d : Dev) : Dev :=
  (withFrame f (portUp d)).port 1022 fun x => { x with tx := some ⟨copy7 0, true, [], 0, [], [], 0, 0, 0, false, false, none⟩ }

theorem wit_Transmission : canStart State.reset.dev 1022 = false ∧ canStart (queued7 State.reset.dev) 1022 = true
    ∧ headCopy (queued7 State.reset.dev) (qid 1022 7) = some { copy7 7 with raw := true, cells := 1 }
    ∧ pausedQ (queued7 State.reset.dev) 1022 7 0 = false
    ∧ beEligible (queued7 State.reset.dev) 1022 6 0 = false ∧ ((queued7 State.reset.dev).po 1022).credit = none
    ∧ firstBad (copy7 7) {} = none ∧ ((sending frame64 State.reset.dev).po 1022).tx.isSome = true
    ∧ inPages (State.reset.dev.qu (qid 1022 0)) 3 = false ∧ (State.reset.dev.sl 31).recirc = []
    ∧ ((State.reset.dev.slice 31 fun x => { x with recirc := [copy7 0] }).sl 31).recirc = [copy7 0]
 := by decide +kernel

theorem test_transmission : ((devAfter (.schedulerDecision 1022 9 {}) (dv queued7)).po 1022).tx.isSome = true
    ∧ ((devAfter (.txComplete 1022 9) (dv (sending frame64))).po 1022).tx.isNone = true
    ∧ ((devAfter (.txComplete 1022 9) (dv (sending { frame64 with complete := false }))).po 1022).tx.isSome = true := by decide +kernel


/-! ### Spill tier, promise, faults -/

/-- Queue 0 of port 1022 has spilled; its tail is one page of cells of an arrived frame. -/
def spilledQueue (d : Dev) : Dev :=
  { withFrame frame64 ((d.put (SPL_CTL.EN 1) 1).put (BUF_QPROF.SPILL_EN 1 0) 1) with
    queues := [(qid 1022 0, { pkts := [copy7 0], tail := [⟨3, 0, 63⟩], spill := true, shr := 63 })] }

/-- Half 1 spills into pool 7. -/
def spillPool (d : Dev) : Dev :=
  (((((((d.put (SPL_POOL.POOL 1) 7).put (BPM_POOL_CFG.EN 7) 1).put (BPM_POOL_CFG.COUNT 7) 16).put (BPM_POOL_CFG.SIZE_CODE 7) 6).put
    (BPM_POOL_CFG.LOCATION 7) 2).put (BPM_POOL_FREE.FREE 7) 16).put (BPM_QUOTA.LIMIT 1 7) 16)

/-- The page of that queue, being read. -/
def aPage : Page := { ptr := 2 * 2 ^ 38, seq := 0, runs := [⟨3, 0, 63⟩], bad := [], reading := true }

/-- The queue's page is in the middle. -/
def pageBack (p : Page) (d : Dev) : Dev :=
  { withFrame frame64 d with queues := [(qid 1022 0, { pkts := [copy7 0], mid := [p], spill := true, shr := 63 })] }

theorem wit_SpillPages : spillPresent State.reset.dev = true
    ∧ (fromPlace (spilledQueue State.reset.dev) 1 0).find? (wantsDown (spilledQueue State.reset.dev)) = some (qid 1022 0)
    ∧ (fromPlace State.reset.dev 1 0).find? (wantsDown State.reset.dev) = none
    ∧ (allocPage (spilledQueue (spillPool State.reset.dev)) 1 7).1 = some (2 * 2 ^ 38)
    ∧ (allocPage (spilledQueue State.reset.dev) 1 7).1 = none
    ∧ downOn State.reset.dev 1 0 = none
    ∧ (downOn (devAfter (.writeDownStart 1 []) (dv fun d => spilledQueue (spillPool d))) 1 0).isSome = true
    ∧ State.reset.dev.get (BUF_SHARED_USED.USED 1) + 63 ≤ State.reset.dev.get (BUF_SHARED.SHARED 1)
    ∧ (fromPlace (pageBack { aPage with reading := false } State.reset.dev) 1 0).find?
        (wantsUp (pageBack { aPage with reading := false } State.reset.dev)) = some (qid 1022 0)
    ∧ nextPage { mid := [{ aPage with reading := false }] } = some { aPage with reading := false }
    ∧ pageOf (pageBack aPage State.reset.dev) 1 (2 * 2 ^ 38) = some (qid 1022 0, aPage) ∧ pageOf State.reset.dev 1 5 = none := by decide +kernel

/-- The code of a cell of zeros is zero (R401: initial value 0). -/
theorem cellCode_zeros (n : Nat) : cellCode (List.replicate n 0) = 0 := by
  unfold cellCode
  induction n with
  | zero => rfl
  | succ n ih =>
    rw [List.replicate_succ, List.foldl_cons, show crc16 0x8BB7 0 8 (0 : Byte).toNat = 0 from by decide]
    exact ih

/-- A cell whose code word alone differs fails, one that does not differ passes, and a page of two cells has no third. -/
theorem wit_checkCells : codeFails ⟨1, [], 1⟩ = true ∧ codeFails ⟨0, [], 0⟩ = false ∧ (cellAt [⟨3, 0, 2⟩] 2).isSome = false := by
  refine ⟨?_, ?_, by decide⟩
  · show decide (cellCode (List.replicate 256 0) ≠ 1) = true
    rw [cellCode_zeros]; decide
  · show decide (cellCode (List.replicate 256 0) ≠ 0) = false
    rw [cellCode_zeros]; decide

theorem test_write_down : (devAfter (.writeDownDone 1 0 4) { State.reset with
      dev := devAfter (.writeDownStart 1 []) (dv fun d => spilledQueue (spillPool d)) }).get (MEM_CNT_RETRY_FAIL 1 0) = 1
    ∧ ((devAfter (.readUpRequest 1) (dv (pageBack { aPage with reading := false }))).qu (qid 1022 0)).mid = [aPage] := by decide +kernel

theorem wit_SpillDevices : spillPresent (State.reset.dev.put ID_CAP.SPILL_PRESENT 0) = false
    ∧ (State.reset.dev.put (MEM_CRC_CFG.LIMIT 1 5) 4).get (MEM_CRC_CFG.LIMIT 1 5) ≠ 0
    ∧ (State.reset.dev.put (MEM_CRC_CFG.LIMIT 1 5) 4).get (MEM_CRC_CFG.LIMIT 1 5) ≤ ({ State.reset.dev.buf with memFail := [(11, 4)] } : BufHid).memFail.get 0 (1 * 6 + 5)
    ∧ State.reset.dev.buf.memFail.get 0 11 < (State.reset.dev.put (MEM_CRC_CFG.LIMIT 1 5) 4).get (MEM_CRC_CFG.LIMIT 1 5)
    ∧ devOut State.reset.dev 1 5 = false ∧ devOut (State.reset.dev.put (SPL_DEV.OUT 1) 32) 1 5 = true ∧ State.reset.dev.queues = []
    ∧ State.reset.dev.buf.retraining.contains 11 = false ∧ runningRate (State.reset.dev.put (MEM_CFG.RATE 1 5) 0) 1 5 ≠ wantedRate (State.reset.dev.put (MEM_CFG.RATE 1 5) 0) 1 5
    ∧ mixedDensity State.reset.dev 1 5 0 = false ∧ mixedDensity (State.reset.dev.put (SPL_DEV.TRAINED 1) 1) 1 5 1 = true
    ∧ (devAfter (.dataRateChange 1 5) (dv fun d => d.put (MEM_CFG.RATE 1 5) 0)).buf.retraining = [11]
    ∧ devOut (devAfter (.exclude 1 5) State.reset) 1 5 = true
    ∧ devOut (devAfter (.restore 1 5 true) (dv fun d => d.put (SPL_DEV.OUT 1) 32)) 1 5 = false
    ∧ (devAfter (.memRetrain 1 5) State.reset).buf.retraining = [11]
    ∧ (devAfter (.driftCompensation 1 5) State.reset).get (MEM_CNT_DRIFT_COMP 1 5) = 1 := by decide +kernel

/-- An ADD of port 1022's own traffic: 1 Mb/s, a burst of 20,000 bytes. -/
def aResv : Nat := 1022 + 1022 * 2 ^ 16 + 1 * 2 ^ 32 + 20000 * 2 ^ 64

/-- Port 1022 has a promise of 16 ticks and half its rate. -/
def promised (d : Dev) : Dev := ((portUp d).put (EQ_PROM.DEADLINE 31 30) 16).put (EQ_PROM.SHARE 31 30) 128

theorem wit_PromiseCommands : (State.reset.dev.put SCH_CMD_STAT.BUSY 1).flag SCH_CMD_STAT.BUSY = true
    ∧ State.reset.dev.flag SCH_CMD_STAT.BUSY = false
    ∧ (State.reset.dev.put (HK_ENGINE.STATE 0) 0).serves (schEngine 1 (staged (State.reset.dev.put (HK_ENGINE.STATE 0) 0))) = true
    ∧ State.reset.dev.resv.get none 0 = none ∧ State.reset.dev.hk.sch = none ∧ belowFloor State.reset.dev = false
    ∧ (schAdd State.reset.dev aResv).1 ≠ 0
    ∧ (devAfter .add (dv fun d => d.put SCH_CMD_STAT.BUSY 1)).get SCH_STATUS.CMD_LOST = 1
    ∧ (devAfter .schCmdDone (dv fun d => d.put SCH_CMD_STAT.BUSY 1)).get SCH_STATUS.CMD_DONE = 1
    ∧ (devAfter .schCmdDone (dv fun d => { d.put SCH_CMD_STAT.BUSY 1 with hk := { d.hk with sch := some (2, 0) } })).get SCH_STATUS.CMD_DONE
      = (if State.reset.dev.serves (schEngine 2 0) then 1 else 0)
    ∧ (devAfter .schCmdDone (dv fun d => { (d.put SCH_CMD_STAT.BUSY 1).put (HK_ENGINE.STATE 0) 0 with hk := { d.hk with sch := some (2, 0) } })).get
        SCH_STATUS.REFUSED = 1
    ∧ (devAfter (.reservationRecheck 5) (dv fun d => { d with resv := [(5, some ⟨1022, 1022, 1, 20000, 0, false⟩)] })).get
        SCH_STATUS.RESV_LOST = 1
    ∧ (schRemove State.reset.dev 0).1 = 6 ∧ resvOf State.reset.dev 1022 = []
    ∧ ({ State.reset.dev with resv := [(5, some ⟨1022, 1022, 1, 20000, 0, false⟩)] } : Dev).resv = [(5, some ⟨1022, 1022, 1, 20000, 0, false⟩)]
    ∧ isPort (promised State.reset.dev) 1022 = true := by decide +kernel

theorem wit_PromiseCommands_add : (schAdd (promised State.reset.dev) aResv).1 = 0 := by decide +kernel

theorem wit_FaultEvents : validSource 0xFFF = false ∧ validSource 0xBF = true ∧ (sourceMap State.reset.dev 0x051).2.1 = false
    ∧ ({ State.reset.dev with reports := [⟨0x023, 7, false, false⟩] } : Dev).reports = [⟨0x023, 7, false, false⟩]
    ∧ State.reset.dev.flag (PMU_CTL.EN 0) = false ∧ State.reset.dev.flt.dead = false
    ∧ (sourceMap { State.reset.dev with flt := { State.reset.dev.flt with map := [(0x23, some (1, true, false))] } } 0x23).2.1 = true
    ∧ (sourceMap { State.reset.dev with flt := { State.reset.dev.flt with map := [(0x23, some (1, false, true))] } } 0x23).2.2 = true
    ∧ (State.reset.dev.put (FLT_CLASS.N 1) 2).get (FLT_CLASS.N 1) = 2 ∧ reaction State.reset.dev 0x023 1 = 0
    ∧ windowDue { State.reset.dev with flt := { State.reset.dev.flt with wins := [(0x23, 65537)], frameNo := 1 } } 0x23 = true
    ∧ windowDue { State.reset.dev with flt := { State.reset.dev.flt with wins := [(0x23, 65537)], frameNo := 0 } } 0x23 = false
    ∧ State.reset.dev.flag FLT_FIRST.VALID = false := by decide +kernel

theorem test_faults : (devAfter (.pathFailed 0x023) State.reset).get FLT_CNT_PATH = 1
    ∧ (devAfter (.inject 0x00230000 0) State.reset).get FLT_CNT_INJECTED = 1
    ∧ (devAfter (.faultEvent 0) (dv fun d => { d with reports := [⟨0x023, 7, false, false⟩] })).get FLT_FIRST.SOURCE = 0x023
    ∧ (devAfter (.faultEvent 0) (dv fun d => { d with reports := [⟨0x023, 7, true, false⟩] })).get FLT_CNT_CONSEQ = 1
    ∧ (devAfter (.fabricCrcError 1 31 8 31) State.reset).flt.fabricFails.get 0 63 = 8
    ∧ (devAfter (.fabricCrcError 1 31 9 31) State.reset).get FLT_CNT_FABRIC_LOST = 1
    ∧ (devAfter (.faultEvent 0) (dv fun d => { d.put (FLT_CLASS.N (sourceMap d 0x023).1) 2 with
        reports := [⟨0x023, 7, false, false⟩], flt := { d.flt with counts := [(0x023, 1)], wins := [(0x023, 1)] } })).get FLT_CNT_SEVERE = 1
    ∧ (devAfter (.fabricLaneSpare 1 31) (dv fun d => { d with flt := { d.flt with fabricFails := [(63, 16)] } })).get (spares 1) = 1
    ∧ (devAfter (.fabricLaneSpare 1 31) (dv fun d => { d with flt := { d.flt with fabricFails := [(63, 15)] } })).get (spares 1) = 0 := by decide +kernel

theorem wit_FaultControl : State.reset.dev.flag FLT_STATE.SAFE = false ∧ (State.reset.dev.put FLT_STATE.SAFE 1).flag FLT_STATE.SAFE = true
    ∧ State.reset.dev.hk.wardenFailed = false ∧ State.reset.dev.flt.fatalDue = false ∧ bothOut State.reset.dev = false
    ∧ State.reset.dev.flt.pulse = false ∧ State.reset.dev.pins.coreLost = false
    ∧ fenced (State.reset.dev.put FLT_FENCED.FENCED (2 ^ 31)) 31 = true ∧ fenced State.reset.dev 31 = false ∧ (State.reset.dev.sl 31).inReset = false
    ∧ ((State.reset.dev.slice 31 fun x => { x with inReset := true }).sl 31).inReset = true ∧ State.reset.dev.heldAcc = []
    ∧ unitBack State.reset.dev 4 63 = true ∧ (State.reset.dev.tansy 1).failed = false
    ∧ (devAfter .safeEnter State.reset).get FLT_STATE.SAFE = 1 ∧ (devAfter .leaveSafe (dv fun d => d.put FLT_STATE.SAFE 1)).get FLT_STATE.SAFE = 0
    ∧ (devAfter (.unfence 31) (dv fun d => d.put FLT_FENCED.FENCED (2 ^ 31))).get FLT_CNT_SLICE_RESETS = 1
    ∧ (devAfter (.resetShadowEnd 4 63) (dv fun d => { d with flt := { d.flt with shadows := [(4, 63)] } })).flt.shadows = []
    ∧ (devAfter (.wardenStall false) State.reset).hk.wardenFailed = true ∧ (devAfter .collectorStall State.reset).flt.dead = true := by decide +kernel


/-! ### The Gazetteer -/

/-- Engine 0 serves; table 15 is enabled with 48-bit keys in entries of one slot, in one row. -/
def gzOn (d : Dev) : Dev :=
  ((((((d.put (HK_ENGINE.STATE 0) 0).put (GZ_TBL_CFG.EN 0 15) 1).put (GZ_TBL_CFG.EN 1 15) 1).put (GZ_TBL_CFG.KEY_WIDTH 0 15) 48).put
    (GZ_TBL_CFG.KEY_WIDTH 1 15) 48).put (GZ_TBL_PART.ROWS 0 15) 1).put (GZ_TBL_PART.ROWS 1 15) 1

/-- A value of table 15 in one slot, and both replicas holding it in bucket 5, slot 2. -/
def anEntry (static : Bool) (port key : Nat) : Nat := gzEntry 1 48 static 15 port key 0
def holding (e : Nat) (d : Dev) : Dev :=
  { d with gaz := { d.gaz with slots := [(22, BitVec.ofNat 128 e), (2 ^ 22 + 22, BitVec.ofNat 128 e)] } }

/-- A command word for table 15, and a command of port 1. -/
def gzWord (op : Nat) : Word := BitVec.ofNat 32 (op * 2 ^ 28 + 15 * 2 ^ 24)
def gzCmd (op : Nat) : GzCmd := { half := 1, word := gzWord op, image := BitVec.ofNat 512 (anEntry false 3 9), cursor := 0 }

/-- A write of one slot, and a step of engine 0's that waits. -/
def aWrite : GzWr := .ent false (2 ^ 22 - 1) 9 1 .fresh
def stepsOf (l : List GzStep) (d : Dev) : Dev := d.setGe 0 fun x => { x with steps := l }

/-- A version record of half 1 that fills its log. -/
def fullLog (held : Nat) (d : Dev) : Dev :=
  { d with gaz := { d.gaz with log := [⟨1, false, 22, 0, 7, held, 65536⟩] } }

theorem wit_GazetteerPort : gcOp (gzWord 6) = 6 ∧ gcTable (gzWord 6) = 15
    ∧ srcSecure .pf0 = false ∧ bit ((State.reset.dev.setWord WLD_GZ_TABLE.word.addr 0x8000).word WLD_GZ_TABLE.word.addr).toNat 15 = true
    ∧ bit (State.reset.dev.word WLD_GZ_TABLE.word.addr).toNat 15 = false
    ∧ (State.reset.dev.put (GZ_CMD_STAT.BUSY 1) 1).flag (GZ_CMD_STAT.BUSY 1) = true ∧ State.reset.dev.flag (GZ_CMD_STAT.BUSY 1) = false
    ∧ State.reset.dev.flag (GZ_TBL_CFG.EN 1 15) = false ∧ (gzOn State.reset.dev).flag (GZ_TBL_CFG.EN 1 15) = true
    ∧ State.reset.dev.serves (ownerOf State.reset.dev 15) = false ∧ (gzOn State.reset.dev).serves (ownerOf (gzOn State.reset.dev) 15) = true
    ∧ (State.reset.dev.put (GZ_TBL_STATE.STATE 1 15) 1).get (GZ_TBL_STATE.STATE 1 15) = 1
    ∧ (gzOn State.reset.dev).get (GZ_TBL_STATE.STATE 1 15) ≠ 1 ∧ gcReplace (gzWord 1) = false
    ∧ State.reset.dev.gcmd 2 = none ∧ readsOnly (gzCmd 3) = true ∧ readsOnly (gzCmd 1) = false
    ∧ State.reset.grid.epoch < ({ State.reset.dev.gaz with portTarget := [(1, 2)] } : Gaz).portTarget.get 0 1
    ∧ (gzPlanCmd (planBefore (gzOn State.reset.dev) 0 0) (gzCmd 2) []).1.wait = none
    ∧ (gzPlanCmd (planBefore (gzOn State.reset.dev) 0 0) (gzCmd 1) []).1.wait = some (0, 1)
    ∧ (State.reset.dev.setGcmd 1 (some { gzCmd 1 with planned := true, loc := some (false, 5, 3), target := some 9 })).gcmd 1
      = some { gzCmd 1 with planned := true, loc := some (false, 5, 3), target := some 9 } := by decide +kernel

theorem wit_GazetteerPort_find :
    ((gzPlan (holding (anEntry false 3 9) (gzOn State.reset.dev))).find (gzTbl (gzOn State.reset.dev) 1 15) 15
        (gzKey 1 48 ((gzCmd 1).image.toNat % 2 ^ 128))).map (fun x => x.1) = [(false, 5, 2)]
    ∧ ((gzPlan (gzOn State.reset.dev)).find (gzTbl (gzOn State.reset.dev) 1 15) 15
        (gzKey 1 48 ((gzCmd 1).image.toNat % 2 ^ 128))).length = 0 := by decide +kernel

theorem test_gz_port : ((devAfter (.insert .pf0 1 (gzWord 1)) (dv gzOn)).gcmd 1).map (fun c => c.planned) = some true
    ∧ ((devAfter (.delete .pf0 1 (gzWord 2)) (dv gzOn)).gcmd 1).map (fun c => c.result) = some 2
    ∧ (devAfter (.search .pf0 1 (gzWord 3)) (dv gzOn)).get (GZ_CMD_STAT.BUSY 1) = 1
    ∧ (devAfter (.gzCmdDone 1 []) (dv fun d => d.setGcmd 1 (some { gzCmd 1 with
        planned := true, result := 3, loc := some (false, 5, 2) }))).get (GZ_CMD_STAT.RESULT 1) = 3 := by decide +kernel

theorem wit_GazetteerBatches : (State.reset.dev.ge 1).steps = [] ∧ ((stepsOf [⟨[aWrite], false⟩] State.reset.dev).ge 0).steps ≠ []
    ∧ (stepsOf [⟨[aWrite], false⟩] (gzOn State.reset.dev)).serves 0 = true
    ∧ ((stepsOf [⟨[aWrite], false⟩] State.reset.dev).ge 0).lastArm ≠ some State.reset.grid.epoch
    ∧ batchFits (stepsOf [⟨[aWrite], false⟩] State.reset.dev) 0 = true
    ∧ ((stepsOf [⟨[aWrite], false⟩] (State.reset.dev.setGcmd 2 (some { gzCmd 2 with wait := some (0, 1) }))).gcmd 2).map (fun c => c.wait)
      = some (some (0, 1))
    ∧ oldestEpoch State.reset.dev = none ∧ oldestEpoch (State.reset.dev.slice 31 fun x => { x with toAdmit := [copy7 0] }) = some 0
    ∧ State.reset.dev.gaz.log = [] ∧ (fullLog 4 State.reset.dev).gaz.log.find? (fun r => decide (r.half = 1)) = some ⟨1, false, 22, 0, 7, 4, 65536⟩
    ∧ 65536 ≤ logHeld (fullLog 4 State.reset.dev) 1 ∧ (State.reset.dev.put (GZ_UPD_CFG.PIN_LIMIT 1) 4).get (GZ_UPD_CFG.PIN_LIMIT 1) = 4
    ∧ (State.reset.dev.put (HK_ENGINE.STATE 1) 0).serves 1 = true
    ∧ State.reset.dev.gaz.badBuckets.contains (1, 2 ^ 20 - 1) = false
    ∧ ({ State.reset.dev.gaz with badBuckets := [(1, 2 ^ 20 - 1)] } : Gaz).badBuckets.contains (1, 2 ^ 20 - 1) = true
    ∧ ({ State.reset.dev.gaz with badBuckets := [(1, 2 ^ 20 - 1)] } : Gaz).badBuckets.contains (0, 2 ^ 20 - 1) = false
    ∧ ({ State.reset.dev.gaz with badBuckets := [(1, 5), (0, 5)] } : Gaz).badBuckets.contains (0, 5) = true := by decide +kernel

theorem test_batches : (((devAfter (.gzBatchArm 0) (dv fun d => stepsOf [⟨[aWrite], false⟩] (gzOn d))).ge 0).batches)
      = [(State.reset.grid.epoch + 2, [aWrite])]
    ∧ (applyWrite 7 1 State.reset.dev aWrite).gaz.slots.get 0 (2 ^ 23 - 1) = 9
    ∧ (devAfter .versionRecordRetire (dv (fullLog 4))).gaz.log = []
    ∧ (devAfter (.bucketRestoreDone 0 false 5 false) (dv fun d => { d with gaz := { d.gaz with
        badBuckets := [(0, 5)], slots := [(2 ^ 22 + 22, 9)] } })).gaz.slots.get 0 22 = 9
    ∧ (applyWrite 7 1 { State.reset.dev with gaz := { State.reset.dev.gaz with badBuckets := [(1, 5), (0, 5)] } } (.heal false 5)).gaz.badBuckets
      = [(0, 5)] := by decide +kernel

theorem wit_GazetteerMigration : State.reset.dev.get (GZ_TBL_STATE.STATE 0 15) = 0
    ∧ (State.reset.dev.put (GZ_TBL_STATE.STATE 1 15) 2).get (GZ_TBL_STATE.STATE 1 15) ≠ 0
    ∧ bits (State.reset.dev.word (GZ_REHASH_PART.word 1).addr).toNat 9 0
        + bits (State.reset.dev.word (GZ_REHASH_PART.word 1).addr).toNat 25 16 ≤ 640
    ∧ 640 < bits ((State.reset.dev.setWord (GZ_REHASH_PART.word 1).addr 641).word (GZ_REHASH_PART.word 1).addr).toNat 9 0
        + bits ((State.reset.dev.setWord (GZ_REHASH_PART.word 1).addr 641).word (GZ_REHASH_PART.word 1).addr).toNat 25 16
    ∧ (State.reset.dev.put (GZ_TBL_STATE.STATE 0 15) 1).get (GZ_TBL_STATE.STATE 0 15) = 1 ∧ State.reset.dev.gaz.moved.contains 15 = false
    ∧ (gzOn (State.reset.dev.put (GZ_TBL_STATE.STATE 0 15) 1)).serves (ownerOf State.reset.dev 15) = true
    ∧ (State.reset.dev.put (GZ_TBL_STATE.STATE 0 15) 2).get (GZ_TBL_STATE.STATE 0 15) = 2 ∧ State.reset.dev.gaz.slots = []
    ∧ owed (State.reset.dev.ge (ownerOf State.reset.dev 15)) = []
    ∧ (State.reset.dev.put (GZ_TBL_STATE.STATE 0 15) 3).get (GZ_TBL_STATE.STATE 0 15) = 3
    ∧ entriesIn (gzPlan State.reset.dev) (gzTbl State.reset.dev 0 15) 15 true 7 = []
    ∧ State.reset.dev.gaz.oldPart.get (0, 0) 15 = (0, 0) ∧ partsInUse State.reset.dev = [] := by decide

theorem wit_GazetteerMigration_free : (∀ u : Fin 16, (gzTbl State.reset.dev 0 u).en = false
    ∧ (tblSoon State.reset.dev u (tblEff State.reset.dev u 0)).en = false ∧ State.reset.dev.get (GZ_TBL_STATE.STATE 0 u) = 0) := by
  decide

/-- Overflow entry 7 of both halves holds it. -/
def overflowed (d : Dev) : Dev :=
  { d with gaz := { d.gaz with
    ovf := [(7, BitVec.ofNat 512 (anEntry false 3 9)), (2 ^ 14 + 7, BitVec.ofNat 512 (anEntry false 3 9))] } }

theorem wit_GazetteerMigration_back :
    (entriesIn (gzPlan (overflowed (gzOn State.reset.dev))) (gzTbl (gzOn State.reset.dev) 0 15) 15 true 7).length = 1
    ∧ ((gzPlan (overflowed (gzOn State.reset.dev))).freeRuns 1 (gzBucket 0 0 1 48 9 0)).head? = some 0 := by decide +kernel

theorem test_migration : (devAfter (.rehashStart 1 (gzWord 0)) State.reset).get (GZ_TBL_STATE.STATE 0 15) = 1
    ∧ (devAfter (.rehashSwitch 15 []) (dv fun d => gzOn (d.put (GZ_TBL_STATE.STATE 0 15) 1))).gaz.moved = [15]
    ∧ (devAfter (.rehashDone 15) (dv fun d => { d.put (GZ_TBL_STATE.STATE 0 15) 2 with gaz := { d.gaz with moved := [15] } })).gaz.moved = []
    := by decide +kernel

/-- A learn event of slice 31 for table 15. -/
def aLearn : Learn := ⟨15, 9, 3, 0, 31⟩
def learning (d : Dev) : Dev := (gzOn d).slice 31 fun x => { x with learn := [aLearn] }

/-- A settle window of table 15. -/
def aWindow (left : Nat) (d : Dev) : Dev := { gzOn d with gaz := { (gzOn d).gaz with windows := [⟨15, 9, 3, left⟩] } }

/-- An age step of table 0 is due. -/
def ageOn (d : Dev) : Dev :=
  { (d.put (HK_ENGINE.STATE 0) 0).put (GZ_TBL_CFG.EN 0 0) 1 with gaz := { d.gaz with ageDue := [(0, 1)] } }

theorem wit_LearningAndAging : (State.reset.dev.sl 31).learn = [] ∧ ((learning State.reset.dev).sl 31).learn = [aLearn]
    ∧ ((learning State.reset.dev).ge (ownerOf (learning State.reset.dev) 15)).learn = [] ∧ (learning State.reset.dev).serves (ownerOf (learning State.reset.dev) 15) = true
    ∧ (learning State.reset.dev).get (GZ_TBL_STATE.STATE 0 15) ≠ 1 ∧ (learning State.reset.dev).gaz.holds = []
    ∧ (learning State.reset.dev).gaz.windows = []
    ∧ (gzPlan (learning State.reset.dev)).find (gzTbl (learning State.reset.dev) 0 15) 15 9 = []
    ∧ (aWindow 0 State.reset.dev).gaz.windows = [⟨15, 9, 3, 0⟩] ∧ (aWindow 1 State.reset.dev).gaz.windows = [⟨15, 9, 3, 1⟩]
    ∧ (aWindow 0 State.reset.dev).serves (ownerOf (aWindow 0 State.reset.dev) 15) = true
    ∧ (aWindow 0 (State.reset.dev.put (GZ_TBL_STATE.STATE 0 15) 1)).get (GZ_TBL_STATE.STATE 0 15) = 1
    ∧ (gzTbl (aWindow 0 State.reset.dev) 0 15).en = true
    ∧ State.reset.dev.get (GZ_TBL_AGE.AGE_FRAMES 0 15) = 0
    ∧ (State.reset.dev.put (GZ_TBL_AGE.AGE_FRAMES 0 15) 2).get (GZ_TBL_AGE.AGE_FRAMES 0 15) = 2
    ∧ State.reset.dev.gaz.ageCnt.get 0 15 = 0 ∧ ({ State.reset.dev.gaz with ageCnt := [(15, 2)] } : Gaz).ageCnt.get 0 15 = 2
    ∧ State.reset.dev.gaz.ageDue.get 0 15 = 0 ∧ (ageOn State.reset.dev).gaz.ageDue.get 0 0 ≠ 0
    ∧ (ageOn State.reset.dev).get (GZ_TBL_STATE.STATE 0 0) = 0 ∧ (ageOn State.reset.dev).flag (GZ_TBL_CFG.EN 0 0) = true
    ∧ (ageOn State.reset.dev).serves (ownerOf (ageOn State.reset.dev) 0) = true := by decide +kernel

theorem wit_LearningAndAging_full :
    ((State.reset.dev.setGe 0 fun x => { x with learn := List.replicate 4096 aLearn }).ge 0).learn.length = 4096 := by decide +kernel

theorem wit_LearningAndAging_window :
    ((gzPlan (holding (anEntry false 3 9) (gzOn State.reset.dev))).find (gzTbl (gzOn State.reset.dev) 0 15) 15 9).map (fun x => x.2) = [anEntry false 3 9]
    ∧ hdrStatic (gzHeader 1 (anEntry true 3 9)) = true ∧ hdrStatic (gzHeader 1 (anEntry false 3 9)) = false
    ∧ hdrPort (gzHeader 1 (anEntry false 3 9)) = 3 ∧ hdrPort (gzHeader 1 (anEntry false 1023 9)) = 1023 := by decide +kernel

theorem test_learning : ((devAfter (.learnEventArrive 31 []) (dv learning)).gaz.windows.map fun w => w.cand) = [3]
    ∧ (devAfter (.settleWindowClose []) (dv (aWindow 0))).gaz.windows = []
    ∧ (devAfter .flapHoldEnd (dv fun d => { d with gaz := { d.gaz with holds := [(15, 9, 0), (15, 8, 1)] } })).gaz.holds = [(15, 8, 1)]
    ∧ (devAfter (.ageStepDue 15) (dv fun d => { d.put (GZ_TBL_AGE.AGE_FRAMES 0 15) 2 with gaz := { d.gaz with ageCnt := [(15, 2)] } })).gaz.ageDue.get 0 15 = 1
    ∧ (devAfter (.ageStep 0 []) (dv ageOn)).gaz.ageDue.get 0 0 = 0 := by decide +kernel


/-! ### ASE, buffer pools, telemetry, performance monitors -/

/-- Slice 31's bank 1 is enabled; a command for its row 64. -/
def aseOn (d : Dev) : Dev := d.put (ASE_BANK_CFG.EN 31 1) 1
def aseCmd (row : Nat) : Word := BitVec.ofNat 32 (2048 + row)

/-- A valid entry staged that the bank's pre-filter refuses. -/
def filtered (d : Dev) : Dev :=
  (((aseOn d).put (ASE_BANK_CFG.PF_EN 31 1) 1).put (ASE_PF.MASK 31 1 1) 128).wput (wkey (mbxAse 31) 8) (2 ^ 48)

/-- An update waits for its turn. -/
def updating (d : Dev) : Dev := d.slice 31 fun x => { x with aseUpd := some (15, 2047, { valid := true, pri := 7 }) }

theorem wit_AseUpdates : (State.reset.dev.put (ASE_UPD_STAT.BUSY 31) 1).flag (ASE_UPD_STAT.BUSY 31) = true
    ∧ State.reset.dev.flag (ASE_UPD_STAT.BUSY 31) = false ∧ bits (aseCmd 64).toNat 14 11 = 1 ∧ bits (aseCmd 64).toNat 10 0 = 64
    ∧ 1 < aseBanks State.reset.dev ∧ aseBanks State.reset.dev ≤ bits (0x7800 : Word).toNat 14 11 + 1
    ∧ State.reset.dev.flag (ASE_BANK_CFG.EN 31 1) = false
    ∧ (aseOn State.reset.dev).flag (ASE_BANK_CFG.EN 31 1) = true ∧ (aseOn State.reset.dev).flag (ASE_BANK_CFG.MIRROR 31 1) = false
    ∧ ((aseOn State.reset.dev).put (ASE_BANK_CFG.MIRROR 31 1) 1).flag (ASE_BANK_CFG.MIRROR 31 1) = true
    ∧ 65 % aseWidth ((aseOn State.reset.dev).put (ASE_BANK_CFG.WIDTH 31 1) 1) 31 1 ≠ 0
    ∧ (aseStaged (filtered State.reset.dev) 31 (aseWidth (filtered State.reset.dev) 31 1)).valid = true
    ∧ breaksFilter (filtered State.reset.dev) 31 1 64 (aseStaged (filtered State.reset.dev) 31 1) = true
    ∧ (aseStaged State.reset.dev 31 1).valid = false ∧ ((updating State.reset.dev).sl 31).aseUpd.isSome = true
    ∧ State.reset.dev.sliceUp 31 = true ∧ (State.reset.dev.sl 31).aseUpd = none
    ∧ State.reset.dev.ticks / 32 ≤ (State.reset.dev.sl 31).scrubDone ∧ (State.reset.dev.sl 31).scrubDone < 63 / 32
    ∧ aseMirrored (aseOn State.reset.dev) 31 1 = false := by decide +kernel

theorem test_ase : (devAfter (.aseUpdate 31 (aseCmd 64)) State.reset).get (ASE_UPD_STAT.RESULT 31) = 1
    ∧ (devAfter (.aseUpdate 31 (aseCmd 65)) (dv fun d => (aseOn d).put (ASE_BANK_CFG.WIDTH 31 1) 1)).get (ASE_UPD_STAT.RESULT 31) = 2
    ∧ (devAfter (.aseUpdate 31 (aseCmd 64)) (dv filtered)).get (ASE_UPD_STAT.RESULT 31) = 3
    ∧ (devAfter (.aseUpdate 31 (aseCmd 64)) (dv aseOn)).get (ASE_UPD_STAT.BUSY 31) = 1
    ∧ ((devAfter (.aseUpdateCommit 31) (dv updating)).ase.get {} (aseKey 31 15 2047)).pri = 7
    ∧ (devAfter (.aseScrubRow 31 [] []) (dv fun d => { d with ticks := 32, aseFlips := [(aseKey 31 1 0, (1, 0))] })).aseFlips = []
    ∧ (devAfter (.aseScrubRow 31 [1] []) (dv fun d => { aseOn d with ticks := 32 })).get (ASE_CNT_SCRUB_FIX 31) = 1 := by decide +kernel

/-- Pool 7 has 16 buffers; buffer 5 is held by requester 8. -/
def poolSeven (d : Dev) : Dev :=
  ((((d.put (BPM_POOL_CFG.EN 7) 1).put (BPM_POOL_CFG.COUNT 7) 16).put (BPM_POOL_CFG.SIZE_CODE 7) 6).put (BPM_POOL_CFG.LOCATION 7) 2).put
    (BPM_POOL_FREE.FREE 7) 16
def held5 (d : Dev) : Dev := (poolSeven d).setTag 7 5 0x88

theorem wit_BufferPools : srcSecure .pf0 = false ∧ bit (0x1E0040 : Word).toNat 20 = true ∧ bits (0x1E0040 : Word).toNat 19 17 = 7
    ∧ poolSecure (State.reset.dev.setWord WLD_BPM_POOL.word.addr 0x80) 7 = true ∧ poolSecure State.reset.dev 7 = false
    ∧ (bpmAlloc (((poolSeven State.reset.dev).put (BPM_QUOTA.LIMIT 8 7) 16)) 8 64 false (some 7)).1.result = 0
    ∧ State.reset.dev.flag BPM_ALLOC_STAT.BUSY = false ∧ (State.reset.dev.put BPM_ALLOC_STAT.BUSY 1).flag BPM_ALLOC_STAT.BUSY = true
    ∧ (devAfter (.bpmFree .pf0 {}) (dv fun d => d.put BPM_FREE_STAT.BUSY 1)).get BPM_STATUS.CMD_LOST = 1
    ∧ (bpmAlloc State.reset.dev 8 64 false none).1.result ≠ 0
    ∧ poolAt (poolSeven State.reset.dev) (2 * 2 ^ 38 + poolSize (poolSeven State.reset.dev) 7) = some 7 ∧ poolAt State.reset.dev 0 = none
    ∧ (bpmFree State.reset.dev 8 0).1 = 1 ∧ (bpmFree (poolSeven State.reset.dev) 8 (2 * 2 ^ 38 + 1)).1 = 2
    ∧ (bpmFree (poolSeven State.reset.dev) 8 (2 * 2 ^ 38)).1 = 3 ∧ (bpmFree (held5 State.reset.dev) 7 (bpmPtr (held5 State.reset.dev) 7 5)).1 = 4
    ∧ (bpmFree (held5 State.reset.dev) 8 (bpmPtr (held5 State.reset.dev) 7 5)).1 = 0
    ∧ (poolSeven State.reset.dev).flag (BPM_POOL_CFG.EN 7) = true ∧ 15 < (poolSeven State.reset.dev).get (BPM_POOL_CFG.COUNT 7)
    ∧ bpmTag (poolSeven State.reset.dev) 7 15 ≠ 0x8F ∧ bpmTag (held5 State.reset.dev) 7 5 ≠ 0x8F
    ∧ State.reset.dev.bpm.tags.wf (fun _ => 0x0E) = true ∧ (held5 State.reset.dev).bpm.tags.wf (fun _ => 0x0E) = true := by decide +kernel

theorem test_pools : bpmTag (bpmFree (held5 State.reset.dev) 8 (bpmPtr (held5 State.reset.dev) 7 5)).2 7 5 = 8
    ∧ bpmTag (devAfter (.bpmReclaim 0x87 {}) (dv held5)) 7 5 = 8 ∧ bpmTag (devAfter (.bpmReclaim 0x77 {}) (dv held5)) 7 5 = 0x88
    ∧ (devAfter (.bpmFree .pf0 {}) State.reset).get BPM_FREE_STAT.RESULT = 1
    ∧ bpmTag (tagErrors (held5 State.reset.dev) ⟨1, [(7, 5)]⟩) 7 5 = 0x8F
    ∧ (tagErrors (poolSeven State.reset.dev) ⟨1, [(7, 15)]⟩).get (BPM_POOL_FREE.FREE 7) = 15 := by decide +kernel

/-- A flow of half 1. -/
def aFlow : Flow := ⟨9, 0, false, 0, none, 5, 6, 100, 200, 0, 64, 1, 0, 0, 0⟩
def withFlow (d : Dev) : Dev := { d with tel := { d.tel with flows := [(2 ^ 19 - 1, some aFlow)] } }
def limits (i a : Nat) (d : Dev) : Dev := (d.put (TEL_FLOW_CFG.IDLE_FRAMES 1) i).put (TEL_FLOW_CFG.ACTIVE_FRAMES 1) a

theorem wit_FlowExpiry : flowAt State.reset.dev 1 (2 ^ 18 - 1) = none ∧ flowAt (withFlow State.reset.dev) 1 (2 ^ 18 - 1) = some aFlow
    ∧ State.reset.dev.get (TEL_FLOW_CFG.IDLE_FRAMES 0) = State.reset.dev.get (TEL_FLOW_CFG.IDLE_FRAMES 1)
    ∧ (limits 5 6 State.reset.dev).get (TEL_FLOW_CFG.IDLE_FRAMES 1) = 5 ∧ (limits 5 6 State.reset.dev).get (TEL_FLOW_CFG.ACTIVE_FRAMES 1) = 6
    ∧ (limits 6 7 State.reset.dev).get (TEL_FLOW_CFG.IDLE_FRAMES 1) = 6 ∧ (limits 6 7 State.reset.dev).get (TEL_FLOW_CFG.ACTIVE_FRAMES 1) = 7
    ∧ (withFlow State.reset.dev).tel.flows.wf (fun _ => none) = true := by decide +kernel

theorem test_flows : flowAt (devAfter (.flowIdleExpire 1 (2 ^ 18 - 1) false) (dv fun d => limits 5 6 (withFlow d))) 1 (2 ^ 18 - 1) = none
    ∧ (flowAt (devAfter (.flowActiveExpire 1 (2 ^ 18 - 1) false) (dv fun d => limits 5 6 (withFlow d))) 1 (2 ^ 18 - 1)).map (fun f => f.firstTs) = some 200
    ∧ flowAt (devAfter (.flowActiveExpire 1 (2 ^ 18 - 1) true) (dv withFlow)) 1 (2 ^ 18 - 1) = none
    ∧ (devAfter (.flowFlush 1 []) (dv withFlow)).tel.flows = [] ∧ (devAfter (.flowFlush 0 []) (dv withFlow)).tel.flows.length = 1 := by decide +kernel

/-- Export ring 15 runs; its record. -/
def ring15 (x : Ring) (d : Dev) : Dev := { d.put (TEL_RING_CFG.EN 15) 1 with tel := { d.tel with rings := [(15, x)] } }

theorem wit_ExportMessages : State.reset.dev.flag (TEL_RING_CFG.EN 15) = false ∧ (State.reset.dev.ri 15).templateDue = false
    ∧ ((ring15 { templateDue := true } State.reset.dev).ri 15).templateDue = true
    ∧ (ring15 {} State.reset.dev).flag (TEL_RING_CFG.EN 15) = true ∧ (State.reset.dev.ri 15).staged = []
    ∧ ((ring15 { staged := [(0, [1], 0)] } State.reset.dev).ri 15).staged ≠ [] ∧ (State.reset.dev.ri 15).msgs = []
    ∧ (State.reset.dev.put (TEL_RING_CFG.KIND 15) 1).get (TEL_RING_CFG.KIND 15) = 1
    ∧ 2 ≤ (State.reset.dev.put (TEL_RING_CFG.KIND 15) 2).get (TEL_RING_CFG.KIND 15) ∧ hostUp (State.reset.dev.put HIF_LINK.SPEED 0) = false
    ∧ ((ring15 { msgs := [.templates] } State.reset.dev).ri 15).msgs = [.templates]
    ∧ (State.reset.dev.setWord (TEL_RING_RATE.word 15).addr 1).word (TEL_RING_RATE.word 15).addr = 1
    ∧ 1 < (ringBytes State.reset.dev 15 0 .templates).length
    ∧ (State.reset.dev.word (TEL_RING_RATE.word 15).addr).toNat = 0 ∧ State.reset.dev.get (TEL_RING_CFG.KIND 15) = 0
    ∧ (State.reset.dev.put (TEL_RING_SIZE.LOG2_SIZE 15) 0).get (TEL_RING_SIZE.LOG2_SIZE 15) = 0
    ∧ State.reset.dev.word (TEL_RING_PROD.word 15).addr = 0 ∧ State.reset.dev.word (TEL_RING_CONS.word 15).addr = 0
    ∧ (State.reset.dev.put ID_CAP.ARCHIVE_PRESENT 0).flag ID_CAP.ARCHIVE_PRESENT = false
    ∧ (State.reset.dev.put ID_CAP.ARCHIVE_PRESENT 1).flag ID_CAP.ARCHIVE_PRESENT = true
    ∧ ringOfKind State.reset.dev 15 2 = false ∧ ringOfKind State.reset.dev 15 1 = false
    ∧ ringOfKind ((State.reset.dev.put (TEL_RING_CFG.EN 14) 1).put (TEL_RING_CFG.KIND 14) 2) 14 2 = true
    ∧ ringOfKind (ring15 {} (State.reset.dev.put (TEL_RING_CFG.KIND 15) 1)) 15 1 = true
    ∧ copying State.reset.dev = false ∧ copying (ring15 { msgs := [.page []] } State.reset.dev) = true
    ∧ State.reset.dev.tel.archBusy = false ∧ ({ State.reset.dev.tel with archBusy := true } : TelHid).archBusy = true := by decide +kernel

theorem wit_ExportMessages_long : 2 ^ max 16 (min 30 ((State.reset.dev.put (TEL_RING_SIZE.LOG2_SIZE 15) 0).get (TEL_RING_SIZE.LOG2_SIZE 15)))
    ≤ (List.replicate 65536 (1 : Byte)).length := by rw [List.length_replicate]; decide +kernel

theorem test_export : ((devAfter (.templateSend 15) (dv (ring15 { templateDue := true }))).ri 15).msgs = [.templates]
    ∧ ((devAfter (.messageFlushTimeout 15) (dv (ring15 { staged := [(0, [1], 0)] }))).ri 15).msgs.length = 1
    ∧ (devAfter (.exportMessageSend 15 0) (dv (ring15 { msgs := [.templates] }))).get (TEL_RING_SENT.SENT 15) = 1
    ∧ ((devAfter (.exportMessageSend 15 0) (dv fun d => ring15 { msgs := [.templates] } (d.setWord (TEL_RING_RATE.word 15).addr 1))).ri 15).part = 1
    ∧ (devAfter .archDone (dv fun d => { d with tel := { d.tel with archBusy := true } })).get TEL_STATUS.ARCH_DONE = 1
    ∧ (devAfter (.archiveCopy 0) (dv fun d => d.put ID_CAP.ARCHIVE_PRESENT 0)).get TEL_STATUS.CFG_REJECT = 1 := by decide +kernel

/-- A sweep is under way; a capture waits; the bank a sweep copies was due again two snapshots ago. -/
def overdueDev (d : Dev) : Dev := { d with pmu := { d.pmu with sweeping := some {}, shown := { d.pmu.shown with seq := 2 } } }
def sweepingDev (d : Dev) : Dev := { d with pmu := { d.pmu with sweeping := some {} } }
def taken (d : Dev) : Dev := { d with pmu := { d.pmu with taken := some {} } }

theorem wit_PerformanceMonitors : State.reset.dev.pmu.taken = none ∧ (taken State.reset.dev).pmu.taken = some {}
    ∧ State.reset.dev.pmu.sweeping = none ∧ (sweepingDev State.reset.dev).pmu.sweeping = some {}
    ∧ (State.reset.dev.sl 31).smpDue = [] ∧ ((State.reset.dev.slice 31 fun x => { x with smpDue := [9] }).sl 31).smpDue = [9]
    ∧ (State.reset.dev.sl 31).samples.length < 1024 ∧ State.reset.dev.flag (PMU_TS_CFG.EN 1) = false
    ∧ (State.reset.dev.put (PMU_TS_CFG.EN 1) 1).flag (PMU_TS_CFG.EN 1) = true ∧ (State.reset.dev.put (HK_ENGINE.STATE 1) 0).get (HK_ENGINE.STATE 1) = 0
    ∧ State.reset.dev.get (HK_ENGINE.STATE 1) ≠ 0
    ∧ (State.reset.dev.pmu.tansy.get [] 1).length < 256
    ∧ ((State.reset.dev.slice 31 fun x => { x with samples := List.replicate 1024 9 }).sl 31).samples.length = 1024
    ∧ (({ State.reset.dev.pmu with tansy := [(1, List.replicate 256 9)] } : PmuHid).tansy.get [] 1).length = 256 := by decide +kernel

theorem test_monitors : (devAfter (.snapshotComplete 201) (dv taken)).get PMU_DEV_STATUS.SNAP_LATE = 1
    ∧ (devAfter (.snapshotComplete 200) (dv taken)).get PMU_DEV_STATUS.SNAP_LATE = 0
    ∧ (devAfter .sweepDone (dv fun d => sweepingDev (d.put HIF_LINK.SPEED 5))).get PMU_CNT_SWEEPS = 1
    ∧ hostUp (sweepingDev (State.reset.dev.put HIF_LINK.SPEED 5)) = true ∧ hostUp (sweepingDev State.reset.dev) = false ∧ (devAfter .sweepOverrun (dv overdueDev)).get PMU_CNT_SWEEP_OVERRUN = 1
    ∧ sweepOverdue (sweepingDev State.reset.dev) = false
    ∧ sweepOverdue { State.reset.dev with pmu := { (overdueDev State.reset.dev).pmu with shown := { State.reset.dev.pmu.shown with seq := 1 } } } = false
    ∧ (devAfter .stop State.reset).pmu.sync = 2 ∧ (devAfter .clear State.reset).pmu.sync = 4
    ∧ (devAfter (.clearCycle 34) (dv fun d => d.ctrAdd (pmuCtr 34 8) 5)).ctrGet (pmuCtr 34 8) = 0
    ∧ (devAfter (.pmuCmdClear 34) (dv fun d => d.ctrAdd (pmuCtr 34 7) 5)).ctrGet (pmuCtr 34 7) = 0
    ∧ ((devAfter (.sliceSample 31) (dv fun d => d.slice 31 fun x => { x with smpDue := [9] })).sl 31).samples = [9]
    ∧ ((devAfter (.tansySample 1 3 4 0 false false false) (dv fun d => (d.put (PMU_TS_CFG.EN 1) 1).put (HK_ENGINE.STATE 1) 0)).pmu.tansy.get [] 1).length = 1 := by
  decide +kernel


/-! ### Tansy, the host rings, Contour -/

/-- Both engines run. -/
def bothRun (d : Dev) : Dev := (d.put (HK_ENGINE.STATE 0) 0).put (HK_ENGINE.STATE 1) 0

/-- Engine 1 in its restart routine. -/
def restarting (d : Dev) : Dev := ((d.put (HK_ENGINE.STATE 0) 0).put (HK_ENGINE.STATE 1) 3).setTansy 1 fun x => { x with routine := true }

theorem wit_EngineLife : (bothRun State.reset.dev).tstate 1 = tsRunning ∧ (bothRun State.reset.dev).tstate 0 = tsRunning
    ∧ (restarting State.reset.dev).tstate 1 = tsRestarting ∧ ((restarting State.reset.dev).tansy 1).routine = true
    ∧ (State.reset.dev.tansy 1).routine = false ∧ (State.reset.dev.put (HK_ENGINE.STATE 1) 1).tstate 1 = tsStopped
    ∧ max 1 (State.reset.dev.get HK_CTL.RESTART_MAX) ≤ (State.reset.dev.put (HK_ENGINE.RESTARTS 1) 15).get (HK_ENGINE.RESTARTS 1)
    ∧ State.reset.dev.get (HK_ENGINE.RESTARTS 1) < max 1 (State.reset.dev.get HK_CTL.RESTART_MAX)
    ∧ (State.reset.dev.put HK_CTL.AUTO_RESTART 1).flag HK_CTL.AUTO_RESTART = true ∧ (State.reset.dev.put HK_CTL.AUTO_RESTART 0).flag HK_CTL.AUTO_RESTART = false
    ∧ State.reset.dev.hk.wardenFailed = false ∧ (State.reset.dev.tansy 0).missRun < hbLimit State.reset.dev
    ∧ hbLimit State.reset.dev + 2 ≤ ((State.reset.dev.setTansy 0 fun x => { x with missRun := 10, stillRun := 10 }).tansy 0).stillRun
    ∧ hbLimit State.reset.dev ≤ ((State.reset.dev.setTansy 0 fun x => { x with missRun := 10, stillRun := 10 }).tansy 0).missRun
    ∧ (State.reset.dev.put (HK_ENGINE.STATE 1) 2).tstate 1 = tsLoading
    ∧ ((State.reset.dev.put (HK_MATCH.VALID 1 31) 1).put (HK_MATCH.PATCH_WORD 1 31) 2047).flag (HK_MATCH.VALID 1 31) = true
    ∧ ((State.reset.dev.put (HK_MATCH.VALID 1 31) 1).put (HK_MATCH.PATCH_WORD 1 31) 2047).get (HK_MATCH.PATCH_WORD 1 31) = 2047
    ∧ ((restarting State.reset.dev).tansy 1).redo = [] ∧ State.reset.dev.hk.applySwap = none
    ∧ (restarting State.reset.dev).tstate 0 ≠ tsDead
    ∧ (State.reset.dev.tansy 1).window ≠ some 0 ∧ ((State.reset.dev.setTansy 1 fun x => { x with window := some 0 }).tansy 1).window = some 0 := by
  decide +kernel

theorem test_engines : (devAfter (.engineFailure 1 5 7 false) (dv bothRun)).get (HK_FAULT.CODE 1) = 5
    ∧ (devAfter (.engineFailure 1 5 7 false) (dv fun d => (bothRun d).put HK_CTL.AUTO_RESTART 1)).tstate 1 = tsRestarting := by decide +kernel

theorem test_engine_dead : (devAfter (.engineFailure 1 5 7 false) (dv fun d => (bothRun d).put (HK_ENGINE.RESTARTS 1) 15)).tstate 1 = tsDead
    ∧ (devAfter (.engineFailure 1 5 7 false) (dv restarting)).tstate 1 = tsDead := by decide +kernel

theorem test_engine_life : ((devAfter (.patchReloadDone 1 []) (dv fun d => d.put (HK_ENGINE.STATE 1) 2)).tansy 1).routine = true
    ∧ (devAfter (.restartWindowClose 1) (dv fun d => (d.put (HK_ENGINE.RESTARTS 1) 2).setTansy 1 fun x => { x with window := some 0 })).get
      (HK_ENGINE.RESTARTS 1) = 0 := by decide +kernel

theorem test_engine_back : (engineRunning (restarting State.reset.dev) 1).tstate 1 = tsRunning := by decide +kernel

/-- A header for engine 1 is staged: version 9, no word, no match. -/
def stagedPatch (d : Dev) : Dev := d.wput stagedHeader (9 * 2 ^ 32 + 2 * 2 ^ 88)

/-- A routine whose entry is outside the microstore. -/
def badEntry : TRoutine := { entry := 0x8800 }

theorem wit_HkCommands : (State.reset.dev.put HK_CMD_STAT.BUSY 1).flag HK_CMD_STAT.BUSY = true ∧ State.reset.dev.flag HK_CMD_STAT.BUSY = false
    ∧ ({ State.reset.dev.hk with wardenFailed := true } : Hk).wardenFailed = true ∧ State.reset.dev.hk.wardenFailed = false
    ∧ (bothRun State.reset.dev).tstate 1 = tsRunning ∧ (State.reset.dev.put (HK_ENGINE.STATE 1) 1).tstate 1 = tsStopped
    ∧ (State.reset.dev.put (HK_ENGINE.STATE 1) 2).tstate 1 = tsLoading ∧ (State.reset.dev.put (HK_ENGINE.STATE 1) 3).tstate 1 = tsRestarting
    ∧ (State.reset.dev.put (HK_ENGINE.STATE 1) 4).tstate 1 = tsDead
    ∧ headerOk State.reset.dev = false ∧ headerOk (stagedPatch State.reset.dev) = true ∧ bit (headerEngines (stagedPatch State.reset.dev)) 1 = true
    ∧ bit (headerEngines (stagedPatch State.reset.dev)) 0 = false
    ∧ (State.reset.dev.put (HK_ENGINE.STATE 0) 1).tstate 0 ≠ tsRunning
    ∧ State.reset.dev.hk.signals.get 0 1 = 0 ∧ ({ State.reset.dev.hk with signals := [(1, 2)] } : Hk).signals.get 0 1 ≠ 0
    ∧ wordsLeft (bothRun State.reset.dev) 1 true 0 ≠ 0 ∧ lateWaits (bothRun State.reset.dev) 1 0 = false
    ∧ lateWaits { State.reset.dev with hk := { State.reset.dev.hk with late := (0, 5) } } 1 4 = true
    ∧ wordsLeft (bothRun State.reset.dev) 1 true (wordsLeft (bothRun State.reset.dev) 1 true 0) = 0
    ∧ (∀ p < 3, State.reset.dev.gcmd p = none) ∧ (∀ k < 2, (State.reset.dev.ge k).learn = [])
    ∧ badEntry.signal = false ∧ 0x8800 ≤ badEntry.entry.toNat := by decide +kernel

theorem test_hk : (devAfter (.hkStop 1) (dv bothRun)).tstate 1 = tsStopped
    ∧ (devAfter (.hkStart 1) (dv fun d => d.put (HK_ENGINE.STATE 1) 1)).tstate 1 = tsRunning
    ∧ (devAfter (.hkRestart 1) (dv bothRun)).tstate 1 = tsRestarting
    ∧ (devAfter (.hkStop 3) (dv bothRun)).get HK_CMD_STAT.RESULT = 3
    ∧ (devAfter (.patchSwap 1) (dv bothRun)).get HK_CMD_STAT.RESULT = 1
    ∧ (devAfter (.patchSwap 1) (dv fun d => stagedPatch (bothRun d))).get (HK_PATCH_VERSION.VERSION 1) = 9
    ∧ (devAfter (.tansyRoutine 1 badEntry) (dv bothRun)).get (HK_FAULT.CODE 1) = 9 := by decide +kernel

/-- The host ring is on and served; one entry is posted. -/
def hostRing (d : Dev) : Dev := ((bothRun d).put HK_RING_CFG.EN 1).put HK_CMD_PROD.PROD 1

/-- An entry with an OP. -/
def anEntryOf (op : Byte) : List Byte := op :: List.replicate 127 0

/-- Its command is under way. -/
def ringCmd (op : Nat) (word : Word) : RingCmd := { op := op, tag := 5, half := 1, word := word, cursor := 0, image := 0 }
def atRing (c : RingCmd) (d : Dev) : Dev := { hostRing d with hk := { (hostRing d).hk with cur := some c } }
def answered (op : Nat) : RingCmd := { ringCmd op 0 with started := true, answer := some (0, 0, 0, 0) }

/-- The response ring is full. -/
def rspFullDev (d : Dev) : Dev := d.put HK_RSP_PROD.PROD (rspSlots d - 1)

theorem wit_HostCommandRing : ringServed State.reset.dev = false ∧ ringServed (hostRing State.reset.dev) = true ∧ (hostRing State.reset.dev).hk.cur = none
    ∧ State.reset.dev.get HK_CMD_CONS.CONS % cmdSlots State.reset.dev = State.reset.dev.get HK_CMD_PROD.PROD % cmdSlots State.reset.dev
    ∧ (hostRing State.reset.dev).get HK_CMD_CONS.CONS % cmdSlots (hostRing State.reset.dev)
      ≠ (hostRing State.reset.dev).get HK_CMD_PROD.PROD % cmdSlots (hostRing State.reset.dev)
    ∧ rspFull (rspFullDev (hostRing State.reset.dev)) = true ∧ rspFull (hostRing State.reset.dev) = false
    ∧ leField (anEntryOf 4) 0 2 = 4 ∧ leField (anEntryOf 5) 0 2 = 5 ∧ leField (anEntryOf 4) 4 1 < 2 ∧ leField (anEntryOf 4) 5 3 = 0
    ∧ leField (anEntryOf 4) 80 48 = 0
    ∧ ringCur (atRing (ringCmd 1 0) State.reset.dev) 1 = some (ringCmd 1 0) ∧ ringCur (atRing (ringCmd 4 0) State.reset.dev) 4 = some (ringCmd 4 0)
    ∧ ringCur (atRing (ringCmd 2 0) State.reset.dev) 2 = some (ringCmd 2 0) ∧ ringCur (atRing (ringCmd 3 1) State.reset.dev) 3 = some (ringCmd 3 1)
    ∧ State.reset.dev.gaz.portTarget.get 0 2 ≤ State.reset.grid.epoch
    ∧ State.reset.grid.epoch < ({ State.reset.dev.gaz with portTarget := [(2, 9)] } : Gaz).portTarget.get 0 2 := by decide +kernel

theorem wit_HostCommandRing_answers : gcOp (gzWord 6) = 6 ∧ gcOp (gzWord 7) = 7
    ∧ (atRing (ringCmd 2 (gzWord 6)) (gzOn State.reset.dev)).flag (GZ_TBL_CFG.EN 1 15) = true
    ∧ (atRing (ringCmd 2 (gzWord 6)) State.reset.dev).flag (GZ_TBL_CFG.EN 1 15) = false
    ∧ bit (State.reset.dev.word WLD_GZ_TABLE.word.addr).toNat 15 = false
    ∧ bit ((State.reset.dev.setWord WLD_GZ_TABLE.word.addr 0x8000).word WLD_GZ_TABLE.word.addr).toNat 15 = true
    ∧ secureBlock State.reset.dev ⟨.hk, 0, 0, 0⟩ = false ∧ hkPf State.reset.dev = 0
    ∧ (hostRing State.reset.dev).serves (schEngine 1 0) = true ∧ (hostRing State.reset.dev).flag SCH_CMD_STAT.BUSY = false
    ∧ (atRing (answered 3) State.reset.dev).hk.cur = some (answered 3) ∧ belowFloor State.reset.dev = false
    ∧ belowFloor (((State.reset.dev.put SCH_PROM_FLOOR.ACTIVE 1).put SCH_PROM_FLOOR.POINT 2).put PWR_STATE.POINT 5) = true
    ∧ State.reset.dev.hk.events = [] ∧ ({ State.reset.dev.hk with events := [⟨1, 0, 0, 0⟩] } : Hk).events = [⟨1, 0, 0, 0⟩] := by decide +kernel

theorem test_host_ring : (devAfter (.commandFetch (anEntryOf 1)) (dv hostRing)).get HK_CNT_CMDS = 1
    ∧ ((devAfter (.commandFetch (anEntryOf 5)) (dv hostRing)).hk.cur.bind fun c => c.answer.map fun a => a.1) = some 0xFF
    ∧ ((devAfter .nop (dv (atRing (ringCmd 1 0)))).hk.cur.bind fun c => c.answer.map fun a => a.1) = some 0
    ∧ ((devAfter .fence (dv (atRing (ringCmd 4 0)))).hk.cur.bind fun c => c.answer.map fun a => a.1) = some 0
    ∧ ((devAfter .gz (dv (atRing (ringCmd 2 (gzWord 1))))).hk.cur.bind fun c => c.answer.map fun a => a.1) = some 6
    ∧ ((devAfter .gz (dv fun d => atRing (ringCmd 2 (gzWord 1)) (gzOn d))).gcmd 2).isSome = true
    ∧ ((devAfter .sch (dv (atRing (ringCmd 3 2)))).hk.cur.bind fun c => c.answer.map fun a => a.1) = some 6
    ∧ (devAfter .responseWrite (dv (atRing (answered 1)))).get HK_RSP_PROD.PROD = 1
    ∧ (devAfter .hostEventPost (dv fun d => { hostRing d with hk := { d.hk with events := [⟨1, 0, 0, 0⟩] } })).get HK_CNT_EVENTS = 1 := by
  decide +kernel

/-- The core is live and engine 0 serves. -/
def pwrOn (f : Pwr → Pwr) (d : Dev) : Dev := ((bothRun d).put BOOT_STATE.STATE 5).power f

theorem wit_PowerControl : pwrLive State.reset.dev = false ∧ pwrLive (pwrOn (fun p => p) State.reset.dev) = true
    ∧ (pwrOn (fun p => p) State.reset.dev).serves 0 = true ∧ State.reset.dev.pwr.stale = 0
    ∧ 4 ≤ (pwrOn (fun p => { p with stale := 4 }) State.reset.dev).pwr.stale ∧ State.reset.dev.pwr.staleRaised = false
    ∧ (State.reset.dev.put PWR_TEMP.TJ_MAX 0).get PWR_TEMP.TJ_MAX ≤ State.reset.dev.get PWR_THERM.T_THROTTLE
    ∧ State.reset.dev.get PWR_THERM.T_THROTTLE < (State.reset.dev.put PWR_TEMP.TJ_MAX 255).get PWR_TEMP.TJ_MAX
    ∧ State.reset.dev.pwr.stage = 0 ∧ ({ State.reset.dev.pwr with stage := 1 } : Pwr).stage ≠ 0
    ∧ avgPower State.reset.dev ≤ capMw State.reset.dev
    ∧ capMw State.reset.dev < avgPower (pwrOn (fun p => { p with frames := [2000000] }) State.reset.dev)
    ∧ tripTemp State.reset.dev < 255 ∧ 0 ≤ tripTemp State.reset.dev ∧ State.reset.dev.pwr.trip = false
    ∧ ({ State.reset.dev.pwr with trip := true } : Pwr).trip = true := by decide +kernel

theorem test_power : (devAfter .controlStep (dv fun d => pwrOn (fun p => { p with stale := 1 }) (d.put PWR_TEMP.TJ_MAX 100))).pwr.stale = 0
    ∧ (devAfter .stepStale (dv (pwrOn fun p => { p with stale := 4 }))).get PWR_STATUS.STEP_STALE = 1
    ∧ (devAfter (.sensorRead 111 120) State.reset).get PWR_CNT_TRIPS = 1
    ∧ (devAfter (.sensorRead 111 120) State.reset).get PWR_TEMP.SENSOR = 111
    ∧ (devAfter (.sensorRead 111 40) State.reset).pwr.trip = false := by decide +kernel

/-- A shallower step has begun, at P5. -/
def rising (d : Dev) : Dev := (pwrOn (fun p => { p with rising := true, settled := true }) d).put PWR_STATE.POINT 5

theorem wit_ClocksAndSupplies : State.reset.dev.pwr.rising = false ∧ (rising State.reset.dev).pwr.rising = true
    ∧ (rising State.reset.dev).pwr.settled = true ∧ targetPoint (rising State.reset.dev) < pointNow (rising State.reset.dev)
    ∧ ¬ targetPoint State.reset.dev < pointNow State.reset.dev
    ∧ State.reset.dev.get PWR_ICC.ICC_MAX ≤ 65535 ∧ fixedMode State.reset.dev = false ∧ State.reset.dev.pwr.cur < 5
    ∧ (33 : Fin 34).val ∉ State.reset.dev.pwr.drooped ∧ (33 : Fin 34).val ∈ ({ State.reset.dev.pwr with drooped := [33] } : Pwr).drooped
    ∧ State.reset.dev.flag PWR_PACE_CFG.PACE_EN = false ∧ (State.reset.dev.put PWR_PACE_CFG.PACE_EN 1).flag PWR_PACE_CFG.PACE_EN = true := by
  decide +kernel

theorem test_clocks : pointNow (devAfter .clockSwitchShallower (dv rising)) = 4
    ∧ (devAfter (.avsReadPoll none) State.reset).get PWR_CNT_AVS_ERR = 1
    ∧ (devAfter (.avsReadPoll (some ((700, 300), (750, 200)))) State.reset).get PWR_IOUT.CORE_A = 300
    ∧ (devAfter (.droopDetect 33) State.reset).get PWR_CNT_DROOP = 1
    ∧ (devAfter (.droopRecover 33) (dv fun d => d.power fun p => { p with drooped := [33] })).pwr.drooped = []
    ∧ (devAfter (.paceSample 5) (dv fun d => d.put PWR_PACE_CFG.PACE_EN 1)).get PWR_STATE.PACE_IN = 3 := by decide +kernel


end Sys2Proof.Tests
end

namespace Sys2Proof.Machine

/-! ### Reads of slices, queues, ports and frames after a write -/

@[simp] theorem Dev.sl_slice_same (d : Dev) (s : Nat) (f : SliceHid → SliceHid) : (d.slice s f).sl s = f (d.sl s) :=
  SMap.get_put_same ..

theorem Dev.sl_slice_other (d : Dev) (f : SliceHid → SliceHid) {s t : Nat} (h : t ≠ s) : (d.slice s f).sl t = d.sl t :=
  SMap.get_put_other _ _ _ _ h

@[simp] theorem Dev.qu_queue_same (d : Dev) (n : Nat) (f : Queue → Queue) : (d.queue n f).qu n = f (d.qu n) :=
  SMap.get_put_same ..

theorem Dev.qu_queue_other (d : Dev) (f : Queue → Queue) {n m : Nat} (h : m ≠ n) : (d.queue n f).qu m = d.qu m :=
  SMap.get_put_other _ _ _ _ h

@[simp] theorem Dev.po_port_same (d : Dev) (p : Nat) (f : PortHid → PortHid) : (d.port p f).po p = f (d.po p) :=
  SMap.get_put_same ..

theorem Dev.po_port_other (d : Dev) (f : PortHid → PortHid) {p q : Nat} (h : q ≠ p) : (d.port p f).po q = d.po q :=
  SMap.get_put_other _ _ _ _ h

/-! ### Bookkeeping

`Books d e`: between d and e the device only counted, reported, signalled and exported. Queues, ports and shared buffers are as
they were, a slice's record changed only in the countdowns of postcards and DEX records, and what was sent stays sent. -/

/-- e is d after bookkeeping alone. -/
structure Books (d e : Dev) : Prop where
  out : d.out <+: e.out
  queues : e.queues = d.queues
  ports : e.ports = d.ports
  buf : e.buf = d.buf
  slices : ∀ s, ∃ k t, e.sl s = { d.sl s with cardLeft := k, dexTokens := t }

namespace Books

/-- What touches none of those parts is bookkeeping. -/
theorem of_eq {d e : Dev} (ho : e.out = d.out := by rfl) (hq : e.queues = d.queues := by rfl)
    (hp : e.ports = d.ports := by rfl) (hb : e.buf = d.buf := by rfl) (hs : e.slices = d.slices := by rfl) : Books d e :=
  ⟨ho ▸ List.prefix_rfl, hq, hp, hb, fun s => ⟨(d.sl s).cardLeft, (d.sl s).dexTokens, by rw [Dev.sl, hs, Dev.sl]⟩⟩

theorem refl (d : Dev) : Books d d := of_eq

theorem trans {d e f : Dev} (h : Books d e) (k : Books e f) : Books d f where
  out := h.out.trans k.out
  queues := k.queues.trans h.queues
  ports := k.ports.trans h.ports
  buf := k.buf.trans h.buf
  slices s := by
    obtain ⟨_, _, hs⟩ := h.slices s
    obtain ⟨a, b, ks⟩ := k.slices s
    exact ⟨a, b, by rw [ks, hs]⟩

theorem qu {d e : Dev} (h : Books d e) (n : Nat) : e.qu n = d.qu n := by rw [Dev.qu, h.queues, Dev.qu]

theorem po {d e : Dev} (h : Books d e) (p : Nat) : e.po p = d.po p := by rw [Dev.po, h.ports, Dev.po]

theorem foldl {α : Type} {f : Dev → α → Dev} (h : ∀ d x, Books d (f d x)) (l : List α) (d : Dev) : Books d (l.foldl f d) :=
  List.foldlRecOn l f (refl d) fun _ k x _ => k.trans (h _ x)

theorem ite {d e f : Dev} {c : Prop} [Decidable c] (h : Books d e) (k : Books d f) : Books d (if c then e else f) := by
  split
  · exact h
  · exact k

/-! #### Registers, counters, outputs -/

theorem setWord (d : Dev) (a : Nat) (v : Word) : Books d (d.setWord a v) := of_eq

theorem wput (d : Dev) (k v : Nat) : Books d (d.wput k v) := of_eq

theorem put (d : Dev) (f : Fld) (v : Nat) : Books d (d.put f v) := setWord ..

theorem addTo (d : Dev) (f : Fld) (n : Nat) : Books d (d.addTo f n) := put ..

theorem subFrom (d : Dev) (f : Fld) (n : Nat) : Books d (d.subFrom f n) := put ..

theorem bump (d : Dev) (f : Fld) : Books d (d.bump f) := put ..

theorem ctrAdd (d : Dev) (k n : Nat) : Books d (d.ctrAdd k n) := of_eq

theorem ctrPut (d : Dev) (k n : Nat) : Books d (d.ctrPut k n) := of_eq

theorem setFrame (d : Dev) (i : Nat) (f : Option Frame) : Books d (d.setFrame i f) := of_eq

theorem report (d : Dev) (src detail : Nat) : Books d (d.report src detail) := of_eq

theorem charge (d : Dev) (k n port group : Nat) : Books d (d.charge k n port group) := of_eq

theorem bpm (d : Dev) (x : BpmHid) : Books d { d with bpm := x } := of_eq

theorem tel (d : Dev) (x : TelHid) : Books d { d with tel := x } := of_eq

theorem emit (d : Dev) (o : Output) : Books d (d.emit o) :=
  ⟨List.prefix_append .., rfl, rfl, rfl, fun _ => ⟨_, _, rfl⟩⟩

theorem signal (d : Dev) (pf vec : Nat) : Books d (d.signal pf vec) := by
  unfold Dev.signal
  exact ite (of_eq) (emit ..)

theorem signalBlock (d : Dev) (l : Loc) (vec : Nat) : Books d (d.signalBlock l vec) := by
  unfold Dev.signalBlock
  exact ite ((signal ..).trans (signal ..)) (signal ..)

theorem event (d : Dev) (f : Fld) : Books d (d.event f) := by
  have h : Books d ((d.put ⟨f.addr, f.lo, f.lo⟩ 1).bump ⟨f.addr, 31, 24⟩) := (put ..).trans (bump ..)
  unfold Dev.event
  cases locate f.addr with
  | none => exact h
  | some l =>
    dsimp only
    cases vectorOf l with
    | none => exact h
    | some v => exact h.trans (signalBlock ..)

/-! #### PMU counting (R511-R514) -/

/-- What an overflow of a PMU counter does: its event, and the freeze it may ask for. -/
theorem overflow (d : Dev) (f c : Fld) (b : Bool) :
    Books d (if b = true then (d.event f).put c 0 else d.event f) := ite ((event ..).trans (put ..)) (event ..)

theorem pmuAdd (d : Dev) (m i n : Nat) : Books d (d.pmuAdd m i n) := by
  unfold Dev.pmuAdd
  refine ite (ctrPut ..) (ite (ite (ctrPut ..) (ite ?_ ?_)) ?_)
  · exact (ctrPut ..).trans (ctrPut ..)
  · exact ((ctrPut ..).trans (ctrPut ..)).trans (overflow ..)
  · exact (ctrPut ..).trans (overflow ..)

theorem pmuEvent (d : Dev) (m code n : Nat) (port : Option Nat) : Books d (d.pmuEvent m code n port) := by
  unfold Dev.pmuEvent
  exact ite (foldl (fun d i => ite (pmuAdd ..) (refl d)) _ _) (refl d)

/-! #### The buffer pool manager (R382-R396) -/

theorem bpmLow (d : Dev) (p : Nat) : Books d (bpmLow d p) := by
  unfold Machine.bpmLow
  exact ite ((bpm ..).trans (event ..)) (ite (bpm ..) (refl d))

theorem allocIn (d : Dev) (r p : Nat) : Books d (allocIn d r p).2 := by
  unfold Machine.allocIn
  dsimp only
  split
  · split
    · exact refl d
    · refine Books.trans ?_ (bpmLow ..)
      refine Books.trans ?_ (subFrom ..)
      exact (bpm ..).trans (bump ..)
  · exact refl d

theorem allocFrom (d : Dev) (r : Nat) (grow : Bool) (ps : List Nat) (last : BpmGot) :
    Books d (allocFrom d r grow ps last).2 := by
  induction ps generalizing last with
  | nil => exact refl d
  | cons p ps ih =>
    unfold Machine.allocFrom
    dsimp only
    split
    · exact allocIn ..
    · split
      · exact ih _
      · exact refl d

theorem countAlloc (d : Dev) (g : BpmGot) : Books d (countAlloc d g) := by
  unfold Machine.countAlloc
  exact ite ((bump ..).trans (pmuEvent ..)) (bump ..)

theorem bpmAlloc (d : Dev) (r len : Nat) (secure : Bool) (force : Option Nat) :
    Books d (bpmAlloc d r len secure force).2 := (allocFrom ..).trans (countAlloc ..)

theorem rejectFree (d : Dev) (r owner kind : Nat) (pool : Option Nat) (index ptr : Nat) :
    Books d (rejectFree d r owner kind pool index ptr) := by
  unfold Machine.rejectFree
  extract_lets d1 d2 d3 d4
  have h3 : Books d d3 := ((setWord ..).trans (put ..)).trans (wput ..)
  have h4 : Books d d4 := (h3.trans (event ..)).trans (bump ..)
  exact h4.trans (report ..)

theorem freeBuf (d : Dev) (p i : Nat) : Books d (freeBuf d p i) := by
  unfold Machine.freeBuf
  refine Books.trans ?_ (bpmLow ..)
  have h : Books d (d.setTag p i (bpmTag d p i % 16)) := bpm ..
  exact ite ((h.trans (bump ..)).trans (subFrom ..)) (h.trans (bump ..))

theorem bpmFree (d : Dev) (r ptr : Nat) : Books d (bpmFree d r ptr).2 := by
  unfold Machine.bpmFree
  cases poolAt d ptr with
  | none =>
    dsimp only
    exact rejectFree ..
  | some p =>
    dsimp -zeta only
    extract_lets size off i t
    simp only [apply_ite Prod.snd]
    exact ite (rejectFree ..) (ite (rejectFree ..) (ite (rejectFree ..)
      (((freeBuf ..).trans (bump ..)).trans (pmuEvent ..))))

/-! #### Telemetry (chapter 14) -/

theorem addRecord (d : Dev) (r : Nat) (x : Nat × List Byte × Nat) : Books d (addRecord d r x) :=
  of_eq

theorem exportRecord (d : Dev) (h kind : Nat) (b : List Byte) : Books d (exportRecord d h kind b) := by
  unfold Machine.exportRecord
  refine ite (ite ?_ (bump ..)) (refl d)
  exact ite ((bpmAlloc ..).trans (addRecord ..)) ((bpmAlloc ..).trans (bump ..))

theorem setFlow (d : Dev) (k : Nat) (f : Option Flow) : Books d (d.setFlow k f) := of_eq

theorem exportFlow (d : Dev) (h : Nat) (f : Flow) (reason : Nat) : Books d (exportFlow d h f reason) :=
  (bump ..).trans (exportRecord ..)

theorem updateFlow (d : Dev) (h : Nat) (key : BitVec 128) (c : Copy) (rxTs len : Nat) (e : EndInfo) :
    Books d (updateFlow d h key c rxTs len e) := by
  unfold Machine.updateFlow
  extract_lets _ _ _ way found _ d1 _ old d2
  have h1 : Books d d1 := bump ..
  have h2 : Books d d2 := by
    unfold d2
    cases way old with
    | none => exact h1
    | some f => exact (h1.trans (bump ..)).trans (exportFlow ..)
  cases found with
  | some w =>
    dsimp only
    cases way w with
    | some f => exact setFlow ..
    | none => exact refl d
  | none =>
    dsimp only
    split
    · exact h1.trans (setFlow ..)
    · exact h2.trans (setFlow ..)

theorem updateHH (g : Grid) (d : Dev) (h : Nat) (key : BitVec 128) (c : Copy) (len : Nat) :
    Books d (updateHH g d h key c len) := by
  unfold Machine.updateHH
  refine ite (refl d) (ite (tel ..) ?_)
  refine ite (Books.trans (Books.trans ?_ (tel ..)) (bump ..)) (Books.trans ?_ (tel ..))
  · exact ((tel ..).trans (bump ..)).trans (exportRecord ..)
  · exact ((tel ..).trans (bump ..)).trans (exportRecord ..)

theorem dropRecord (d : Dev) (c : Copy) (cart : List Byte) (key : Option (BitVec 128)) (frame : List Byte) (e : EndInfo) :
    Books d (dropRecord d c cart key frame e) := by
  unfold Machine.dropRecord
  exact ite (bump ..) (((tel ..).trans (bump ..)).trans (exportRecord ..))

/-- A slice's countdowns of postcards and DEX records are bookkeeping. -/
theorem slice (d : Dev) (s : Nat) (f : SliceHid → SliceHid) 
    (h : ∀ x, ∃ k t, f x = { x with cardLeft := k, dexTokens := t } := by exact fun _ => ⟨_, _, rfl⟩) :
    Books d (d.slice s f) := by
  refine ⟨List.prefix_rfl, rfl, rfl, rfl, fun t => ?_⟩
  by_cases ht : t = s
  · subst ht
    rw [Dev.sl_slice_same]
    exact h _
  · rw [Dev.sl_slice_other _ _ ht]
    exact ⟨_, _, rfl⟩

theorem fresh (d : Dev) : Books d d.fresh.2 := of_eq

theorem postcard (d : Dev) (e : EndInfo) (cart : List Byte) (key : Option (BitVec 128)) : Books d (postcard d e cart key) := by
  unfold Machine.postcard
  refine ite ?_ (refl d)
  extract_lets n
  have sent : ∀ d' r, Books d d' → Books d (Machine.exportRecord
      ((d'.slice e.slice fun s => { s with cardLeft := r }).bump (CTH_CNT_POSTCARDS e.slice)) e.half 4
      (cart ++ beBytes 16 (match key with
        | some k => k.toNat
        | none => 0))) := fun d' r h =>
    ((h.trans (slice ..)).trans (bump ..)).trans (exportRecord ..)
  cases (d.sl e.slice).cardLeft with
  | some k =>
    refine ite ?_ (slice ..)
    exact sent _ _ (fresh d)
  | none =>
    refine ite ?_ ((fresh d).trans (slice ..))
    exact sent _ _ ((fresh d).trans (fresh _))

/-- The end of a copy is bookkeeping (R477). -/
theorem complete (g : Grid) (d : Dev) (c : Copy) (e : EndInfo) : Books d (complete g d c e) := by
  unfold Machine.complete
  extract_lets fr len key useFlow d1
  have h1 : Books d d1 := ite (ctrAdd ..) (refl d)
  have ends : ∀ cart bytes d2, Books d1 d2 →
      Books d (Machine.postcard (if e.reason ≠ 0 then Machine.dropRecord d2 c cart key bytes e else d2) e cart key) :=
    fun cart bytes d2 h2 => ((h1.trans h2).trans (ite (dropRecord ..) (refl _))).trans (postcard ..)
  have flow : ∀ rxTs k, Books d1
      (Machine.updateHH g (if useFlow then Machine.updateFlow d1 e.half k c rxTs len e else d1) e.half k c len) :=
    fun rxTs k => (ite (updateFlow ..) (refl _)).trans (updateHH ..)
  clear_value fr key
  cases fr with
  | none => cases key with
    | none => exact ends _ _ _ (refl _)
    | some k => exact ends _ _ _ (flow _ k)
  | some f => cases key with
    | none => exact ends _ _ _ (refl _)
    | some k => exact ends _ _ _ (flow _ k)

theorem dropFrame (d : Dev) (fid : Nat) : Books d (dropFrame d fid) := by
  unfold Machine.dropFrame
  refine ite (refl d) ?_
  split
  · exact ite (setFrame ..) (refl d)
  · exact refl d

theorem countFrame (d : Dev) (p base : Nat) (b : List Byte) : Books d (Machine.countFrame d p base b) :=
  ((ctrAdd ..).trans (ctrAdd ..)).trans (ctrAdd ..)

end Books

end Sys2Proof.Machine

namespace Sys2Proof.Machine

/-! ### Shedding

`Sheds d e`: from d to e copies and packets may have left queues, slices and replication, and none joined; what was sent, on a
wire or into a port's own loopback, stays sent. -/

/-- e is d after copies have left and frames were sent. -/
structure Sheds (d e : Dev) : Prop where
  out : d.out <+: e.out
  looped : ∀ p, (d.po p).looped <+: (e.po p).looped
  pkts : ∀ n, ((e.qu n).pkts).Sublist (d.qu n).pkts
  staging : ∀ s, ((e.sl s).staging).Sublist (d.sl s).staging
  toAdmit : ∀ s, ((e.sl s).toAdmit).Sublist (d.sl s).toAdmit
  toRep : (e.buf.toRep).Sublist d.buf.toRep

/-- Bookkeeping sheds nothing. -/
theorem Books.sheds {d e : Dev} (h : Books d e) : Sheds d e where
  out := h.out
  looped p := by rw [h.po]
  pkts n := by rw [h.qu]
  staging s := by obtain ⟨_, _, hs⟩ := h.slices s; rw [hs]
  toAdmit s := by obtain ⟨_, _, hs⟩ := h.slices s; rw [hs]
  toRep := by rw [h.buf]

namespace Sheds

theorem refl (d : Dev) : Sheds d d := (Books.refl d).sheds

theorem trans {d e f : Dev} (h : Sheds d e) (k : Sheds e f) : Sheds d f where
  out := h.out.trans k.out
  looped p := (h.looped p).trans (k.looped p)
  pkts n := (k.pkts n).trans (h.pkts n)
  staging s := (k.staging s).trans (h.staging s)
  toAdmit s := (k.toAdmit s).trans (h.toAdmit s)
  toRep := k.toRep.trans h.toRep

theorem foldl {α : Type} {f : Dev → α → Dev} (h : ∀ d x, Sheds d (f d x)) (l : List α) (d : Dev) : Sheds d (l.foldl f d) :=
  List.foldlRecOn l f (refl d) fun _ k x _ => k.trans (h _ x)

theorem ite {d e f : Dev} {c : Prop} [Decidable c] (h : Sheds d e) (k : Sheds d f) : Sheds d (if c then e else f) := by
  split
  · exact h
  · exact k

/-! #### The parts of the state -/

theorem buf (d : Dev) (x : BufHid) (h : (x.toRep).Sublist d.buf.toRep) : Sheds d { d with buf := x } :=
  ⟨List.prefix_rfl, fun _ => List.prefix_rfl, fun _ => List.Sublist.refl _, fun _ => List.Sublist.refl _,
    fun _ => List.Sublist.refl _, h⟩

theorem slice (d : Dev) (s : Nat) (f : SliceHid → SliceHid)
    (h : ((f (d.sl s)).staging).Sublist (d.sl s).staging ∧ ((f (d.sl s)).toAdmit).Sublist (d.sl s).toAdmit) :
    Sheds d (d.slice s f) := by
  have split : ∀ t, (((d.slice s f).sl t).staging).Sublist (d.sl t).staging
      ∧ (((d.slice s f).sl t).toAdmit).Sublist (d.sl t).toAdmit := fun t => by
    by_cases ht : t = s
    · subst ht
      rw [Dev.sl_slice_same]
      exact h
    · rw [Dev.sl_slice_other _ _ ht]
      exact ⟨List.Sublist.refl _, List.Sublist.refl _⟩
  exact ⟨List.prefix_rfl, fun _ => List.prefix_rfl, fun _ => List.Sublist.refl _, fun t => (split t).1, fun t => (split t).2,
    List.Sublist.refl _⟩

theorem queue (d : Dev) (n : Nat) (f : Queue → Queue) (h : ((f (d.qu n)).pkts).Sublist (d.qu n).pkts) :
    Sheds d (d.queue n f) := by
  refine ⟨List.prefix_rfl, fun _ => List.prefix_rfl, fun m => ?_, fun _ => List.Sublist.refl _, fun _ => List.Sublist.refl _,
    List.Sublist.refl _⟩
  by_cases hm : m = n
  · subst hm
    rw [Dev.qu_queue_same]
    exact h
  · rw [Dev.qu_queue_other _ _ hm]

theorem port (d : Dev) (p : Nat) (f : PortHid → PortHid) (h : (d.po p).looped <+: (f (d.po p)).looped) :
    Sheds d (d.port p f) := by
  refine ⟨List.prefix_rfl, fun q => ?_, fun _ => List.Sublist.refl _, fun _ => List.Sublist.refl _,
    fun _ => List.Sublist.refl _, List.Sublist.refl _⟩
  by_cases hq : q = p
  · subst hq
    rw [Dev.po_port_same]
    exact h
  · rw [Dev.po_port_other _ _ hq]

/-- A queue's cells, accounts and figures change, its copies stay. -/
theorem queueCells (d : Dev) (n : Nat) (f : Queue → Queue) (h : ∀ q, (f q).pkts = q.pkts := by exact fun _ => rfl) :
    Sheds d (d.queue n f) :=
  queue _ _ _ (by rw [h])

/-- A port's record changes, its loopback stays. -/
theorem portState (d : Dev) (p : Nat) (f : PortHid → PortHid) (h : ∀ x, (f x).looped = x.looped := by exact fun _ => rfl) :
    Sheds d (d.port p f) :=
  port _ _ _ (by rw [h])

/-- The buffers' own counts change, replication's list stays. -/
theorem bufCounts (d : Dev) (x : BufHid) (h : x.toRep = d.buf.toRep := by rfl) : Sheds d { d with buf := x } := buf _ _ (by rw [h])

theorem bump (d : Dev) (f : Fld) : Sheds d (d.bump f) := (Books.bump ..).sheds

theorem addTo (d : Dev) (f : Fld) (n : Nat) : Sheds d (d.addTo f n) := (Books.addTo ..).sheds

theorem subFrom (d : Dev) (f : Fld) (n : Nat) : Sheds d (d.subFrom f n) := (Books.subFrom ..).sheds

theorem put (d : Dev) (f : Fld) (n : Nat) : Sheds d (d.put f n) := (Books.put ..).sheds

theorem setRsv (d : Dev) (h c v : Nat) : Sheds d (d.setRsv h c v) := bufCounts ..

theorem setIn (d : Dev) (h port prio v : Nat) : Sheds d (d.setIn h port prio v) := bufCounts ..

/-! #### A port's own frames (R213) -/

theorem txOut (d : Dev) (p : Nat) (b : List Byte) (stomped : Bool) : Sheds d (txOut d p b stomped) := by
  unfold Machine.txOut
  exact ite (port _ _ _ (List.prefix_append ..)) (Books.emit ..).sheds

theorem sendControl (d : Dev) (p : Nat) (b : List Byte) : Sheds d (sendControl d p b) :=
  ((Books.ctrAdd ..).trans (Books.countFrame ..)).sheds.trans (txOut ..)

theorem queueControl (d : Dev) (p : Nat) (b : List Byte) : Sheds d (queueControl d p b) := by
  unfold Machine.queueControl
  exact ite (refl d) (ite (sendControl ..) (portState ..))

theorem drainControl (d : Dev) (p : Nat) : Sheds d (drainControl d p) := by
  unfold Machine.drainControl
  exact ite ((portState ..).trans (foldl (fun _ _ => sendControl ..) _ _)) (refl d)

theorem sendPause (d : Dev) (p prio quanta : Nat) : Sheds d (sendPause d p prio quanta) := by
  unfold Machine.sendPause
  split
  · exact queueControl ..
  · exact queueControl ..
  · exact refl d

theorem pauseOn (d : Dev) (p prio : Nat) : Sheds d (pauseOn d p prio) := ite (sendPause ..) (refl d)

theorem pauseOff (d : Dev) (p prio : Nat) : Sheds d (pauseOff d p prio) := ite (refl d) (sendPause ..)

theorem checkPause (d : Dev) (p prio : Nat) : Sheds d (checkPause d p prio) := by
  unfold Machine.checkPause
  refine ite ?_ (ite ?_ (refl d))
  · exact (portState ..).trans (pauseOn ..)
  · exact (portState ..).trans (pauseOff ..)

/-! #### Leaving the buffer (R402, R409, R421, R425) -/

theorem dropFrameCell (d : Dev) (h fid i : Nat) : Sheds d (dropFrameCell d h fid i) := by
  unfold Machine.dropFrameCell
  exact ite (refl d) (ite ((bufCounts ..).trans (bump ..)) (bufCounts ..))

theorem poolGive (d : Dev) (h : Nat) (c : Copy) (r : Run) : Sheds d (poolGive d h c r) :=
  foldl (fun _ _ => ite (bump ..) (dropFrameCell ..)) _ d

theorem uncharge (d : Dev) (n k : Nat) (c : Copy) : Sheds d (uncharge d n k c) := by
  unfold Machine.uncharge
  extract_lets h cls q a b e d1 d2 d3 d4 d5 d6 d7
  have h3 : Sheds d d3 := ((subFrom ..).trans (subFrom ..)).trans (subFrom ..)
  have h4 : Sheds d d4 := h3.trans (setIn ..)
  have h7 : Sheds d d7 := ((h4.trans (subFrom ..)).trans (subFrom ..)).trans (setRsv ..)
  exact h7.trans (queueCells ..)

theorem releaseRuns (d : Dev) (n : Nat) (c : Copy) (rs : List Run) : Sheds d (releaseRuns d n c rs) :=
  ((uncharge ..).trans (foldl (fun _ _ => poolGive ..) _ _)).trans (checkPause ..)

theorem forgetDowns (d : Dev) (n : Nat) : Sheds d (forgetDowns d n) := bufCounts ..

theorem cancelDowns (d : Dev) (n : Nat) : Sheds d (cancelDowns d n) := by
  unfold Machine.cancelDowns
  refine Sheds.trans (Sheds.trans ?_ (forgetDowns ..)) (queueCells ..)
  exact (Books.foldl (fun _ _ => Books.bpmFree ..) _ _).sheds

theorem settleSpill (d : Dev) (n : Nat) : Sheds d (settleSpill d n) := by
  unfold Machine.settleSpill
  extract_lets q h d1 d2 d3
  have h1 : Sheds d d1 := (cancelDowns ..).trans (addTo ..)
  have h2 : Sheds d d2 := ite (h1.trans (queueCells ..)) (refl d)
  have h3 : Sheds d d3 := (h2.trans (subFrom ..)).trans (put ..)
  exact ite (refl d) (ite (h3.trans (queueCells ..)) h2)

theorem releaseCopy (d : Dev) (n : Nat) (c : Copy) : Sheds d (releaseCopy d n c) :=
  ((releaseRuns ..).trans (queueCells ..)).trans (settleSpill ..)

theorem dropQueued (g : Grid) (d : Dev) (n : Nat) (c : Copy) (reason : Nat) : Sheds d (dropQueued g d n c reason) := by
  unfold Machine.dropQueued
  refine Sheds.trans ?_ (((Books.ctrAdd ..).trans (Books.complete ..)).trans (Books.dropFrame ..)).sheds
  exact (releaseCopy ..).trans (queue _ _ _ List.filter_sublist)

end Sheds

end Sys2Proof.Machine

namespace Sys2Proof.Machine

/-! ### PARSE_START (R16, R48, R223, R229) -/

/-- The packet taken waits in the staging buffer and may be parsed; one in its second pass is taken only where no arrival may
be, or it is the last of 48 (R16). -/
theorem nextParse_some {d : Dev} {sl : Nat} {pk : Pkt} (h : nextParse d sl = some pk) :
    pk ∈ (d.sl sl).staging ∧ parseReady d sl pk = true
      ∧ (pk.second = true → (d.sl sl).passedBy < 47 → ∀ a ∈ (d.sl sl).staging, parseReady d sl a = true → a.second = true) := by
  have waits : ∀ {q : Pkt → Bool}, ((d.sl sl).staging.filter (parseReady d sl)).find? q = some pk →
      pk ∈ (d.sl sl).staging ∧ parseReady d sl pk = true := fun hq => List.mem_filter.mp (List.mem_of_find?_eq_some hq)
  unfold nextParse at h
  dsimp only at h
  split at h
  next a r ha hr =>
    split at h
    next full =>
      cases h
      exact ⟨(waits hr).1, (waits hr).2, fun _ hp => absurd hp (by omega)⟩
    next =>
      cases h
      have first := List.find?_some ha
      exact ⟨(waits ha).1, (waits ha).2, fun hs => by simp [hs] at first⟩
  next a ha _ =>
    cases h
    have first := List.find?_some ha
    exact ⟨(waits ha).1, (waits ha).2, fun hs => by simp [hs] at first⟩
  next none =>
    refine ⟨(waits h).1, (waits h).2, fun _ _ a ha ready => ?_⟩
    simpa using List.find?_eq_none.mp none a (List.mem_filter.mpr ⟨ha, ready⟩)

theorem countPassed_sl (d : Dev) (s : Nat) (pk : Pkt) : ∃ n, (countPassed d s pk).sl s = { d.sl s with passedBy := n } :=
  ⟨_, Dev.sl_slice_same ..⟩

theorem spoilEntries_books (d : Dev) (s b : Nat) (l : List (Fin 3 × Nat)) : Books d (spoilEntries d s b l) := Books.of_eq

/-- A packet that has its stamp keeps it (R48). -/
theorem stamp_stamped (g : Grid) (bk : Banks) (d : Dev) (s now : Nat) {pk : Pkt} (h : pk.stamped = true) :
    stamp g bk d s now pk = (pk, d) := by simp [stamp, h]

/-- The stamp of a first parser entry (R48, R530). -/
theorem stamp_new (g : Grid) (bk : Banks) (d : Dev) (s now : Nat) {pk : Pkt} (h : pk.stamped = false) :
    ∃ e, stamp g bk d s now pk = ({ pk with
        stamped := true, bankB := bk.activeB, epoch := epochAt g s, handle := ((d.sl s).handle + 1) % 2 ^ 24, entered := now }, e)
      ∧ Books (d.slice s fun x => { x with handle := ((d.sl s).handle + 1) % 2 ^ 24 }) e := by
  refine ⟨_, by simp only [stamp, h]; rfl, Books.pmuEvent ..⟩

/-- Neither the stamp nor the count of arrivals touches what is staged, or a queue. -/
theorem stamp_countPassed_frame {g : Grid} {bk : Banks} {d : Dev} {s now : Nat} {pk pk' : Pkt} {e : Dev}
    (h : stamp g bk (countPassed d s pk) s now pk = (pk', e)) :
    (e.sl s).staging = (d.sl s).staging ∧ e.queues = d.queues := by
  obtain ⟨n, hn⟩ := countPassed_sl d s pk
  cases hs : pk.stamped with
  | true =>
    rw [stamp_stamped _ _ _ _ _ hs] at h
    cases h
    exact ⟨by rw [hn], rfl⟩
  | false =>
    obtain ⟨x, hx, books⟩ := stamp_new g bk (countPassed d s pk) s now hs
    rw [hx] at h
    cases h
    obtain ⟨_, _, hsl⟩ := books.slices s
    exact ⟨by rw [hsl, Dev.sl_slice_same, hn], books.queues⟩

/-- With no packet to take, or its slice in reset, PARSE_START changes nothing. -/
theorem parseStart_none {g : Grid} {bk : Banks} {d : Dev} {s dt : Nat} {up : Upsets}
    (h : d.sliceUp s = false ∨ nextParse d s = none) : parseStart g bk d s dt up = d := by
  have none : (if d.sliceUp s then nextParse d s else none) = none := by
    rcases h with h | h <;> simp [h]
  simp only [parseStart, none]

end Sys2Proof.Machine

namespace Sys2Proof.Machine

section
variable {g : Grid} {bk : Banks} {d d' : Dev} {s dt : Nat} {up : Upsets} {pk pk' : Pkt} {f : Frame}

/-- A packet whose parse awaits bytes stays in the parser with its stamp (R223). -/
theorem parseStart_waits (hup : d.sliceUp s = true) (hn : nextParse d s = some pk) (hf : d.frame pk.fid = some f)
    (hs : stamp g bk (countPassed d s pk) s (g.nowQ dt) pk = (pk', d'))
    (hp : parse (spoilEntries d' s (bankNo pk') up.ttBad) s (bankNo pk') (parsePort pk') f = none) :
    parseStart g bk d s dt up = ((spoilEntries d' s (bankNo pk') up.ttBad).slice s fun x => { x with
      staging := ((spoilEntries d' s (bankNo pk') up.ttBad).sl s).staging.map fun y => if y.fid = pk'.fid then pk' else y }) := by
  simp only [parseStart, hup, hn, hf, hs, hp, if_true]

/-- A packet whose parse comes to an end leaves the staging buffer for its program, its default action or its drop (R229). -/
theorem parseStart_parsed {p : Parsed} {e e' : Dev} (hup : d.sliceUp s = true) (hn : nextParse d s = some pk)
    (hf : d.frame pk.fid = some f) (hs : stamp g bk (countPassed d s pk) s (g.nowQ dt) pk = (pk', d'))
    (hp : parse (spoilEntries d' s (bankNo pk') up.ttBad) s (bankNo pk') (parsePort pk') f = some p)
    (he : e = ((spoilEntries d' s (bankNo pk') up.ttBad).slice s fun x => { x with
      staging := ((spoilEntries d' s (bankNo pk') up.ttBad).sl s).staging.filter fun y => decide (y.fid ≠ pk'.fid) }))
    (put : ∀ q, p.defer = some q → e' = e.setFrame pk'.fid (some { f with defer := some q }))
    (keep : p.defer = none → e' = e) :
    parseStart g bk d s dt up = runIngress g s (bankNo pk') (parsePort pk') (g.nowQ dt) up f 2 p
      (pk'.act (if pk'.eclass ≠ 0 then pk'.eclass else if pk'.second then 1 else 0) 1)
      (capture (parserCounts e' s (bankNo pk') up p) s pk' p f) := by
  cases hq : p.defer with
  | none => simp only [parseStart, hup, hn, hf, hs, hp, hq, keep hq, he, if_true]
  | some q => simp only [parseStart, hup, hn, hf, hs, hp, hq, put q hq, he, if_true]

end

end Sys2Proof.Machine

namespace Sys2Proof.Machine

/-! ### A frame's copies are gone (R198, R237) -/

/-- No packet or copy that could still be dropped belongs to frame i. -/
structure Lacks (i : Nat) (d : Dev) : Prop where
  pkts : ∀ n, ∀ c ∈ (d.qu n).pkts, c.pkt.fid ≠ i
  staging : ∀ s, ∀ k ∈ (d.sl s).staging, k.fid ≠ i
  toAdmit : ∀ s, ∀ c ∈ (d.sl s).toAdmit, c.pkt.fid ≠ i
  toRep : ∀ x ∈ d.buf.toRep, x.2.pkt.fid ≠ i

/-- What is gone does not come back by shedding. -/
theorem Sheds.lacks {i : Nat} {d e : Dev} (h : Sheds d e) (k : Lacks i d) : Lacks i e where
  pkts n c hc := k.pkts n c ((h.pkts n).subset hc)
  staging s p hp := k.staging s p ((h.staging s).subset hp)
  toAdmit s c hc := k.toAdmit s c ((h.toAdmit s).subset hc)
  toRep x hx := k.toRep x (h.toRep.subset hx)

/-- A fold of steps, each of which sheds and settles its item for good, settles every item. -/
theorem Sheds.foldl_settles {α : Type} {f : Dev → α → Dev} {P : α → Dev → Prop} (shed : ∀ d x, Sheds d (f d x))
    (settle : ∀ d x, P x (f d x)) (keep : ∀ x d e, Sheds d e → P x d → P x e) (l : List α) (d : Dev) :
    ∀ x ∈ l, P x (l.foldl f d) := by
  induction l generalizing d with
  | nil => exact fun x hx => absurd hx List.not_mem_nil
  | cons y l ih =>
    intro x hx
    rcases List.mem_cons.mp hx with rfl | hx
    · exact keep _ _ _ (Sheds.foldl shed l _) (settle d x)
    · exact ih _ x hx

/-- A key that reads as something else than an unlisted one is listed, with what it reads as. -/
theorem SMap.mem_of_get_ne {α : Type} {m : SMap α} {d : α} {k : Nat} (h : SMap.get m d k ≠ d) : (k, SMap.get m d k) ∈ m := by
  induction m with
  | nil => exact absurd rfl h
  | cons e r ih =>
    obtain ⟨k', v⟩ := e
    by_cases hk : k = k'
    · subst hk
      simp [SMap.get]
    · simp only [SMap.get, hk, if_false] at h ⊢
      exact List.mem_cons_of_mem _ (ih h)

/-- A slice that holds a packet or a copy is listed. -/
theorem mem_slices {d : Dev} {s : Nat} (h : d.sl s ≠ {}) : (s, d.sl s) ∈ d.slices := SMap.mem_of_get_ne h

/-- A queue that holds a copy is listed. -/
theorem mem_queues {d : Dev} {n : Nat} (h : d.qu n ≠ {}) : (n, d.qu n) ∈ d.queues := SMap.mem_of_get_ne h

/-- A copy dropped from its queue is in it no longer. -/
theorem dropQueued_gone (g : Grid) (d : Dev) (n : Nat) (c : Copy) (reason : Nat) :
    ∀ x ∈ ((dropQueued g d n c reason).qu n).pkts, x.cid ≠ c.cid := by
  unfold dropQueued
  extract_lets d1 d2 d3 d4
  have books : Books d2 (dropFrame d4 c.pkt.fid) := ((Books.ctrAdd ..).trans (Books.complete ..)).trans (Books.dropFrame ..)
  intro x hx
  rw [books.qu, Dev.qu_queue_same] at hx
  simpa using (List.mem_filter.mp hx).2

/-! #### The five passes of the removal -/

/-- The copies of frame fid in one list of each slice, with their slices. -/
def copiesIn (part : SliceHid → List Copy) (d : Dev) (fid : Nat) : List (Nat × Copy) :=
  d.slices.flatMap fun e => ((part e.2).filter fun c => decide (c.pkt.fid = fid)).map fun c => (e.1, c)

/-- The packets of frame fid in the staging buffers. -/
def stagedOf (d : Dev) (fid : Nat) : List (Nat × Pkt) :=
  d.slices.flatMap fun e => (e.2.staging.filter fun p => decide (p.fid = fid)).map fun p => (e.1, p)

/-- The copies of frame fid in the queues. -/
def queuedOf (d : Dev) (fid : Nat) : List (Nat × Copy) :=
  d.queues.flatMap fun e => (e.2.pkts.filter fun c => decide (c.pkt.fid = fid)).map fun c => (e.1, c)

/-- The drop of a staged packet. -/
def dropStaged (g : Grid) (fid reason : Nat) (d : Dev) (x : Nat × Pkt) : Dev :=
  complete g (d.slice x.1 fun y => { y with staging := y.staging.filter fun p => decide (p.fid ≠ fid) }) (plainCopy x.2 0 0)
    { half := x.1 / 16, slice := x.1, reason := reason, parsed := x.2.second }

/-- The drop of a copy that waits for admission. -/
def dropWaiting (g : Grid) (reason : Nat) (d : Dev) (x : Nat × Copy) : Dev :=
  complete g (d.slice x.1 fun y => { y with toAdmit := y.toAdmit.filter fun c => decide (c.cid ≠ x.2.cid) }) x.2
    { half := x.1 / 16, slice := x.1, reason := reason, out := if x.2.punt.isSome then none else some x.2.port }

/-- The drop of a copy in a recirculation queue. -/
def dropRecirc (g : Grid) (reason : Nat) (d : Dev) (x : Nat × Copy) : Dev :=
  complete g ((poolGive (sharedGive d (x.1 / 16) x.2.cells) (x.1 / 16) x.2 ⟨x.2.cid, 0, x.2.cells⟩).slice x.1 fun y =>
    { y with recirc := y.recirc.filter fun c => decide (c.cid ≠ x.2.cid) }) x.2
    { half := x.1 / 16, slice := x.1, reason := reason }

/-- The staging buffers are cleared of the frame. -/
def clearStaging (g : Grid) (fid reason : Nat) (d : Dev) : Dev := (stagedOf d fid).foldl (dropStaged g fid reason) d

/-- The copies before admission are cleared of the frame. -/
def clearToAdmit (g : Grid) (fid reason : Nat) (d : Dev) : Dev := (copiesIn (·.toAdmit) d fid).foldl (dropWaiting g reason) d

/-- Replication is cleared of the frame. -/
def clearToRep (g : Grid) (fid reason : Nat) (d : Dev) : Dev :=
  (d.buf.toRep.filter fun x => decide (x.2.pkt.fid = fid)).foldl
    (fun d x => complete g d x.2 { half := x.1, slice := ingressSlice x.2.pkt, reason := reason })
    { d with buf := { d.buf with toRep := d.buf.toRep.filter fun x => !decide (x.2.pkt.fid = fid) } }

/-- The recirculation queues are cleared of the frame. -/
def clearRecirc (g : Grid) (fid reason : Nat) (d : Dev) : Dev := (copiesIn (·.recirc) d fid).foldl (dropRecirc g reason) d

/-- The egress queues are cleared of the frame. -/
def clearQueues (g : Grid) (fid reason : Nat) (d : Dev) : Dev :=
  (queuedOf d fid).foldl (fun d x => dropQueued g d x.1 x.2 reason) d

theorem dropFrameCopies_eq (g : Grid) (d : Dev) (fid reason : Nat) : dropFrameCopies g d fid reason =
    clearQueues g fid reason (clearRecirc g fid reason (clearToRep g fid reason (clearToAdmit g fid reason
      (clearStaging g fid reason d)))) := rfl

/-! #### What each pass removes -/

theorem dropStaged_sheds (g : Grid) (fid reason : Nat) (d : Dev) (x : Nat × Pkt) : Sheds d (dropStaged g fid reason d x) :=
  (Sheds.slice _ _ _ ⟨List.filter_sublist, List.Sublist.refl _⟩).trans (Books.complete ..).sheds

theorem dropStaged_gone (g : Grid) (fid reason : Nat) (d : Dev) (x : Nat × Pkt) :
    ∀ k ∈ ((dropStaged g fid reason d x).sl x.1).staging, k.fid ≠ fid := by
  intro k hk
  have left := ((Books.complete ..).sheds.staging x.1).subset hk
  rw [Dev.sl_slice_same] at left
  simpa using (List.mem_filter.mp left).2

theorem dropWaiting_sheds (g : Grid) (reason : Nat) (d : Dev) (x : Nat × Copy) : Sheds d (dropWaiting g reason d x) :=
  (Sheds.slice _ _ _ ⟨List.Sublist.refl _, List.filter_sublist⟩).trans (Books.complete ..).sheds

theorem dropWaiting_gone (g : Grid) (reason : Nat) (d : Dev) (x : Nat × Copy) :
    ∀ c ∈ ((dropWaiting g reason d x).sl x.1).toAdmit, c.cid ≠ x.2.cid := by
  intro c hc
  have left := ((Books.complete ..).sheds.toAdmit x.1).subset hc
  rw [Dev.sl_slice_same] at left
  simpa using (List.mem_filter.mp left).2

theorem clearStaging_sheds (g : Grid) (fid reason : Nat) (d : Dev) : Sheds d (clearStaging g fid reason d) :=
  Sheds.foldl (fun _ _ => dropStaged_sheds ..) _ _

theorem clearToAdmit_sheds (g : Grid) (fid reason : Nat) (d : Dev) : Sheds d (clearToAdmit g fid reason d) :=
  Sheds.foldl (fun _ _ => dropWaiting_sheds ..) _ _

theorem clearToRep_sheds (g : Grid) (fid reason : Nat) (d : Dev) : Sheds d (clearToRep g fid reason d) :=
  (Sheds.buf _ _ List.filter_sublist).trans (Sheds.foldl (fun _ _ => (Books.complete ..).sheds) _ _)

theorem clearRecirc_sheds (g : Grid) (fid reason : Nat) (d : Dev) : Sheds d (clearRecirc g fid reason d) :=
  Sheds.foldl (fun _ _ => (((Sheds.subFrom ..).trans (Sheds.poolGive ..)).trans
    (Sheds.slice _ _ _ ⟨List.Sublist.refl _, List.Sublist.refl _⟩)).trans (Books.complete ..).sheds) _ _

theorem clearQueues_sheds (g : Grid) (fid reason : Nat) (d : Dev) : Sheds d (clearQueues g fid reason d) :=
  Sheds.foldl (fun _ _ => Sheds.dropQueued ..) _ _

theorem clearStaging_gone (g : Grid) (fid reason : Nat) (d : Dev) (s : Nat) :
    ∀ k ∈ ((clearStaging g fid reason d).sl s).staging, k.fid ≠ fid := by
  intro k hk hfid
  have before : k ∈ (d.sl s).staging := ((clearStaging_sheds g fid reason d).staging s).subset hk
  have listed : (s, k) ∈ stagedOf d fid := List.mem_flatMap.mpr
    ⟨(s, d.sl s), mem_slices fun h => (by simp [h] at before), List.mem_map.mpr ⟨k, List.mem_filter.mpr ⟨before, by simpa⟩, rfl⟩⟩
  exact Sheds.foldl_settles (P := fun (x : Nat × Pkt) d => ∀ k ∈ (d.sl x.1).staging, k.fid ≠ fid) (dropStaged_sheds g fid reason)
    (dropStaged_gone g fid reason) (fun x _ _ h hP k hk => hP k ((h.staging x.1).subset hk)) _ d _ listed k hk hfid

theorem clearToAdmit_gone (g : Grid) (fid reason : Nat) (d : Dev) (s : Nat) :
    ∀ c ∈ ((clearToAdmit g fid reason d).sl s).toAdmit, c.pkt.fid ≠ fid := by
  intro c hc hfid
  have before : c ∈ (d.sl s).toAdmit := ((clearToAdmit_sheds g fid reason d).toAdmit s).subset hc
  have listed : (s, c) ∈ copiesIn (·.toAdmit) d fid := List.mem_flatMap.mpr
    ⟨(s, d.sl s), mem_slices fun h => (by simp [h] at before), List.mem_map.mpr ⟨c, List.mem_filter.mpr ⟨before, by simpa⟩, rfl⟩⟩
  exact Sheds.foldl_settles (P := fun (x : Nat × Copy) d => ∀ c ∈ (d.sl x.1).toAdmit, c.cid ≠ x.2.cid)
    (dropWaiting_sheds g reason) (dropWaiting_gone g reason) (fun x _ _ h hP c hc => hP c ((h.toAdmit x.1).subset hc))
    _ d _ listed c hc rfl

theorem clearToRep_gone (g : Grid) (fid reason : Nat) (d : Dev) :
    ∀ x ∈ (clearToRep g fid reason d).buf.toRep, x.2.pkt.fid ≠ fid := by
  intro x hx
  have left := (Sheds.foldl (fun _ _ => (Books.complete ..).sheds) _ _).toRep.subset hx
  simpa using (List.mem_filter.mp left).2

theorem clearQueues_gone (g : Grid) (fid reason : Nat) (d : Dev) (n : Nat) :
    ∀ c ∈ ((clearQueues g fid reason d).qu n).pkts, c.pkt.fid ≠ fid := by
  intro c hc hfid
  have before : c ∈ (d.qu n).pkts := ((clearQueues_sheds g fid reason d).pkts n).subset hc
  have listed : (n, c) ∈ queuedOf d fid := List.mem_flatMap.mpr
    ⟨(n, d.qu n), mem_queues fun h => (by simp [h] at before), List.mem_map.mpr ⟨c, List.mem_filter.mpr ⟨before, by simpa⟩, rfl⟩⟩
  exact Sheds.foldl_settles (P := fun (x : Nat × Copy) d => ∀ c ∈ (d.qu x.1).pkts, c.cid ≠ x.2.cid)
    (fun _ _ => Sheds.dropQueued ..) (fun d x => dropQueued_gone g d x.1 x.2 reason)
    (fun x _ _ h hP c hc => hP c ((h.pkts x.1).subset hc)) _ d _ listed c hc rfl

theorem dropFrameCopies_sheds (g : Grid) (d : Dev) (fid reason : Nat) : Sheds d (dropFrameCopies g d fid reason) := by
  rw [dropFrameCopies_eq]
  exact (clearStaging_sheds ..).trans <| (clearToAdmit_sheds ..).trans <| (clearToRep_sheds ..).trans <|
    (clearRecirc_sheds ..).trans (clearQueues_sheds ..)

/-- The removal of a frame's copies leaves none that has not begun to leave. -/
theorem dropFrameCopies_lacks (g : Grid) (d : Dev) (fid reason : Nat) : Lacks fid (dropFrameCopies g d fid reason) := by
  rw [dropFrameCopies_eq]
  have afterRep : ∀ e, Sheds (clearToRep g fid reason e) (clearQueues g fid reason (clearRecirc g fid reason
      (clearToRep g fid reason e))) := fun e => (clearRecirc_sheds ..).trans (clearQueues_sheds ..)
  have afterAdmit : ∀ e, Sheds (clearToAdmit g fid reason e) (clearQueues g fid reason (clearRecirc g fid reason
      (clearToRep g fid reason (clearToAdmit g fid reason e)))) := fun e => (clearToRep_sheds ..).trans (afterRep _)
  exact {
    pkts := clearQueues_gone g fid reason _
    staging := fun s k hk =>
      clearStaging_gone g fid reason d s k ((((clearToAdmit_sheds ..).trans (afterAdmit _)).staging s).subset hk)
    toAdmit := fun s c hc => clearToAdmit_gone g fid reason _ s c (((afterAdmit _).toAdmit s).subset hc)
    toRep := fun x hx => clearToRep_gone g fid reason _ x ((afterRep _).toRep.subset hx) }

/-- R18: to find a frame bad sheds nothing. -/
theorem spoilFrame_books (d : Dev) (fid : Nat) : Books d (spoilFrame d fid) := by
  unfold spoilFrame
  cases d.frame fid with
  | none => exact Books.refl d
  | some f => exact Books.setFrame ..

/-- A failed late test of a frame: every frame of its family is found bad, and loses the copies that have not begun (R237). -/
theorem dropFamily_lacks (g : Grid) (reason : Nat) (l : List Nat) (d : Dev) :
    ∀ i ∈ l, Lacks i (l.foldl (fun d i => dropFrame (dropFrameCopies g (spoilFrame d i) i reason) i) d) := by
  refine Sheds.foldl_settles (P := Lacks) (fun d i => ?_) (fun d i => ?_) (fun i d e h => h.lacks) l d
  · exact ((spoilFrame_books ..).sheds.trans (dropFrameCopies_sheds ..)).trans (Books.dropFrame ..).sheds
  · exact (Books.dropFrame ..).sheds.lacks (dropFrameCopies_lacks ..)

end Sys2Proof.Machine

namespace Sys2Proof.Machine

/-! ### LATE_MALFORMED (R237) -/

section
variable {g : Grid} {d : Dev} {fid : Nat} {f : Frame} {q : Deferred}

/-- With nothing put off, or bytes still to come, the late tests change nothing. -/
theorem lateMalformed_idle (h : ∀ f q, d.frame fid = some f → f.defer = some q → f.complete = false) :
    lateMalformed g d fid = d := by
  unfold lateMalformed
  cases hf : d.frame fid with
  | none => rfl
  | some f => cases hq : f.defer with
    | none => simp only [hq]
    | some q => simp only [hq, h f q hf hq, Bool.not_false, if_true]

/-- Late tests that pass drop nothing. -/
theorem lateMalformed_pass (hf : d.frame fid = some f) (hq : f.defer = some q) (hc : f.complete = true)
    (hl : lateFails f q = false) : lateMalformed g d fid = dropFrame (d.setFrame fid (some { f with defer := none })) fid := by
  simp only [lateMalformed, hf, hq, hc, hl, Bool.not_true, Bool.false_eq_true, if_false]

/-- Late tests that fail count, and remove the frame's family. -/
theorem lateMalformed_fail (hf : d.frame fid = some f) (hq : f.defer = some q) (hc : f.complete = true)
    (hl : lateFails f q = true) : lateMalformed g d fid =
      (familyOf (d.setFrame fid (some { f with defer := none })) fid).foldl
        (fun d i => dropFrame (dropFrameCopies g (spoilFrame d i) i drMalformed) i)
        ((d.setFrame fid (some { f with defer := none })).bump (PRS_CNT_LATE_MALF q.slice)) := by
  simp only [lateMalformed, hf, hq, hc, hl, Bool.not_true, Bool.false_eq_true, if_false, if_true]

end

/-- The meaning of PARSE_START outside power-on reset. -/
theorem exec_parseStart (sl : Fin 32) (dt : Nat) (up : Upsets) {s : State} (h : s.held = false) :
    exec (.parseStart sl dt up) s = .next { s with dev := parseStart s.grid s.banks s.dev sl dt up } :=
  State.withDev_live (fun d => parseStart s.grid s.banks d sl dt up) h

/-- The meaning of LATE_MALFORMED outside power-on reset. -/
theorem exec_lateMalformed (fid : Nat) {s : State} (h : s.held = false) :
    exec (.lateMalformed fid) s = .next { s with dev := lateMalformed s.grid s.dev fid } :=
  State.withDev_live (fun d => lateMalformed s.grid d fid) h

/-- Settles O39: PARSE_START by the cases of its packet's parse, LATE_MALFORMED by the passes that remove a frame's copies. -/
theorem parsingBegins : Obligations.ParsingBegins := by
  refine ⟨fun sl dt up s held => ⟨fun h => ?_, ?_⟩, fun d sl pk => nextParse_some, fun fid s held => ⟨?_, ?_⟩⟩
  · rw [exec_parseStart _ _ _ held, parseStart_none h]
  · intro pk f pk' d' d now hup hn hf hnow hs hd
    subst hnow hd
    have books := spoilEntries_books d' sl (bankNo pk') up.ttBad
    refine ⟨fun hst => ?_, fun hst => ?_, fun hp => ?_, fun p e e' hp he he' => ?_⟩
    · obtain ⟨n, hn⟩ := countPassed_sl s.dev sl pk
      obtain ⟨x, hx, stampBooks⟩ := stamp_new s.grid s.banks (countPassed s.dev sl pk) sl (s.grid.nowQ dt) hst
      rw [hx] at hs
      cases hs
      obtain ⟨_, _, hsl⟩ := (stampBooks.trans books).slices sl
      rw [hsl, Dev.sl_slice_same, hn]
      exact ⟨rfl, rfl, rfl, rfl, rfl, rfl⟩
    · rw [stamp_stamped _ _ _ _ _ hst] at hs
      exact (Prod.mk.inj hs).1.symm
    · obtain ⟨staged, queues⟩ := stamp_countPassed_frame hs
      refine ⟨_, by rw [exec_parseStart _ _ _ held, parseStart_waits hup hn hf hs hp], ?_, ?_⟩
      · obtain ⟨_, _, hsl⟩ := books.slices sl
        rw [Dev.sl_slice_same, hsl, ← staged]
      · exact books.queues.trans queues
    · have put : ∀ q, p.defer = some q → e' = e.setFrame pk'.fid (some { f with defer := some q }) :=
        fun q hq => by rw [he', hq]
      have keep : p.defer = none → e' = e := fun hq => by rw [he', hq]
      rw [exec_parseStart _ _ _ held, parseStart_parsed hup hn hf hs hp he put keep]
  · intro h
    rw [exec_lateMalformed _ held, lateMalformed_idle h]
  · intro f q d hf hq hc hd
    subst hd
    refine ⟨fun hl => ?_, fun hl => ⟨_, exec_lateMalformed _ held, lateMalformed_fail hf hq hc hl, fun i hi => ?_⟩⟩
    · rw [exec_lateMalformed _ held, lateMalformed_pass hf hq hc hl]
    · rw [lateMalformed_fail hf hq hc hl]
      have lacks := dropFamily_lacks s.grid drMalformed _
        ((s.dev.setFrame fid (some { f with defer := none })).bump (PRS_CNT_LATE_MALF q.slice)) i hi
      exact ⟨lacks.pkts, fun sl => ⟨lacks.staging sl, lacks.toAdmit sl⟩, lacks.toRep⟩

end Sys2Proof.Machine

namespace Sys2Proof.Machine

/-! ### ADMISSION where the half's PMU counts drops (R406, R514) -/

/-- A copy for queue 0 of port 1022, a lane that is no port after reset, so that its tests end in NO_EGRESS. -/
def strayCopy : Copy := { cid := 3, pkt := { fid := 7, inPort := 1022 }, port := 1022, q := 0 }

/-- Its frame, of 64 bytes. -/
def strayFrame : Frame := { inPort := 1022, bytes := List.replicate 64 1, complete := true }

/-- The reset state with that copy before admission in slice 31, and counter 0 of half 1's PMU set to count copies dropped at
admission (code 0x02). -/
def strayWaits : State :=
  { State.reset with dev :=
      ((((State.reset.dev.put (PMU_CTL.EN 2) 1).put (PMU_EVT.EN 2 0) 1).put (PMU_EVT.EVENT 2 0) 2).setFrame 7
        (some strayFrame)).slice 31 fun x => { x with toAdmit := [strayCopy] } }

/-- Its device once the copy is taken from the slice. -/
def strayTaken : Dev :=
  strayWaits.dev.slice 31 fun x => { x with toAdmit := x.toAdmit.filter fun y => decide (y.cid ≠ strayCopy.cid) }

/-- Its cells: one of record, one of frame. -/
theorem strayCopy_cells : recordCells strayCopy.pkt + (if strayFrame.complete then
    frameCellsOf (copyBytes strayCopy strayFrame).length else frameCellsOf (portMtu strayWaits.dev strayCopy.pkt.inPort)) = 2 := by
  decide +kernel

theorem nextAdmit_strayWaits : nextAdmit strayWaits.dev 31 = some strayCopy := by decide +kernel

theorem admitTest_strayWaits : admitTest strayWaits.dev (qid 1022 0) 2 1022 (pfcPrio strayWaits.dev 1022 0) = .error drNoEgress := by
  decide +kernel

/-- The drop is a PMU event: the counter goes to 1. -/
theorem admission_strayWaits_counts :
    (admission strayWaits.grid strayWaits.dev (31 : Fin 32) 0).ctrGet (pmuCtr 2 0) = 1 := by decide +kernel

/-- What the drop does beside that event leaves the counter at 0. -/
theorem dropAtAdmission_strayTaken_counts :
    (dropAtAdmission strayWaits.grid (countAdmitDrop strayTaken (qHalf (qid 1022 0)) strayCopy.pkt.inPort
      (pfcPrio strayWaits.dev strayCopy.pkt.inPort strayCopy.q) drNoEgress) strayCopy drNoEgress).ctrGet (pmuCtr 2 0) = 0 := by
  decide +kernel

/-- The meaning of ADMISSION outside power-on reset. -/
theorem exec_admission (sl : Fin 32) (dt : Nat) {s : State} (h : s.held = false) :
    exec (.admission sl dt) s = .next { s with dev := admission s.grid s.dev sl dt } :=
  State.withDev_live (fun d => admission s.grid d sl dt) h

/-- Refutes O40: a drop at admission also is an event of its half's PMU (code 0x02, R514), and the state the statement gives for
it lacks that count. -/
theorem not_admissionAndCopies : ¬ Obligations.AdmissionAndCopies := by
  unfold Obligations.AdmissionAndCopies
  intro h
  have held : strayWaits.held = false := by decide +kernel
  obtain ⟨-, taken⟩ := h.1 31 0 strayWaits held
  obtain ⟨-, -, tested⟩ := taken strayCopy strayTaken nextAdmit_strayWaits rfl
  have frame : strayWaits.dev.frame 7 = some strayFrame := by decide +kernel
  obtain ⟨-, dropped⟩ := tested strayFrame (qid 1022 0) 2 rfl (by decide) (by decide +kernel) frame rfl
    strayCopy_cells.symm
  have claimed := dropped drNoEgress admitTest_strayWaits
  rw [exec_admission _ _ held] at claimed
  have same := congrArg (fun t : State => t.dev.ctrGet (pmuCtr 2 0)) (Host.Outcome.next.inj claimed)
  dsimp only at same
  rw [admission_strayWaits_counts, dropAtAdmission_strayTaken_counts] at same
  exact absurd same (by decide)

end Sys2Proof.Machine

namespace Sys2Proof.Machine

/-! ### What a port's own control frames leave alone (R213) -/

/-- e is d after MAC control frames of ports have left: counters, outputs, and of each port's record the frames that wait and
those in its loopback. -/
structure ControlSent (d e : Dev) : Prop where
  frame : ∃ ps c o, e = { d with ports := ps, ctr := c, out := o }
  po : ∀ q, ∃ w l, e.po q = { d.po q with ctlFrames := w, looped := l }

namespace ControlSent

theorem refl (d : Dev) : ControlSent d d := ⟨⟨d.ports, d.ctr, d.out, rfl⟩, fun _ => ⟨_, _, rfl⟩⟩

theorem trans {d e f : Dev} (h : ControlSent d e) (k : ControlSent e f) : ControlSent d f := by
  obtain ⟨⟨_, _, _, he⟩, hp⟩ := h
  obtain ⟨⟨ps, c, o, hf⟩, kp⟩ := k
  refine ⟨⟨ps, c, o, by rw [hf, he]⟩, fun q => ?_⟩
  obtain ⟨_, _, hq⟩ := hp q
  obtain ⟨w, l, kq⟩ := kp q
  exact ⟨w, l, by rw [kq, hq]⟩

theorem ite {d e f : Dev} {c : Prop} [Decidable c] (h : ControlSent d e) (k : ControlSent d f) :
    ControlSent d (if c then e else f) := by
  split
  · exact h
  · exact k

theorem foldl {α : Type} {f : Dev → α → Dev} (h : ∀ d x, ControlSent d (f d x)) (l : List α) (d : Dev) :
    ControlSent d (l.foldl f d) :=
  List.foldlRecOn l f (refl d) fun _ k x _ => k.trans (h _ x)

theorem ctrAdd (d : Dev) (k n : Nat) : ControlSent d (d.ctrAdd k n) := ⟨⟨_, _, _, rfl⟩, fun _ => ⟨_, _, rfl⟩⟩

theorem emit (d : Dev) (o : Output) : ControlSent d (d.emit o) := ⟨⟨_, _, _, rfl⟩, fun _ => ⟨_, _, rfl⟩⟩

theorem port (d : Dev) (p : Nat) (f : PortHid → PortHid)
    (h : ∀ x, ∃ w l, f x = { x with ctlFrames := w, looped := l } := by exact fun _ => ⟨_, _, rfl⟩) :
    ControlSent d (d.port p f) := by
  refine ⟨⟨_, _, _, rfl⟩, fun q => ?_⟩
  by_cases hq : q = p
  · subst hq
    rw [Dev.po_port_same]
    exact h _
  · rw [Dev.po_port_other _ _ hq]
    exact ⟨_, _, rfl⟩

theorem txOut (d : Dev) (p : Nat) (b : List Byte) (stomped : Bool) : ControlSent d (txOut d p b stomped) :=
  ite (port ..) (emit ..)

theorem countFrame (d : Dev) (p base : Nat) (b : List Byte) : ControlSent d (countFrame d p base b) :=
  ((ctrAdd ..).trans (ctrAdd ..)).trans (ctrAdd ..)

theorem sendControl (d : Dev) (p : Nat) (b : List Byte) : ControlSent d (sendControl d p b) :=
  ((ctrAdd ..).trans (countFrame ..)).trans (txOut ..)

theorem drainControl (d : Dev) (p : Nat) : ControlSent d (drainControl d p) := by
  unfold Machine.drainControl
  exact ite ((port ..).trans (foldl (fun _ _ => sendControl ..) _ _)) (refl d)

theorem headCopy {d e : Dev} (h : ControlSent d e) (n : Nat) : headCopy e n = headCopy d n := by
  obtain ⟨_, _, _, rfl⟩ := h.frame
  rfl

theorem qu {d e : Dev} (h : ControlSent d e) (n : Nat) : e.qu n = d.qu n := by
  obtain ⟨_, _, _, rfl⟩ := h.frame
  rfl

theorem frame_eq {d e : Dev} (h : ControlSent d e) (i : Nat) : e.frame i = d.frame i := by
  obtain ⟨_, _, _, rfl⟩ := h.frame
  rfl

theorem pausedQ {d e : Dev} (h : ControlSent d e) (p q now : Nat) : pausedQ e p q now = pausedQ d p q now := by
  have prio : pfcPrio e p q = pfcPrio d p q := by
    obtain ⟨_, _, _, rfl⟩ := h.frame
    rfl
  obtain ⟨_, _, hp⟩ := h.po p
  simp only [Machine.pausedQ, prio, hp]

theorem credit {d e : Dev} (h : ControlSent d e) (p : Nat) : (e.po p).credit = (d.po p).credit := by
  obtain ⟨_, _, hp⟩ := h.po p
  rw [hp]

theorem tx {d e : Dev} (h : ControlSent d e) (p : Nat) : (e.po p).tx = (d.po p).tx := by
  obtain ⟨_, _, hp⟩ := h.po p
  rw [hp]

end ControlSent

/-! ### The choice of a queue (R445) -/

/-- q7 is served where it has a frame to send, no pause, and promise credit. -/
theorem chooseQueue_promised {d : Dev} {p now : Nat} (hq : (headCopy d (qid p 7)).isSome = true)
    (hp : pausedQ d p 7 now = false) (hc : (d.po p).credit = none ∨ ∃ k, (d.po p).credit = some k ∧ 0 < k) :
    chooseQueue d p now = some (7, d) := by
  rcases hc with hc | ⟨k, hc, pos⟩
  · simp [chooseQueue, hq, hp, hc]
  · simp [chooseQueue, hq, hp, hc, pos]

/-- q6 is served where it is eligible and q7 has no frame to send. -/
theorem chooseQueue_control {d : Dev} {p now : Nat} (h7 : ((headCopy d (qid p 7)).isSome && !pausedQ d p 7 now) = false)
    (h6 : beEligible d p 6 now = true) : chooseQueue d p now = some (6, d) := by
  simp only [chooseQueue, h7, h6, Bool.false_and, Bool.false_eq_true, if_false, if_true]

end Sys2Proof.Machine

namespace Sys2Proof.Machine

/-! ### A raw copy begins to leave (R445, R457, R469) -/

@[simp] theorem Dev.qu_port (d : Dev) (p n : Nat) (f : PortHid → PortHid) : (d.port p f).qu n = d.qu n := rfl

/-- A queue's copies after a change that keeps them. -/
theorem Dev.pkts_queue (d : Dev) (n m : Nat) (f : Queue → Queue) (h : ∀ q, (f q).pkts = q.pkts := by exact fun _ => rfl) :
    ((d.queue n f).qu m).pkts = (d.qu m).pkts := by
  by_cases hm : m = n
  · subst hm
    rw [Dev.qu_queue_same, h]
  · rw [Dev.qu_queue_other _ _ hm]

theorem sojournStats_pkts (d : Dev) (n soj m : Nat) : ((sojournStats d n soj).qu m).pkts = (d.qu m).pkts := by
  unfold sojournStats
  extract_lets sh d1
  exact (congrArg Queue.pkts ((Books.tel d1 _).qu m)).trans (Dev.pkts_queue ..)

theorem placeOnWheel_pkts (q : Queue) (now : Nat) : (placeOnWheel q now).pkts = q.pkts := by
  unfold placeOnWheel
  split <;> rfl

theorem shaperSpend_pkts (q : Queue) (now w : Nat) : (shaperSpend q now w).pkts = q.pkts := by
  unfold shaperSpend
  split
  · rw [placeOnWheel_pkts]
  · rfl

theorem chargeSent_pkts (d : Dev) (p q now w m : Nat) : ((chargeSent d p q now w).qu m).pkts = (d.qu m).pkts := by
  unfold chargeSent
  extract_lets d1
  rw [Dev.qu_port]
  refine Dev.pkts_queue d (qid p q) m _ fun x => ?_
  dsimp only
  split
  · rfl
  · rw [shaperSpend_pkts]

theorem Books.promiseLate (d : Dev) (p tick : Nat) (c : Copy) : Books d (promiseLate d p tick c) := by
  unfold Machine.promiseLate
  refine ite ?_ (refl d)
  have late := (bump d (EQ_CNT_PROM_LATE (p / 32))).trans (event _ (EQ_STATUS.PROM_LATE (p / 32)))
  dsimp only
  split
  · exact late.trans (bump ..)
  · exact late.trans (bump ..)
  · exact late.trans (bump ..)
  · exact late

/-- A raw copy with no failed cell leaves its queue as it was received. -/
theorem serve_raw (g : Grid) (d : Dev) (p q now : Nat) (up : Upsets) (c : Copy) (f : Frame) (hraw : c.raw = true)
    (hlost : c.lost = false) (hbad : c.badAt = none) (hup : up.badCell = none) :
    ((serve g d p q now up c f).qu (qid p q)).pkts = (d.qu (qid p q)).pkts.drop 1
      ∧ ∃ t, ((serve g d p q now up c f).po p).tx = some t ∧ t.copy = { c with cut := !f.complete } ∧ t.asIs = true
        ∧ t.start = now := by
  have noBad : firstBad { c with cut := !f.complete } up = none := by simp [firstBad, badNow, hbad, hup]
  unfold serve
  extract_lets n s soj cut w d1 d2 d3 ts c1 bad d4 finish d5 d6 c2 miss start
  have queued : (d4.qu n).pkts = (d.qu n).pkts.drop 1 := by
    have hd4 : d4 = d3 := if_neg (by rw [show bad = none from noBad]; decide)
    rw [hd4, (Books.promiseLate d2 p _ c).qu, sojournStats_pkts, Dev.qu_queue_same]
  have begun : ∀ e x b mac, ((start e x true b mac).qu n).pkts = (e.qu n).pkts
      ∧ ∃ t, ((start e x true b mac).po p).tx = some t ∧ t.copy = x ∧ t.asIs = true ∧ t.start = now := by
    intro e x b mac
    unfold start
    extract_lets e1 e2 e3 e4 t
    have h1 : Books e e1 := Books.ite ((Books.bump ..).trans (Books.event ..)) (Books.refl e)
    have h2 : Books e e2 := h1.trans (Books.ite (Books.pmuEvent ..) (Books.refl _))
    have h3 : Books e e3 := h2.trans (Books.ite ((Books.bump ..).trans (Books.pmuEvent ..)) (Books.refl _))
    refine ⟨?_, t, by rw [Dev.po_port_same], rfl, rfl, rfl⟩
    exact (chargeSent_pkts e3 p q now w n).trans (congrArg Queue.pkts (h3.qu n))
  obtain ⟨pkts, t, tx, copy, rest⟩ := begun d4 c2 ⟨[], 0, [], [], false, none⟩ []
  have copy_eq : c2 = { c with cut := !f.complete } := by
    unfold c2
    rw [show bad = none from noBad, ← hbad]
  simp only [show bad = none from noBad, show c1.lost = false from hlost, show c2.raw = true from hraw, Option.map_none, if_true]
  exact ⟨pkts.trans queued, t, tx, copy.trans copy_eq, rest⟩

end Sys2Proof.Machine

namespace Sys2Proof.Machine

/-! ### The cases of SCHEDULER_DECISION -/

section
variable {g : Grid} {d e : Dev} {p q dt : Nat} {up : Upsets} {c : Copy} {f : Frame}

/-- A port that cannot start a frame does nothing. -/
theorem schedule_idle (h : canStart d p = false) : schedule g d p dt up = d := by
  simp only [schedule, h, Bool.not_false, if_true]

/-- With no queue to serve, control frames alone leave. -/
theorem schedule_control (h : canStart d p = true) (hq : chooseQueue (drainControl d p) p (g.nowQ dt) = none) :
    schedule g d p dt up = drainControl d p := by
  simp only [schedule, h, hq, Bool.not_true, Bool.false_eq_true, if_false]

/-- The chosen queue's front copy is served. -/
theorem schedule_serve (h : canStart d p = true) (hq : chooseQueue (drainControl d p) p (g.nowQ dt) = some (q, e))
    (hc : headCopy e (qid p q) = some c) (hf : (metCell e c up).frame c.pkt.fid = some f) :
    schedule g d p dt up = serve g (metCell e c up) p q (g.nowQ dt) up c f := by
  simp only [schedule, h, hq, hc, hf, Bool.not_true, Bool.false_eq_true, if_false]

/-- A copy that meets no changed cell leaves the device as it is. -/
theorem metCell_none (h : up.badCell = none) : metCell d c up = d := by simp only [metCell, h]

end

/-! ### TX_COMPLETE (R18, R439) -/

theorem Books.countDeq (d : Dev) (c : Copy) (len : Nat) (out : Option Nat) : Books d (countDeq d c len out) := by
  cases out with
  | none => exact refl d
  | some _ => exact (ctrAdd ..).trans (ctrAdd ..)

theorem Books.sendDex (d : Dev) (s : Nat) (c : Copy) (fields : Option (List Byte)) (rxTs : Nat) (e : EndInfo) :
    Books d (sendDex d s c fields rxTs e) := by
  cases fields with
  | none => exact refl d
  | some x =>
    exact ite (bump ..) (((bump ..).trans (slice ..)).trans (exportRecord ..))

theorem Sheds.chargeSent (d : Dev) (p q now w : Nat) : Sheds d (chargeSent d p q now w) := by
  unfold Machine.chargeSent
  refine (queueCells _ _ _ fun x => ?_).trans (portState ..)
  dsimp only
  split
  · rfl
  · rw [shaperSpend_pkts]

section
variable {g : Grid} {d : Dev} {p dt : Nat} {t : Tx} {f : Frame}

/-- With none in transmission nothing changes. -/
theorem txComplete_none (ht : (d.po p).tx = none) : txComplete g d p dt = d := by
  simp only [txComplete, ht]

/-- Nor where the frame is gone. -/
theorem txComplete_noFrame (ht : (d.po p).tx = some t) (hf : d.frame t.copy.pkt.fid = none) : txComplete g d p dt = d := by
  simp only [txComplete, ht, hf]

/-- Nor while bytes of the frame, or cells of it in pages, are to come. -/
theorem txComplete_waits (ht : (d.po p).tx = some t) (hf : d.frame t.copy.pkt.fid = some f)
    (h : f.complete = false ∨ inPages (d.qu (qid p t.copy.q)) t.copy.cid = true) : txComplete g d p dt = d := by
  have wait : (!f.complete) = true ∨ inPages (d.qu (qid p t.copy.q)) t.copy.cid = true := by
    simpa using h
  simp only [txComplete, ht, hf, if_pos wait]

/-- The end of a transmission: the frame leaves by txOut, and the rest sheds and leaves the port idle. -/
theorem txComplete_ends (ht : (d.po p).tx = some t) (hf : d.frame t.copy.pkt.fid = some f) (hc : f.complete = true)
    (hp : inPages (d.qu (qid p t.copy.q)) t.copy.cid = false) :
    Sheds (txOut d p (txBody t f ++ (if txStomped t f then stompedFcs (txBody t f) else ethFcs (txBody t f))) (txStomped t f))
        (txComplete g d p dt)
      ∧ ((txComplete g d p dt).po p).tx = none := by
  unfold txComplete
  rw [ht]
  dsimp -zeta only
  rw [hf]
  dsimp -zeta only
  extract_lets n s body bad b d1 d2 d3 units d4 d5 d6 d7 d8 e d9
  have sent : Sheds d1 d7 := by
    have h2 : Books d1 d2 := Books.ite (Books.ctrAdd ..) (Books.countFrame ..)
    have h3 : Books d1 d3 := Books.ite (h2.trans (Books.bump ..)) h2
    have h4 : Books d1 d4 := ((h3.trans (Books.pmuEvent ..)).trans (Books.pmuEvent ..)).trans (Books.charge ..)
    have h5 : Books d1 d5 := h4.trans (Books.countDeq ..)
    have h6 : Sheds d1 d6 := Sheds.ite (h5.sheds.trans (Sheds.chargeSent ..)) h5.sheds
    exact h6.trans (Sheds.releaseCopy ..)
  have ended : Books d8 (dropFrame d9 t.copy.pkt.fid) :=
    ((Books.sendDex ..).trans (Books.complete ..)).trans (Books.dropFrame ..)
  have whole : ¬ ((!f.complete) = true ∨ inPages (d.qu n) t.copy.cid = true) := by
    rw [hc, hp]
    decide
  rw [if_neg whole]
  refine ⟨((sent.trans (Sheds.portState ..)).trans ended.sheds).trans (Sheds.drainControl ..), ?_⟩
  rw [(ControlSent.drainControl ..).tx, ended.po, Dev.po_port_same]

end

end Sys2Proof.Machine

namespace Sys2Proof.Machine

/-- A frame leaves port p on the wire where the port is not in loopback. -/
theorem txOut_wire {d : Dev} {p : Nat} (b : List Byte) (stomped : Bool) (h : d.flag (PT_CFG.LOOP p) = false) :
    (txOut d p b stomped).out = d.out ++ [.tx p b stomped] := by
  simp only [txOut, h, Bool.false_eq_true, if_false, Dev.emit]

/-- In loopback it waits for the port's own receiver (R219). -/
theorem txOut_loop {d : Dev} {p : Nat} (b : List Byte) (stomped : Bool) (h : d.flag (PT_CFG.LOOP p) = true) :
    ((txOut d p b stomped).po p).looped = (d.po p).looped ++ [(b, stomped)] := by
  simp only [txOut, h, if_true, Dev.po_port_same]

/-! ### RECIRC_DEQUEUE (R278, R280) -/

section
variable {g : Grid} {d : Dev} {s dt : Nat} {up : Upsets} {c : Copy} {rest : List Copy} {f : Frame}

/-- With no packet to take, or its slice in reset, nothing changes. -/
theorem recircDequeue_idle (h : (d.sl s).recirc = [] ∨ d.sliceUp s = false) : recircDequeue g d s dt up = d := by
  unfold recircDequeue
  rcases h with h | h
  · rw [h]
    cases d.sliceUp s <;> rfl
  · rw [h]

/-- A packet whose frame is gone leaves the queue. -/
theorem recircDequeue_gone (hup : d.sliceUp s = true) (hr : (d.sl s).recirc = c :: rest) (hf : d.frame c.pkt.fid = none) :
    recircDequeue g d s dt up = d.slice s fun y => { y with recirc := rest } := by
  simp only [recircDequeue, hup, hr, hf]

/-- A packet whose bytes are still to come waits. -/
theorem recircDequeue_waits (hup : d.sliceUp s = true) (hr : (d.sl s).recirc = c :: rest) (hf : d.frame c.pkt.fid = some f)
    (hc : f.complete = false) : recircDequeue g d s dt up = d := by
  simp only [recircDequeue, hup, hr, hf, hc, Bool.not_false, if_true]

/-- A whole packet returns its cells and runs the egress pipeline; its frame may go. -/
theorem recircDequeue_runs {e : Dev} (hup : d.sliceUp s = true) (hr : (d.sl s).recirc = c :: rest)
    (hf : d.frame c.pkt.fid = some f) (hc : f.complete = true)
    (he : e = poolGive (sharedGive (d.slice s fun y => { y with recirc := rest }) (s / 16) c.cells) (s / 16) c ⟨c.cid, 0, c.cells⟩) :
    ∃ t, recircDequeue g d s dt up = dropFrame t c.pkt.fid
      ∧ (egressPass g e s (g.nowQ dt) up c f none 0 f.rxTs = .gone t
        ∨ ∃ c' b, egressPass g e s (g.nowQ dt) up c f none 0 f.rxTs = .send c' b t) := by
  simp only [recircDequeue, hup, hr, hf, hc, ← he, Bool.not_true, Bool.false_eq_true, if_false]
  cases egressPass g e s (g.nowQ dt) up c f none 0 f.rxTs with
  | gone t => exact ⟨t, rfl, .inl rfl⟩
  | send c' b t => exact ⟨t, rfl, .inr ⟨c', b, rfl⟩⟩

end

/-! ### The timing wheels (R453) -/

@[simp] theorem Dev.word_queue (d : Dev) (n a : Nat) (f : Queue → Queue) : (d.queue n f).word a = d.word a := rfl

/-- A pass over the 256 queues of slice s, in ascending order: each that is due is changed, and noted. -/
def slicePass (note : Dev → Dev) (due : Queue → Bool) (change : Queue → Queue) (s : Nat) (d : Dev) : Dev :=
  (List.range 256).foldl (fun d j => if due (d.qu (256 * s + j)) then (note d).queue (256 * s + j) change else d) d

/-- A pass changes the queues of its slice that were due, and no other. -/
theorem slicePass_qu {note : Dev → Dev} {due : Queue → Bool} {change : Queue → Queue} (keeps : ∀ d n, (note d).qu n = d.qu n)
    (s : Nat) (d : Dev) (n : Nat) :
    (slicePass note due change s d).qu n = if n / 256 = s ∧ due (d.qu n) then change (d.qu n) else d.qu n := by
  have step : ∀ (d : Dev) (j : Nat), (if due (d.qu (256 * s + j)) then (note d).queue (256 * s + j) change else d).qu n
      = if n = 256 * s + j ∧ due (d.qu n) then change (d.qu n) else d.qu n := by
    intro d j
    by_cases hn : n = 256 * s + j
    · subst hn
      by_cases hd : due (d.qu (256 * s + j)) = true
      · rw [if_pos hd, if_pos ⟨rfl, hd⟩, Dev.qu_queue_same, keeps]
      · rw [if_neg hd, if_neg (fun h => hd h.2)]
    · rw [apply_ite (Dev.qu · n), Dev.qu_queue_other _ _ hn, keeps, ite_self, if_neg (fun h => hn h.1)]
  have upTo : ∀ k, ((List.range k).foldl
      (fun d j => if due (d.qu (256 * s + j)) then (note d).queue (256 * s + j) change else d) d).qu n
      = if (256 * s ≤ n ∧ n < 256 * s + k) ∧ due (d.qu n) then change (d.qu n) else d.qu n := by
    intro k
    induction k with
    | zero => exact (if_neg (by omega)).symm
    | succ k ih =>
      rw [List.range_succ, List.foldl_append, List.foldl_cons, List.foldl_nil, step, ih]
      by_cases hk : n = 256 * s + k
      · have before : ¬ ((256 * s ≤ n ∧ n < 256 * s + k) ∧ due (d.qu n) = true) := by omega
        rw [if_neg before]
        exact if_congr (and_congr_left fun _ => by omega) rfl rfl
      · rw [if_neg (fun h => hk h.1)]
        exact if_congr (and_congr_left fun _ => by omega) rfl rfl
  exact (upTo 256).trans (if_congr (and_congr_left fun _ => by omega) rfl rfl)

/-- A queue's slot on the fine wheel has come. -/
def slotCome (now : Nat) (q : Queue) : Bool := match q.wheel with
  | some slot => !q.coarse && decide (slot * 64 ≤ now)
  | none => false

/-- A queue's slot on the coarse wheel lies in reach of the fine wheel. -/
def slotNear (now : Nat) (q : Queue) : Bool := match q.wheel with
  | some slot => q.coarse && decide (slot * 64 / 262144 * 262144 < now + 262144)
  | none => false

theorem wheelRelease_eq (d : Dev) (s now : Nat) : wheelRelease d s now
    = slicePass id (slotCome now) (fun q => { q with credit := creditAt q now, creditT := now, wheel := none }) s d := by
  refine congrArg (fun f => (List.range 256).foldl f d) (funext fun d => funext fun j => ?_)
  cases hw : (d.qu (256 * s + j)).wheel with
  | none => simp [slotCome, hw]
  | some slot => simp [slotCome, hw]

theorem wheelMove_eq (d : Dev) (s now : Nat) : wheelMove d s now
    = slicePass (·.bump (EQ_CNT_COARSE s)) (slotNear now) (fun q => { q with coarse := false }) s d := by
  refine congrArg (fun f => (List.range 256).foldl f d) (funext fun d => funext fun j => ?_)
  cases hw : (d.qu (256 * s + j)).wheel with
  | none => simp [slotNear, hw]
  | some slot => simp [slotNear, hw]

theorem wheelRelease_qu (d : Dev) (s now n : Nat) : (wheelRelease d s now).qu n =
    if n / 256 = s ∧ slotCome now (d.qu n) then { d.qu n with credit := creditAt (d.qu n) now, creditT := now, wheel := none }
    else d.qu n := by
  rw [wheelRelease_eq]
  exact slicePass_qu (fun _ _ => rfl) s d n

theorem wheelMove_qu (d : Dev) (s now n : Nat) : (wheelMove d s now).qu n =
    if n / 256 = s ∧ slotNear now (d.qu n) then { d.qu n with coarse := false } else d.qu n := by
  rw [wheelMove_eq]
  exact slicePass_qu (fun d n => (Books.bump d _).qu n) s d n

/-- The release changes queues alone. -/
theorem wheelRelease_frame (d : Dev) (s now : Nat) : ∃ qs, wheelRelease d s now = { d with queues := qs } := by
  rw [wheelRelease_eq]
  unfold slicePass
  refine List.foldlRecOn (motive := fun (e : Dev) => ∃ qs, e = { d with queues := qs }) _ _ ⟨d.queues, rfl⟩ fun e h j _ => ?_
  obtain ⟨qs, rfl⟩ := h
  split
  · exact ⟨_, rfl⟩
  · exact ⟨qs, rfl⟩

/-- Counting in register f and then changing a queue reaches no other register. -/
theorem bump_queue_word {f : Fld} {a : Nat} (ha : a ≠ f.addr) (d : Dev) (n : Nat) (change : Queue → Queue) :
    ((d.bump f).queue n change).word a = d.word a := by
  rw [Dev.word_queue]
  exact Dev.word_put_other _ _ _ ha

theorem bump_queue_frame (f : Fld) {d e : Dev} (h : ∃ qs r, e = { d with queues := qs, regs := r }) (n : Nat)
    (change : Queue → Queue) : ∃ qs r, (e.bump f).queue n change = { d with queues := qs, regs := r } := by
  obtain ⟨qs, r, rfl⟩ := h
  obtain ⟨r', bumped⟩ := Dev.put_frame { d with queues := qs, regs := r } f (Dev.get { d with queues := qs, regs := r } f + 1)
  rw [Dev.bump, Dev.addTo, bumped]
  exact ⟨_, r', rfl⟩

/-- A pass that counts in register f changes queues and f. -/
theorem slicePass_counted (f : Fld) (due : Queue → Bool) (change : Queue → Queue) (s : Nat) (d : Dev) :
    Dev.regsOnly [f.addr] { d with queues := (slicePass (·.bump f) due change s d).queues }
      (slicePass (·.bump f) due change s d) := by
  have pass : (∃ qs r, slicePass (·.bump f) due change s d = { d with queues := qs, regs := r })
      ∧ ∀ a, a ≠ f.addr → (slicePass (·.bump f) due change s d).word a = d.word a := by
    refine List.foldlRecOn (motive := fun (e : Dev) => (∃ qs r, e = { d with queues := qs, regs := r })
      ∧ ∀ a, a ≠ f.addr → e.word a = d.word a) _ _ ⟨⟨d.queues, d.regs, rfl⟩, fun _ _ => rfl⟩ fun e h j _ => ?_
    split
    · exact ⟨bump_queue_frame f h.1 _ change, fun a ha => (bump_queue_word ha e _ change).trans (h.2 a ha)⟩
    · exact h
  generalize slicePass (·.bump f) due change s d = e at pass ⊢
  obtain ⟨⟨qs, r, rfl⟩, words⟩ := pass
  exact ⟨⟨r, d.out, d.pba, rfl⟩, fun a ha => words a (List.mem_singleton.not.mp ha)⟩

/-- The move changes queues and its counter. -/
theorem wheelMove_frame (d : Dev) (s now : Nat) :
    Dev.regsOnly [(EQ_CNT_COARSE s).addr] { d with queues := (wheelMove d s now).queues } (wheelMove d s now) := by
  rw [wheelMove_eq]
  exact slicePass_counted ..

end Sys2Proof.Machine

namespace Sys2Proof.Machine

/-! ### The commands of transmission outside power-on reset -/

theorem exec_schedulerDecision (p : Fin 1024) (dt : Nat) (up : Upsets) {s : State} (h : s.held = false) :
    exec (.schedulerDecision p dt up) s = .next { s with dev := schedule s.grid s.dev p dt up } :=
  State.withDev_live (fun d => schedule s.grid d p dt up) h

theorem exec_txComplete (p : Fin 1024) (dt : Nat) {s : State} (h : s.held = false) :
    exec (.txComplete p dt) s = .next { s with dev := txComplete s.grid s.dev p dt } :=
  State.withDev_live (fun d => txComplete s.grid d p dt) h

theorem exec_recircDequeue (sl : Fin 32) (dt : Nat) (up : Upsets) {s : State} (h : s.held = false) :
    exec (.recircDequeue sl dt up) s = .next { s with dev := recircDequeue s.grid s.dev sl dt up } :=
  State.withDev_live (fun d => recircDequeue s.grid d sl dt up) h

theorem exec_wheelSlotRelease (sl : Fin 32) (dt : Nat) {s : State} (h : s.held = false) :
    exec (.wheelSlotRelease sl dt) s
      = .next { s with dev := if s.dev.sliceUp sl then wheelRelease s.dev sl (s.grid.nowQ dt) else s.dev } :=
  State.withDev_live (fun d => if d.sliceUp sl then wheelRelease d sl (s.grid.nowQ dt) else d) h

theorem exec_wheelCoarseMove (sl : Fin 32) (dt : Nat) {s : State} (h : s.held = false) :
    exec (.wheelCoarseMove sl dt) s
      = .next { s with dev := if s.dev.sliceUp sl then wheelMove s.dev sl (s.grid.nowQ dt) else s.dev } :=
  State.withDev_live (fun d => if d.sliceUp sl then wheelMove d sl (s.grid.nowQ dt) else d) h

/-- SCHEDULER_DECISION serves q7 where it has a frame, credit and no pause; a raw copy of it begins to leave. -/
theorem schedule_promised {g : Grid} {d : Dev} {p dt : Nat} {up : Upsets} {c : Copy} (start : canStart d p = true)
    (hc : headCopy d (qid p 7) = some c) (hp : pausedQ d p 7 (g.nowQ dt) = false)
    (credit : (d.po p).credit = none ∨ ∃ k, (d.po p).credit = some k ∧ 0 < k) :
    chooseQueue (drainControl d p) p (g.nowQ dt) = some (7, drainControl d p)
      ∧ headCopy (drainControl d p) (qid p 7) = some c
      ∧ ∀ f, d.frame c.pkt.fid = some f → c.raw = true → c.lost = false → c.badAt = none → up.badCell = none →
        ((schedule g d p dt up).qu (qid p 7)).pkts = (d.qu (qid p 7)).pkts.drop 1
          ∧ ∃ t, ((schedule g d p dt up).po p).tx = some t ∧ t.copy = { c with cut := !f.complete } ∧ t.asIs = true
            ∧ t.start = g.nowQ dt := by
  have sent := ControlSent.drainControl d p
  have head : headCopy (drainControl d p) (qid p 7) = some c := (sent.headCopy _).trans hc
  have chosen : chooseQueue (drainControl d p) p (g.nowQ dt) = some (7, drainControl d p) :=
    chooseQueue_promised (by rw [head]; rfl) ((sent.pausedQ ..).trans hp) (by rwa [sent.credit])
  refine ⟨chosen, head, fun f hf hraw hlost hbad hup => ?_⟩
  have served : schedule g d p dt up = serve g (drainControl d p) p 7 (g.nowQ dt) up c f := by
    have met : metCell (drainControl d p) c up = drainControl d p := metCell_none hup
    rw [schedule_serve start chosen head (f := f) (by rw [met, sent.frame_eq, hf]), met]
  rw [served, ← sent.qu]
  exact serve_raw _ _ _ _ _ _ _ _ hraw hlost hbad hup

/-- Settles O41: each command by the cases of its effect; what TX_COMPLETE does after the frame has left only sheds. -/
theorem transmission : Obligations.Transmission := by
  refine ⟨?scheduler, fun d p now => chooseQueue_control, ?tx, ?recirc, ?wheelsDown, ?wheelsUp⟩
  case scheduler =>
    intro p dt now up s held hnow
    subst hnow
    refine ⟨fun h => ?_, fun start => ⟨fun hq => ?_, fun q d e c f hq hc he hf => ?_, fun c hc hp credit => ?_⟩⟩
    · rw [exec_schedulerDecision _ _ _ held, schedule_idle h]
    · rw [exec_schedulerDecision _ _ _ held, schedule_control start hq]
    · subst he
      rw [exec_schedulerDecision _ _ _ held, schedule_serve start hq hc hf]
    · obtain ⟨chosen, head, leaves⟩ := schedule_promised (up := up) start hc hp credit
      exact ⟨chosen, head, fun f hf hraw hlost hbad hup =>
        ⟨_, exec_schedulerDecision _ _ _ held, leaves f hf hraw hlost hbad hup⟩⟩
  case tx =>
    refine fun p dt s held => ⟨fun ht => ?_, fun t ht => ⟨fun hf => ?_, fun f b hf hb => ⟨fun h => ?_, fun hc hpages => ?_⟩⟩⟩
    · rw [exec_txComplete _ _ held, txComplete_none ht]
    · rw [exec_txComplete _ _ held, txComplete_noFrame ht hf]
    · rw [exec_txComplete _ _ held, txComplete_waits ht hf h]
    · obtain ⟨sent, idle⟩ := txComplete_ends (g := s.grid) (dt := dt) ht hf hc hpages
      rw [← hb] at sent
      refine ⟨_, exec_txComplete _ _ held, idle, fun wire => ?_, fun loop => ?_⟩
      · obtain ⟨o, ho⟩ := sent.out
        exact ⟨o, by rw [← ho, txOut_wire _ _ wire, List.append_assoc, List.singleton_append]⟩
      · obtain ⟨o, ho⟩ := sent.looped p
        exact ⟨o, by rw [← ho, txOut_loop _ _ loop, List.append_assoc, List.singleton_append]⟩
  case recirc =>
    refine fun sl dt up s held => ⟨fun h => ?_, fun c rest d hup hr hd => ⟨fun hf => ?_, fun f e hf he =>
      ⟨fun hc => ?_, fun hc => ?_⟩⟩⟩
    · rw [exec_recircDequeue _ _ _ held, recircDequeue_idle h]
    · rw [exec_recircDequeue _ _ _ held, recircDequeue_gone hup hr hf, hd]
    · rw [exec_recircDequeue _ _ _ held, recircDequeue_waits hup hr hf hc]
    · obtain ⟨t, ht, passed⟩ := recircDequeue_runs (g := s.grid) (dt := dt) (up := up) hup hr hf hc (he.trans (by rw [hd]))
      exact ⟨t, by rw [exec_recircDequeue _ _ _ held, ht], passed⟩
  case wheelsDown =>
    intro sl dt s held down
    rw [exec_wheelSlotRelease _ _ held, exec_wheelCoarseMove _ _ held, down]
    exact ⟨rfl, rfl⟩
  case wheelsUp =>
    intro sl dt s held up
    rw [exec_wheelSlotRelease _ _ held, exec_wheelCoarseMove _ _ held, if_pos up, if_pos up]
    refine ⟨?_, _, rfl, wheelMove_frame .., fun n => ?_⟩
    · obtain ⟨qs, hqs⟩ := wheelRelease_frame s.dev sl (s.grid.nowQ dt)
      refine ⟨qs, by rw [hqs], fun n => ?_⟩
      have qu : qs.get {} n = (wheelRelease s.dev sl (s.grid.nowQ dt)).qu n := by rw [hqs]; rfl
      rw [qu, wheelRelease_qu]
      cases hw : (s.dev.qu n).wheel with
      | none => simp [slotCome, hw]
      | some slot => simp [slotCome, hw]
    · rw [wheelMove_qu]
      cases hw : (s.dev.qu n).wheel with
      | none => simp [slotNear, hw]
      | some slot => simp [slotNear, hw]

end Sys2Proof.Machine

namespace Sys2Proof.Machine

/-! ### Frames of registers, and reads that a frame leaves alone -/

/-- A field of a register outside the frame reads as before. -/
theorem Dev.regsOnly.get_eq {l : List Nat} {d e : Dev} (h : Dev.regsOnly l d e) {f : Fld} (hf : f.addr ∉ l) :
    e.get f = d.get f := by rw [Dev.get, h.2 _ hf, Dev.get]

theorem Dev.regsOnly_refl (l : List Nat) (d : Dev) : Dev.regsOnly l d d := ⟨⟨d.regs, d.out, d.pba, rfl⟩, fun _ _ => rfl⟩

theorem Dev.regsOnly_emit (l : List Nat) (d : Dev) (o : Output) : Dev.regsOnly l d (d.emit o) :=
  ⟨⟨d.regs, _, d.pba, rfl⟩, fun _ _ => rfl⟩

theorem Dev.regsOnly_setWord (d : Dev) (a : Nat) (v : Word) : Dev.regsOnly [a] d (d.setWord a v) :=
  ⟨⟨_, _, _, rfl⟩, fun _ h => Dev.word_setWord_other d v (List.mem_singleton.not.mp h)⟩

theorem Dev.regsOnly_bump (d : Dev) (f : Fld) : Dev.regsOnly [f.addr] d (d.bump f) := Dev.regsOnly_put ..

/-- Frames over two lists compose to one over a list that holds both. -/
theorem Dev.regsOnly.then {l m n : List Nat} {d e f : Dev} (h : Dev.regsOnly l d e) (k : Dev.regsOnly m e f)
    (hl : ∀ a ∈ l, a ∈ n) (hm : ∀ a ∈ m, a ∈ n) : Dev.regsOnly n d f :=
  Dev.regsOnly_trans (Dev.regsOnly_mono h hl) (Dev.regsOnly_mono k hm)

/-- A report besides the frame's registers. -/
theorem Dev.regsOnly.report {l : List Nat} {d e : Dev} (h : Dev.regsOnly l d e) (src detail : Nat) :
    Dev.regsOnly l { d with reports := (e.report src detail).reports } (e.report src detail) := by
  obtain ⟨⟨r, o, p, rfl⟩, hw⟩ := h
  exact ⟨⟨r, o, p, rfl⟩, hw⟩

/-- What leaves an event's register alone leaves it raised. -/
theorem Dev.raised.of_word {f : Fld} {d e e' : Dev} (h : Dev.raised f d e) (k : e'.word f.addr = e.word f.addr) :
    Dev.raised f d e' := by
  simpa only [Dev.raised, Dev.get, k] using h

/-- What happens outside an event's register leaves it raised. -/
theorem Dev.raised.keep {l : List Nat} {f : Fld} {d e e' : Dev} (h : Dev.raised f d e) (k : Dev.regsOnly l e e')
    (hf : f.addr ∉ l) : Dev.raised f d e' := h.of_word (k.2 _ hf)

/-- An event raised after the status register's SEQ was left alone. -/
theorem Dev.raised.after {f : Fld} {d d' e : Dev} (h : Dev.raised f d' e)
    (hseq : d'.get ⟨f.addr, 31, 24⟩ = d.get ⟨f.addr, 31, 24⟩) : Dev.raised f d e := ⟨h.1, by rw [h.2, hseq]⟩

/-- A counter register counts one more, modulo its width. -/
theorem Dev.get_bump (d : Dev) (f : Fld) (h : f.lo ≤ f.hi) (h31 : f.hi < 32) :
    (d.bump f).get f = (d.get f + 1) % 2 ^ (f.hi + 1 - f.lo) := Dev.get_put _ _ _ h h31

/-! ### PPS_IN and PPS_OUT (R70, R650) -/

theorem exec_ppsInEdge_enabled (dt : Nat) {s : State} (held : s.held = false) (h : s.dev.flag TIME_CTL.PPS_IN_EN = true) :
    exec (.ppsInEdge dt) s = .next { s with
      grid := { s.grid with ppsIn := BitVec.ofNat 128 (timeLayout (s.grid.nowQ dt)) }
      dev := (s.dev.event TIME_STATUS.PPS_IN).bump TIME_CNT_PPS_IN } := by
  show execPpsInEdge dt s = _
  rw [execPpsInEdge, State.withAll_live _ held, if_pos h]

theorem exec_ppsInEdge_disabled (dt : Nat) {s : State} (held : s.held = false) (h : s.dev.flag TIME_CTL.PPS_IN_EN = false) :
    exec (.ppsInEdge dt) s = .next s := by
  show execPpsInEdge dt s = _
  rw [execPpsInEdge, State.withAll_live _ held, if_neg (by simp [h])]

theorem exec_ppsInLost {s : State} (held : s.held = false) :
    exec .ppsInLost s = .next { s with
      dev := if s.dev.flag TIME_CTL.PPS_IN_EN then s.dev.event TIME_STATUS.PPS_IN_LOST else s.dev } :=
  State.withDev_live _ held

theorem exec_ppsOutPulse (dt : Nat) (rise : Bool) {s : State} (held : s.held = false) :
    exec (.ppsOutPulse dt rise) s = .next { s with dev := setPpsOut s.dev (rise && s.dev.flag TIME_CTL.PPS_OUT_EN) } :=
  State.withDev_live (fun d => setPpsOut d (rise && d.flag TIME_CTL.PPS_OUT_EN)) held

/-- An edge of PPS_IN is flagged and counted, and touches nothing else. -/
theorem ppsInEdge_dev (d : Dev) :
    let e := (d.event TIME_STATUS.PPS_IN).bump TIME_CNT_PPS_IN
    Dev.raised TIME_STATUS.PPS_IN d e ∧ e.get TIME_CNT_PPS_IN = (d.get TIME_CNT_PPS_IN + 1) % 2 ^ 32
      ∧ Dev.regsOnly [TIME_STATUS.word.addr, TIME_CNT_PPS_IN.addr] d e := by
  have flagged := Dev.regsOnly_event d TIME_STATUS.PPS_IN
  have counted := Dev.regsOnly_bump (d.event TIME_STATUS.PPS_IN) TIME_CNT_PPS_IN
  refine ⟨(Dev.raised_event d TIME_STATUS.PPS_IN (by decide)).keep counted (by decide), ?_,
    flagged.then counted (by decide) (by decide)⟩
  rw [Dev.get_bump _ _ (by decide) (by decide), flagged.get_eq (by decide)]
  rfl

/-- Settles O13: each pin by its enable. -/
theorem ppsPins : Obligations.PpsPins := by
  intro dt rise s held
  refine ⟨fun on => ⟨⟨_, exec_ppsInEdge_enabled dt held on, ppsInEdge_dev s.dev⟩, _, ?_,
    Dev.raised_event s.dev TIME_STATUS.PPS_IN_LOST (by decide), Dev.regsOnly_event s.dev TIME_STATUS.PPS_IN_LOST⟩,
    fun off => ⟨exec_ppsInEdge_disabled dt held off, ?_⟩, fun level hlevel => ?_⟩
  · rw [exec_ppsInLost held, if_pos on]
  · rw [exec_ppsInLost held, if_neg (by simp [off])]
  · rw [exec_ppsOutPulse dt rise held, ← hlevel, setPpsOut]
    exact ⟨fun same => by rw [if_pos same], fun change => by rw [if_neg change]; rfl⟩

end Sys2Proof.Machine

namespace Sys2Proof.Machine

/-! ### The phase error and the state (R39, R41, R68) -/

theorem fineNs_eq : fineNs = 1024000000000 := rfl

theorem fineFrame_eq : fineFrame = 1048576 * fineNs := rfl

@[simp] theorem judge_epoch (now : Int) (g : Grid) (d : Dev) : (judge now g d).1.epoch = g.epoch := rfl
@[simp] theorem judge_base (now : Int) (g : Grid) (d : Dev) : (judge now g d).1.base = g.base := rfl
@[simp] theorem judge_phaseErr (now : Int) (g : Grid) (d : Dev) : (judge now g d).1.phaseErr = g.err / fineNs := rfl
@[simp] theorem judge_err (now : Int) (g : Grid) (d : Dev) : (judge now g d).1.err = g.err := rfl
@[simp] theorem judge_missed (now : Int) (g : Grid) (d : Dev) : (judge now g d).1.missed = g.missed := rfl
@[simp] theorem judge_gsyncWord (now : Int) (g : Grid) (d : Dev) : (judge now g d).1.gsyncWord = g.gsyncWord := rfl

/-- The device is told that AHEAD or BEHIND was entered, or nothing. -/
theorem judge_dev (now : Int) (g : Grid) (d : Dev) :
    (judge now g d).2 = d ∨ (judge now g d).2 = d.event GRT_STATUS.AHEAD ∨ (judge now g d).2 = d.event GRT_STATUS.BEHIND := by
  simp only [judge]
  split
  · exact .inr (.inl rfl)
  · split
    · exact .inr (.inr rfl)
    · exact .inl rfl

theorem judge_regsOnly (now : Int) (g : Grid) (d : Dev) : Dev.regsOnly [GRT_STATUS.word.addr] d (judge now g d).2 := by
  obtain h | h | h := judge_dev now g d
  · rw [h]; exact Dev.regsOnly_refl ..
  · rw [h]; exact Dev.regsOnly_event d GRT_STATUS.AHEAD
  · rw [h]; exact Dev.regsOnly_event d GRT_STATUS.BEHIND

theorem judge_books (now : Int) (g : Grid) (d : Dev) : Books d (judge now g d).2 := by
  obtain h | h | h := judge_dev now g d
  · rw [h]; exact Books.refl d
  · rw [h]; exact Books.event ..
  · rw [h]; exact Books.event ..

/-- A phase error above one frame is AHEAD while tracking is on (R68). -/
theorem grtState_ahead {d : Dev} {err : Int} (track : d.flag GRT_EPOCH_CTL.TRACK_EN = true) (h : err > fineFrame) :
    grtState d false err = .ahead := by
  have far : ¬ err.natAbs ≤ (4 * fineNs).natAbs := by rw [fineFrame_eq, fineNs_eq] at h; rw [fineNs_eq]; omega
  simp [grtState, track, far, h]

/-- A phase error of 0 is no reason for a jump (R41). -/
theorem grtState_zero (d : Dev) : grtState d false 0 ≠ .ahead := by
  cases h : d.flag GRT_EPOCH_CTL.TRACK_EN with
  | false => simp [grtState, h]
  | true => simp [grtState, h]

/-- A jump asked for while AHEAD is due from the moment it was first due (R41). -/
theorem judge_jumpAsked {g : Grid} {d : Dev} (now : Int) (ahead : g.state = .ahead) (asked : g.jumpAsked = true)
    (track : d.flag GRT_EPOCH_CTL.TRACK_EN = true) (h : g.err > fineFrame) :
    judge now g d = ({ g with phaseErr := g.err / fineNs, jumpFrom := some (g.jumpFrom.getD now) }, d) := by
  have st : grtState d (decide (g.state = .holdover)) g.err = .ahead := by
    rw [ahead]; exact grtState_ahead track h
  simp only [judge, st]
  simp [ahead, asked]

/-! ### JUMP_REQ and LATE_LIMIT (R41, R58) -/

theorem exec_jumpReq (dt : Nat) {s : State} (held : s.held = false) :
    exec (.jumpReq dt) s = .next { s with grid := (jumpReq dt s.grid s.dev).1, dev := (jumpReq dt s.grid s.dev).2 } :=
  State.withAll_live (fun g b d => ((jumpReq dt g d).1, b, (jumpReq dt g d).2)) held

theorem jumpReq_ahead {g : Grid} (dt : Nat) (d : Dev) (h : g.state = .ahead) :
    jumpReq dt g d = judge (g.base + dt * fineQ) { g with jumpAsked := true } d := if_pos h

theorem jumpReq_elsewhere {g : Grid} (dt : Nat) (d : Dev) (h : g.state ≠ .ahead) : jumpReq dt g d = (g, d) := if_neg h

/-- A command on Graticule, banks and device that leaves them as they are. -/
theorem State.withAll_same {s : State} {f : Grid → Banks → Dev → Grid × Banks × Dev}
    (h : f s.grid s.banks s.dev = (s.grid, s.banks, s.dev)) : s.withAll f = .next s := by
  rw [State.withAll, h]
  split
  · rfl
  · rfl

/-- A command on the device that leaves it as it is. -/
theorem State.withDev_same {s : State} {f : Dev → Dev} (h : f s.dev = s.dev) : s.withDev f = .next s := by
  rw [State.withDev, h]
  split
  · rfl
  · rfl

/-- The device after LATE_LIMIT of class c was raised. -/
def lateRaisedBy (c : Fin 3) (d : Dev) : Dev :=
  (Dev.event { d with lateRaised := c.val :: d.lateRaised } GRT_STATUS.LATE_LIMIT).report (0x020 + c) 0

theorem exec_lateLimit_raised {c : Fin 3} {s : State} (held : s.held = false)
    (on : s.dev.get (GRT_LATE_CFG.LATE_LIMIT c) ≠ 0)
    (run : s.dev.get (GRT_LATE_CFG.LATE_LIMIT c) ≤ s.dev.get (GRT_LATE_RUN.LATE_NOW c)) (first : c.val ∉ s.dev.lateRaised) :
    exec (.lateLimit c) s = .next { s with dev := lateRaisedBy c s.dev } := by
  show execLateLimit c s = _
  rw [execLateLimit, State.withDev_live _ held]
  have due : s.dev.lateRaised.contains c.val = false := by simpa using first
  simp only [on, run, due, ne_eq, not_false_eq_true, and_self, if_true]
  rfl

theorem exec_lateLimit_same {c : Fin 3} {s : State} (h : s.dev.get (GRT_LATE_CFG.LATE_LIMIT c) = 0
    ∨ s.dev.get (GRT_LATE_RUN.LATE_NOW c) < s.dev.get (GRT_LATE_CFG.LATE_LIMIT c) ∨ c.val ∈ s.dev.lateRaised) :
    exec (.lateLimit c) s = .next s := by
  show execLateLimit c s = _
  rw [execLateLimit]
  refine State.withDev_same (if_neg ?_)
  rintro ⟨on, run, first⟩
  obtain h | h | h := h
  · exact on h
  · exact Nat.not_le_of_lt h run
  · simp [h] at first

/-- LATE_LIMIT is flagged and reported, and only GRT_STATUS changes besides. -/
theorem lateRaisedBy_dev (c : Fin 3) (d : Dev) :
    Dev.raised GRT_STATUS.LATE_LIMIT d (lateRaisedBy c d) ∧ Dev.reported [(0x020 + c.val, 0)] d (lateRaisedBy c d)
      ∧ Dev.regsOnly [GRT_STATUS.word.addr] { d with lateRaised := c.val :: d.lateRaised, reports := (lateRaisedBy c d).reports }
          (lateRaisedBy c d) := by
  refine ⟨Dev.raised_event { d with lateRaised := c.val :: d.lateRaised } GRT_STATUS.LATE_LIMIT (by decide), ?_,
    (Dev.regsOnly_event { d with lateRaised := c.val :: d.lateRaised } GRT_STATUS.LATE_LIMIT).report _ _⟩
  exact ⟨_, by rw [lateRaisedBy, Dev.report, Dev.event_reports], rfl⟩

/-- Settles O11: JUMP_REQ by the Graticule's state, LATE_LIMIT by its three conditions. -/
theorem jumpReqAndLateLimit : Obligations.JumpReqAndLateLimit := by
  refine ⟨fun dt s held ahead track err => ?_, fun dt s h => ?_, fun c s held on run first => ?_,
    fun c s => exec_lateLimit_same⟩
  · rw [exec_jumpReq dt held, jumpReq_ahead dt _ ahead,
      judge_jumpAsked (g := { s.grid with jumpAsked := true }) _ ahead rfl track err]
    rfl
  · show execJumpReq dt s = _
    rw [execJumpReq]
    exact State.withAll_same (by rw [jumpReq_elsewhere dt _ h])
  · exact ⟨_, exec_lateLimit_raised held on run first, lateRaisedBy_dev c s.dev⟩

end Sys2Proof.Machine

namespace Sys2Proof.Machine

/-- Reports on top of a device that had reported as much. -/
theorem Dev.reported.after {l : List (Nat × Nat)} {d d' e : Dev} (h : Dev.reported l d' e) (hr : d'.reports = d.reports) :
    Dev.reported l d e := by
  obtain ⟨r, he, hl⟩ := h
  exact ⟨r, by rw [he, hr], hl⟩

/-- A frame holds whatever was reported before both ends. -/
theorem Dev.regsOnly.withReports {l : List Nat} {d e : Dev} (h : Dev.regsOnly l d e) (r : List Report) :
    Dev.regsOnly l { d with reports := r } { e with reports := r } := by
  obtain ⟨⟨r, o, p, rfl⟩, words⟩ := h
  exact ⟨⟨r, o, p, rfl⟩, words⟩

/-- A field outside a frame that a report stands in reads as before. -/
theorem Dev.regsOnly.get_of_reports {l : List Nat} {d e : Dev} {r : List Report}
    (h : Dev.regsOnly l { d with reports := r } e) {f : Fld} (hf : f.addr ∉ l) : e.get f = d.get f := h.get_eq hf

/-! ### Bus errors (R101, R112) -/

@[simp] theorem Dev.get_report (d : Dev) (src detail : Nat) (f : Fld) : (d.report src detail).get f = d.get f := rfl

/-- A report leaves a raised event as it is. -/
theorem Dev.raised.report {f : Fld} {d e : Dev} (h : Dev.raised f d e) (src detail : Nat) :
    Dev.raised f d (e.report src detail) := h

theorem srcCode_lt (src : Src) : srcCode src < 4 := by cases src <;> decide

/-- HIF_BUSERR as a bus error fills it, before its event. -/
def busErrorFields (d : Dev) (src : Src) (kind bar off : Nat) (write : Bool) : Dev :=
  ((((d.put HIF_BUSERR.SOURCE (srcCode src)).put HIF_BUSERR.DIR (if write then 1 else 0)).put HIF_BUSERR.KIND kind).put
    HIF_BUSERR_ADDR.BAR bar).put HIF_BUSERR_ADDR.OFFSET off

theorem busError_eq (d : Dev) (src : Src) (kind bar off : Nat) (write : Bool) : busError d src kind bar off write
    = (((busErrorFields d src kind bar off write).event HIF_BUSERR.PENDING).bump HIF_BUSERR_CNT.COUNT).report kind 0 := rfl

theorem busErrorFields_reports (d : Dev) (src : Src) (kind bar off : Nat) (write : Bool) :
    (busErrorFields d src kind bar off write).reports = d.reports := by
  rw [busErrorFields, Dev.put_reports, Dev.put_reports, Dev.put_reports, Dev.put_reports, Dev.put_reports]

theorem busErrorFields_regsOnly (d : Dev) (src : Src) (kind bar off : Nat) (write : Bool) :
    Dev.regsOnly busErrorRegs d (busErrorFields d src kind bar off write) := by
  have field (e : Dev) (f : Fld) (v : Nat) (h : f.addr ∈ busErrorRegs) : Dev.regsOnly busErrorRegs e (e.put f v) :=
    Dev.regsOnly_mono (Dev.regsOnly_put ..) (by simpa using h)
  exact Dev.regsOnly_trans (Dev.regsOnly_trans (Dev.regsOnly_trans (Dev.regsOnly_trans (field _ _ _ (by decide))
    (field _ _ _ (by decide))) (field _ _ _ (by decide))) (field _ _ _ (by decide))) (field _ _ _ (by decide))

/-- A bus error changes HIF_BUSERR's registers and reports a fault. -/
theorem busError_regsOnly (d : Dev) (src : Src) (kind bar off : Nat) (write : Bool) :
    Dev.regsOnly busErrorRegs { d with reports := (busError d src kind bar off write).reports }
      (busError d src kind bar off write) := by
  rw [busError_eq]
  refine (Dev.regsOnly_trans (busErrorFields_regsOnly d src kind bar off write) ?_).report _ _
  exact (Dev.regsOnly_event _ HIF_BUSERR.PENDING).then (Dev.regsOnly_bump _ HIF_BUSERR_CNT.COUNT) (by decide) (by decide)

/-- A bus error is logged as R112 says. -/
theorem busError_logged (d : Dev) (src : Src) {kind bar : Nat} (off : Nat) (write : Bool) (hk : kind < 16) (hb : bar < 4) :
    Dev.busErrorLogged src kind bar off write d (busError d src kind bar off write) := by
  have hs := srcCode_lt src
  have hw : (if write then 1 else 0) < 2 := by cases write <;> decide
  rw [busError_eq]
  have pending := Dev.raised_event (busErrorFields d src kind bar off write) HIF_BUSERR.PENDING (by decide)
  have counted := Dev.regsOnly_bump ((busErrorFields d src kind bar off write).event HIF_BUSERR.PENDING) HIF_BUSERR_CNT.COUNT
  refine ⟨?_, ?_, ?_, ?_, ?_, ?_, ((pending.keep counted (by decide)).report kind 0).after ?_,
    (Dev.reported_report _ kind 0).after ?_⟩
  case refine_8 => exact (Dev.bump_reports ..).trans ((Dev.event_reports ..).trans (busErrorFields_reports ..))
  all_goals
    simp (disch := decide) only [busErrorFields, Dev.get_report, Dev.bump, Dev.addTo, Dev.event_get_other, Dev.get_put_other,
      Dev.get_put]
  · exact Nat.mod_eq_of_lt hs
  · exact Nat.mod_eq_of_lt hw
  · exact Nat.mod_eq_of_lt hk
  · exact Nat.mod_eq_of_lt hb
  · rfl
  · rfl

/-- Fields written before a bus error, outside HIF_BUSERR's registers, do not show in its log. -/
theorem Dev.busErrorLogged.after {l : List Nat} {src : Src} {kind bar off : Nat} {write : Bool} {d d' e : Dev}
    (h : Dev.busErrorLogged src kind bar off write d' e) (k : Dev.regsOnly l d d') (hl : ∀ a ∈ busErrorRegs, a ∉ l) :
    Dev.busErrorLogged src kind bar off write d e := by
  obtain ⟨source, dir, hkind, hbar, offset, count, pending, reported⟩ := h
  refine ⟨source, dir, hkind, hbar, offset, ?_, pending.after ?_, reported.after ?_⟩
  · rw [count, k.get_eq (f := HIF_BUSERR_CNT.COUNT) (hl _ (by decide))]
  · exact k.get_eq (f := ⟨HIF_BUSERR.PENDING.addr, 31, 24⟩) (hl _ (by decide))
  · obtain ⟨⟨_, _, _, rfl⟩, -⟩ := k
    rfl

/-! ### Steps and offsets of PTP time (R65, R71, R72) -/

@[simp] theorem setClock_epoch (t : Int) (dt : Nat) (g : Grid) (d : Dev) : (setClock t dt g d).1.epoch = g.epoch := rfl
@[simp] theorem setClock_base (t : Int) (dt : Nat) (g : Grid) (d : Dev) :
    (setClock t dt g d).1.base = t - dt * fineQ := rfl
@[simp] theorem setClock_stepWritten (t : Int) (dt : Nat) (g : Grid) (d : Dev) :
    (setClock t dt g d).1.stepWritten = g.stepWritten := rfl
@[simp] theorem setClock_offsetWritten (t : Int) (dt : Nat) (g : Grid) (d : Dev) :
    (setClock t dt g d).1.offsetWritten = g.offsetWritten := rfl

/-- Of the registers a step of the clock changes GRT_STATUS alone. -/
theorem setClock_word (t : Int) (dt : Nat) (g : Grid) (d : Dev) {a : Nat} (h : a ≠ GRT_STATUS.word.addr) :
    (setClock t dt g d).2.word a = d.word a := (judge_regsOnly _ _ _).2 a (List.mem_singleton.not.mpr h)

/-- A step of the clock is flagged and counted by the counter of its kind. -/
theorem setClock_counted (t : Int) (dt : Nat) (g : Grid) (d : Dev) {c : Fld} (width : c.lo ≤ c.hi ∧ c.hi < 32)
    (hc : c.addr ≠ GRT_STATUS.word.addr) (hs : TIME_STATUS.STEPPED.addr ≠ c.addr) :
    let e := (setClock t dt g ((d.event TIME_STATUS.STEPPED).bump c)).2
    e.get c = (d.get c + 1) % 2 ^ (c.hi + 1 - c.lo) ∧ Dev.raised TIME_STATUS.STEPPED d e := by
  have flagged := Dev.raised_event d TIME_STATUS.STEPPED (by decide)
  refine ⟨?_, (flagged.keep (Dev.regsOnly_bump _ c) (by simpa using hs)).of_word (setClock_word _ _ _ _ (by decide))⟩
  rw [Dev.get, setClock_word _ _ _ _ hc, ← Dev.get, Dev.get_bump _ _ width.1 width.2,
    (Dev.regsOnly_event d TIME_STATUS.STEPPED).get_eq (by simpa using hs.symm)]

theorem exec_timeStep_follower (src : Src) (v : BitVec 128) (dt : Nat) {s : State} (held : s.held = false)
    (f : follower s.dev = true) : exec (.timeStep src v dt) s = .next { s with dev := timeLocked s.dev src } := by
  show execTimeStep src v dt s = _
  rw [execTimeStep, State.withAll_live _ held, if_pos f]

theorem exec_timeStep_free (src : Src) (v : BitVec 128) (dt : Nat) {s : State} (held : s.held = false)
    (f : follower s.dev = false) : exec (.timeStep src v dt) s = .next { s with
      grid := (timeStep v dt s.grid s.dev).1, dev := (timeStep v dt s.grid s.dev).2 } := by
  show execTimeStep src v dt s = _
  rw [execTimeStep, State.withAll_live _ held, if_neg (by simp [f])]

theorem exec_timeOffset_follower (src : Src) (v : BitVec 64) (dt : Nat) {s : State} (held : s.held = false)
    (f : follower s.dev = true) : exec (.timeOffset src v dt) s = .next { s with dev := timeLocked s.dev src } := by
  show execTimeOffset src v dt s = _
  rw [execTimeOffset, State.withAll_live _ held, if_pos f]

theorem exec_timeOffset_free (src : Src) (v : BitVec 64) (dt : Nat) {s : State} (held : s.held = false)
    (f : follower s.dev = false) : exec (.timeOffset src v dt) s = .next { s with
      grid := (timeOffset v dt s.grid s.dev).1, dev := (timeOffset v dt s.grid s.dev).2 } := by
  show execTimeOffset src v dt s = _
  rw [execTimeOffset, State.withAll_live _ held, if_neg (by simp [f])]

/-- TIME's mailbox after a refused write: ERR is 2, VALID is 0. -/
def timeRefused (d : Dev) : Dev := (d.put ⟨mbxTime + 0x14, 15, 12⟩ 2).put ⟨mbxTime + 0x14, 0, 0⟩ 0

theorem timeRefused_regsOnly (d : Dev) : Dev.regsOnly [mbxTime + 0x14] d (timeRefused d) :=
  Dev.regsOnly_trans (Dev.regsOnly_put d ⟨mbxTime + 0x14, 15, 12⟩ 2) (Dev.regsOnly_put _ ⟨mbxTime + 0x14, 0, 0⟩ 0)

theorem timeRefused_err (d : Dev) : (timeRefused d).get ⟨mbxTime + 0x14, 15, 12⟩ = 2 := by
  rw [timeRefused, Dev.get_put_other _ ⟨mbxTime + 0x14, 0, 0⟩ ⟨mbxTime + 0x14, 15, 12⟩ _ (by decide) (by decide) (by decide),
    Dev.get_put _ _ _ (by decide) (by decide)]
  decide

theorem timeLocked_eq (d : Dev) (src : Src) :
    timeLocked d src = busError (timeRefused d) src beLocked 0 (mbxTime + 0x14) true := rfl

/-- A follower's clock refuses a step: a bus error, and ERR = 2 in the mailbox. -/
theorem timeLocked_dev (d : Dev) (src : Src) :
    Dev.busErrorLogged src beLocked 0 (mbxTime + 0x14) true d (timeLocked d src)
      ∧ (timeLocked d src).get ⟨mbxTime + 0x14, 15, 12⟩ = 2
      ∧ Dev.regsOnly ((mbxTime + 0x14) :: busErrorRegs) { d with reports := (timeLocked d src).reports } (timeLocked d src) := by
  rw [timeLocked_eq]
  have logged := busError_regsOnly (timeRefused d) src beLocked 0 (mbxTime + 0x14) true
  refine ⟨(busError_logged (timeRefused d) src _ true (by decide) (by decide)).after (timeRefused_regsOnly d) (by decide), ?_, ?_⟩
  · exact (logged.get_of_reports (f := ⟨mbxTime + 0x14, 15, 12⟩) (by decide)).trans (timeRefused_err d)
  · exact ((timeRefused_regsOnly d).withReports _).then logged (by decide) (fun _ => List.mem_cons_of_mem _)

/-- TIME_STEP sets PTP time at the command to the value written (R71). -/
theorem timeStep_grid (v : BitVec 128) (dt : Nat) (g : Grid) (d : Dev) :
    (timeStep v dt g d).1.base + dt * fineQ = (ofTimeLayout v.toNat : Int) * fineQ ∧ (timeStep v dt g d).1.epoch = g.epoch
      ∧ (timeStep v dt g d).1.stepWritten = v := by
  rw [timeStep, setClock_base, setClock_epoch, setClock_stepWritten]
  exact ⟨Int.sub_add_cancel .., rfl, rfl⟩

/-- TIME_OFFSET moves PTP time by the ns written, never below 0 (R71). -/
theorem timeOffset_grid (v : BitVec 64) (dt : Nat) (g : Grid) (d : Dev) :
    (timeOffset v dt g d).1.base + dt * fineQ = max 0 (g.base + dt * fineQ + v.toInt * fineNs)
      ∧ (timeOffset v dt g d).1.epoch = g.epoch ∧ (timeOffset v dt g d).1.offsetWritten = v := by
  rw [timeOffset, setClock_base, setClock_epoch, setClock_offsetWritten]
  exact ⟨Int.sub_add_cancel .., rfl, rfl⟩

theorem timeStep_dev (v : BitVec 128) (dt : Nat) (g : Grid) (d : Dev) :
    (timeStep v dt g d).2.get TIME_CNT_STEPS = (d.get TIME_CNT_STEPS + 1) % 2 ^ 32
      ∧ Dev.raised TIME_STATUS.STEPPED d (timeStep v dt g d).2 :=
  setClock_counted _ _ _ _ (c := TIME_CNT_STEPS) (by decide) (by decide) (by decide)

theorem timeOffset_dev (v : BitVec 64) (dt : Nat) (g : Grid) (d : Dev) :
    (timeOffset v dt g d).2.get TIME_CNT_OFFSETS = (d.get TIME_CNT_OFFSETS + 1) % 2 ^ 32
      ∧ Dev.raised TIME_STATUS.STEPPED d (timeOffset v dt g d).2 :=
  setClock_counted _ _ _ _ (c := TIME_CNT_OFFSETS) (by decide) (by decide) (by decide)

/-- Settles O12: the clock takes a step or an offset unless the chip is a follower. -/
theorem timeSteps : Obligations.TimeSteps := by
  refine ⟨fun src v dt s held free => ?_, fun src v dt s held free => ?_, fun src v w dt s held f => ?_⟩
  · obtain ⟨base, epoch, written⟩ := timeStep_grid v dt s.grid s.dev
    exact ⟨_, exec_timeStep_free src v dt held free, rfl, rfl, base, epoch, written, timeStep_dev v dt s.grid s.dev⟩
  · obtain ⟨base, epoch, written⟩ := timeOffset_grid v dt s.grid s.dev
    exact ⟨_, exec_timeOffset_free src v dt held free, rfl, rfl, base, epoch, written, timeOffset_dev v dt s.grid s.dev⟩
  · exact ⟨_, exec_timeStep_follower src v dt held f, exec_timeOffset_follower src w dt held f, timeLocked_dev s.dev src⟩

end Sys2Proof.Machine

namespace Sys2Proof.Machine

/-! ### GSYNC words (R61-R68) -/

theorem bits_lt (v hi lo : Nat) : bits v hi lo < 2 ^ (hi + 1 - lo) := Nat.mod_lt _ (Nat.two_pow_pos _)

/-- What a valid word leaves in the status registers: the leader's id, the hops, and PACE_MAP's origin. -/
def wordNoted (w orig : Nat) (d : Dev) : Dev :=
  ((d.put GRT_GSYNC_STATUS.LEADER_ID (bits w 67 64)).put GRT_GSYNC_STATUS.HOP (bits w 71 68)).put PWR_PACE_STAT.ORIG orig

theorem wordNoted_leaderId (w orig : Nat) (d : Dev) : (wordNoted w orig d).get GRT_GSYNC_STATUS.LEADER_ID = bits w 67 64 := by
  simp (disch := decide) only [wordNoted, Dev.get_put_other, Dev.get_put]
  exact Nat.mod_eq_of_lt (bits_lt w 67 64)

theorem wordNoted_hop (w orig : Nat) (d : Dev) : (wordNoted w orig d).get GRT_GSYNC_STATUS.HOP = bits w 71 68 := by
  simp (disch := decide) only [wordNoted, Dev.get_put_other, Dev.get_put]
  exact Nat.mod_eq_of_lt (bits_lt w 71 68)

theorem wordNoted_locked (w orig : Nat) (d : Dev) :
    (wordNoted w orig d).get GRT_GSYNC_STATUS.LOCKED = d.get GRT_GSYNC_STATUS.LOCKED := by
  simp (disch := decide) only [wordNoted, Dev.get_put_other]

theorem wordNoted_rtt (w orig : Nat) (d : Dev) : (wordNoted w orig d).get GRT_GSYNC_RTT.RTT = d.get GRT_GSYNC_RTT.RTT := by
  simp (disch := decide) only [wordNoted, Dev.get_put_other]

theorem wordNoted_out (w orig : Nat) (d : Dev) : (wordNoted w orig d).out = d.out := by
  rw [wordNoted, Dev.put_out, Dev.put_out, Dev.put_out]

theorem wordNoted_regsOnly (w orig : Nat) (d : Dev) :
    Dev.regsOnly [GRT_GSYNC_STATUS.word.addr, PWR_PACE_STAT.word.addr] d (wordNoted w orig d) :=
  (Dev.regsOnly_trans (Dev.regsOnly_put d GRT_GSYNC_STATUS.LEADER_ID (bits w 67 64))
    (Dev.regsOnly_put _ GRT_GSYNC_STATUS.HOP (bits w 71 68))).then
    (Dev.regsOnly_put _ PWR_PACE_STAT.ORIG orig) (by decide) (by decide)

theorem markerBack_rtt (dt : Nat) (g : Grid) (d : Dev) : (markerBack dt g d).2.get GRT_GSYNC_RTT.RTT
    = ((g.base + dt * fineQ - g.frameBase) / fineNs - 6656).toNat % 2 ^ 32 := Dev.get_put _ _ _ (by decide) (by decide)

section
variable {w dt : Nat} {g : Grid} {d : Dev}

theorem gsyncRx_off (h : d.get GRT_GSYNC_CTL.ROLE = 0 ∨ d.get GRT_GSYNC_CTL.ROLE = 3) : gsyncRx w dt g d = (g, d) := if_pos h

theorem gsyncRx_leader (role : d.get GRT_GSYNC_CTL.ROLE = 1) (crc : gsyncCrc w = bits w 127 112) :
    gsyncRx w dt g d = ({ g with missed := 0, gsyncWord := BitVec.ofNat 128 w, wordBack := true },
      wordNoted w (bits w 87 72) (markerBack dt g d).2) := by
  simp [gsyncRx, role, crc, markerBack, wordNoted]

theorem gsyncRx_leader_bad (role : d.get GRT_GSYNC_CTL.ROLE = 1) (crc : gsyncCrc w ≠ bits w 127 112) :
    gsyncRx w dt g d = ({ g with good := 0, missed := 0 }, (markerBack dt g d).2.event GRT_GSYNC_STATUS.CRC_ERR) := by
  simp [gsyncRx, role, crc, markerBack]

theorem gsyncRx_follower (role : d.get GRT_GSYNC_CTL.ROLE = 2) (crc : gsyncCrc w = bits w 127 112) :
    ∃ orig, gsyncRx w dt g d = ((followWord dt w g d).1, wordNoted w orig (followWord dt w g d).2) := by
  simp [gsyncRx, role, crc, wordNoted]

theorem gsyncRx_follower_bad (role : d.get GRT_GSYNC_CTL.ROLE = 2) (crc : gsyncCrc w ≠ bits w 127 112) :
    gsyncRx w dt g d = ({ g with good := 0 }, d.event GRT_GSYNC_STATUS.CRC_ERR) := by
  simp [gsyncRx, role, crc]

/-- The first valid word in HOLDOVER only goes on (R66). -/
theorem followWord_first (state : g.state = .holdover) (good : g.good = 0) : followWord dt w g d
    = ({ g with good := 1, missed := 0, gsyncWord := BitVec.ofNat 128 w }, d.emit (.gsync (forwardWord d w))) := by
  simp [followWord, state, good]

end

/-- The leader's time at the end of its word, as a follower computes it (R61). -/
def leadTime (d : Dev) (w : Nat) : Int :=
  (bits w 63 0 : Int) * 1024 * fineNs + 6656 * fineNs + (40 * d.get GRT_GSYNC_STATUS.HOP : Nat) * fineNs
    + d.get GRT_GSYNC_TRACE.TRACE * (fineNs / 16)

theorem leadTime_eq (d : Dev) (w : Nat) : leadTime d w
    = ((bits w 63 0 : Int) * 1024 + 6656 + 40 * d.get GRT_GSYNC_STATUS.HOP) * fineNs
      + d.get GRT_GSYNC_TRACE.TRACE * (fineNs / 16) := by
  rw [leadTime]; push_cast; ring

/-- A word that is followed: the clock takes the leader's time, LOCKED is set, and the word goes on (R61, R64, R66). -/
theorem followWord_sets {w dt : Nat} {g : Grid} {d : Dev} (h : g.state ≠ .holdover ∨ 1 ≤ g.good) :
    ∃ g' : Grid, followWord dt w g d
        = judge (leadTime d w) g' ((d.emit (.gsync (forwardWord d w))).put GRT_GSYNC_STATUS.LOCKED 1)
      ∧ g'.base = leadTime d w - dt * fineQ ∧ g'.epoch = g.epoch ∧ g'.missed = 0 ∧ g'.gsyncWord = BitVec.ofNat 128 w := by
  have follows : ¬ (g.state = .holdover ∧ g.good + 1 < 2) := by rintro ⟨hs, hg⟩; rcases h with h | h; exact h hs; omega
  refine ⟨_, (if_neg follows).trans rfl, rfl, ?_, ?_, ?_⟩
  all_goals
    dsimp only
    split
    · rfl
    · rfl

/-- What a follower's device shows of a word it followed. -/
theorem followWord_dev {w dt : Nat} {g : Grid} {d : Dev} (h : g.state ≠ .holdover ∨ 1 ≤ g.good) :
    (followWord dt w g d).2.get GRT_GSYNC_STATUS.LOCKED = 1
      ∧ Output.gsync (forwardWord d w) ∈ (followWord dt w g d).2.out := by
  obtain ⟨g', hf, -⟩ := followWord_sets (w := w) (dt := dt) (d := d) h
  rw [hf]
  constructor
  · rw [(judge_regsOnly _ _ _).get_eq (f := GRT_GSYNC_STATUS.LOCKED) (by decide), Dev.get_put _ _ _ (by decide) (by decide)]
    decide
  · refine (judge_books _ _ _).out.subset ?_
    rw [Dev.put_out]
    exact List.mem_append_right _ (List.mem_singleton_self _)

theorem exec_gsyncWordRx (w : BitVec 128) (dt : Nat) {s : State} (held : s.held = false) :
    exec (.gsyncWordRx w dt) s
      = .next { s with grid := (gsyncRx w.toNat dt s.grid s.dev).1, dev := (gsyncRx w.toNat dt s.grid s.dev).2 } :=
  State.withAll_live (fun g b d => ((gsyncRx w.toNat dt g d).1, b, (gsyncRx w.toNat dt g d).2)) held

/-! ### GSYNC_HOLDOVER (R66) -/

/-- The device of a follower that enters HOLDOVER. -/
def gsyncLost (d : Dev) : Dev :=
  (((d.put GRT_GSYNC_STATUS.LOCKED 0).event GRT_GSYNC_STATUS.LOST).event GRT_STATUS.GSYNC_LOST).report 0x023 0

theorem gsyncLost_locked (d : Dev) : (gsyncLost d).get GRT_GSYNC_STATUS.LOCKED = 0 := by
  simp (disch := decide) only [gsyncLost, Dev.get_report, Dev.event_get_other, Dev.get_put, Nat.zero_mod]

theorem gsyncLost_raised (d : Dev) :
    Dev.raised GRT_GSYNC_STATUS.LOST d (gsyncLost d) ∧ Dev.raised GRT_STATUS.GSYNC_LOST d (gsyncLost d) := by
  have lost := Dev.raised_event (d.put GRT_GSYNC_STATUS.LOCKED 0) GRT_GSYNC_STATUS.LOST (by decide)
  have flagged := Dev.raised_event ((d.put GRT_GSYNC_STATUS.LOCKED 0).event GRT_GSYNC_STATUS.LOST) GRT_STATUS.GSYNC_LOST (by decide)
  refine ⟨((lost.keep (Dev.regsOnly_event _ GRT_STATUS.GSYNC_LOST) (by decide)).report _ _).after ?_,
    (flagged.report _ _).after ?_⟩
  · simp (disch := decide) only [Dev.get_put_other]
  · simp (disch := decide) only [Dev.event_get_other, Dev.get_put_other]

theorem gsyncLost_reported (d : Dev) : Dev.reported [(0x023, 0)] d (gsyncLost d) := by
  refine (Dev.reported_report _ 0x023 0).after ?_
  rw [Dev.event_reports, Dev.event_reports, Dev.put_reports]

theorem gsyncLost_regsOnly (d : Dev) : Dev.regsOnly [GRT_GSYNC_STATUS.word.addr, GRT_STATUS.word.addr]
    { d with reports := (gsyncLost d).reports } (gsyncLost d) :=
  ((Dev.regsOnly_trans (Dev.regsOnly_put d GRT_GSYNC_STATUS.LOCKED 0) (Dev.regsOnly_event _ GRT_GSYNC_STATUS.LOST)).then
    (Dev.regsOnly_event _ GRT_STATUS.GSYNC_LOST) (by decide) (by decide)).report _ _

theorem exec_gsyncHoldover_enters {s : State} (held : s.held = false) (f : follower s.dev = true) (missed : 5 ≤ s.grid.missed)
    (state : s.grid.state ≠ .holdover) (track : s.dev.flag GRT_EPOCH_CTL.TRACK_EN = true) :
    exec .gsyncHoldover s = .next { s with
      grid := { s.grid with state := .holdover, good := 0, jumpAsked := false, jumpFrom := none }, dev := gsyncLost s.dev } := by
  show execGsyncHoldover s = _
  rw [execGsyncHoldover, State.withAll_live _ held, if_pos ⟨f, missed, state, track⟩]
  rfl

theorem exec_gsyncHoldover_same {s : State} (h : follower s.dev = false ∨ s.grid.missed < 5 ∨ s.grid.state = .holdover
    ∨ s.dev.flag GRT_EPOCH_CTL.TRACK_EN = false) : exec .gsyncHoldover s = .next s := by
  show execGsyncHoldover s = _
  rw [execGsyncHoldover]
  refine State.withAll_same (if_neg ?_)
  rintro ⟨f, missed, state, track⟩
  rcases h with h | h | h | h
  · rw [f] at h; exact absurd h (by decide)
  · exact Nat.not_lt_of_le missed h
  · exact state h
  · rw [track] at h; exact absurd h (by decide)

/-- Settles O14: a word by the role and its CRC, holdover by its four conditions; that holdover needs tracking is the model's
choice (log entry 136). -/
theorem gsync : Obligations.Gsync := by
  refine ⟨fun w dt s held role crc => ?leader, fun w dt s held role crc follows => ?follower, fun w dt s held role crc hs hg => ?first,
    fun w dt s held crc => ⟨fun role => ?leaderBad, fun role => ?followerBad⟩, fun w dt s off => ?off,
    fun s => exec_gsyncHoldover_same, fun s held f missed state track => ?holdover⟩
  case leader =>
    refine ⟨_, exec_gsyncWordRx w dt held, ?_⟩
    simp only [gsyncRx_leader role crc, BitVec.ofNat_toNat, BitVec.setWidth_eq, wordNoted_leaderId, wordNoted_hop, wordNoted_rtt,
      markerBack_rtt, and_self]
  case follower =>
    obtain ⟨orig, rx⟩ := gsyncRx_follower (dt := dt) (g := s.grid) role crc
    obtain ⟨locked, sent⟩ := followWord_dev (w := w.toNat) (dt := dt) (d := s.dev) follows
    obtain ⟨g', hf, base, epoch, missed, word⟩ := followWord_sets (w := w.toNat) (dt := dt) (d := s.dev) follows
    have gone : Output.gsync (forwardWord s.dev w.toNat) ∈ (wordNoted w.toNat orig (followWord dt w.toNat s.grid s.dev).2).out := by
      rw [wordNoted_out]; exact sent
    refine ⟨_, exec_gsyncWordRx w dt held, rfl, ?_⟩
    simp only [rx, wordNoted_hop, wordNoted_locked, locked, gone]
    simp only [hf, judge_epoch, judge_base, judge_missed, judge_gsyncWord, epoch, base, missed, word, leadTime_eq]
    simp
  case first =>
    obtain ⟨orig, rx⟩ := gsyncRx_follower (dt := dt) (g := s.grid) role crc
    have noted := wordNoted_regsOnly w.toNat orig (s.dev.emit (.gsync (forwardWord s.dev w.toNat)))
    refine ⟨wordNoted w.toNat orig (s.dev.emit (.gsync (forwardWord s.dev w.toNat))), ?_, ?_, wordNoted_hop .., ?_⟩
    · rw [exec_gsyncWordRx w dt held, rx, followWord_first hs hg, BitVec.ofNat_toNat, BitVec.setWidth_eq]
    · rw [wordNoted_out]
      exact List.mem_append_right _ (List.mem_singleton_self _)
    · exact Dev.regsOnly_trans (Dev.regsOnly_emit _ s.dev _) noted
  case leaderBad =>
    have measured := Dev.regsOnly_put s.dev GRT_GSYNC_RTT.RTT ((s.grid.base + dt * fineQ - s.grid.frameBase) / fineNs - 6656).toNat
    have flagged := Dev.regsOnly_event (markerBack dt s.grid s.dev).2 GRT_GSYNC_STATUS.CRC_ERR
    refine ⟨(markerBack dt s.grid s.dev).2.event GRT_GSYNC_STATUS.CRC_ERR, ?_, ?_, ?_, ?_⟩
    · rw [exec_gsyncWordRx w dt held, gsyncRx_leader_bad role crc]
    · rw [flagged.get_eq (f := GRT_GSYNC_RTT.RTT) (by decide), markerBack_rtt]
    · exact (Dev.raised_event _ GRT_GSYNC_STATUS.CRC_ERR (by decide)).after
        (measured.get_eq (f := ⟨GRT_GSYNC_STATUS.CRC_ERR.addr, 31, 24⟩) (by decide))
    · exact measured.then flagged (by decide) (by decide)
  case followerBad =>
    refine ⟨_, ?_, Dev.raised_event s.dev GRT_GSYNC_STATUS.CRC_ERR (by decide),
      Dev.regsOnly_event s.dev GRT_GSYNC_STATUS.CRC_ERR⟩
    rw [exec_gsyncWordRx w dt held, gsyncRx_follower_bad role crc]
  case off =>
    show execGsyncWordRx w dt s = _
    rw [execGsyncWordRx]
    exact State.withAll_same (by rw [gsyncRx_off off])
  case holdover =>
    obtain ⟨lost, flagged⟩ := gsyncLost_raised s.dev
    exact ⟨_, exec_gsyncHoldover_enters held f missed state track, gsyncLost_locked s.dev, lost, flagged,
      gsyncLost_reported s.dev, gsyncLost_regsOnly s.dev⟩

end Sys2Proof.Machine

namespace Sys2Proof.Machine

/-! ### The values after power-on reset (R68, R111, R153, R441) -/

/-- Settles O6: the queue, Graticule, banks and mailboxes are those of the empty state; registers read what their maps give. -/
theorem resetValues : Obligations.ResetValues := by
  refine ⟨rfl, rfl, rfl, ?_, ?_, ?_, ?_, rfl, rfl, ?_, ?_, ?_, ?_, ?_, ?_, ?_, rfl, fun _ => rfl⟩
  all_goals decide +kernel

end Sys2Proof.Machine

namespace Sys2Proof.Machine

/-! ### Power-on reset with PPS_OUT high (R70, R115) -/

/-- PPS_OUT is high when PORST_N falls. -/
def ppsHigh : State := { dev := { pins := { ppsOut := true } } }

/-- Power-on reset takes the pins it was given: the record of PPS_OUT is not among those it clears, though the pin itself is
driven low. -/
theorem powerOn_ppsOut (pins : Pins) (d : Dev) : (powerOn pins d).pins.ppsOut = pins.ppsOut := by
  rw [powerOn, Dev.put_pins]

theorem exec_porstAssert (s : State) : exec .porstAssert s = .next { s with
    grid := {}, banks := {}, dev := powerOn { s.dev.pins with porst := true } s.dev } := rfl

/-- Refutes O22: with PPS_OUT high at the assertion of PORST_N the pins still record it high, where the statement has it low. -/
theorem not_powerOnReset : ¬ Obligations.PowerOnReset := by
  rintro ⟨asserted, -⟩
  obtain ⟨e, he, -, -, -, -, -, -, -, -, -, -, -, -, pins, -⟩ := asserted ppsHigh .porstAssert (by decide) (.inl rfl)
  rw [exec_porstAssert] at he
  injection he with he
  have dev : powerOn { ppsHigh.dev.pins with porst := true } ppsHigh.dev = e := congrArg State.dev he
  have high : e.pins.ppsOut = true := by rw [← dev, powerOn_ppsOut]; rfl
  rw [pins] at high
  exact absurd high (by decide)

end Sys2Proof.Machine

namespace Sys2Proof.Machine

/-! ### Warm device reset with a fused BOOT_STATE (R116, R153) -/

/-- A device whose fuses give BOOT_STATE a reset value with STATE = 5. -/
def fusedBoot : State := { dev := { fuses := [(BOOT_STATE.word.addr, 5)] } }

theorem State.withWhole_live {s : State} (f : Whole → Whole) (h : s.held = false) : s.withWhole f
    = .next { s with grid := (f (s.grid, s.banks, s.dev)).1, banks := (f (s.grid, s.banks, s.dev)).2.1
                     dev := (f (s.grid, s.banks, s.dev)).2.2 } := State.withAll_live (fun g b d => f (g, b, d)) h

/-- A long pulse on SYSRST_N starts a warm device reset; the Graticule keeps going (R116). -/
theorem exec_sysrstPulse_starts {s : State} (held : s.held = false) (high : s.dev.pins.sysrst = false) :
    exec (.sysrstPulse true) s = .next { s with banks := {}, dev := (warmReset 1 (s.grid, s.banks,
      { s.dev with pins := { s.dev.pins with sysrst := true } })).2.2 } := by
  show execSysrstPulse true s = _
  rw [execSysrstPulse, State.withWhole_live _ held, if_pos ⟨rfl, high⟩]
  rfl

/-- BOOT_STATE takes its fused value in the reset, and STATE with it. -/
theorem warmReset_fusedBoot : (warmReset 1 (fusedBoot.grid, fusedBoot.banks,
    { fusedBoot.dev with pins := { fusedBoot.dev.pins with sysrst := true } })).2.2.get BOOT_STATE.STATE = 5 := by
  decide +kernel

/-- Refutes O23: nothing in the statement keeps BOOT_STATE out of the registers with fused reset values, and where it is one, the
reset leaves STATE at its fused value, not at 0. -/
theorem not_warmDeviceReset : ¬ Obligations.WarmDeviceReset := by
  rintro ⟨reset, -⟩
  obtain ⟨e, he, -, -, state, -⟩ := reset fusedBoot (.sysrstPulse true) 1 (by decide) (by decide +kernel) (.inl ⟨rfl, rfl, rfl⟩)
  rw [exec_sysrstPulse_starts (by decide) (by decide)] at he
  injection he with he
  have dev := congrArg State.dev he
  rw [← show _ = e from dev, warmReset_fusedBoot] at state
  exact absurd state (by decide)

end Sys2Proof.Machine

namespace Sys2Proof.Machine

/-! ### Posted writes arrive (R108, R109) -/

/-- A command on Graticule, banks and device whose effect is on the device alone. -/
theorem State.withWhole_onDev {s : State} {f : Whole → Whole} {k : Dev → Dev} (held : s.held = false)
    (h : f (s.grid, s.banks, s.dev) = onDev k (s.grid, s.banks, s.dev)) : s.withWhole f = .next { s with dev := k s.dev } := by
  rw [State.withWhole_live f held, h]
  rfl

theorem shapeError_dword {src : Src} {a : Nat} (hsrc : src ≠ .oob) (ha : a % 4 = 0) : shapeError src a .dword = none := by
  simp [shapeError, hsrc, ha]

/-- A PCIe write that passes the checks and need not wait has its effect. -/
theorem bar0Write_ok {src : Src} {a : Nat} {v : Word} {x : Whole} {h : Hit} (dt : Nat) (hsrc : src ≠ .oob) (ha : a % 4 = 0)
    (ok : checkAccess x.2.1 x.2.2 src a true v = .ok h) (goes : mustWait x.2.2 x.2.2.heldAcc ⟨src, true, 0, a, .dword, v⟩ = false) :
    bar0Write src a .dword v dt x = writeEffect src h a dt v x := by
  simp [bar0Write, shapeError_dword hsrc ha, ok, accept, goes, doWrite, hsrc]

/-- A PCIe write that fails a check is a bus error and no more. -/
theorem bar0Write_error {src : Src} {a k : Nat} {v : Word} {x : Whole} (dt : Nat) (hsrc : src ≠ .oob) (ha : a % 4 = 0)
    (bad : checkAccess x.2.1 x.2.2 src a true v = .error k) :
    bar0Write src a .dword v dt x = onDev (fun d => busError d src k 0 a true) x := by
  simp [bar0Write, shapeError_dword hsrc ha, bad, writeFail, hsrc]

/-- A write to a register of a posted-write domain goes to the domain. -/
theorem writeEffect_posted {src : Src} {h : Hit} {a k st : Nat} (dt : Nat) (v : Word) (x : Whole)
    (mbx : mbxBase h.loc a = none) (dom : pwDomain h a = some (k, st)) :
    writeEffect src h a dt v x = onDev (fun d => pwArrive d k st a v) x := by
  obtain ⟨g, b, d⟩ := x
  simp [writeEffect, mbx, dom]

theorem Dev.get_bit0 (d : Dev) (st : Nat) : d.get ⟨st, 0, 0⟩ = (d.word st).toNat % 2 := by
  simp [Dev.get, Fld.read]

theorem pwArrive_free (d : Dev) (k st a : Nat) (v : Word) (h : d.get ⟨st, 0, 0⟩ = 0) :
    pwArrive d k st a v = { d.put ⟨st, 0, 0⟩ 1 with pw := d.pw.put none k (some (a, v)) } := by
  rw [Dev.get_bit0] at h
  simp [pwArrive, bit, h]

theorem pwArrive_busy (d : Dev) (k st a : Nat) (v : Word) (h : d.get ⟨st, 0, 0⟩ = 1) :
    pwArrive d k st a v = d.event ⟨st, 1, 1⟩ := by
  rw [Dev.get_bit0] at h
  simp [pwArrive, bit, h]

/-- Bit 0 of a register is written, and a part of the device that is no register set besides. -/
theorem Dev.regsOnly_put_pw (d : Dev) (st n : Nat) (m : SMap (Option (Nat × Word))) :
    Dev.regsOnly [st] { d with pw := m } { d.put ⟨st, 0, 0⟩ n with pw := m } :=
  ⟨⟨_, _, _, rfl⟩, fun _ h => Dev.word_put_other d ⟨st, 0, 0⟩ n (List.mem_singleton.not.mp h)⟩

/-- PW_BUSY of a domain is written and its place takes a write or loses one (R108). -/
theorem pwBusy_put (d : Dev) (k st : Nat) (p : Option (Nat × Word)) {n : Nat} (hn : n < 2) :
    let e := { d.put ⟨st, 0, 0⟩ n with pw := d.pw.put none k p }
    e.get ⟨st, 0, 0⟩ = n ∧ e.pw.get none k = p ∧ (∀ j, j ≠ k → e.pw.get none j = d.pw.get none j)
      ∧ Dev.regsOnly [st] { d with pw := e.pw } e := by
  refine ⟨?_, SMap.get_put_same .., fun j hj => SMap.get_put_other _ _ _ _ hj, Dev.regsOnly_put_pw ..⟩
  exact (Dev.get_put d ⟨st, 0, 0⟩ n (Nat.le_refl 0) (by decide : 0 < 32)).trans (Nat.mod_eq_of_lt hn)

section
variable {src : Src} {off : BitVec 27} {v : Word} {s : State} {h : Hit} {k st : Nat}

/-- POSTED_WRITE of a register of a domain arrives at the domain. -/
theorem exec_postedWrite (held : s.held = false) (hsrc : src ≠ .oob) (ha : off.toNat % 4 = 0)
    (ok : checkAccess s.banks s.dev src off.toNat true v = .ok h)
    (goes : mustWait s.dev s.dev.heldAcc ⟨src, true, 0, off.toNat, .dword, v⟩ = false)
    (mbx : mbxBase h.loc off.toNat = none) (dom : pwDomain h off.toNat = some (k, st)) :
    exec (.postedWrite src off v) s = .next { s with dev := pwArrive s.dev k st off.toNat v } := by
  show execPostedWrite src off v s = _
  rw [execPostedWrite]
  exact State.withWhole_onDev (k := fun d => pwArrive d k st off.toNat v) held
    ((bar0Write_ok (x := (s.grid, s.banks, s.dev)) 0 hsrc ha ok goes).trans (writeEffect_posted 0 v _ mbx dom))

end

/-! ### TIME_FREQ's checks (R65, R72) -/

/-- TIME_FREQ's place in the map. -/
def timeFreqHit : Hit := ⟨⟨.time, 0, 0, 4⟩, { off := 0x4, dims := [], fields := [⟨31, 0, .pw, 0⟩] }, []⟩

theorem regAt_timeFreq : regAt TIME_FREQ.word.addr = some timeFreqHit := by decide +kernel

theorem pwDomain_timeFreq : pwDomain timeFreqHit TIME_FREQ.word.addr = some (1041, TIME_PW_STATUS.word.addr) := by decide +kernel

theorem mbxBase_timeFreq : mbxBase timeFreqHit.loc TIME_FREQ.word.addr = none := by decide +kernel

theorem locked_timeFreq (b : Banks) (d : Dev) : locked b d timeFreqHit TIME_FREQ.word.addr = follower d := by
  simp [locked, timeFreqHit, bankWindow]

/-- TIME_FREQ passes the checks unless the chip is a follower; then it is locked. -/
theorem checkAccess_timeFreq {src : Src} {d : Dev} (b : Banks) (v : Word)
    (opened : srcSecure src = true ∨ bit (d.word WLD_DEV.word.addr).toNat 12 = false) :
    checkAccess b d src TIME_FREQ.word.addr true v = if follower d then .error beLocked else .ok timeFreqHit := by
  have world : (!srcSecure src && (secureBlock d timeFreqHit.loc || alwaysSecure timeFreqHit.loc
      || partSecure d timeFreqHit.loc true v)) = false := by
    rcases opened with hs | hb
    · simp [hs]
    · simp [secureBlock, alwaysSecure, partSecure, timeFreqHit, hb]
  have there : (!answers d timeFreqHit.loc.kind || absent d timeFreqHit.loc) = false := by
    simp [answers, absent, timeFreqHit]
  have writable : timeFreqHit.row.fields.any RField.writable = true := by decide
  have slice : locSlice timeFreqHit.loc = none := rfl
  simp [checkAccess, regAt_timeFreq, world, there, slice, writable, locked_timeFreq]

section
variable {src : Src} {v : Word} {s : State}

theorem exec_timeFreqWrite_free (held : s.held = false) (hsrc : src ≠ .oob)
    (opened : srcSecure src = true ∨ bit (s.dev.word WLD_DEV.word.addr).toNat 12 = false)
    (goes : mustWait s.dev s.dev.heldAcc ⟨src, true, 0, TIME_FREQ.word.addr, .dword, v⟩ = false) (free : follower s.dev = false) :
    exec (.timeFreqWrite src v) s
      = .next { s with dev := pwArrive s.dev 1041 TIME_PW_STATUS.word.addr TIME_FREQ.word.addr v } := by
  have ok : checkAccess s.banks s.dev src TIME_FREQ.word.addr true v = .ok timeFreqHit := by
    rw [checkAccess_timeFreq s.banks v opened, free]; rfl
  show execTimeFreqWrite src v s = _
  rw [execTimeFreqWrite]
  exact State.withWhole_onDev (k := fun d => pwArrive d 1041 TIME_PW_STATUS.word.addr TIME_FREQ.word.addr v) held
    ((bar0Write_ok (x := (s.grid, s.banks, s.dev)) 0 hsrc (by decide) ok goes).trans
      (writeEffect_posted 0 v _ mbxBase_timeFreq pwDomain_timeFreq))

theorem exec_timeFreqWrite_follower (held : s.held = false) (hsrc : src ≠ .oob)
    (opened : srcSecure src = true ∨ bit (s.dev.word WLD_DEV.word.addr).toNat 12 = false) (f : follower s.dev = true) :
    exec (.timeFreqWrite src v) s
      = .next { s with dev := busError s.dev src beLocked 0 TIME_FREQ.word.addr true } := by
  have locked : checkAccess s.banks s.dev src TIME_FREQ.word.addr true v = .error beLocked := by
    rw [checkAccess_timeFreq s.banks v opened, f]; rfl
  show execTimeFreqWrite src v s = _
  rw [execTimeFreqWrite]
  exact State.withWhole_onDev (k := fun d => busError d src beLocked 0 TIME_FREQ.word.addr true) held
    (bar0Write_error (x := (s.grid, s.banks, s.dev)) 0 hsrc (by decide) locked)

end

/-! ### Posted writes take effect (R72, R108) -/

theorem exec_postedWriteApply (dom : PwDomain) (dt : Nat) {s : State} (held : s.held = false) :
    exec (.postedWriteApply dom dt) s = .next { s with
      grid := (pwApply dt (pwOf dom).1 (pwOf dom).2 s.grid s.dev).1, dev := (pwApply dt (pwOf dom).1 (pwOf dom).2 s.grid s.dev).2 } :=
  State.withAll_live
    (fun g b d => ((pwApply dt (pwOf dom).1 (pwOf dom).2 g d).1, b, (pwApply dt (pwOf dom).1 (pwOf dom).2 g d).2)) held

theorem pwApply_none {d : Dev} {k : Nat} (dt st : Nat) (g : Grid) (h : d.pw.get none k = none) : pwApply dt k st g d = (g, d) := by
  rw [pwApply, h]

theorem pwApply_some {d : Dev} {k a : Nat} {w : Word} (dt st : Nat) (g : Grid) (h : d.pw.get none k = some (a, w)) :
    pwApply dt k st g d = (if a = TIME_FREQ.word.addr then freqMark dt g d else g,
      pwEffect g { d.put ⟨st, 0, 0⟩ 0 with pw := d.pw.put none k none } a w) := by
  rw [pwApply, h]

theorem pwEffect_time {h : Hit} {a : Nat} (g : Grid) (d : Dev) (w : Word) (hit : regAt a = some h) (time : h.loc.kind = .time) :
    pwEffect g d a w = if h.loc.off = 0 ∧ (d.setWord a (merged d h a w)).flag TIME_CTL.PPS_OUT_EN = false then
      setPpsOut (d.setWord a (merged d h a w)) false else d.setWord a (merged d h a w) := by
  simp only [pwEffect, hit, time]

/-- A lane register that is only stored. -/
theorem pwEffect_lane {h : Hit} {a : Nat} (g : Grid) (d : Dev) (w : Word) (hit : regAt a = some h) (lane : h.loc.kind = .ln)
    (plain : h.loc.off ∉ [0, 0x28, 0x200]) : pwEffect g d a w = d.setWord a (merged d h a w) := by
  simp only [List.mem_cons, List.not_mem_nil, or_false, not_or] at plain
  obtain ⟨h0, h28, h200⟩ := plain
  simp only [pwEffect, hit, lane]

theorem merged_congr {d e : Dev} {a : Nat} (h : Hit) (v : Word) (hw : d.word a = e.word a) : merged d h a v = merged e h a v := by
  rw [merged, hw, merged]

theorem setPpsOut_word (d : Dev) (level : Bool) (a : Nat) : (setPpsOut d level).word a = d.word a := by
  unfold setPpsOut
  split
  · rfl
  · rfl

theorem setPpsOut_flag (d : Dev) (level : Bool) (f : Fld) : (setPpsOut d level).flag f = d.flag f := by
  rw [Dev.flag, Dev.get, setPpsOut_word, ← Dev.get, ← Dev.flag]

theorem setPpsOut_pins (d : Dev) (level : Bool) : (setPpsOut d level).pins = { d.pins with ppsOut := level } := by
  unfold setPpsOut
  split
  · next h => rw [← h]
  · rfl

/-- Driving PPS_OUT changes the pins and no register. -/
theorem setPpsOut_regsOnly (d : Dev) (level : Bool) :
    Dev.regsOnly [] { d with pins := (setPpsOut d level).pins } (setPpsOut d level) := by
  unfold setPpsOut
  split
  · exact Dev.regsOnly_refl ..
  · exact Dev.regsOnly_emit ..

/-- A write of TIME takes effect: the register takes its value, and PPS_OUT falls where TIME_CTL no longer enables it (R72). -/
theorem pwEffect_time_stored {h : Hit} {a : Nat} (g : Grid) (d : Dev) (w : Word) (hit : regAt a = some h)
    (time : h.loc.kind = .time) {e : Dev} (he : e = pwEffect g d a w) :
    e.word a = merged d h a w ∧ Dev.regsOnly [a] { d with pins := e.pins } e
      ∧ e.pins = if h.loc.off = 0 ∧ e.flag TIME_CTL.PPS_OUT_EN = false then { d.pins with ppsOut := false } else d.pins := by
  rw [pwEffect_time g d w hit time] at he
  have stored := Dev.regsOnly_setWord d a (merged d h a w)
  have word : (d.setWord a (merged d h a w)).word a = merged d h a w := Dev.word_setWord ..
  have pins : (d.setWord a (merged d h a w)).pins = d.pins := rfl
  generalize d.setWord a (merged d h a w) = t at *
  by_cases low : h.loc.off = 0 ∧ t.flag TIME_CTL.PPS_OUT_EN = false
  · rw [if_pos low] at he
    subst he
    refine ⟨(setPpsOut_word ..).trans word, ?_, ?_⟩
    · obtain ⟨⟨r, o, p, rfl⟩, words⟩ := stored
      obtain ⟨⟨r', o', p', hout⟩, -⟩ := setPpsOut_regsOnly ({ d with regs := r, out := o, pba := p } : Dev) false
      exact ⟨⟨r', o', p', hout⟩, fun b hb => (setPpsOut_word ..).trans (words b hb)⟩
    · rw [setPpsOut_flag, if_pos low, setPpsOut_pins, pins]
  · rw [if_neg low] at he
    subst he
    refine ⟨word, ?_, by rw [if_neg low, pins]⟩
    rw [pins]
    exact stored

/-- Settles O28: an access that passes the checks arrives at its domain, and what waits there takes effect when it is applied. -/
theorem postedWrites : Obligations.PostedWrites := by
  intro src off v dt s held hsrc
  refine ⟨fun h k st ha ok goes mbx dom => ⟨fun idle => ?_, fun busy => ?_⟩, fun dom => ⟨fun idle => ?_, fun a w pending => ?_⟩,
    fun opened goes => ⟨fun free idle => ?_, fun free busy => ?_, fun f => ?_⟩⟩
  · refine ⟨_, exec_postedWrite held hsrc ha ok goes mbx dom, ?_⟩
    rw [pwArrive_free _ _ _ _ _ idle]
    exact pwBusy_put s.dev k st _ (by decide)
  · rw [exec_postedWrite held hsrc ha ok goes mbx dom, pwArrive_busy _ _ _ _ _ busy]
  · rw [exec_postedWriteApply dom dt held, pwApply_none dt _ _ idle]
  · obtain ⟨bit0, gone, others, frame⟩ := pwBusy_put s.dev (pwOf dom).1 (pwOf dom).2 none (n := 0) (by decide)
    refine ⟨_, bit0, gone, others, frame, ?_, fun h hit hne e he => ?_⟩
    · rw [exec_postedWriteApply dom dt held, pwApply_some dt _ _ pending]
    · have same := merged_congr h w (frame.2 a (by simpa using hne))
      refine ⟨fun time => ?_, fun lane plain => ?_⟩
      · obtain ⟨word, regs, pins⟩ := pwEffect_time_stored _ _ w hit time he
        exact ⟨word.trans same, regs, pins⟩
      · rw [he, pwEffect_lane _ _ w hit lane plain, same]
        rfl
  · refine ⟨_, exec_timeFreqWrite_free held hsrc opened goes free, ?_⟩
    rw [pwArrive_free s.dev 1041 TIME_PW_STATUS.word.addr TIME_FREQ.word.addr v idle]
    obtain ⟨bit0, pending, -, frame⟩ :=
      pwBusy_put s.dev 1041 TIME_PW_STATUS.word.addr (some (TIME_FREQ.word.addr, v)) (n := 1) (by decide)
    exact ⟨bit0, pending, frame⟩
  · rw [exec_timeFreqWrite_free held hsrc opened goes free,
      pwArrive_busy s.dev 1041 TIME_PW_STATUS.word.addr TIME_FREQ.word.addr v busy]
  · exact ⟨_, exec_timeFreqWrite_follower held hsrc opened f, busError_logged _ _ _ _ (by decide) (by decide),
      busError_regsOnly ..⟩

end Sys2Proof.Machine

namespace Sys2Proof.Machine

/-! ### The bank swap at a tick (R50, R51, R145) -/

/-- One bank's part of the swaps at a tick, due by the banks b before them. -/
def swapOne (jump : Bool) (epoch : BitVec 64) (b : Banks) (w : Bool) (x : Banks × Dev) : Banks × Dev :=
  if b.swapDue jump epoch w then bankActive epoch w x else x

/-- Both banks' swaps, in an order that the targets give. -/
theorem bankSwap_eq (jump : Bool) (epoch : BitVec 64) (b : Banks) (d : Dev) :
    ∃ first, bankSwap jump epoch b d = swapOne jump epoch b (!first) (swapOne jump epoch b first (b, d)) :=
  ⟨if b.targetA = b.targetB then !b.lastArm else decide (b.targetB < b.targetA), rfl⟩

theorem bankActive_st (epoch : BitVec 64) (w : Bool) (x : Banks × Dev) :
    (bankActive epoch w x).1.st w = .active ∧ (bankActive epoch w x).1.activeB = w
      ∧ (bankActive epoch w x).1.st (!w) = if x.1.st (!w) = .active then .draining else x.1.st (!w) := by
  unfold bankActive
  split
  · cases w
    · exact ⟨rfl, rfl, rfl⟩
    · exact ⟨rfl, rfl, rfl⟩
  · cases w
    · exact ⟨rfl, rfl, rfl⟩
    · exact ⟨rfl, rfl, rfl⟩

section
variable {jump : Bool} {epoch : BitVec 64} {b : Banks} {w : Bool} {x : Banks × Dev}

/-- A bank that is not ARMED takes no part. -/
theorem swapOne_idle (h : b.st w ≠ .armed) : swapOne jump epoch b w x = x := by simp [swapOne, Banks.swapDue, h]

theorem swapOne_due (armed : b.st w = .armed) (due : jump = true ∨ b.due w ≤ epoch) :
    swapOne jump epoch b w x = bankActive epoch w x := by simp [swapOne, Banks.swapDue, armed, due]

theorem swapOne_early (h : epoch < b.due w) : swapOne false epoch b w x = x := by simp [swapOne, Banks.swapDue, h]

/-- With one bank not ARMED the swaps at a tick are the other's. -/
theorem bankSwap_single (d : Dev) (h : b.st (!w) ≠ .armed) : bankSwap jump epoch b d = swapOne jump epoch b w (b, d) := by
  obtain ⟨first, e⟩ := bankSwap_eq jump epoch b d
  rw [e]
  by_cases hf : first = w
  · rw [hf, swapOne_idle h]
  · obtain rfl := Bool.eq_not.mpr hf
    rw [swapOne_idle h, Bool.not_not]

end

/-! ### The Graticule through a tick (R35, R39, R41) -/

/-- g' is g but for what a tick's windows and copies change: the time, the state and the jump are the same. -/
structure SameTime (g g' : Grid) : Prop where
  epoch : g'.epoch = g.epoch
  base : g'.base = g.base
  state : g'.state = g.state
  jumpAsked : g'.jumpAsked = g.jumpAsked
  jumpFrom : g'.jumpFrom = g.jumpFrom

namespace SameTime

theorem refl (g : Grid) : SameTime g g := ⟨rfl, rfl, rfl, rfl, rfl⟩

theorem trans {g g' g'' : Grid} (h : SameTime g g') (k : SameTime g' g'') : SameTime g g'' :=
  ⟨k.epoch.trans h.epoch, k.base.trans h.base, k.state.trans h.state, k.jumpAsked.trans h.jumpAsked, k.jumpFrom.trans h.jumpFrom⟩

theorem gsyncFrame (g : Grid) (d : Dev) : SameTime g (gsyncFrame g d).1 := by
  unfold Machine.gsyncFrame
  split
  · exact ⟨rfl, rfl, rfl, rfl, rfl⟩
  · exact ⟨rfl, rfl, rfl, rfl, rfl⟩
  · exact refl g

theorem windows (frame : Bool) (g : Grid) (b : Banks) (d : Dev) :
    SameTime g (if frame = true then frameWindows (g, b, d) else (g, b, d)).1 := by
  split
  · exact (gsyncFrame g d).trans ⟨rfl, rfl, rfl, rfl, rfl⟩
  · exact refl g

theorem copiesTick (x : TickIn) (jump : Bool) (g : Grid) (d : Dev) : SameTime g (copiesTick x jump g d).1 := by
  unfold Machine.copiesTick
  split
  · exact ⟨rfl, rfl, rfl, rfl, rfl⟩
  · exact ⟨rfl, rfl, rfl, rfl, rfl⟩

theorem err {g g' : Grid} (h : SameTime g g') : g'.err = g.err := by rw [Grid.err, h.base, h.epoch, Grid.err]

end SameTime

/-- What a tick does to the Graticule: windows and copies, and then its state is judged. -/
theorem tickWork_grid (x : TickIn) (jump : Bool) (len : Int) (g : Grid) (b : Banks) (d : Dev) :
    ∃ g' d', SameTime g g' ∧ (tickWork x jump len g b d).1 = (judge g'.base g' d').1 := by
  unfold tickWork
  exact ⟨_, _, (SameTime.windows (jump || frameTick g) g _ _).trans (SameTime.copiesTick ..), rfl⟩

/-- The banks as every unit sees them: their states and the one in force. -/
def Banks.seen (b : Banks) : (Bool → BankState) × Bool := (b.st, b.activeB)

theorem drainSeen_seen (before after : Banks) (d : Dev) : (drainSeen before after d).seen = after.seen := by
  unfold drainSeen
  split
  · split
    · rfl
    · rfl
  · rfl

theorem windows_seen (frame : Bool) (g : Grid) (b : Banks) (d : Dev) :
    (if frame = true then frameWindows (g, b, d) else (g, b, d)).2.1.seen = b.seen := by
  split
  · rfl
  · rfl

/-- What a tick does to the banks: the swaps that are due. -/
theorem tickWork_banks (x : TickIn) (jump : Bool) (len : Int) (g : Grid) (b : Banks) (d : Dev) :
    ∃ d', (tickWork x jump len g b d).2.1.seen = (bankSwap jump g.epoch b d').1.seen := by
  unfold tickWork
  exact ⟨_, (windows_seen (jump || frameTick g) _ _ _).trans (drainSeen_seen ..)⟩

/-! ### TICK -/

theorem exec_tick_falls (x : TickIn) {s : State} (held : s.held = false) (falls : tickFalls s.grid s.dev = true) :
    exec (.tick x) s = .next { s with
      grid := (tickWork x false (epochFine s.grid s.dev) (nextTick s.grid s.dev) s.banks s.dev).1
      banks := (tickWork x false (epochFine s.grid s.dev) (nextTick s.grid s.dev) s.banks s.dev).2.1
      dev := (tickWork x false (epochFine s.grid s.dev) (nextTick s.grid s.dev) s.banks s.dev).2.2 } := by
  show execTick x s = _
  rw [execTick, State.withAll_live _ held, if_pos falls]

theorem exec_tick_same (x : TickIn) {s : State} (h : tickFalls s.grid s.dev = false) : exec (.tick x) s = .next s := by
  show execTick x s = _
  rw [execTick]
  exact State.withAll_same (if_neg (by simp [h]))

/-- A tick adds one to EPOCH and the epoch's length to PTP time, and the phase error is their difference in ns (R35, R39; the
rounding is the model's choice, log entry 132). -/
theorem tickWork_next (x : TickIn) (g : Grid) (b : Banks) (d : Dev) :
    let t := (tickWork x false (epochFine g d) (nextTick g d) b d).1
    t.epoch = g.epoch + 1 ∧ t.base = g.base + epochFine g d ∧ t.phaseErr = t.err / fineNs := by
  obtain ⟨g', d', time, ht⟩ := tickWork_grid x false (epochFine g d) (nextTick g d) b d
  dsimp only
  rw [ht, judge_epoch, judge_base, judge_phaseErr, judge_err]
  exact ⟨time.epoch, time.base, rfl⟩

/-- A swap armed alone takes effect at its tick, and not before (R50, R145). -/
theorem tickWork_swap (x : TickIn) (len : Int) {g : Grid} {b : Banks} (d : Dev) {w : Bool} (armed : b.st w = .armed)
    (other : b.st (!w) ≠ .armed) :
    let t := (tickWork x false len g b d).2.1
    (b.due w ≤ g.epoch → t.st w = .active ∧ t.activeB = w ∧ (b.st (!w) = .active → t.st (!w) = .draining))
      ∧ (g.epoch < b.due w → t.st w = .armed ∧ t.st (!w) = b.st (!w)) := by
  obtain ⟨d', hb⟩ := tickWork_banks x false len g b d
  obtain ⟨hst, hactive⟩ := Prod.mk.inj hb
  dsimp only
  rw [hst, hactive, bankSwap_single d' other]
  refine ⟨fun due => ?_, fun early => ?_⟩
  · rw [swapOne_due armed (.inr due)]
    obtain ⟨active, new, old⟩ := bankActive_st g.epoch w (b, d')
    exact ⟨active, new, fun h => by rw [old, if_pos h]⟩
  · rw [swapOne_early early]
    exact ⟨armed, rfl⟩

/-! ### JUMP_TICK -/

theorem exec_jumpTick_falls (x : TickIn) {s : State} {p : Int} (held : s.held = false) (core : s.dev.pins.coreLost = false)
    (due : jumpAt s.grid = some p) :
    exec (.jumpTick x) s = .next { s with
      grid := (tickWork x true (p - s.grid.base) (jumpedTo s.grid p) s.banks (s.dev.event GRT_STATUS.JUMPED)).1
      banks := (tickWork x true (p - s.grid.base) (jumpedTo s.grid p) s.banks (s.dev.event GRT_STATUS.JUMPED)).2.1
      dev := (tickWork x true (p - s.grid.base) (jumpedTo s.grid p) s.banks (s.dev.event GRT_STATUS.JUMPED)).2.2 } := by
  show execJumpTick x s = _
  rw [execJumpTick, State.withAll_live _ held]
  simp only [due, core, Bool.false_eq_true, if_false]

theorem exec_jumpTick_same (x : TickIn) {s : State} (h : s.dev.pins.coreLost = true ∨ jumpAt s.grid = none) :
    exec (.jumpTick x) s = .next s := by
  show execJumpTick x s = _
  rw [execJumpTick]
  refine State.withAll_same ?_
  cases due : jumpAt s.grid with
  | none => rfl
  | some p =>
    have core : s.dev.pins.coreLost = true := h.resolve_right (by simp [due])
    simp [core]

/-- A jump is due in state AHEAD alone, at a multiple of a frame beyond EPOCH that EPOCH can hold (R41). -/
theorem jumpAt_some {g : Grid} {p : Int} (h : jumpAt g = some p) :
    g.state = .ahead ∧ ∃ m : Int, p = m * fineFrame ∧ (g.epoch.toNat : Int) < m * 1024 ∧ m * 1024 < 2 ^ 64 := by
  unfold jumpAt at h
  split at h
  · simp at h
  · dsimp only at h
    split at h
    · next due => exact ⟨due.1, _, (Option.some.inj h).symm, due.2⟩
    · simp at h

/-- The jump's EPOCH is the jump's PTP time in epochs, greater than the one before, and leaves no phase error (R41). -/
theorem jumpedTo_epoch {g : Grid} {p : Int} (h : jumpAt g = some p) :
    ((jumpedTo g p).epoch.toNat : Int) * (1024 * fineNs) = p ∧ g.epoch.toNat < (jumpedTo g p).epoch.toNat
      ∧ (jumpedTo g p).err = 0 := by
  obtain ⟨-, m, rfl, later, fits⟩ := jumpAt_some h
  have epochs : m * fineFrame / (1024 * fineNs) = m * 1024 := by rw [fineFrame_eq, fineNs_eq]; omega
  have toNat : ((jumpedTo g (m * fineFrame)).epoch.toNat : Int) = m * 1024 := by
    rw [jumpedTo, epochs, BitVec.toNat_ofInt]
    omega
  have time : m * 1024 * (1024 * fineNs) = m * fineFrame := by rw [fineFrame_eq]; ring
  refine ⟨by rw [toNat, time], by omega, ?_⟩
  have base : (jumpedTo g (m * fineFrame)).base = m * fineFrame := rfl
  rw [Grid.err, toNat, base, ← time]
  ring

/-- With no phase error no jump is due (R41). -/
theorem judge_noJump {g : Grid} (now : Int) (d : Dev) (state : g.state ≠ .holdover) (h : g.err = 0) :
    (judge now g d).1.phaseErr = 0 ∧ (judge now g d).1.jumpFrom = none := by
  have calm : grtState d (decide (g.state = .holdover)) g.err ≠ .ahead := by
    rw [h, decide_eq_false state]; exact grtState_zero d
  exact ⟨by rw [judge_phaseErr, h]; rfl, if_neg fun wanted => calm wanted.1⟩

theorem tickWork_jump (x : TickIn) (len : Int) {g : Grid} {p : Int} (b : Banks) (d : Dev) (h : jumpAt g = some p) :
    let t := (tickWork x true len (jumpedTo g p) b d).1
    t.epoch = (jumpedTo g p).epoch ∧ t.base = p ∧ t.phaseErr = 0 ∧ t.jumpFrom = none := by
  obtain ⟨g', d', time, ht⟩ := tickWork_grid x true len (jumpedTo g p) b d
  have state : g'.state ≠ .holdover := by
    rw [time.state, show (jumpedTo g p).state = g.state from rfl, (jumpAt_some h).1]; decide
  dsimp only
  rw [ht, judge_epoch, judge_base]
  exact ⟨time.epoch, time.base, judge_noJump _ _ state (time.err.trans (jumpedTo_epoch h).2.2)⟩

/-- At a jump tick a swap armed alone takes effect whatever its target (R51). -/
theorem tickWork_jumpSwap (x : TickIn) (len : Int) {g : Grid} {b : Banks} (d : Dev) {w : Bool} (armed : b.st w = .armed)
    (other : b.st (!w) ≠ .armed) :
    (tickWork x true len g b d).2.1.st w = .active ∧ (tickWork x true len g b d).2.1.activeB = w := by
  obtain ⟨d', hb⟩ := tickWork_banks x true len g b d
  obtain ⟨hst, hactive⟩ := Prod.mk.inj hb
  rw [hst, hactive, bankSwap_single d' other, swapOne_due armed (.inl rfl)]
  exact ⟨(bankActive_st ..).1, (bankActive_st ..).2.1⟩

/-- Settles O10: the time through a tick by `tickWork_grid`, the banks by `tickWork_banks`; PHASE_ERR's rounding is the model's
choice (log entry 132). -/
theorem tickAndJump : Obligations.TickAndJump := by
  refine ⟨fun x s held falls => ?_, fun x s => exec_tick_same x, fun x s => exec_jumpTick_same x, fun x s p held core due => ?_⟩
  · obtain ⟨epoch, base, phase⟩ := tickWork_next x s.grid s.banks s.dev
    exact ⟨_, exec_tick_falls x held falls, epoch, base, phase, fun w armed other =>
      tickWork_swap x _ (g := nextTick s.grid s.dev) s.dev armed other⟩
  · obtain ⟨epoch, base, phase, jump⟩ := tickWork_jump x (p - s.grid.base) s.banks (s.dev.event GRT_STATUS.JUMPED) due
    exact ⟨_, exec_jumpTick_falls x held core due, by rw [epoch]; exact (jumpedTo_epoch due).1, base, phase, jump,
      fun w armed other => tickWork_jumpSwap x _ _ armed other⟩

end Sys2Proof.Machine

namespace Sys2Proof.Machine

/-! ### EPOCH through the effects on Graticule, banks and device (R35)

`SameEpoch x y`: y's Graticule has x's EPOCH. Every effect but a tick and power-on reset is one of these: the effects of register
writes, of the accesses that wait, of the boot ROM's load, of Tansy's routines. -/

/-- y's Graticule has x's EPOCH. -/
def SameEpoch (x y : Whole) : Prop := y.1.epoch = x.1.epoch

namespace SameEpoch

@[simp] theorem refl (x : Whole) : SameEpoch x x := rfl

theorem trans {x y z : Whole} (h : SameEpoch x y) (k : SameEpoch y z) : SameEpoch x z := Eq.trans k h

/-- The same Graticule has the same EPOCH. -/
theorem of_grid (g : Grid) (b b' : Banks) (d d' : Dev) : SameEpoch (g, b, d) (g, b', d') := rfl

theorem ite {x y z : Whole} {c : Prop} [Decidable c] (h : SameEpoch x y) (k : SameEpoch x z) :
    SameEpoch x (if c then y else z) := by
  split
  · exact h
  · exact k

theorem ite_snd {α : Type} {x : Whole} {y z : α × Whole} {c : Prop} [Decidable c] (h : SameEpoch x y.2) (k : SameEpoch x z.2) :
    SameEpoch x (if c then y else z).2 := by
  split
  · exact h
  · exact k

theorem ite_mid {α β : Type} {x : Whole} {y z : α × Whole × β} {c : Prop} [Decidable c] (h : SameEpoch x y.2.1)
    (k : SameEpoch x z.2.1) : SameEpoch x (if c then y else z).2.1 := by
  split
  · exact h
  · exact k

theorem onDev (f : Dev → Dev) (x : Whole) : SameEpoch x (onDev f x) := of_grid x.1 x.2.1 _ x.2.2 _

theorem onBanks (f : Banks → Dev → Banks × Dev) (x : Whole) : SameEpoch x (onBanks f x) := of_grid x.1 x.2.1 _ x.2.2 _

@[simp] theorem onDev_iff {f : Dev → Dev} {x y : Whole} : SameEpoch x (Machine.onDev f y) ↔ SameEpoch x y := Iff.rfl

@[simp] theorem onBanks_iff {f : Banks → Dev → Banks × Dev} {x y : Whole} :
    SameEpoch x (Machine.onBanks f y) ↔ SameEpoch x y := Iff.rfl

theorem onGrid {f : Grid → Dev → Grid × Dev} (h : ∀ g d, (f g d).1.epoch = g.epoch) (x : Whole) : SameEpoch x (onGrid f x) :=
  h x.1 x.2.2

/-- Steps of a fold that may fail. -/
theorem foldl_bind {α : Type} {f : α → Whole → Option Whole} (h : ∀ a x y, f a x = some y → SameEpoch x y) (l : List α) :
    ∀ x z, l.foldl (fun y a => y.bind (f a)) (some x) = some z → SameEpoch x z := by
  have failed (l : List α) : l.foldl (fun (y : Option Whole) a => y.bind (f a)) none = none := by
    induction l with
    | nil => rfl
    | cons a l ih => exact ih
  induction l with
  | nil => rintro x z ⟨⟩; exact refl x
  | cons a l ih =>
    intro x z hz
    rw [List.foldl_cons, Option.bind_some] at hz
    cases hy : f a x with
    | none => rw [hy, failed] at hz; exact absurd hz (by simp)
    | some y => rw [hy] at hz; exact (h a x y hy).trans (ih y z hz)

end SameEpoch

/-! #### The Graticule's registers and the clock -/

theorem jumpReq_epoch (dt : Nat) (g : Grid) (d : Dev) : (jumpReq dt g d).1.epoch = g.epoch := by
  unfold jumpReq
  split
  · exact judge_epoch ..
  · rfl

theorem epochCtlWrite_epoch (a dt : Nat) (v : Word) (g : Grid) (d : Dev) : (epochCtlWrite a dt v g d).1.epoch = g.epoch :=
  judge_epoch ..

theorem gsyncCtlWrite_epoch (v : Word) (a : Nat) (g : Grid) (d : Dev) : (gsyncCtlWrite v a g d).1.epoch = g.epoch := by
  unfold gsyncCtlWrite
  dsimp only
  split
  · rfl
  · split
    · rfl
    · rfl

theorem followWord_epoch (dt w : Nat) (g : Grid) (d : Dev) : (followWord dt w g d).1.epoch = g.epoch := by
  by_cases h : g.state ≠ .holdover ∨ 1 ≤ g.good
  · obtain ⟨g', hf, -, epoch, -⟩ := followWord_sets (w := w) (dt := dt) (d := d) h
    rw [hf, judge_epoch, epoch]
  · rw [not_or, not_not, Nat.not_le, Nat.lt_one_iff] at h
    rw [followWord_first h.1 h.2]

theorem gsyncRx_epoch (w dt : Nat) (g : Grid) (d : Dev) : (gsyncRx w dt g d).1.epoch = g.epoch := by
  have role : d.get GRT_GSYNC_CTL.ROLE < 4 := Fld.read_lt GRT_GSYNC_CTL.ROLE _
  by_cases off : d.get GRT_GSYNC_CTL.ROLE = 0 ∨ d.get GRT_GSYNC_CTL.ROLE = 3
  · rw [gsyncRx_off off]
  by_cases leader : d.get GRT_GSYNC_CTL.ROLE = 1
  · by_cases crc : gsyncCrc w = bits w 127 112
    · rw [gsyncRx_leader leader crc]
    · rw [gsyncRx_leader_bad leader crc]
  have follower : d.get GRT_GSYNC_CTL.ROLE = 2 := by omega
  by_cases crc : gsyncCrc w = bits w 127 112
  · obtain ⟨orig, rx⟩ := gsyncRx_follower (dt := dt) (g := g) follower crc
    rw [rx, followWord_epoch]
  · rw [gsyncRx_follower_bad follower crc]

theorem pwApply_epoch (dt k st : Nat) (g : Grid) (d : Dev) : (pwApply dt k st g d).1.epoch = g.epoch := by
  cases h : d.pw.get none k with
  | none => rw [pwApply_none dt st g h]
  | some p =>
    rw [pwApply_some dt st g h]
    dsimp only
    split
    · rfl
    · rfl

/-! #### Register writes and the accesses that wait -/

namespace SameEpoch

theorem wideStore (g : Grid) (d : Dev) (l : Loc) (base i dt v : Nat) : (wideStore g d l base i dt v).1.epoch = g.epoch := by
  unfold Machine.wideStore
  dsimp only
  split
  case h_1 =>
    split
    · exact (timeStep_grid ..).2.1
    · exact (timeOffset_grid ..).2.1
  all_goals rfl

theorem mbxGo (src : Src) (l : Loc) (base dt : Nat) (x : Whole) : SameEpoch x (mbxGo src l base dt x) := by
  unfold Machine.mbxGo
  dsimp only
  split
  · refine ite (of_grid ..) (ite (of_grid ..) (wideStore ..))
  · split
    · exact of_grid ..
    · exact of_grid ..

theorem mbxWrite (src : Src) (h : Hit) (base a dt : Nat) (v : Word) (x : Whole) : SameEpoch x (mbxWrite src h base a dt v x) := by
  unfold Machine.mbxWrite
  exact ite (onDev ..) (ite (onDev ..) (ite ((onDev ..).trans (mbxGo ..)) (onDev ..)))

/-- A register write: GRT's act on the Graticule but leave EPOCH, and those of every other block act on the banks or the device. -/
theorem writeEffect (src : Src) (h : Hit) (a dt : Nat) (v : Word) (x : Whole) : SameEpoch x (writeEffect src h a dt v x) := by
  unfold Machine.writeEffect
  dsimp only
  split
  · exact mbxWrite ..
  · exact onDev ..
  · refine ite (onDev ..) ?_
    cases h.loc.kind
    case grt =>
      dsimp only
      split
      · exact onGrid (epochCtlWrite_epoch _ _ _) x
      · exact ite (onGrid (jumpReq_epoch dt) x) (refl x)
      · exact onGrid (gsyncCtlWrite_epoch _ _) x
      · exact onDev ..
    all_goals
      dsimp only
      repeat' split
    all_goals simp only [onDev_iff, onBanks_iff, refl]

theorem doWrite (src : Src) (h : Hit) (a dt : Nat) (v : Word) (x : Whole) : SameEpoch x (doWrite src h a dt v x) := by
  unfold Machine.doWrite
  exact ite ((writeEffect ..).trans (onDev ..)) (writeEffect ..)

theorem heldDone (x : Whole) (q : HeldAcc) : SameEpoch x (heldDone x q) := by
  unfold Machine.heldDone
  refine ite (onDev ..) (ite (onDev ..) (ite (onDev ..) ?_))
  split
  · exact refl x
  · exact ite (onDev ..) (ite (onDev ..) (doWrite ..))

theorem accept {done : Whole → Whole} (h : ∀ x, SameEpoch x (done x)) (q : HeldAcc) (x : Whole) :
    SameEpoch x (accept q done x) := by
  unfold Machine.accept
  exact ite (onDev ..) (h x)

theorem releaseHeld (x : Whole) : SameEpoch x (releaseHeld x) := by
  unfold Machine.releaseHeld
  rw [onDev_iff]
  refine List.foldlRecOn (motive := fun r : List HeldAcc × Whole => SameEpoch x r.2) _ _ (refl x) fun r h q _ => ?_
  split
  · exact h
  · exact h.trans (heldDone ..)

theorem bar0Write (src : Src) (a : Nat) (shape : Shape) (v : Word) (dt : Nat) (x : Whole) :
    SameEpoch x (bar0Write src a shape v dt x) := by
  unfold Machine.bar0Write
  dsimp only
  split
  · exact onDev ..
  · split
    · exact onDev ..
    · exact accept (doWrite src _ a dt v) _ x

theorem bar0Read (src : Src) (a : Nat) (shape : Shape) (x : Whole) : SameEpoch x (bar0Read src a shape x) := by
  unfold Machine.bar0Read
  refine ite (accept (onDev _) _ x) ?_
  split
  · exact onDev ..
  · split
    · exact onDev ..
    · exact accept (fun y => onDev _ y) _ x

theorem rejoin (s : Nat) (x : Whole) : SameEpoch x (rejoin s x) := by
  unfold Machine.rejoin
  exact ite ((onDev ..).trans (releaseHeld ..)) (refl x)

/-! #### Tansy's routines and the redo record (R550, R551) -/

theorem storeWord (e port a dt : Nat) (v : Word) (x : Whole) : SameEpoch x (storeWord e port a dt v x) := by
  unfold Machine.storeWord
  split
  · exact onDev ..
  · split
    · exact accept (writeEffect .pf1 _ a dt v) _ x
    · exact refl x
  · exact onDev ..
  · exact refl x

theorem storeWords (e port dt : Nat) (vs : List Word) : ∀ a x, SameEpoch x (storeWords e port a dt vs x) := by
  induction vs with
  | nil => exact fun _ => refl
  | cons v r ih => exact fun a x => (storeWord e port a dt v x).trans (ih _ _)

theorem applyEff (e dt : Nat) (f : TEff) (x : Whole) : SameEpoch x (applyEff e dt f x).2 := by
  unfold Machine.applyEff
  split
  case h_1 => exact storeWords ..
  all_goals exact onDev ..

theorem applyEffs (e dt : Nat) (fs : List TEff) : ∀ x, SameEpoch x (applyEffs e dt fs x).2 := by
  induction fs with
  | nil => exact refl
  | cons f r ih => exact fun x => (applyEff e dt f x).trans (ih _)

theorem redoApply (e : Nat) (x : Whole) : SameEpoch x (redoApply e x) := by
  unfold Machine.redoApply
  exact (applyEffs ..).trans (onDev ..)

theorem readWord {e port a : Nat} {x : Whole} {r : Word × Whole} (h : readWord e port a x = some r) : SameEpoch x r.2 := by
  unfold Machine.readWord at h
  dsimp only at h
  repeat' split at h
  all_goals simp_all only [Option.some.injEq, reduceCtorEq]
  all_goals subst h
  all_goals exact of_grid ..

theorem readWords (e port : Nat) (buf : List TEff) (n : Nat) :
    ∀ a x r, readWords e port a n buf x = some r → SameEpoch x r.2 := by
  induction n with
  | zero => rintro a x r ⟨⟩; exact refl x
  | succ n ih =>
    intro a x r h
    unfold Machine.readWords at h
    split at h
    · exact absurd h (by simp)
    · next v y hv =>
      obtain ⟨z, hz, rfl⟩ := Option.map_eq_some_iff.mp h
      refine SameEpoch.trans (y := y) ?_ (ih _ _ z hz)
      split at hv
      · cases hv; exact refl x
      · exact readWord hv

theorem effect (e dt : Nat) (f : TEff) (t : TRun) (x : Whole) : SameEpoch x (effect e dt f t x).2 := by
  unfold Machine.effect
  split
  · exact applyEff ..
  · exact refl x

theorem memOp (e dt op port a dst : Nat) (vs : List Word) (t : TRun) (x : Whole) :
    SameEpoch x (memOp e dt op port a dst vs t x).2 := by
  unfold Machine.memOp
  split
  · exact refl x
  · dsimp only
    split
    case h_1 =>
      split
      · split
        · next h => exact (of_grid ..).trans (readWords _ _ _ _ _ _ _ h)
        · exact of_grid ..
      · exact of_grid ..
    case h_2 =>
      split
      · exact of_grid ..
      · split
        · exact (of_grid ..).trans (onDev ..)
        · exact (of_grid ..).trans (effect ..)
    case h_3 =>
      split
      · split
        · exact of_grid ..
        · exact of_grid ..
      · exact of_grid ..
    case h_4 =>
      split
      · exact (of_grid ..).trans (effect ..)
      · exact of_grid ..
    case h_5 => exact of_grid ..

theorem evtOp (e dt op : Nat) (t : TRun) (x : Whole) : SameEpoch x (evtOp e dt op t x).2 := by
  unfold Machine.evtOp
  split
  · exact effect ..
  · exact (of_grid ..).trans (effect ..)
  · exact (of_grid ..).trans (effect ..)
  · exact effect ..
  · exact refl x

theorem commit (e dt : Nat) (sig : Bool) (t : TRun) (x : Whole) : SameEpoch x (commit e dt sig t x).2 := by
  unfold Machine.commit
  split
  · exact refl x
  · exact (applyEffs ..).trans (onDev ..)

theorem tWord (e : Nat) (x : TRoutine) (w : Nat) (t : TRun) (s : Whole) : SameEpoch s (tWord e x w t s).2.1 := by
  unfold Machine.tWord
  dsimp only
  have worked (t t' : TRun) (d : Dev) (op port a dst eop : Nat) (vs : List Word) :
      SameEpoch s (Machine.evtOp e x.dt eop t' (Machine.memOp e x.dt op port a dst vs t (s.1, s.2.1, d)).2).2 :=
    ((of_grid ..).trans (memOp ..)).trans (evtOp ..)
  exact ite_mid ((worked ..).trans (of_grid ..)) (ite_mid (worked ..) (ite_snd ((worked ..).trans (commit ..)) (worked ..)))

theorem tRunWords (e : Nat) (x : TRoutine) (fuel : Nat) : ∀ t s, SameEpoch s (tRunWords fuel e x t s).2.1 := by
  induction fuel with
  | zero => exact fun _ => refl
  | succ fuel ih =>
    intro t s
    unfold Machine.tRunWords
    split
    · exact refl s
    · split
      · exact refl s
      · next w _ =>
        split
        · exact refl s
        · dsimp only
          split
          · exact tWord ..
          · split
            · exact tWord ..
            · exact (tWord e x w t s).trans (ih _ _)

theorem abandon (e : Nat) (t : TRun) (s : Whole) : SameEpoch s (abandon e t s) := onDev ..

/-- The words of one try of a routine. -/
theorem tried (fuel e : Nat) (x : TRoutine) (t : TRun) (s : Whole) (d : Dev) :
    SameEpoch s (Machine.tRunWords fuel e x t (s.1, s.2.1, d)).2.1 :=
  (of_grid ..).trans (tRunWords ..)

theorem tRoutine (e : Nat) (x : TRoutine) (left tries total : Nat) (s : Whole) :
    SameEpoch s (tRoutine tries e x left total s) := by
  fun_induction Machine.tRoutine tries e x left total s with
  | case1 => exact (tried ..).trans ((commit ..).trans ((onDev ..).trans (onDev ..)))
  | case2 => exact (tried ..).trans ((ite (onDev ..) (onDev ..)).trans (onDev ..))
  | case3 => exact (tried ..).trans ((abandon ..).trans (onDev ..))
  | case4 => exact (tried ..).trans ((onDev ..).trans ((onDev ..).trans (onDev ..)))
  | case5 => exact (tried ..).trans ((abandon ..).trans ((onDev ..).trans (onDev ..)))
  | case6 _ _ _ _ _ _ _ _ _ _ _ _ ih => exact ((tried ..).trans (abandon ..)).trans ih

theorem serveEvent (e : Nat) (x : TRoutine) (s : Whole) : SameEpoch s (serveEvent e x s) := by
  unfold Machine.serveEvent
  exact ite (refl s) ((onDev ..).trans (tRoutine ..))

end SameEpoch

end Sys2Proof.Machine

namespace Sys2Proof.Machine

/-! #### Warm resets, and the boot ROM's load of an image (R72, R116, R125, R132, R137, R141) -/

namespace SameEpoch

theorem warmReset (cause : Nat) (x : Whole) : SameEpoch x (warmReset cause x) := of_grid ..

theorem loadReg {t a : Nat} {bankB : Bool} {v : Word} {x y : Whole} (h : loadReg t bankB a v x = some y) : SameEpoch x y := by
  unfold Machine.loadReg at h
  dsimp only at h
  repeat' split at h
  all_goals simp only [Option.some.injEq, reduceCtorEq] at h
  all_goals subst h
  case isFalse.isFalse.isFalse.isFalse => exact writeEffect ..
  all_goals exact of_grid ..

theorem loadGz {h i v : Nat} {x y : Whole} (e : loadGz h i v x = some y) : SameEpoch x y := by
  unfold Machine.loadGz at e
  dsimp only at e
  repeat' split at e
  all_goals simp only [Option.some.injEq, reduceCtorEq] at e
  all_goals subst e
  all_goals exact of_grid ..

theorem loadAse {s i v : Nat} {x y : Whole} (h : loadAse s i v x = some y) : SameEpoch x y := by
  unfold Machine.loadAse at h
  dsimp only at h
  split at h
  · exact absurd h (by simp)
  · obtain rfl := Option.some.inj h; exact onDev ..

theorem loadMbx {t base i : Nat} {bankB : Bool} {v : BitVec 128} {x y : Whole} (h : loadMbx t bankB base i v x = some y) :
    SameEpoch x y := by
  unfold Machine.loadMbx at h
  dsimp only at h
  split at h
  · exact absurd h (by simp)
  · obtain ⟨-, h⟩ := Option.ite_none_left_eq_some.mp h
    split at h
    · exact loadGz h
    split at h
    · exact loadAse h
    obtain ⟨-, h⟩ := Option.ite_none_left_eq_some.mp h
    obtain ⟨-, h⟩ := Option.ite_none_left_eq_some.mp h
    obtain rfl := Option.some.inj h
    exact wideStore ..

theorem loadItem {t : Nat} {bankB : Bool} {x y : Whole} : ∀ {i : Item}, loadItem t bankB x i = some y → SameEpoch x y
  | .reg _ _, h => loadReg h
  | .mbx _ _ _, h => loadMbx h
  | .resv _, h => by
    change (if t = 4 then some x else none) = some y at h
    split at h
    · obtain rfl := Option.some.inj h; exact refl x
    · exact absurd h (by simp)

theorem loadSection {i : Image} {t : Nat} {bankB : Bool} {x y : Whole} (h : loadSection i t bankB x = some y) :
    SameEpoch x y := by
  unfold Machine.loadSection at h
  split at h
  · obtain rfl := Option.some.inj h; exact refl x
  · exact foldl_bind (f := fun i x => Machine.loadItem t bankB x i) (fun _ _ _ => loadItem) _ x y h

theorem enginesStart {i : Image} {x y : Whole} (h : enginesStart i x = some y) : SameEpoch x y := by
  have started (z : Whole) : SameEpoch z ([0, 1].foldl
      (fun x e => Machine.onDev (fun d => d.put (HK_ENGINE.STATE e) tsRunning) (Machine.redoApply e x)) z) :=
    List.foldlRecOn (motive := SameEpoch z) _ _ (refl z) fun _ h e _ => h.trans ((redoApply e _).trans (onDev ..))
  unfold Machine.enginesStart at h
  dsimp only at h
  split at h
  · obtain rfl := Option.some.inj h; exact started x
  · split at h
    · obtain rfl := Option.some.inj h; exact (onDev ..).trans (started _)
    · exact absurd h (by simp)

theorem afterSection {i : Image} {t : Nat} {x y : Whole} (h : afterSection i t x = some y) : SameEpoch x y := by
  unfold Machine.afterSection at h
  split at h
  case h_2 => exact enginesStart h
  all_goals
    obtain rfl := Option.some.inj h
    exact of_grid ..

theorem loadImage {i : Image} {x y : Whole} (h : loadImage i x = some y) : SameEpoch x y := by
  unfold Machine.loadImage at h
  split at h
  · refine foldl_bind (f := fun t x => (Machine.loadSection i t false x).bind (Machine.afterSection i t))
      (fun t a b hb => ?_) _ x y h
    obtain ⟨z, hz, hb⟩ := Option.bind_eq_some_iff.mp hb
    exact (loadSection hz).trans (afterSection hb)
  · exact absurd h (by simp)

theorem tryImage (i : Image) (src : Nat) (seq : Word) (x : Whole) : SameEpoch x (tryImage i src seq x).2 := by
  unfold Machine.tryImage
  refine ite_snd (refl x) ?_
  split
  · exact of_grid ..
  · next y h => exact (loadImage h).trans (onDev ..)

theorem tryAll (l : List (Nat × Image)) : ∀ x, SameEpoch x (tryAll l x).2 := by
  induction l with
  | nil => exact refl
  | cons c r ih =>
    intro x
    obtain ⟨slot, i⟩ := c
    unfold Machine.tryAll
    have tried : SameEpoch x (Machine.onDev (fun d => slotResult d slot (Machine.tryImage i slot i.seq x).1)
        (Machine.tryImage i slot i.seq x).2) :=
      (tryImage ..).trans (onDev ..)
    exact ite_snd (tried.trans (onDev ..)) (tried.trans (ih _))

theorem bootSelect (sfdp : Option (BitVec 8)) (a b : Image) (x : Whole) : SameEpoch x (bootSelect sfdp a b x) := by
  unfold Machine.bootSelect
  exact ite ((onDev ..).trans ((onDev ..).trans (tryAll ..)))
    ((onDev ..).trans ((onDev ..).trans ((tryAll ..).trans (onDev ..))))

theorem bootDo (op : Nat) (slot : Option Nat) {f : Whole → Nat × Whole} (h : ∀ x, SameEpoch x (f x).2) (x : Whole) :
    SameEpoch x (bootDo op slot f x) := by
  unfold Machine.bootDo
  have issued : SameEpoch x
      (if x.2.2.flag BOOT_CMD_RESULT.BUSY then x else Machine.onDev (fun d => bootIssue d op (slot.getD 0)) x) :=
    ite (refl x) (onDev ..)
  generalize (if x.2.2.flag BOOT_CMD_RESULT.BUSY then x else Machine.onDev (fun d => bootIssue d op (slot.getD 0)) x) = y at *
  dsimp only
  split
  · exact ite (issued.trans ((h y).trans (onDev ..))) issued
  · exact issued

theorem applyImage (i : Image) (x : Whole) : SameEpoch x (applyImage i x).2 := by
  unfold Machine.applyImage
  split
  · exact refl x
  · refine ite_snd (refl x) ?_
    split
    · exact refl x
    · next y h =>
      obtain ⟨z, hz, hy⟩ := Option.bind_eq_some_iff.mp h
      have program : SameEpoch x y := (loadSection hz).trans (loadSection hy)
      dsimp only
      split
      · next h =>
        have patched := (onDev ..).trans (loadSection h)
        exact program.trans (((onBanks ..).trans ((onBanks ..).trans (onDev ..))).trans (patched.trans (onDev ..)))
      · exact program.trans (of_grid ..)

theorem loadHost (i : Image) (x : Whole) : SameEpoch x (loadHost i x).2 := by
  unfold Machine.loadHost
  refine ite_snd (refl x) (ite_snd (of_grid ..) (ite_snd ?_ ?_))
  · exact (onDev ..).trans (tryImage ..)
  · exact (onDev ..).trans ((tryImage ..).trans (onDev ..))

end SameEpoch

end Sys2Proof.Machine

namespace Sys2Proof.Machine

/-! #### EPOCH through every command (R35) -/

theorem withAll_epoch {s t : State} {f : Grid → Banks → Dev → Grid × Banks × Dev} (h : s.withAll f = .next t)
    (keep : ∀ g b d, (f g b d).1.epoch = g.epoch) : t.grid.epoch = s.grid.epoch := by
  unfold State.withAll at h
  split at h
  · cases h; rfl
  · cases h; exact keep ..

/-- In power-on reset nothing acts. -/
theorem withAll_heldGrid {s t : State} {f : Grid → Banks → Dev → Grid × Banks × Dev} (held : s.held = true)
    (h : s.withAll f = .next t) : t.grid = s.grid := by
  rw [State.withAll, if_pos held] at h
  cases h
  rfl

theorem withWhole_epoch {s t : State} {f : Whole → Whole} (h : s.withWhole f = .next t) (keep : ∀ x, SameEpoch x (f x)) :
    t.grid.epoch = s.grid.epoch :=
  withAll_epoch h fun g b d => keep (g, b, d)

theorem withDev_epoch {s t : State} {f : Dev → Dev} (h : s.withDev f = .next t) : t.grid.epoch = s.grid.epoch :=
  congrArg Grid.epoch (withDev_frame s t f h).2.1

theorem execRegisterWrite_epoch {src : Src} {bar : Fin 3} {off : BitVec 27} {shape : Shape} {v : Word} {dt : Nat} {s t : State}
    (h : execRegisterWrite src bar off shape v dt s = .next t) : t.grid.epoch = s.grid.epoch :=
  withWhole_epoch h fun x => by
    split
    · exact .bar0Write ..
    · exact .ite (.refl x) (.onDev ..)
    · exact .onDev ..

theorem execRegisterRead_epoch {src : Src} {bar : Fin 3} {off : BitVec 27} {shape : Shape} {dt : Nat} {s t : State}
    (h : execRegisterRead src bar off shape dt s = .next t) : t.grid.epoch = s.grid.epoch :=
  withWhole_epoch h fun x => .ite (.bar0Read ..) (.ite (.refl x) (.accept (.onDev _) _ x))

theorem execMailboxRead_epoch {src : Src} {base : BitVec 27} {dt : Nat} {err : ReadErr} {s t : State}
    (h : execMailboxRead src base dt err s = .next t) : t.grid.epoch = s.grid.epoch :=
  withWhole_epoch h fun x => by
    dsimp only
    split
    · exact .ite ((SameEpoch.bar0Write ..).trans (.onDev ..)) (.bar0Write ..)
    · exact .bar0Write ..

theorem mailboxPop_epoch {src : Src} {base idx : Nat} {s t : State} (h : mailboxPop src base idx s = .next t) :
    t.grid.epoch = s.grid.epoch :=
  withWhole_epoch h fun _ => (SameEpoch.bar0Write ..).trans (.bar0Write ..)

theorem execOobRead32_epoch {addr : BitVec 7} {off : Word} {timeout more : Bool} {s t : State}
    (h : execOobRead32 addr off timeout more s = .next t) : t.grid.epoch = s.grid.epoch :=
  withWhole_epoch h fun x => by
    refine .ite (.refl x) (.ite ?_ (.ite ((SameEpoch.bar0Read ..).trans (.onDev ..)) (.bar0Read ..)))
    split
    · exact .onDev ..
    · exact .bar0Read ..

theorem execOobWrite32_epoch {addr : BitVec 7} {off v : Word} {pec : Option Byte} {dt : Nat} {s t : State}
    (h : execOobWrite32 addr off v pec dt s = .next t) : t.grid.epoch = s.grid.epoch :=
  withWhole_epoch h fun x => by
    refine .ite (.refl x) (.ite ?_ (.ite ((SameEpoch.bar0Write ..).trans (.onDev ..)) (.bar0Write ..)))
    split
    · exact .refl x
    · exact .ite (.bar0Write ..) (.onDev ..)

/-- An edge of PPS_IN sets only its own time in the Graticule. -/
theorem SameEpoch.ppsIn (g : Grid) (v : BitVec 128) (b b' : Banks) (d d' : Dev) :
    SameEpoch (g, b, d) ({ g with ppsIn := v }, b', d') := rfl

theorem execReboot_epoch {s t : State} (h : execReboot s = .next t) : t.grid.epoch = s.grid.epoch :=
  withWhole_epoch h fun x => by
    have issued : SameEpoch x (if x.2.2.flag BOOT_CMD_RESULT.BUSY then x else onDev (fun d => bootIssue d 5 0) x) :=
      .ite (.refl x) (.onDev ..)
    dsimp only
    split
    · exact issued.trans (.warmReset ..)
    · exact issued

/-- TICK keeps EPOCH or adds one to it. -/
theorem exec_tick_epoch {x : TickIn} {s t : State} (h : exec (.tick x) s = .next t) :
    t.grid.epoch = s.grid.epoch ∨ t.grid.epoch = s.grid.epoch + 1 := by
  cases held : s.held with
  | true => exact .inl (congrArg Grid.epoch (withAll_heldGrid held (show execTick x s = _ from h)))
  | false =>
    cases falls : tickFalls s.grid s.dev with
    | false => cases (exec_tick_same x falls).symm.trans h; exact .inl rfl
    | true =>
      cases (exec_tick_falls x held falls).symm.trans h
      exact .inr (tickWork_next x s.grid s.banks s.dev).1

/-- JUMP_TICK keeps EPOCH or goes to a later epoch. -/
theorem exec_jumpTick_epoch {x : TickIn} {s t : State} (h : exec (.jumpTick x) s = .next t) :
    t.grid.epoch = s.grid.epoch ∨ s.grid.epoch.toNat < t.grid.epoch.toNat := by
  cases held : s.held with
  | true => exact .inl (congrArg Grid.epoch (withAll_heldGrid held (show execJumpTick x s = _ from h)))
  | false =>
    cases core : s.dev.pins.coreLost with
    | true => cases (exec_jumpTick_same x (.inl core)).symm.trans h; exact .inl rfl
    | false =>
      cases due : jumpAt s.grid with
      | none => cases (exec_jumpTick_same x (.inr due)).symm.trans h; exact .inl rfl
      | some p =>
        cases (exec_jumpTick_falls x held core due).symm.trans h
        refine .inr ?_
        rw [(tickWork_jump x _ s.banks _ due).1]
        exact (jumpedTo_epoch due).2.1

/-- A pin of power-on reset starts the Graticule anew, or finds nothing to let go. -/
theorem powerPin_grid {c : Instr} {s t : State} (pin : powerPin c = true) (h : exec c s = .next t) :
    t.grid = {} ∨ t.grid = s.grid := by
  cases c
  case porstAssert => cases h; exact .inl rfl
  case railMonitorTrip => cases h; exact .inl rfl
  case porstRelease strap tst =>
    change execPorstRelease strap tst s = _ at h
    unfold execPorstRelease at h
    split at h
    · cases h; exact .inl rfl
    · cases h; exact .inr rfl
  case railMonitorRelease strap tst =>
    change execRailMonitorRelease strap tst s = _ at h
    unfold execRailMonitorRelease at h
    split at h
    · cases h; exact .inl rfl
    · cases h; exact .inr rfl
  all_goals exact absurd pin Bool.false_ne_true

/-- Every command but the tick, the jump tick and the pins of power-on reset keeps EPOCH: most act on the device alone, and the
others on the Graticule without its count. -/
theorem exec_epoch {c : Instr} {s t : State} (h : exec c s = .next t) (notTick : ∀ x, c ≠ .tick x)
    (notJump : ∀ x, c ≠ .jumpTick x) (notPin : powerPin c = false) : t.grid.epoch = s.grid.epoch := by
  cases c
  all_goals dsimp only [exec] at h
  case tick x => exact absurd rfl (notTick x)
  case jumpTick x => exact absurd rfl (notJump x)
  case porstAssert | porstRelease | railMonitorTrip | railMonitorRelease => exact absurd notPin Bool.noConfusion
  -- the Graticule, PTP time and the PPS pins (chapter 02)
  case jumpReq dt => exact withAll_epoch h fun g _ d => jumpReq_epoch dt g d
  case gsyncWordRx w dt => exact withAll_epoch h fun g _ d => gsyncRx_epoch w.toNat dt g d
  case gsyncHoldover => exact withAll_epoch h fun g b d => SameEpoch.ite (x := (g, b, d)) rfl (.refl _)
  case timeStep =>
    exact withAll_epoch h fun g b d => SameEpoch.ite (x := (g, b, d)) (.of_grid ..) (timeStep_grid ..).2.1
  case timeOffset =>
    exact withAll_epoch h fun g b d => SameEpoch.ite (x := (g, b, d)) (.of_grid ..) (timeOffset_grid ..).2.1
  case ppsInEdge => exact withAll_epoch h fun g b d => SameEpoch.ite (x := (g, b, d)) (.ppsIn ..) (.refl _)
  case postedWriteApply => exact withAll_epoch h fun _ _ _ => pwApply_epoch ..
  -- the registers, their mailboxes and the paths to them (chapter 03)
  case timeFreqWrite | statusAck | mailboxWrite | postedWrite | wldLockSet =>
    exact withWhole_epoch h (SameEpoch.bar0Write _ _ _ _ _)
  case registerWrite => exact execRegisterWrite_epoch h
  case registerRead _ _ _ _ dt => exact execRegisterRead_epoch (dt := dt) h
  case readTimeout => exact withWhole_epoch h fun _ => (SameEpoch.onDev ..).trans (.releaseHeld _)
  case mailboxRead => exact execMailboxRead_epoch h
  case tsFifoPop | samplePop | logPop => exact mailboxPop_epoch h
  case oobRead32 => exact execOobRead32_epoch h
  case oobWrite32 => exact execOobWrite32_epoch h
  -- warm resets and the boot ROM
  case fatalReset => exact withWhole_epoch h fun x => .ite (.warmReset ..) (.refl x)
  case sysrstPulse | coreRefReturn =>
    exact withWhole_epoch h fun x => .ite ((SameEpoch.onDev ..).trans (.warmReset ..)) (.refl x)
  case bootImageSelect => exact withWhole_epoch h fun x => .ite (.bootSelect ..) (.refl x)
  case verify => exact withWhole_epoch h (.bootDo _ _ fun x => .refl x)
  case apply img _ => exact withWhole_epoch h (.bootDo _ _ (.applyImage img))
  case loadHost img => exact withWhole_epoch h (.bootDo _ _ (.loadHost img))
  case reboot => exact execReboot_epoch h
  -- the configuration banks
  case bankSeal | bankSwapArm | bankUnseal | bankDrainEnd | bankDrainExpire => exact withAll_epoch h fun _ _ _ => rfl
  -- slices and Tansy
  case sliceRejoin => exact withWhole_epoch h (.rejoin _)
  case tansyRoutine e x => exact withWhole_epoch h (.serveEvent e x)
  case engineRunning =>
    exact withWhole_epoch h fun x => .ite (.refl x) ((SameEpoch.redoApply ..).trans (.onDev ..))
  -- every other command acts on the device alone
  all_goals exact withDev_epoch h

/-- Settles O9: every command but a tick, a jump tick and a pin of power-on reset keeps EPOCH; a tick adds one, a jump goes to a
later epoch, and power-on reset starts the Graticule anew. -/
theorem epochNeverDecreases : Obligations.EpochNeverDecreases := by
  refine ⟨fun c s t h => ?_, fun x s held falls => ⟨_, exec_tick_falls x held falls, (tickWork_next x s.grid s.banks s.dev).1⟩⟩
  by_cases tick : ∃ x, c = .tick x
  · obtain ⟨x, rfl⟩ := tick
    exact (exec_tick_epoch h).imp_right fun next => .inl ⟨x, rfl, next⟩
  by_cases jump : ∃ x, c = .jumpTick x
  · obtain ⟨x, rfl⟩ := jump
    exact (exec_jumpTick_epoch h).imp_right fun later => .inr (.inl ⟨x, rfl, later⟩)
  cases pin : powerPin c with
  | true =>
    obtain anew | same := powerPin_grid pin h
    · exact .inr (.inr (.inr ⟨rfl, anew⟩))
    · exact .inl (congrArg Grid.epoch same)
  | false => exact .inl (exec_epoch h (not_exists.mp tick) (not_exists.mp jump) pin)

end Sys2Proof.Machine

namespace Sys2Proof.Machine

/-! ### Fields and sequence-cleared status registers (R102, R107) -/

/-- Settles O7: the laws of a field's write, and that a write is a change of its register alone. -/
theorem fieldReadAfterWrite : Obligations.FieldReadAfterWrite := fun d f v h h31 =>
  ⟨Dev.get_put d f v h h31, fun g hd => Dev.get_put_other d f g v h h31 hd, Dev.regsOnly_put d f v⟩

/-- The top byte of a word is its SEQ. -/
theorem Fld.read_seq (st : Nat) (w : Word) : Fld.read ⟨st, 31, 24⟩ w = w.toNat / 2 ^ 24 :=
  Nat.mod_eq_of_lt (by have := w.isLt; simp only [Nat.reduceAdd, Nat.reduceSub, Nat.reducePow] at *; omega)

/-- Clearing bits below 24 leaves SEQ as it is. -/
theorem Fld.read_seq_cleared (st : Nat) (w : Word) {mask : Nat} (h : mask < 2 ^ 24) :
    Fld.read ⟨st, 31, 24⟩ (w &&& ~~~ (BitVec.ofNat 32 mask)) = Fld.read ⟨st, 31, 24⟩ w := by
  apply Nat.eq_of_testBit_eq
  intro j
  have kept : mask.testBit (24 + j) = false :=
    Nat.testBit_lt_two_pow (Nat.lt_of_lt_of_le h (Nat.pow_le_pow_right (by decide) (Nat.le_add_right ..)))
  rw [Fld.testBit_read, Fld.testBit_read, BitVec.testBit_toNat, BitVec.testBit_toNat, BitVec.getLsbD_and, BitVec.getLsbD_not,
    BitVec.getLsbD_ofNat, kept]
  by_cases hj : j < 8
  · simp [show 24 + j < 32 by omega]
  · simp [hj]

/-- An acknowledgement whose SEQ is current clears the event bits (R107). -/
theorem Dev.ackStatus_current {d : Dev} {st : Nat} {v : Word} (mask : Nat) (h : v.toNat / 2 ^ 24 = d.get ⟨st, 31, 24⟩) :
    d.ackStatus st mask v = d.setWord st (d.word st &&& ~~~ (BitVec.ofNat 32 mask)) :=
  if_pos (h.trans (Fld.read_seq ..))

/-- One whose SEQ is stale changes nothing (R107). -/
theorem Dev.ackStatus_stale {d : Dev} {st : Nat} {v : Word} (mask : Nat) (h : v.toNat / 2 ^ 24 ≠ d.get ⟨st, 31, 24⟩) :
    d.ackStatus st mask v = d := if_neg fun k => h (k.trans (Fld.read_seq ..).symm)

/-- Settles O8: an event by its laws, an acknowledgement by whether its SEQ is current. -/
theorem sequenceClearedStatus : Obligations.SequenceClearedStatus := by
  refine ⟨fun d f h => ⟨Dev.raised_event d f h, Dev.regsOnly_event d f, fun g _ hi apart =>
    Dev.event_get_other d f g h (.inr ⟨hi, apart⟩)⟩, fun d st mask v hm => ⟨fun current => ?_, Dev.ackStatus_stale mask⟩⟩
  rw [Dev.ackStatus_current mask current]
  refine ⟨Dev.word_setWord .., ?_, Dev.regsOnly_setWord ..⟩
  rw [Dev.get, Dev.word_setWord, Fld.read_seq_cleared st _ hm, Dev.get]

end Sys2Proof.Machine

namespace Sys2Proof.Machine

/-! ### Register accesses: refused, or done (R94, R100, R101, R665) -/

theorem exec_registerWrite_bar0 (src : Src) (off : BitVec 27) (shape : Shape) (v : Word) (dt : Nat) (s : State) :
    exec (.registerWrite src 0 off shape v dt) s = s.withWhole (bar0Write src off.toNat shape v dt) := rfl

theorem exec_registerRead_bar0 (src : Src) (off : BitVec 27) (shape : Shape) (dt : Nat) (s : State) :
    exec (.registerRead src 0 off shape dt) s = s.withWhole (bar0Read src off.toNat shape) := rfl

theorem shapeError_aligned (src : Src) {a : Nat} (ha : a % 4 = 0) : shapeError src a .dword = none := by
  simp [shapeError, ha]

/-- A write of a bad shape, or one that fails a check, is discarded with the kind of the failure. -/
theorem bar0Write_refused {src : Src} {a k : Nat} {shape : Shape} {v : Word} (dt : Nat) {x : Whole}
    (h : shapeError src a shape = some k ∨ (shapeError src a shape = none ∧ checkAccess x.2.1 x.2.2 src a true v = .error k)) :
    bar0Write src a shape v dt x = onDev (fun d => writeFail d src k 0 a) x := by
  rcases h with h | ⟨h, bad⟩
  · simp [bar0Write, h]
  · simp [bar0Write, h, bad]

/-- A write that passes the checks and need not wait is done. -/
theorem bar0Write_done {src : Src} {a : Nat} {v : Word} {x : Whole} {h : Hit} (dt : Nat) (ha : a % 4 = 0)
    (ok : checkAccess x.2.1 x.2.2 src a true v = .ok h) (goes : mustWait x.2.2 x.2.2.heldAcc ⟨src, true, 0, a, .dword, v⟩ = false) :
    bar0Write src a .dword v dt x = doWrite src h a dt v x := by
  simp [bar0Write, shapeError_aligned src ha, ok, accept, goes]

theorem doWrite_pcie {src : Src} (hsrc : src ≠ .oob) (h : Hit) (a dt : Nat) (v : Word) (x : Whole) :
    doWrite src h a dt v x = writeEffect src h a dt v x := by simp [doWrite, hsrc]

/-- On I2C the write has its effect, and the target answers to its last byte. -/
theorem doWrite_oob (h : Hit) (a dt : Nat) (v : Word) (x : Whole) : ∃ o, doWrite .oob h a dt v x
    = onDev (·.emit o) (writeEffect .oob h a dt v x) := ⟨_, rfl⟩

theorem readFail_pcie {src : Src} (hsrc : src ≠ .oob) (d : Dev) (kind bar off : Nat) :
    readFail d src kind bar off = (busError d src kind bar off false).emit (.abort src bar off) := by simp [readFail, hsrc]

theorem busError_word (d : Dev) (src : Src) (kind bar off : Nat) (write : Bool) {a : Nat} (ha : a ∉ busErrorRegs) :
    (busError d src kind bar off write).word a = d.word a := (busError_regsOnly d src kind bar off write).2 a ha

theorem writeFail_word (d : Dev) (src : Src) (kind bar off : Nat) {a : Nat} (ha : a ∉ busErrorRegs) :
    (writeFail d src kind bar off).word a = d.word a := by
  rw [writeFail, apply_ite (Dev.word · a)]
  exact (ite_self _).trans (busError_word d src kind bar off true ha)

/-- What leaves the device adds nothing to a bus error's log. -/
theorem Dev.busErrorLogged.emit {src : Src} {kind bar off : Nat} {write : Bool} {d e : Dev}
    (h : Dev.busErrorLogged src kind bar off write d e) (o : Output) : Dev.busErrorLogged src kind bar off write d (e.emit o) := h

theorem Dev.regsOnly.emit {l : List Nat} {d e : Dev} (h : Dev.regsOnly l d e) (o : Output) : Dev.regsOnly l d (e.emit o) :=
  Dev.regsOnly_trans h (Dev.regsOnly_emit l e o)

theorem Dev.getLast?_emit (d : Dev) (o : Output) : (d.emit o).out.getLast? = some o := List.getLast?_concat

section
variable {src : Src} {off : BitVec 27} {v : Word} {dt k : Nat} {s : State}

/-- A PCIe write that fails a check changes the bus-error log alone. -/
theorem exec_registerWrite_error (held : s.held = false) (hsrc : src ≠ .oob) (ha : off.toNat % 4 = 0)
    (bad : checkAccess s.banks s.dev src off.toNat true v = .error k) :
    exec (.registerWrite src 0 off .dword v dt) s = .next { s with dev := busError s.dev src k 0 off.toNat true } :=
  State.withWhole_onDev (k := fun d => busError d src k 0 off.toNat true) held
    (bar0Write_error (x := (s.grid, s.banks, s.dev)) dt hsrc ha bad)

/-- A PCIe read that fails a check changes the bus-error log alone, and is aborted. -/
theorem exec_registerRead_error (held : s.held = false) (hsrc : src ≠ .oob) (ha : off.toNat % 4 = 0)
    (bad : checkAccess s.banks s.dev src off.toNat false 0 = .error k) : exec (.registerRead src 0 off .dword dt) s
      = .next { s with dev := (busError s.dev src k 0 off.toNat false).emit (.abort src 0 off.toNat) } := by
  rw [exec_registerRead_bar0, ← readFail_pcie hsrc]
  refine State.withWhole_onDev (k := fun d => readFail d src k 0 off.toNat) held ?_
  rw [bar0Read, if_neg (by simp), shapeError_aligned src ha, bad]

end

/-- What a command leaves a register at, whether or not the device is held. -/
theorem State.withWhole_word {s t : State} {f : Whole → Whole} {a : Nat} (h : s.withWhole f = .next t)
    (keep : (f (s.grid, s.banks, s.dev)).2.2.word a = s.dev.word a) : t.dev.word a = s.dev.word a := by
  by_cases held : s.held = true
  · rw [State.withWhole, State.withAll, if_pos held] at h
    injection h with h
    rw [h]
  · rw [State.withWhole_live f (Bool.not_eq_true _ ▸ held)] at h
    injection h with h
    rw [← h]
    exact keep

/-! ### The worlds (R95, R99) -/

/-- A block's slice is fenced, so that nothing there answers (R617). -/
def fencedOff (d : Dev) (l : Loc) : Bool := match locSlice l with
  | some n => fenced d n
  | none => false

theorem fencedOff_false {d : Dev} {l : Loc} (h : ∀ n, locSlice l = some n → fenced d n = false) : fencedOff d l = false := by
  unfold fencedOff
  cases hs : locSlice l with
  | none => rfl
  | some n => exact h n hs

/-- R665's checks of an access to a register, in their order. -/
theorem checkAccess_hit {a : Nat} {h : Hit} (b : Banks) (d : Dev) (src : Src) (write : Bool) (v : Word) (hit : regAt a = some h) :
    checkAccess b d src a write v =
      if !answers d h.loc.kind || absent d h.loc || fencedOff d h.loc then .error beReserved
      else if !srcSecure src && (secureBlock d h.loc || alwaysSecure h.loc || partSecure d h.loc write v) then .error beWorld
      else if write && locked b d h a then .error beLocked
      else if write && !h.row.fields.any RField.writable then .error beReadonly
      else .ok h := by
  rw [checkAccess, hit]
  rfl

/-- A non-secure access to a secure block that answers is turned away as WORLD, before any later check. -/
theorem checkAccess_world {b : Banks} {d : Dev} {a : Nat} {h : Hit} (write : Bool) (v : Word) (hit : regAt a = some h)
    (secret : secureBlock d h.loc = true) (live : answers d h.loc.kind = true) (there : absent d h.loc = false)
    (unfenced : ∀ n, locSlice h.loc = some n → fenced d n = false) : checkAccess b d .pf0 a write v = .error beWorld := by
  rw [checkAccess_hit b d .pf0 write v hit, live, there, fencedOff_false unfenced, secret]
  rfl

/-- The addresses of the world map lie in WLD. -/
theorem locate_worldMap {a : Nat} (lo : 0x20000 ≤ a) (hi : a < 0x20200) : locate a = some ⟨.wld, 0, 0, a % 0x10000⟩ := by
  have h2 : a / 0x10000 = 2 := by omega
  simp [locate, h2, show a < 0x01000000 by omega]

/-- Once WLD_LOCK.LOCK is set, every write to the world map fails a check (R99). -/
theorem checkAccess_worldLocked {b : Banks} {d : Dev} (src : Src) {a : Nat} (v : Word) (lock : d.flag WLD_LOCK.LOCK = true)
    (lo : 0x20000 ≤ a) (hi : a < 0x20200) : ∃ k, checkAccess b d src a true v = .error k := by
  cases hit : regAt a with
  | none => exact ⟨beReserved, by simp only [checkAccess, hit]⟩
  | some h =>
    have place : h.loc = ⟨.wld, 0, 0, a % 0x10000⟩ := by
      rw [regAt, locate_worldMap lo hi] at hit
      obtain ⟨r, -, hr⟩ := Option.map_eq_some_iff.mp hit
      rw [← hr]
    have shut : locked b d h a = true := by
      simp [locked, place, lock, show a % 65536 < 512 by omega]
    rw [checkAccess_hit b d src true v hit, shut]
    split
    · exact ⟨beReserved, rfl⟩
    · split
      · exact ⟨beWorld, rfl⟩
      · exact ⟨beLocked, rfl⟩

/-- So such a write leaves every register but those of the bus-error log as it is. -/
theorem bar0Write_worldLocked {x : Whole} (src : Src) {off : Nat} (shape : Shape) (v : Word) (dt : Nat) {a : Nat}
    (lock : x.2.2.flag WLD_LOCK.LOCK = true) (lo : 0x20000 ≤ off) (hi : off < 0x20200) (ha : a ∉ busErrorRegs) :
    (bar0Write src off shape v dt x).2.2.word a = x.2.2.word a := by
  obtain ⟨k, refused⟩ : ∃ k, shapeError src off shape = some k
      ∨ (shapeError src off shape = none ∧ checkAccess x.2.1 x.2.2 src off true v = .error k) := by
    cases hs : shapeError src off shape with
    | some k => exact ⟨k, .inl rfl⟩
    | none => exact (checkAccess_worldLocked src v lock lo hi).imp fun k bad => .inr ⟨rfl, bad⟩
  rw [bar0Write_refused dt refused]
  exact writeFail_word _ _ _ _ _ ha

theorem oobWrite32_worldLocked {s t : State} {addr : BitVec 7} {off v : Word} {pec : Option Byte} {dt a : Nat}
    (h : exec (.oobWrite32 addr off v pec dt) s = .next t) (lock : s.dev.flag WLD_LOCK.LOCK = true) (lo : 0x20000 ≤ off.toNat)
    (hi : off.toNat < 0x20200) (ha : a ∉ HIF_OOB_STAT.word.addr :: busErrorRegs) : t.dev.word a = s.dev.word a := by
  obtain ⟨stat, log⟩ := List.ne_and_not_mem_of_not_mem_cons ha
  have write := bar0Write_worldLocked (x := (s.grid, s.banks, s.dev)) .oob .dword v dt lock lo hi log
  change execOobWrite32 addr off v pec dt s = .next t at h
  rw [execOobWrite32] at h
  refine State.withWhole_word h ?_
  by_cases other : (!oobMine s.dev addr) = true
  · rw [if_pos other]
  rw [if_neg other]
  by_cases checked : s.dev.flag HIF_OOB_CTL.PEC_EN = true
  · rw [if_pos checked]
    cases pec with
    | none => rfl
    | some p =>
      by_cases right : p = oobWritePec s.dev off.toNat v
      · dsimp only
        rw [if_pos right]
        exact write
      · dsimp only
        rw [if_neg right]
        exact Dev.word_put_other _ _ _ stat
  · rw [if_neg checked, apply_ite (fun y : Whole => y.2.2.word a)]
    exact (ite_self _).trans write

/-- No register of the world map is one of HIF's. -/
theorem worldMap_not_hif {a : Nat} (lo : 0x20000 ≤ a) : a ∉ HIF_OOB_STAT.word.addr :: busErrorRegs := by
  simp only [HIF_OOB_STAT.word, busErrorRegs, HIF_BUSERR.word, HIF_BUSERR_ADDR.word, HIF_BUSERR_CNT.word, List.mem_cons,
    List.not_mem_nil, or_false]
  omega

/-- Settles O25: the world check turns a non-secure access away, and the lock every write to the world map. -/
theorem worldsAreApart : Obligations.WorldsAreApart := by
  refine ⟨fun off v dt s h held ha hit secret live there unfenced => ⟨?_, ?_⟩, fun dt a v s t lock lo hi =>
    ⟨fun src off shape low high hx => ?_, fun addr off pec low high hx => ?_⟩⟩
  · exact ⟨_, exec_registerWrite_error held (by decide) ha (checkAccess_world true v hit secret live there unfenced),
      busError_logged _ _ _ _ (by decide) (by decide), busError_regsOnly ..⟩
  · exact ⟨_, exec_registerRead_error held (by decide) ha (checkAccess_world false 0 hit secret live there unfenced),
      (busError_logged _ _ _ _ (by decide) (by decide)).emit _, Dev.getLast?_emit .., (busError_regsOnly ..).emit _⟩
  · exact State.withWhole_word hx (bar0Write_worldLocked src shape v dt lock low high (List.not_mem_of_not_mem_cons (worldMap_not_hif lo)))
  · exact oobWrite32_worldLocked hx lock low high (worldMap_not_hif lo)

end Sys2Proof.Machine

namespace Sys2Proof.Machine

/-! ### A register of a parser window whose entry is bad (R247, R668) -/

/-- A parser register that is stored: the write also rewrites both copies of its entry (R247). -/
theorem writeEffect_parser {src : Src} {h : Hit} {a : Nat} (dt : Nat) (v : Word) (x : Whole) (prs : h.loc.kind = .prs)
    (mbx : mbxBase h.loc a = none) (dom : pwDomain h a = none) (ack : h.row.isAck = false) :
    writeEffect src h a dt v x = onDev (fun d => mendReg (d.setWord a (merged x.2.2 h a v)) h.loc a) x := by
  obtain ⟨g, b, d⟩ := x
  simp [writeEffect, mbx, dom, ack, prs]

/-- The first register of bank A's window of slice 0's parser. -/
def parserWord : Nat := 0x04024000

/-- The place of `parserWord` in its map. -/
def parserHit : Hit := ⟨⟨.prs, 0, 0, 0x4000⟩, { off := 0x4000, dims := [(2, 0x4000), (64, 0x10)], fields :=
  [⟨31, 31, .rw, 0⟩, ⟨30, 30, .rw, 0⟩, ⟨29, 28, .rw, 0⟩, ⟨27, 23, .rw, 31⟩, ⟨22, 15, .rw, 0⟩, ⟨14, 9, .rw, 0⟩, ⟨8, 7, .rw, 0⟩] }, [0, 0]⟩

/-- A running device on which the entry behind `parserWord` is bad in both copies. -/
def parserBad : State := { dev := { regs := [(BOOT_STATE.word.addr, 0xC05)], badEntries := [(0, 32, 0, 2, 0)] } }

theorem regAt_parserWord : regAt parserWord = some parserHit := by decide +kernel

theorem checkAccess_parserWord {src : Src} (h : srcSecure src = true) :
    checkAccess parserBad.banks parserBad.dev src parserWord true 0 = .ok parserHit := by
  rw [checkAccess_hit _ _ _ _ _ regAt_parserWord, h, if_neg (by decide +kernel), if_neg (by decide), if_neg (by decide +kernel),
    if_neg (by decide)]

theorem mustWait_parserWord (src : Src) : mustWait parserBad.dev parserBad.dev.heldAcc ⟨src, true, 0, parserWord, .dword, 0⟩ = false := by
  cases src with
  | pf0 => decide +kernel
  | pf1 => decide +kernel
  | oob => decide +kernel

/-- The write mends the entry. -/
theorem writeEffect_parserWord (src : Src) (dt : Nat) :
    (writeEffect src parserHit parserWord dt 0 (parserBad.grid, parserBad.banks, parserBad.dev)).2.2.badEntries = [] := by
  rw [writeEffect_parser dt 0 _ rfl (by decide) (by decide) (by decide)]
  decide

/-- Through every secure path. -/
theorem bar0Write_parserWord {src : Src} (h : srcSecure src = true) (dt : Nat) :
    (bar0Write src parserWord .dword 0 dt (parserBad.grid, parserBad.banks, parserBad.dev)).2.2.badEntries = [] := by
  rw [bar0Write_done (x := (parserBad.grid, parserBad.banks, parserBad.dev)) dt (by decide) (checkAccess_parserWord h)
    (mustWait_parserWord src)]
  by_cases hsrc : src = .oob
  · subst hsrc
    obtain ⟨o, done⟩ := doWrite_oob parserHit parserWord dt 0 (parserBad.grid, parserBad.banks, parserBad.dev)
    rw [done]
    exact writeEffect_parserWord .oob dt
  · rw [doWrite_pcie hsrc]
    exact writeEffect_parserWord src dt

/-- Refutes O24: the statement counts the parser's registers among those that are only stored, but a write of a register of a
parser window whose entry is bad in both copies mends the entry too (R247). -/
theorem not_registerAccess : ¬ Obligations.RegisterAccess := by
  intro h
  obtain ⟨-, -, -, writes, -⟩ := h .pf1 (BitVec.ofNat 27 parserWord) 0 0 parserBad (by decide) (by decide)
  obtain ⟨stored, -⟩ := (writes parserHit (by decide) (checkAccess_parserWord rfl)).1
    (ne_true_of_eq_false (mustWait_parserWord .pf1)) (by decide) (by decide) (by decide)
  have said := stored (by decide)
  rw [exec_registerWrite_bar0, State.withWhole_live _ (by decide)] at said
  injection said with said
  have mended := bar0Write_parserWord (src := .pf1) rfl 0
  have kept : (bar0Write .pf1 parserWord .dword 0 0 (parserBad.grid, parserBad.banks, parserBad.dev)).2.2.badEntries
      = parserBad.dev.badEntries := congrArg (fun t => t.dev.badEntries) said
  rw [mended] at kept
  exact absurd kept (by decide)

/-- Without PEC_EN a WRITE32 that ends after D3 is the write itself (R89). -/
theorem exec_oobWrite32_plain {addr : BitVec 7} {off v : Word} {dt : Nat} {s : State} (held : s.held = false)
    (mine : oobMine s.dev addr = true) (plain : s.dev.flag HIF_OOB_CTL.PEC_EN = false) :
    exec (.oobWrite32 addr off v none dt) s = s.withWhole (bar0Write .oob off.toNat .dword v dt) := by
  show execOobWrite32 addr off v none dt s = _
  rw [execOobWrite32, State.withWhole_live _ held, State.withWhole_live _ held]
  simp [mine, plain]

/-- Refutes O32: it too counts the parser's registers among those that are only stored. -/
theorem not_outOfBand : ¬ Obligations.OutOfBand := by
  intro h
  obtain ⟨-, mine, -⟩ := h 0x58 (BitVec.ofNat 32 parserWord) 0 0 parserBad (by decide)
  obtain ⟨-, -, -, writes, -⟩ := mine (by decide +kernel)
  obtain ⟨stored, -⟩ := writes parserHit (by decide) (checkAccess_parserWord rfl) (mustWait_parserWord .oob) (by decide) (by decide)
    (by decide) (by decide) _ rfl
  obtain ⟨said, -⟩ := stored (by decide +kernel)
  rw [exec_oobWrite32_plain (by decide) (by decide +kernel) (by decide +kernel), State.withWhole_live _ (by decide)] at said
  injection said with said
  have mended := bar0Write_parserWord (src := .oob) rfl 0
  have kept : (bar0Write .oob parserWord .dword 0 0 (parserBad.grid, parserBad.banks, parserBad.dev)).2.2.badEntries
      = parserBad.dev.badEntries := congrArg (fun t => t.dev.badEntries) said
  rw [mended] at kept
  exact absurd kept (by decide)

/-! ### Acknowledgements, WLD_LOCK, reads that time out (R77, R99, R107, R110) -/

/-- A write to an acknowledgement register acknowledges. -/
theorem writeEffect_ack {src : Src} {h : Hit} {a : Nat} (dt : Nat) (v : Word) (x : Whole) (mbx : mbxBase h.loc a = none)
    (dom : pwDomain h a = none) (ack : h.row.isAck = true) : writeEffect src h a dt v x = onDev (fun d => ackWrite d a v) x := by
  obtain ⟨g, b, d⟩ := x
  simp [writeEffect, mbx, dom, ack]

/-- The status register is acknowledged; FLT_FIRST's current acknowledgement zeroes the overflow count besides (R107, R619). -/
theorem ackWrite_status {d d' : Dev} {a st : Nat} {r : Hit} {v : Word}
    (hst : st = a - (if a = 0x10018 then 8 else if a = FLT_FIRST.word.addr + 12 then 12 else 4)) (hit : regAt st = some r)
    (hd : d' = if st = FLT_FIRST.word.addr ∧ v.toNat / 2 ^ 24 = d.get FLT_FIRST.SEQ then
      d.setWord FLT_FIRST_OVF_CNT.word.addr 0 else d) :
    ackWrite d a v = d'.ackStatus st (r.row.mask fun f => decide (f.acc = .sq) && decide (f.hi < 24)) v := by
  subst hst hd
  rw [ackWrite, hit]

/-- WLD_LOCK's place in the map. -/
def wldLockHit : Hit := ⟨⟨.wld, 0, 0, 0x200⟩, { off := 0x200, dims := [], fields := [⟨0, 0, .w1, 0⟩] }, []⟩

theorem regAt_wldLock : regAt WLD_LOCK.word.addr = some wldLockHit := by decide +kernel

/-- WLD_LOCK is locked once it was written (R110). -/
theorem locked_wldLock (b : Banks) (d : Dev) :
    locked b d wldLockHit WLD_LOCK.word.addr = decide (d.wget (onceKey WLD_LOCK.word.addr) = 1) := by
  simp [locked, wldLockHit, bankWindow, WLD_LOCK.word, TIME_FREQ.word]

/-- What WLD_LOCK's checks answer: WORLD through PF0, LOCKED once it was written (R99, R110). -/
theorem checkAccess_wldLock (b : Banks) {d : Dev} (src : Src) (v : Word) (live : pwrLive d = true) :
    checkAccess b d src WLD_LOCK.word.addr true v = if srcSecure src = false then .error beWorld
      else if d.wget (onceKey WLD_LOCK.word.addr) = 1 then .error beLocked else .ok wldLockHit := by
  have there : (!answers d wldLockHit.loc.kind || absent d wldLockHit.loc || fencedOff d wldLockHit.loc) = false := by
    simp [answers, live, absent, fencedOff, locSlice, wldLockHit]
  rw [checkAccess_hit b d src true v regAt_wldLock, there, locked_wldLock]
  cases srcSecure src with
  | false => rfl
  | true =>
    by_cases once : d.wget (onceKey WLD_LOCK.word.addr) = 1
    · simp [once]
    · simp [once, wldLockHit, RField.writable]

/-- The device after the one write of WLD_LOCK that takes effect. -/
def lockTaken (d : Dev) (v : Word) : Dev :=
  let e := d.wput (onceKey WLD_LOCK.word.addr) 1
  if v.getLsbD 0 then (e.put WLD_LOCK.LOCK 1).put WLD_STATE.LOCKED 1 else e

theorem bit_zero_toNat (v : Word) : bit v.toNat 0 = v.getLsbD 0 := by
  rw [bit, Nat.pow_zero, Nat.div_one, ← BitVec.testBit_toNat, Nat.testBit_zero]

theorem writeEffect_wldLock (src : Src) (dt : Nat) (v : Word) (x : Whole) :
    writeEffect src wldLockHit WLD_LOCK.word.addr dt v x = onDev (fun d => lockTaken d v) x := by
  simp [writeEffect, mbxBase, mbxOff, pwDomain, RRow.isAck, wldLockHit, bit_zero_toNat, onDev, lockTaken]

theorem Dev.wget_wput_same (d : Dev) (k : Nat) {v : Nat} (hv : v < 2 ^ 128) : (d.wput k v).wget k = v := by
  rw [Dev.wget, Dev.wput, SMap.get_put_same, BitVec.toNat_ofNat, Nat.mod_eq_of_lt hv]

theorem Dev.wget_wput_other (d : Dev) {k j : Nat} (v : Nat) (h : j ≠ k) : (d.wput k v).wget j = d.wget j := by
  rw [Dev.wget, Dev.wput, SMap.get_put_other _ _ _ _ h, Dev.wget]

/-- The write sets the lock where its bit is set, marks the register as written, and touches nothing else (R99, R110). -/
theorem lockTaken_dev (d : Dev) (v : Word) :
    let e := lockTaken d v
    e.wget (onceKey WLD_LOCK.word.addr) = 1 ∧ (v.getLsbD 0 = true → e.get WLD_LOCK.LOCK = 1 ∧ e.get WLD_STATE.LOCKED = 1)
      ∧ (v.getLsbD 0 = false → e.regs = d.regs) ∧ (∀ k, k ≠ onceKey WLD_LOCK.word.addr → e.wget k = d.wget k)
      ∧ Dev.regsOnly [WLD_LOCK.word.addr, WLD_STATE.word.addr] { d with wide := e.wide } e := by
  have marked := Dev.wget_wput_same d (onceKey WLD_LOCK.word.addr) (v := 1) (by decide)
  have others (k : Nat) (h : k ≠ onceKey WLD_LOCK.word.addr) := Dev.wget_wput_other d 1 h
  cases hv : v.getLsbD 0 with
  | false =>
    simp only [lockTaken, hv, Bool.false_eq_true, if_false]
    exact ⟨marked, nofun, fun _ => rfl, others, Dev.regsOnly_refl ..⟩
  | true =>
    simp only [lockTaken, hv, if_true]
    refine ⟨marked, fun _ => ⟨?_, ?_⟩, nofun, others, ?_⟩
    · rw [Dev.get_put_other _ _ _ _ (by decide) (by decide) (by decide), Dev.get_put _ _ _ (by decide) (by decide)]
      rfl
    · exact Dev.get_put _ _ _ (by decide) (by decide)
    · exact (Dev.regsOnly_put _ WLD_LOCK.LOCK 1).then (Dev.regsOnly_put _ WLD_STATE.LOCKED 1) (by decide) (by decide)

theorem exec_wldLockSet {src : Src} {v : Word} {s : State} {k : Dev → Dev} (held : s.held = false)
    (h : bar0Write src WLD_LOCK.word.addr .dword v 0 (s.grid, s.banks, s.dev) = onDev k (s.grid, s.banks, s.dev)) :
    exec (.wldLockSet src v) s = .next { s with dev := k s.dev } := State.withWhole_onDev held h

/-- With no access waiting none is released. -/
theorem releaseHeld_none {x : Whole} (h : x.2.2.heldAcc = []) : releaseHeld x = x := by
  obtain ⟨g, b, d⟩ := x
  simp only at h
  simp only [releaseHeld, onDev, h, List.foldl_nil]
  rw [← h]

/-- A read that does not complete in time, taken from the accesses that wait. -/
def timedOut (d : Dev) (src : Src) (a : Nat) : Dev :=
  readFail { d with heldAcc := d.heldAcc.erase ⟨src, false, 0, a, .dword, 0⟩ } src beTimeout 0 a

theorem exec_readTimeout (src : Src) (off : BitVec 27) {s : State} (held : s.held = false) :
    let y := releaseHeld (s.grid, s.banks, timedOut s.dev src off.toNat)
    exec (.readTimeout src off) s = .next { s with grid := y.1, banks := y.2.1, dev := y.2.2 } := by
  show execReadTimeout src off s = _
  rw [execReadTimeout, State.withWhole_live _ held]
  rfl

/-- It is a bus error, and aborted; no other access that waits is touched (R77). -/
theorem timedOut_dev {src : Src} (hsrc : src ≠ .oob) (d : Dev) (a : Nat) :
    let e := timedOut d src a
    Dev.busErrorLogged src beTimeout 0 a false d e ∧ e.out.getLast? = some (.abort src 0 a)
      ∧ e.heldAcc = d.heldAcc.erase ⟨src, false, 0, a, .dword, 0⟩
      ∧ Dev.regsOnly busErrorRegs { d with reports := e.reports, heldAcc := e.heldAcc } e := by
  let t := { d with heldAcc := d.heldAcc.erase ⟨src, false, 0, a, .dword, 0⟩ }
  have frame := busError_regsOnly t src beTimeout 0 a false
  have waits : (busError t src beTimeout 0 a false).heldAcc = t.heldAcc := by
    obtain ⟨⟨_, _, _, h⟩, -⟩ := frame
    rw [h]
  rw [timedOut, readFail_pcie hsrc]
  refine ⟨(busError_logged t src a false (by decide) (by decide)).emit _, Dev.getLast?_emit .., waits, ?_⟩
  rw [Dev.emit_heldAcc, waits]
  exact frame.emit _

/-- Settles O26: an acknowledgement as its register's, WLD_LOCK by what its checks answer, a time-out as a bus error after which
what waited goes on. -/
theorem acksAndLocks : Obligations.AcksAndLocks := by
  intro src off v s held hsrc
  refine ⟨fun h r st d ha ok ack goes mbx dom hst hit hd => ?_, fun live goes => ⟨fun secure fresh => ?_, fun secure once => ?_,
    fun open_ => ?_⟩, ?_⟩
  · rw [← ackWrite_status hst hit hd]
    exact State.withWhole_onDev (k := fun d => ackWrite d off.toNat v) held
      ((bar0Write_ok (x := (s.grid, s.banks, s.dev)) 0 hsrc ha ok goes).trans (writeEffect_ack 0 v _ mbx dom ack))
  · have ok : checkAccess s.banks s.dev src WLD_LOCK.word.addr true v = .ok wldLockHit := by
      rw [checkAccess_wldLock _ _ _ live, secure, if_neg (by decide), if_neg fresh]
    exact ⟨_, exec_wldLockSet (k := fun d => lockTaken d v) held
      ((bar0Write_ok (x := (s.grid, s.banks, s.dev)) 0 hsrc (by decide) ok goes).trans (writeEffect_wldLock ..)), lockTaken_dev s.dev v⟩
  · have bad : checkAccess s.banks s.dev src WLD_LOCK.word.addr true v = .error beLocked := by
      rw [checkAccess_wldLock _ _ _ live, secure, if_neg (by decide), if_pos once]
    exact ⟨_, exec_wldLockSet held (bar0Write_error (x := (s.grid, s.banks, s.dev)) 0 hsrc (by decide) bad),
      busError_logged _ _ _ _ (by decide) (by decide), busError_regsOnly ..⟩
  · have bad : checkAccess s.banks s.dev src WLD_LOCK.word.addr true v = .error beWorld := by
      rw [checkAccess_wldLock _ _ _ live, if_pos open_]
    exact ⟨_, exec_wldLockSet held (bar0Write_error (x := (s.grid, s.banks, s.dev)) 0 hsrc (by decide) bad),
      busError_logged _ _ _ _ (by decide) (by decide), busError_regsOnly ..⟩
  · obtain ⟨logged, aborted, waits, frame⟩ := timedOut_dev hsrc s.dev off.toNat
    exact ⟨_, _, logged, aborted, waits, frame, rfl, fun none => releaseHeld_none none, exec_readTimeout src off held⟩

end Sys2Proof.Machine

namespace Sys2Proof.Machine

/-! ### The buffer pools and the PMU, as the host's side sees them

Units that the host reaches lie below BPM's block at 0x90000; allocating, freeing and counting leave them alone. -/

/-- Between d and e only buffer pools were used and PMU counters counted. -/
structure Pooled (d e : Dev) : Prop where
  fields : ∃ r w c o p q b, e = { d with regs := r, wide := w, ctr := c, out := o, reports := p, pba := q, bpm := b }
  words : ∀ a, a < 0x90000 → e.word a = d.word a
  wide : ∀ k, k < 0x90000 * 2 ^ 32 → e.wget k = d.wget k

namespace Pooled

theorem refl (d : Dev) : Pooled d d := ⟨⟨_, _, _, _, _, _, _, rfl⟩, fun _ _ => rfl, fun _ _ => rfl⟩

theorem trans {d e f : Dev} (h : Pooled d e) (k : Pooled e f) : Pooled d f := by
  obtain ⟨⟨_, _, _, _, _, _, _, rfl⟩, hw, hm⟩ := h
  obtain ⟨⟨_, _, _, _, _, _, _, rfl⟩, kw, km⟩ := k
  exact ⟨⟨_, _, _, _, _, _, _, rfl⟩, fun a ha => (kw a ha).trans (hw a ha), fun a ha => (km a ha).trans (hm a ha)⟩

theorem ite {d e f : Dev} {c : Prop} [Decidable c] (h : Pooled d e) (k : Pooled d f) : Pooled d (if c then e else f) := by
  split
  · exact h
  · exact k

theorem foldl {α : Type} {f : Dev → α → Dev} (h : ∀ d x, Pooled d (f d x)) (l : List α) (d : Dev) : Pooled d (l.foldl f d) :=
  List.foldlRecOn l f (refl d) fun _ k x _ => k.trans (h _ x)

/-- A change of registers from BPM's block on. -/
theorem of_regsOnly {l : List Nat} {d e : Dev} (h : Dev.regsOnly l d e) (hl : ∀ a ∈ l, 0x90000 ≤ a) : Pooled d e := by
  obtain ⟨⟨r, o, p, rfl⟩, words⟩ := h
  exact ⟨⟨_, _, _, _, _, _, _, rfl⟩, fun a ha => words a fun hm => absurd (hl a hm) (Nat.not_le_of_lt ha), fun _ _ => rfl⟩

theorem setWord (d : Dev) {a : Nat} (v : Word) (h : 0x90000 ≤ a) : Pooled d (d.setWord a v) :=
  of_regsOnly (Dev.regsOnly_setWord d a v) (by simpa using h)

theorem put (d : Dev) {f : Fld} (v : Nat) (h : 0x90000 ≤ f.addr) : Pooled d (d.put f v) := setWord d _ h

theorem bump (d : Dev) {f : Fld} (h : 0x90000 ≤ f.addr) : Pooled d (d.bump f) := setWord d _ h

theorem subFrom (d : Dev) {f : Fld} (n : Nat) (h : 0x90000 ≤ f.addr) : Pooled d (d.subFrom f n) := setWord d _ h

theorem event (d : Dev) {f : Fld} (h : 0x90000 ≤ f.addr) : Pooled d (d.event f) :=
  of_regsOnly (Dev.regsOnly_event d f) (by simpa using h)

theorem ctrPut (d : Dev) (k n : Nat) : Pooled d (d.ctrPut k n) :=
  ⟨⟨_, _, _, _, _, _, _, rfl⟩, fun _ _ => rfl, fun _ _ => rfl⟩

theorem bpm (d : Dev) (x : BpmHid) : Pooled d { d with bpm := x } :=
  ⟨⟨_, _, _, _, _, _, _, rfl⟩, fun _ _ => rfl, fun _ _ => rfl⟩

theorem report (d : Dev) (src detail : Nat) : Pooled d (d.report src detail) :=
  ⟨⟨_, _, _, _, _, _, _, rfl⟩, fun _ _ => rfl, fun _ _ => rfl⟩

theorem wput (d : Dev) {k : Nat} (v : Nat) (h : 0x90000 * 2 ^ 32 ≤ k) : Pooled d (d.wput k v) :=
  ⟨⟨_, _, _, _, _, _, _, rfl⟩, fun _ _ => rfl, fun _ hj => Dev.wget_wput_other d v (Nat.ne_of_lt (Nat.lt_of_lt_of_le hj h))⟩

/-! #### PMU counting (R511-R514) -/

theorem pmuBase_ge (m : Nat) : 0x90000 ≤ pmuBase m := by
  unfold pmuBase halfBase sliceBase
  split
  · decide
  · split
    · omega
    · omega

/-- What an overflow of a PMU counter does: its event, and the freeze it may ask for. -/
theorem overflow (d : Dev) (m i : Nat) (b : Bool) : Pooled d
    (if b = true then (d.event ⟨(PMU_STATUS.word m).addr, i, i⟩).put (PMU_CTL.EN m) 0 else d.event ⟨(PMU_STATUS.word m).addr, i, i⟩) := by
  have event := event d (f := ⟨(PMU_STATUS.word m).addr, i, i⟩) (Nat.le_add_right_of_le (pmuBase_ge m))
  exact ite (event.trans (put _ 0 (pmuBase_ge m))) event

theorem pmuAdd (d : Dev) (m i n : Nat) : Pooled d (d.pmuAdd m i n) := by
  unfold Dev.pmuAdd
  refine ite (ctrPut ..) (ite (ite (ctrPut ..) (ite ?_ ?_)) ?_)
  · exact (ctrPut ..).trans (ctrPut ..)
  · exact ((ctrPut ..).trans (ctrPut ..)).trans (overflow ..)
  · exact (ctrPut ..).trans (overflow ..)

theorem pmuEvent (d : Dev) (m code n : Nat) (port : Option Nat) : Pooled d (d.pmuEvent m code n port) := by
  unfold Dev.pmuEvent
  exact ite (foldl (fun d i => ite (pmuAdd ..) (refl d)) _ _) (refl d)

/-! #### The buffer pool manager (R382-R396) -/

theorem bpmLow (d : Dev) (p : Nat) : Pooled d (bpmLow d p) := by
  unfold Machine.bpmLow
  exact ite ((bpm ..).trans (event _ (by decide))) (ite (bpm ..) (refl d))

theorem allocIn (d : Dev) (r p : Nat) : Pooled d (allocIn d r p).2 := by
  unfold Machine.allocIn
  dsimp only
  split
  · split
    · exact refl d
    · refine Pooled.trans ?_ (bpmLow ..)
      refine Pooled.trans ?_ (subFrom _ _ (Nat.le_add_right_of_le (by decide)))
      exact ((bpm d _).trans (bpm ..)).trans (bump _ (Nat.le_add_right_of_le (Nat.le_add_right_of_le (by decide))))
  · exact refl d

theorem allocFrom (d : Dev) (r : Nat) (grow : Bool) (ps : List Nat) (last : BpmGot) :
    Pooled d (allocFrom d r grow ps last).2 := by
  induction ps generalizing last with
  | nil => exact refl d
  | cons p ps ih =>
    unfold Machine.allocFrom
    dsimp only
    split
    · exact allocIn ..
    · split
      · exact ih _
      · exact refl d

theorem countAlloc (d : Dev) (g : BpmGot) : Pooled d (countAlloc d g) := by
  unfold Machine.countAlloc
  have counted (k : Nat) : Pooled d (d.bump (BPM_CNT_ALLOCS.cnt k)) := bump d (Nat.le_add_right_of_le (by decide))
  exact ite ((counted _).trans (pmuEvent ..)) (counted _)

theorem bpmAlloc (d : Dev) (r len : Nat) : Pooled d (bpmAlloc d r len).2 := (allocFrom ..).trans (countAlloc ..)

theorem wput_mbxBpm (d : Dev) (i v : Nat) : Pooled d (d.wput (wkey mbxBpm i) v) := wput d v (by rw [wkey, mbxBpm]; omega)

theorem rejectFree (d : Dev) (r owner kind : Nat) (pool : Option Nat) (index ptr : Nat) :
    Pooled d (rejectFree d r owner kind pool index ptr) := by
  unfold Machine.rejectFree
  refine Pooled.trans ?_ (report ..)
  refine Pooled.trans ?_ (bump _ (Nat.le_add_right_of_le (by decide)))
  refine Pooled.trans ?_ (event _ (by decide))
  refine Pooled.trans ?_ (wput_mbxBpm ..)
  exact (setWord d _ (by decide)).trans (put _ _ (by decide))

theorem freeBuf (d : Dev) (p i : Nat) : Pooled d (freeBuf d p i) := by
  unfold Machine.freeBuf
  refine Pooled.trans ?_ (bpmLow ..)
  have free : Pooled d ((d.setTag p i (bpmTag d p i % 16)).bump (BPM_POOL_FREE.FREE p)) :=
    (bpm d _).trans (bump _ (Nat.le_add_right_of_le (by decide)))
  exact ite (free.trans (subFrom _ _ (Nat.le_add_right_of_le (Nat.le_add_right_of_le (by decide))))) free

theorem bpmFree (d : Dev) (r ptr : Nat) : Pooled d (bpmFree d r ptr).2 := by
  unfold Machine.bpmFree
  cases poolAt d ptr with
  | none => exact rejectFree d r 0xE 1 none 0 ptr
  | some p =>
    dsimp -zeta only
    extract_lets size off i t
    simp only [apply_ite Prod.snd]
    exact ite (rejectFree ..) (ite (rejectFree ..) (ite (rejectFree ..)
      (((freeBuf ..).trans (bump _ (by decide))).trans (pmuEvent ..))))

/-! #### What stays -/

theorem punts {d e : Dev} (h : Pooled d e) : e.punts = d.punts := by obtain ⟨⟨_, _, _, _, _, _, _, rfl⟩, -⟩ := h; rfl
theorem dmaIdx {d e : Dev} (h : Pooled d e) : e.dmaIdx = d.dmaIdx := by obtain ⟨⟨_, _, _, _, _, _, _, rfl⟩, -⟩ := h; rfl
theorem msix {d e : Dev} (h : Pooled d e) : e.msix = d.msix := by obtain ⟨⟨_, _, _, _, _, _, _, rfl⟩, -⟩ := h; rfl
theorem pins {d e : Dev} (h : Pooled d e) : e.pins = d.pins := by obtain ⟨⟨_, _, _, _, _, _, _, rfl⟩, -⟩ := h; rfl
theorem frames {d e : Dev} (h : Pooled d e) : e.frames = d.frames := by obtain ⟨⟨_, _, _, _, _, _, _, rfl⟩, -⟩ := h; rfl
theorem slices {d e : Dev} (h : Pooled d e) : e.slices = d.slices := by obtain ⟨⟨_, _, _, _, _, _, _, rfl⟩, -⟩ := h; rfl
theorem nextFid {d e : Dev} (h : Pooled d e) : e.nextFid = d.nextFid := by obtain ⟨⟨_, _, _, _, _, _, _, rfl⟩, -⟩ := h; rfl
theorem heldAcc {d e : Dev} (h : Pooled d e) : e.heldAcc = d.heldAcc := by obtain ⟨⟨_, _, _, _, _, _, _, rfl⟩, -⟩ := h; rfl

end Pooled

/-! ### What the rings of the host rest on -/

/-- Between d and e the registers below BPM, the DMA bases, the MSI-X tables, the punts, the producer indices and the pins stay. -/
structure HostSame (d e : Dev) : Prop where
  words : ∀ a, a < 0x90000 → e.word a = d.word a
  wide : ∀ k, k < 0x90000 * 2 ^ 32 → e.wget k = d.wget k
  msix : e.msix = d.msix
  punts : e.punts = d.punts
  dmaIdx : e.dmaIdx = d.dmaIdx
  pins : e.pins = d.pins

namespace HostSame

theorem refl (d : Dev) : HostSame d d := ⟨fun _ _ => rfl, fun _ _ => rfl, rfl, rfl, rfl, rfl⟩

theorem trans {d e f : Dev} (h : HostSame d e) (k : HostSame e f) : HostSame d f where
  words a ha := (k.words a ha).trans (h.words a ha)
  wide a ha := (k.wide a ha).trans (h.wide a ha)
  msix := k.msix.trans h.msix
  punts := k.punts.trans h.punts
  dmaIdx := k.dmaIdx.trans h.dmaIdx
  pins := k.pins.trans h.pins

theorem foldl {α : Type} {f : Dev → α → Dev} (h : ∀ d x, HostSame d (f d x)) (l : List α) (d : Dev) : HostSame d (l.foldl f d) :=
  List.foldlRecOn l f (refl d) fun _ k x _ => k.trans (h _ x)

theorem of_pooled {d e : Dev} (h : Pooled d e) : HostSame d e := ⟨h.words, h.wide, h.msix, h.punts, h.dmaIdx, h.pins⟩

theorem emit (d : Dev) (o : Output) : HostSame d (d.emit o) := ⟨fun _ _ => rfl, fun _ _ => rfl, rfl, rfl, rfl, rfl⟩

theorem dropFrame (d : Dev) (fid : Nat) : HostSame d (dropFrame d fid) := by
  unfold Machine.dropFrame
  split
  · exact refl d
  · split
    · split
      · exact ⟨fun _ _ => rfl, fun _ _ => rfl, rfl, rfl, rfl, rfl⟩
      · exact refl d
    · exact refl d

/-- A frame that a ring abandons, or has delivered, gives its buffer back. -/
theorem freeFrame (d : Dev) (r ptr fid : Nat) : HostSame d (Machine.dropFrame (bpmFree d r ptr).2 fid) :=
  (of_pooled (Pooled.bpmFree d r ptr)).trans (dropFrame ..)

end HostSame

end Sys2Proof.Machine

namespace Sys2Proof.Machine

/-! ### Sparse maps that keep some keys -/

theorem SMap.get_keep {α : Type} (m : SMap α) (p : Nat → Bool) (d : α) {k : Nat} (h : p k = true) :
    SMap.get (SMap.keep m p) d k = SMap.get m d k := by
  induction m with
  | nil => rfl
  | cons x r ih =>
    obtain ⟨j, v⟩ := x
    by_cases hj : k = j
    · subst hj
      simp [SMap.keep, SMap.get, h]
    · by_cases hp : p j = true
      · simpa [SMap.keep, SMap.get, hj, hp] using ih
      · simpa [SMap.keep, SMap.get, hj, hp] using ih

theorem SMap.key_of_mem_keep {α : Type} {m : SMap α} {p : Nat → Bool} {x : Nat × α} (h : x ∈ SMap.keep m p) : p x.1 = true :=
  (List.mem_filter.mp h).2

/-! ### A ring stops (R75, R390) -/

/-- Ring n is off, holds no frame, and has nothing posted. -/
def RingStopped (d : Dev) (n : Nat) : Prop :=
  d.flag (DMA_RING_CTL.ENABLE n) = false ∧ puntsOf d n = [] ∧ d.dmaIdx.get 0 n = d.get (DMA_RING_HEAD.HEAD n)

theorem flag_of_word {d e : Dev} {f : Fld} (h : e.word f.addr = d.word f.addr) : e.flag f = d.flag f := by
  rw [Dev.flag, Dev.get, h, Dev.flag, Dev.get]

theorem get_of_word {d e : Dev} {f : Fld} (h : e.word f.addr = d.word f.addr) : e.get f = d.get f := by
  rw [Dev.get, h, Dev.get]

theorem ringHead_lt {n : Nat} (h : n < 128) : (DMA_RING_HEAD.HEAD n).addr < 0x90000 := by
  simp only [DMA_RING_HEAD.HEAD]; omega

theorem ringCtl_lt {n : Nat} (h : n < 128) : (DMA_RING_CTL.word n).addr < 0x90000 := by
  simp only [DMA_RING_CTL.word]; omega

/-- What stopping ring n comes to, its buffers apart. -/
structure StopRing (n : Nat) (d e : Dev) : Prop where
  words : ∀ a, a < 0x90000 → a ≠ (DMA_RING_CTL.word n).addr → e.word a = d.word a
  off : e.flag (DMA_RING_CTL.ENABLE n) = false
  punts : e.punts = d.punts.filter fun p => decide (p.ring ≠ n)
  dmaIdx : e.dmaIdx = d.dmaIdx.put 0 n (d.get (DMA_RING_HEAD.HEAD n))
  msix : e.msix = d.msix
  pins : e.pins = d.pins

/-- Ring n has nothing to deliver any more: neither frames nor posted entries. -/
def Dev.emptied (d : Dev) (n : Nat) : Dev :=
  { d with punts := d.punts.filter fun p => decide (p.ring ≠ n), dmaIdx := d.dmaIdx.put 0 n (d.get (DMA_RING_HEAD.HEAD n)) }

/-- The buffers of ring n's frames go, then it is off. -/
theorem stopRing_eq (d : Dev) (n : Nat) :
    ∃ f, HostSame (d.emptied n) f ∧ stopRing d n = f.put (DMA_RING_CTL.ENABLE n) 0 :=
  ⟨_, HostSame.foldl (fun _ _ => HostSame.freeFrame ..) (puntsOf d n) _, rfl⟩

theorem stopRing_spec (d : Dev) (n : Nat) : StopRing n d (stopRing d n) := by
  obtain ⟨f, freed, h⟩ := stopRing_eq d n
  rw [h]
  exact {
    words := fun a ha hn => (Dev.word_put_other f (DMA_RING_CTL.ENABLE n) 0 hn).trans (freed.words a ha)
    off := by
      rw [Dev.flag, Dev.get_put _ _ _ (by simp [DMA_RING_CTL.ENABLE]) (by simp [DMA_RING_CTL.ENABLE])]
      rfl
    punts := (Dev.put_punts ..).trans freed.punts
    dmaIdx := (Dev.put_dmaIdx ..).trans freed.dmaIdx
    msix := (Dev.put_msix ..).trans freed.msix
    pins := (Dev.put_pins ..).trans freed.pins }

namespace StopRing

variable {n : Nat} {d e : Dev} (h : StopRing n d e)
include h

theorem head {m : Nat} (hm : m < 128) : e.get (DMA_RING_HEAD.HEAD m) = d.get (DMA_RING_HEAD.HEAD m) :=
  get_of_word (h.words _ (ringHead_lt hm) (by simp only [DMA_RING_HEAD.HEAD, DMA_RING_CTL.word]; omega))

theorem stopped (hn : n < 128) : RingStopped e n := by
  refine ⟨h.off, ?_, ?_⟩
  · rw [puntsOf, h.punts, List.filter_filter, List.filter_eq_nil_iff]
    simp
  · rw [h.dmaIdx, SMap.get_put_same, h.head hn]

theorem enable_other {m : Nat} (hm : m < 128) (hne : m ≠ n) : e.flag (DMA_RING_CTL.ENABLE m) = d.flag (DMA_RING_CTL.ENABLE m) :=
  flag_of_word (h.words _ (ringCtl_lt hm) (by simp only [DMA_RING_CTL.ENABLE, DMA_RING_CTL.word]; omega))

theorem puntsOf_other {m : Nat} (hne : m ≠ n) : puntsOf e m = puntsOf d m := by
  rw [puntsOf, h.punts, List.filter_filter, puntsOf]
  refine List.filter_congr fun p _ => ?_
  by_cases hp : p.ring = m
  · simp [hp, hne]
  · simp [hp]

theorem stopped_other {m : Nat} (hm : m < 128) (hs : RingStopped d m) : RingStopped e m := by
  by_cases hne : m = n
  · subst hne; exact h.stopped hm
  · obtain ⟨hen, hpu, hix⟩ := hs
    exact ⟨(h.enable_other hm hne).trans hen, (h.puntsOf_other hne).trans hpu,
      by rw [h.dmaIdx, SMap.get_put_other _ _ _ _ hne, h.head hm, hix]⟩

end StopRing

/-! ### A function's rings stop (R75) -/

/-- Between d and e rings among those of p stopped, and the others went on. -/
structure RingsStopped (p : Nat → Prop) (d e : Dev) : Prop where
  words : ∀ a, a < 0x80000 → e.word a = d.word a
  msix : e.msix = d.msix
  pins : e.pins = d.pins
  enable : ∀ n, n < 128 → ¬ p n → e.flag (DMA_RING_CTL.ENABLE n) = d.flag (DMA_RING_CTL.ENABLE n)
  punts : ∀ n, n < 128 → ¬ p n → puntsOf e n = puntsOf d n
  stays : ∀ n, n < 128 → RingStopped d n → RingStopped e n

namespace RingsStopped

theorem refl (p : Nat → Prop) (d : Dev) : RingsStopped p d d :=
  ⟨fun _ _ => rfl, rfl, rfl, fun _ _ _ => rfl, fun _ _ _ => rfl, fun _ _ h => h⟩

theorem trans {p : Nat → Prop} {d e f : Dev} (h : RingsStopped p d e) (k : RingsStopped p e f) : RingsStopped p d f where
  words a ha := (k.words a ha).trans (h.words a ha)
  msix := k.msix.trans h.msix
  pins := k.pins.trans h.pins
  enable n hn hp := (k.enable n hn hp).trans (h.enable n hn hp)
  punts n hn hp := (k.punts n hn hp).trans (h.punts n hn hp)
  stays n hn hs := k.stays n hn (h.stays n hn hs)

theorem of_stopRing {p : Nat → Prop} (d : Dev) {n : Nat} (hp : p n) : RingsStopped p d (stopRing d n) where
  words a ha := (stopRing_spec d n).words a (Nat.lt_trans ha (by decide)) (by simp only [DMA_RING_CTL.word]; omega)
  msix := (stopRing_spec d n).msix
  pins := (stopRing_spec d n).pins
  enable m hm hn := (stopRing_spec d n).enable_other hm fun h => hn (h ▸ hp)
  punts m _ hn := (stopRing_spec d n).puntsOf_other fun h => hn (h ▸ hp)
  stays m hm hs := (stopRing_spec d n).stopped_other hm hs

end RingsStopped

/-- The register of the world map that a ring's world stands in (R95). -/
def ringWorld (n : Nat) : Fld :=
  if n < 32 then WLD_DMA_PUNT_LO.word else if n < 64 then WLD_DMA_PUNT_HI.word
    else if n < 96 then WLD_DMA_INJ_LO.word else WLD_DMA_INJ_HI.word

theorem ringWorld_lt (n : Nat) : (ringWorld n).addr < 0x80000 := by
  unfold ringWorld
  split_ifs <;> decide

theorem ringPf_congr {d e : Dev} {n : Nat} (h : e.word (ringWorld n).addr = d.word (ringWorld n).addr) : ringPf e n = ringPf d n := by
  show (if bit (e.word (ringWorld n).addr).toNat (n % 32) then 1 else 0) = _
  rw [h]
  rfl

theorem RingsStopped.ringPf {p : Nat → Prop} {d e : Dev} (h : RingsStopped p d e) (n : Nat) : ringPf e n = Machine.ringPf d n :=
  ringPf_congr (h.words _ (ringWorld_lt n))

/-- The rings of a list that are of a function's world stop, and no others. -/
theorem RingsStopped.foldl (pf : Nat) (l : List Nat) (d : Dev) :
    RingsStopped (fun n => Machine.ringPf d n = pf) d (l.foldl (fun d n => if Machine.ringPf d n = pf then stopRing d n else d) d)
    ∧ ∀ n ∈ l, n < 128 → Machine.ringPf d n = pf →
      RingStopped (l.foldl (fun d n => if Machine.ringPf d n = pf then stopRing d n else d) d) n := by
  induction l generalizing d with
  | nil => exact ⟨.refl _ d, by simp⟩
  | cons m l ih =>
    rw [List.foldl_cons]
    by_cases hm : Machine.ringPf d m = pf
    · rw [if_pos hm]
      have first : RingsStopped (fun n => Machine.ringPf d n = pf) d (stopRing d m) := .of_stopRing d hm
      obtain ⟨rest, all⟩ := ih (stopRing d m)
      simp only [first.ringPf] at rest all
      refine ⟨first.trans rest, fun n hn hlt hp => ?_⟩
      rcases List.mem_cons.mp hn with rfl | hn
      · exact rest.stays n hlt ((stopRing_spec d n).stopped hlt)
      · exact all n hn hlt hp
    · rw [if_neg hm]
      obtain ⟨rest, all⟩ := ih d
      refine ⟨rest, fun n hn hlt hp => ?_⟩
      rcases List.mem_cons.mp hn with rfl | hn
      · exact absurd hp hm
      · exact all n hn hlt hp

/-! ### A function's reset, and the link (R75, R112, R649) -/

/-- What a function's reset comes to, its buffers apart. -/
structure FunctionReset (pf : Nat) (d e : Dev) : Prop where
  words : ∀ a, a < 0x80000 → e.word a = d.word a
  msix : e.msix = d.msix.keep fun k => decide (k / 65536 ≠ pf)
  pins : e.pins = d.pins
  mine : ∀ n, n < 128 → ringPf d n = pf → RingStopped e n
  enable : ∀ n, n < 128 → ringPf d n ≠ pf → e.flag (DMA_RING_CTL.ENABLE n) = d.flag (DMA_RING_CTL.ENABLE n)
  punts : ∀ n, n < 128 → ringPf d n ≠ pf → puntsOf e n = puntsOf d n
  stays : ∀ n, n < 128 → RingStopped d n → RingStopped e n

theorem resetFunction_spec (d : Dev) (pf : Nat) : FunctionReset pf d (resetFunction d pf) := by
  obtain ⟨rings, all⟩ := RingsStopped.foldl pf (List.range 128)
    { d with msix := d.msix.keep fun k => decide (k / 65536 ≠ pf), pba := d.pba.keep fun k => decide (k / 65536 ≠ pf) }
  exact ⟨rings.words, rings.msix, rings.pins, fun n hn => all n (List.mem_range.mpr hn) hn, rings.enable, rings.punts, rings.stays⟩

namespace FunctionReset

variable {pf : Nat} {d e : Dev} (h : FunctionReset pf d e)
include h

theorem msix_mem {x : Nat × Word} (hx : x ∈ e.msix) : x.1 / 65536 ≠ pf := by
  rw [h.msix] at hx
  exact of_decide_eq_true (SMap.key_of_mem_keep hx)

theorem msix_sub {x : Nat × Word} (hx : x ∈ e.msix) : x ∈ d.msix := by
  rw [h.msix] at hx
  exact List.mem_of_mem_filter hx

theorem msix_get (dv : Word) {k : Nat} (hk : k / 65536 ≠ pf) : e.msix.get dv k = d.msix.get dv k := by
  rw [h.msix]
  exact SMap.get_keep _ _ _ (decide_eq_true hk)

theorem ringPf (n : Nat) : Machine.ringPf e n = Machine.ringPf d n := ringPf_congr (h.words _ (ringWorld_lt n))

end FunctionReset

theorem ringPf_lt (d : Dev) (n : Nat) : ringPf d n < 2 := by
  show (if bit (d.word (ringWorld n).addr).toNat (n % 32) then 1 else 0) < 2
  split <;> decide

/-- A change of registers outside the rings' block leaves a stopped ring stopped. -/
theorem RingStopped.regsOnly {l : List Nat} {d e : Dev} {n : Nat} (h : RingStopped d n) (k : Dev.regsOnly l d e)
    (hl : ∀ a ∈ l, a < 0x80000) : RingStopped e n := by
  obtain ⟨hen, hpu, hix⟩ := h
  have notIn (a : Nat) (ha : 0x80000 ≤ a) : a ∉ l := fun hm => absurd (hl a hm) (Nat.not_lt.mpr ha)
  have same := k.2
  obtain ⟨⟨r, o, p, rfl⟩, -⟩ := k
  refine ⟨(flag_of_word (same _ (notIn _ (Nat.le_add_right ..)))).trans hen, hpu, hix.trans (get_of_word ?_).symm⟩
  exact same _ (notIn _ (by simp only [DMA_RING_HEAD.HEAD]; omega))

/-- The registers of a link that leaves L0 (R112). -/
def linkRegs : List Nat := [HIF_LINK.word.addr, HIF_STATUS.word.addr]

/-- HIF_LINK as a link's settings leave it. -/
def Dev.linkAt (d : Dev) (speed width flit : Nat) : Dev :=
  ((d.put HIF_LINK.SPEED speed).put HIF_LINK.WIDTH width).put HIF_LINK.FLIT flit

section LinkAt

variable (d : Dev) (speed width flit : Nat)

theorem Dev.regsOnly_linkAt : Dev.regsOnly [HIF_LINK.word.addr] d (d.linkAt speed width flit) :=
  Dev.regsOnly_trans (Dev.regsOnly_trans (Dev.regsOnly_put d HIF_LINK.SPEED _) (Dev.regsOnly_put _ HIF_LINK.WIDTH _)) (Dev.regsOnly_put _ HIF_LINK.FLIT _)

theorem Dev.linkAt_speed : (d.linkAt speed width flit).get HIF_LINK.SPEED = speed % 16 := by
  rw [Dev.linkAt, Dev.get_put_other _ _ _ _ (by decide) (by decide) (by decide),
    Dev.get_put_other _ _ _ _ (by decide) (by decide) (by decide), Dev.get_put _ _ _ (by decide) (by decide)]
  rfl

theorem Dev.linkAt_width : (d.linkAt speed width flit).get HIF_LINK.WIDTH = width % 256 := by
  rw [Dev.linkAt, Dev.get_put_other _ _ _ _ (by decide) (by decide) (by decide), Dev.get_put _ _ _ (by decide) (by decide)]
  rfl

theorem Dev.linkAt_flit : (d.linkAt speed width flit).get HIF_LINK.FLIT = flit % 2 := by
  rw [Dev.linkAt, Dev.get_put _ _ _ (by decide) (by decide)]
  rfl

/-- An event of HIF_STATUS after the link's settings. -/
theorem Dev.linkAt_event (f : Fld) (hf : f.addr = HIF_STATUS.word.addr) (hlo : f.lo < 24) :
    Dev.raised f d ((d.linkAt speed width flit).event f)
    ∧ Dev.regsOnly linkRegs d ((d.linkAt speed width flit).event f)
    ∧ ∀ g : Fld, g.addr = HIF_LINK.word.addr → ((d.linkAt speed width flit).event f).get g = (d.linkAt speed width flit).get g := by
  have link := Dev.regsOnly_linkAt d speed width flit
  have event := Dev.regsOnly_event (d.linkAt speed width flit) f
  rw [hf] at event
  refine ⟨(Dev.raised_event _ f hlo).after (link.get_eq ?_), link.then event (by simp [linkRegs]) (by simp [linkRegs]), fun g hg => event.get_eq ?_⟩
  · rw [hf]; decide
  · rw [hg]; decide

end LinkAt

/-- A link that was up is lost: its settings read 0 and LINK_DOWN is raised (R112). -/
theorem linkLost_up {d : Dev} (h : hostUp d = true) : linkLost d = (d.linkAt 0 0 0).event HIF_STATUS.LINK_DOWN := by
  rw [linkLost, if_pos h]
  rfl

theorem linkLost_down {d : Dev} (h : hostUp d = false) : linkLost d = d := by
  rw [linkLost, h]
  rfl

theorem linkLost_regsOnly (d : Dev) : Dev.regsOnly linkRegs d (linkLost d) := by
  rcases Bool.eq_false_or_eq_true (hostUp d) with h | h
  · rw [linkLost_up h]
    exact (Dev.linkAt_event d 0 0 0 HIF_STATUS.LINK_DOWN rfl (by decide)).2.1
  · rw [linkLost_down h]
    exact Dev.regsOnly_refl ..

theorem hostUp_linkLost (d : Dev) : hostUp (linkLost d) = false := by
  rcases Bool.eq_false_or_eq_true (hostUp d) with h | h
  · rw [linkLost_up h, hostUp, (Dev.linkAt_event d 0 0 0 HIF_STATUS.LINK_DOWN rfl (by decide)).2.2 HIF_LINK.SPEED rfl, Dev.linkAt_speed]
    rfl
  · rw [linkLost_down h, h]

theorem exec_flr {s : State} (held : s.held = false) (pf : Fin 2) : exec (.flr pf) s
    = .next { s with dev := (resetFunction s.dev pf).event (if pf = 0 then HIF_STATUS.FLR0 else HIF_STATUS.FLR1) } := by
  show execFlr pf s = _
  rw [execFlr, State.withDev_live _ held]

theorem exec_pcieLinkUp {s : State} (held : s.held = false) (sp : Fin 7) (w : BitVec 8) (fl : Bool)
    (h0 : sp ≠ 0) (hp : s.dev.pins.perst = false) : exec (.pcieLinkUp sp w fl) s
    = .next { s with dev := if sp.val < 4 then (s.dev.linkAt sp w.toNat (if fl then 1 else 0)).event HIF_STATUS.LOW_RATE
        else s.dev.linkAt sp w.toNat (if fl then 1 else 0) } := by
  show execPcieLinkUp sp w fl s = _
  have trains : ¬(sp.val = 0 ∨ s.dev.pins.perst = true) := by
    rintro (h | h)
    · exact h0 (Fin.ext h)
    · exact Bool.false_ne_true (hp.symm.trans h)
  rw [execPcieLinkUp, State.withDev_live _ held, if_neg trains]
  rfl

/-- PERST_N is low (R649). -/
def Dev.perstLow (d : Dev) : Dev := { d with pins := { d.pins with perst := true } }

theorem exec_perstAssert {s : State} (held : s.held = false) :
    exec .perstAssert s = .next { s with dev := resetFunction (resetFunction (linkLost s.dev.perstLow) 0) 1 } := by
  show execPerstAssert s = _
  rw [execPerstAssert, State.withDev_live _ held]
  rfl

/-- Settles O30: FLR is a reset of the function's rings alone; PERST_N is the loss of the link and the reset of both functions
(that posted entries go while HEAD stays is log entry 53). -/
theorem functionsAndLink : Obligations.FunctionsAndLink := by
  unfold Obligations.FunctionsAndLink
  intro s held
  refine ⟨fun pf => ?flr, fun up => ?down, fun dn => ?isDown, fun sp w fl => ⟨fun h0 hp => ?up, fun h => ?noUp⟩, ?perst, ?release⟩
  case flr =>
    have reset := resetFunction_spec s.dev pf
    have event := Dev.regsOnly_event (resetFunction s.dev pf) (if pf = 0 then HIF_STATUS.FLR0 else HIF_STATUS.FLR1)
    have low : ∀ a ∈ [(if pf = 0 then HIF_STATUS.FLR0 else HIF_STATUS.FLR1).addr], a < 0x80000 := by
      split_ifs <;> decide
    have bit : ((resetFunction s.dev pf).event (if pf = 0 then HIF_STATUS.FLR0 else HIF_STATUS.FLR1)).get
        (if pf = 0 then HIF_STATUS.FLR0 else HIF_STATUS.FLR1) = 1 := by
      split_ifs
      · exact Dev.event_bit _ HIF_STATUS.FLR0 (by decide)
      · exact Dev.event_bit _ HIF_STATUS.FLR1 (by decide)
    refine ⟨_, exec_flr held pf, bit, fun x hx => ?_, fun dv k hk => ?_, fun n hn hpf => (reset.mine n hn hpf).regsOnly event low, fun n hn hpf => ⟨?_, ?_⟩⟩
    · rw [Dev.event_msix] at hx
      exact reset.msix_mem hx
    · rw [Dev.event_msix]
      exact reset.msix_get dv hk
    · refine (flag_of_word (event.2 _ fun hm => ?_)).trans (reset.enable n hn hpf)
      exact absurd (low _ hm) (Nat.not_lt.mpr (Nat.le_add_right ..))
    · rw [puntsOf, Dev.event_punts]
      exact reset.punts n hn hpf
  case down =>
    obtain ⟨raised, only, link⟩ := Dev.linkAt_event s.dev 0 0 0 HIF_STATUS.LINK_DOWN rfl (by decide)
    refine ⟨_, ?_, (link HIF_LINK.SPEED rfl).trans (Dev.linkAt_speed ..), (link HIF_LINK.WIDTH rfl).trans (Dev.linkAt_width ..),
      (link HIF_LINK.FLIT rfl).trans (Dev.linkAt_flit ..), raised, only⟩
    show execPcieLinkDown s = _
    rw [execPcieLinkDown, State.withDev_live _ held, linkLost_up up]
  case isDown => exact State.withDev_same (linkLost_down dn)
  case up =>
    have speed : sp.val % 16 = sp.val := Nat.mod_eq_of_lt (by omega)
    have width : w.toNat % 256 = w.toNat := Nat.mod_eq_of_lt w.isLt
    have flit : (if fl then 1 else 0) % 2 = if fl then 1 else 0 := by cases fl <;> rfl
    refine ⟨_, exec_pcieLinkUp held sp w fl h0 hp, ?_⟩
    by_cases slow : sp.val < 4
    · rw [if_pos slow]
      obtain ⟨raised, only, link⟩ := Dev.linkAt_event s.dev sp w.toNat (if fl then 1 else 0) HIF_STATUS.LOW_RATE rfl (by decide)
      exact ⟨by rw [link HIF_LINK.SPEED rfl, Dev.linkAt_speed, speed], by rw [link HIF_LINK.WIDTH rfl, Dev.linkAt_width, width],
        by rw [link HIF_LINK.FLIT rfl, Dev.linkAt_flit, flit], fun _ => raised, fun h => absurd slow (Nat.not_lt.mpr h), only⟩
    · rw [if_neg slow]
      have only := Dev.regsOnly_linkAt s.dev sp w.toNat (if fl then 1 else 0)
      exact ⟨by rw [Dev.linkAt_speed, speed], by rw [Dev.linkAt_width, width], by rw [Dev.linkAt_flit, flit],
        fun h => absurd h slow, fun _ => only.2 _ (by decide), Dev.regsOnly_mono only (by simp)⟩
  case noUp =>
    show execPcieLinkUp sp w fl s = _
    exact State.withDev_same (if_pos (h.imp (congrArg Fin.val) id))
  case perst =>
    have first := resetFunction_spec (linkLost s.dev.perstLow) 0
    have second := resetFunction_spec (resetFunction (linkLost s.dev.perstLow) 0) 1
    have words (a : Nat) (ha : a < 0x80000) := (second.words a ha).trans (first.words a ha)
    refine ⟨_, exec_perstAssert held, ?_, ?_, fun up => ?_, fun x hx => ?_, fun n hn => ?_⟩
    · obtain ⟨⟨_, _, _, lost⟩, -⟩ := linkLost_regsOnly s.dev.perstLow
      rw [second.pins, first.pins, lost]
      rfl
    · rw [hostUp, get_of_word (words _ (by decide))]
      exact hostUp_linkLost _
    · have raised := (Dev.linkAt_event s.dev.perstLow 0 0 0 HIF_STATUS.LINK_DOWN rfl (by decide)).1
      rw [← linkLost_up (show hostUp s.dev.perstLow = true from up)] at raised
      exact raised.of_word (words _ (by decide))
    · have not1 := second.msix_mem hx
      have not0 := first.msix_mem (second.msix_sub hx)
      omega
    · by_cases zero : ringPf (linkLost s.dev.perstLow) n = 0
      · exact second.stays n hn (first.mine n hn zero)
      · have pf := ringPf_lt (linkLost s.dev.perstLow) n
        exact second.mine n hn (by rw [first.ringPf]; omega)
  case release =>
    show execPerstRelease s = _
    rw [execPerstRelease, State.withDev_live _ held]

end Sys2Proof.Machine

namespace Sys2Proof.Machine

/-! ### The registers of a ring (R86) -/

theorem HostSame.ringPf {d e : Dev} (h : HostSame d e) (n : Nat) : ringPf e n = Machine.ringPf d n :=
  ringPf_congr (h.words _ (Nat.lt_trans (ringWorld_lt n) (by decide)))

theorem HostSame.head {d e : Dev} (h : HostSame d e) {n : Nat} (hn : n < 128) :
    e.get (DMA_RING_HEAD.HEAD n) = d.get (DMA_RING_HEAD.HEAD n) := get_of_word (h.words _ (ringHead_lt hn))

theorem HostSame.ringEntries {d e : Dev} (h : HostSame d e) {n : Nat} (hn : n < 128) : ringEntries e n = Machine.ringEntries d n := by
  rw [Machine.ringEntries, get_of_word (h.words _ (ringCtl_lt hn) : e.word (DMA_RING_CTL.LOG2_SIZE n).addr = _), Machine.ringEntries]

theorem HostSame.base {d e : Dev} (h : HostSame d e) {n : Nat} (hn : n < 128) : e.wget (wkey mbxDma n) = d.wget (wkey mbxDma n) :=
  h.wide _ (by simp only [wkey, mbxDma]; omega)

theorem ringEntries_pos (d : Dev) (n : Nat) : 0 < ringEntries d n := Nat.two_pow_pos _

theorem ringEntries_le (d : Dev) (n : Nat) : ringEntries d n ≤ 2 ^ 16 := Nat.pow_le_pow_right (by decide) (by omega)

/-! ### Events of a ring, and the descriptor at its head (R78, R82) -/

section RingEvent

variable (d : Dev) (n : Nat) (f : Fld)

theorem Dev.regsOnly_signal (l : List Nat) (pf vec : Nat) : Dev.regsOnly l d (d.signal pf vec) := by
  obtain ⟨o, p, h⟩ := Dev.signal_frame d pf vec
  rw [h]
  exact ⟨⟨_, _, _, rfl⟩, fun _ _ => rfl⟩

theorem Dev.regsOnly_ringEvent : Dev.regsOnly [f.addr] d (d.ringEvent n f) :=
  Dev.regsOnly_trans (Dev.regsOnly_trans (Dev.regsOnly_put d ⟨f.addr, f.lo, f.lo⟩ 1) (Dev.regsOnly_bump _ ⟨f.addr, 31, 24⟩))
    (Dev.regsOnly_signal ..)

/-- A ring's event sets its bit and counts in SEQ (R107). -/
theorem Dev.raised_ringEvent (h : f.lo < 24) : Dev.raised f d (d.ringEvent n f) := by
  have like : (d.ringEvent n f).regs = (d.event f).regs := by rw [Dev.ringEvent, Dev.signal_regs, Dev.event_regs]
  exact (Dev.raised_event d f h).of_word (by rw [Dev.word, like, Dev.word])

end RingEvent

/-- A descriptor's bytes go back under the ring's function (R82, R85). -/
def Dev.handBack (d : Dev) (n off : Nat) (back : List Byte) : Output :=
  .hostWrite (ringPf d n) (BitVec.ofNat 64 (d.wget (wkey mbxDma n) + 16 * d.get (DMA_RING_HEAD.HEAD n) + off)) back

theorem HostSame.handBack {d e : Dev} (h : HostSame d e) {n : Nat} (hn : n < 128) (off : Nat) (back : List Byte) :
    e.handBack n off back = d.handBack n off back := by
  rw [Dev.handBack, h.ringPf, h.base hn, h.head hn, Dev.handBack]

section Consume

variable (d : Dev) (n : Nat) (back : List Byte) (off : Nat)

/-- The descriptor goes back and HEAD moves on; the ring's message may follow. -/
def Dev.advanced : Dev :=
  (d.emit (d.handBack n off back)).put (DMA_RING_HEAD.HEAD n) ((d.get (DMA_RING_HEAD.HEAD n) + 1) % ringEntries d n)

theorem consume_eq : consume d n back off = d.advanced n back off
    ∨ consume d n back off = (d.advanced n back off).signal (ringPf (d.advanced n back off) n) n := by
  rw [consume]
  exact (ite_eq_or_eq ..).symm

theorem consume_regsOnly : Dev.regsOnly [(DMA_RING_HEAD.HEAD n).addr] d (consume d n back off) := by
  have adv : Dev.regsOnly [(DMA_RING_HEAD.HEAD n).addr] d (d.advanced n back off) :=
    Dev.regsOnly_trans (Dev.regsOnly_emit ..) (Dev.regsOnly_put _ (DMA_RING_HEAD.HEAD n) _)
  rcases consume_eq d n back off with h | h
  · rw [h]
    exact adv
  · rw [h]
    exact Dev.regsOnly_trans adv (Dev.regsOnly_signal ..)

theorem consume_head : (consume d n back off).get (DMA_RING_HEAD.HEAD n) = (d.get (DMA_RING_HEAD.HEAD n) + 1) % ringEntries d n := by
  have adv : (d.advanced n back off).get (DMA_RING_HEAD.HEAD n) = (d.get (DMA_RING_HEAD.HEAD n) + 1) % ringEntries d n := by
    rw [Dev.advanced, Dev.get_put _ _ _ (by simp [DMA_RING_HEAD.HEAD]) (by simp [DMA_RING_HEAD.HEAD])]
    exact Nat.mod_eq_of_lt (Nat.lt_of_lt_of_le (Nat.mod_lt _ (ringEntries_pos d n)) (ringEntries_le d n))
  rcases consume_eq d n back off with h | h
  · rw [h, adv]
  · rw [h, (Dev.regsOnly_signal (d.advanced n back off) [] ..).get_eq (by simp), adv]

theorem Books.consume : Books d (consume d n back off) := by
  have adv : Books d (d.advanced n back off) := (Books.emit ..).trans (Books.put ..)
  rcases consume_eq d n back off with h | h
  · rw [h]
    exact adv
  · rw [h]
    exact adv.trans (Books.signal ..)

theorem handBack_mem_consume : d.handBack n off back ∈ (consume d n back off).out := by
  have adv : Books (d.emit (d.handBack n off back)) (d.advanced n back off) := Books.put ..
  have all : Books (d.emit (d.handBack n off back)) (Machine.consume d n back off) := by
    rcases consume_eq d n back off with h | h
    · rw [h]
      exact adv
    · rw [h]
      exact adv.trans (Books.signal ..)
  exact all.out.subset (by simp [Dev.emit])

end Consume

/-! ### Doorbells (R81, R658) -/

theorem exec_doorbellWrite {s : State} (held : s.held = false) (src : Src) (off : BitVec 27) (shape : Shape) (v : Word) :
    exec (.doorbellWrite src off shape v) s = .next { s with dev := bar4Write s.dev src off.toNat shape v } := by
  show execDoorbellWrite src off shape v s = _
  rw [execDoorbellWrite, State.withDev_live _ held]

theorem bar4Write_oob (d : Dev) (off : Nat) (shape : Shape) (v : Word) : bar4Write d .oob off shape v = d := by
  rw [bar4Write]
  split
  · exact if_neg (by simp)
  · exact if_pos rfl

section Doorbell

variable {d : Dev} {src : Src} {off : Nat} {shape : Shape} (v : Word) (pcie : src ≠ .oob) (below : ¬(0xF0000 ≤ off ∧ off < 0x100000))
include pcie below

theorem bar4Write_size (h : shape ≠ .dword ∨ off % 4 ≠ 0) : bar4Write d src off shape v = busError d src beSize 2 off true := by
  rw [bar4Write, if_neg below, doorbellWrite, if_neg pcie, if_pos h]

theorem bar4Write_reserved (hs : shape = .dword) (ha : off % 4 = 0) (h : 0x80000 ≤ off ∨ off % 0x1000 ≠ 0) :
    bar4Write d src off shape v = busError d src beReserved 2 off true := by
  rw [bar4Write, if_neg below, doorbellWrite, if_neg pcie, if_neg (by simp [hs, ha]), if_pos h]

end Doorbell

/-- An aligned write to ring n's doorbell meets the world check alone. -/
theorem bar4Write_ring (d : Dev) {src : Src} (n : Fin 128) (v : Word) (pcie : src ≠ .oob) : bar4Write d src (0x1000 * n.val) .dword v
    = if ringPf d n = 1 ∧ srcSecure src = false then busError d src beWorld 2 (0x1000 * n.val) true else doorbell d n (v.toNat % 65536) := by
  have hn := n.isLt
  have ring : 0x1000 * n.val / 0x1000 = n.val := Nat.mul_div_cancel_left _ (by decide)
  rw [bar4Write, if_neg (by omega), doorbellWrite, if_neg pcie, if_neg (by simp; omega), if_neg (by omega), ring]

/-- R101: a doorbell write refused for a kind. -/
theorem doorbell_refused {s : State} (held : s.held = false) {src : Src} {off : BitVec 27} {shape : Shape} {v : Word} {k : Nat}
    (h : bar4Write s.dev src off.toNat shape v = busError s.dev src k 2 off.toNat true) (hk : k < 16) :
    ∃ e, exec (.doorbellWrite src off shape v) s = .next { s with dev := e }
      ∧ Dev.busErrorLogged src k 2 off.toNat true s.dev e ∧ Dev.regsOnly busErrorRegs { s.dev with reports := e.reports } e := by
  refine ⟨_, exec_doorbellWrite held src off shape v, ?_⟩
  rw [h]
  exact ⟨busError_logged _ _ _ _ hk (by decide), busError_regsOnly ..⟩

/-! ### Punt delivery (R83, R388) -/

theorem exec_puntDeliver_idle {s : State} {n : Fin 64} (raw : BitVec 128) (h : ringReady s.dev n = false ∨ puntsOf s.dev n = []) : exec (.puntDeliver n raw) s = .next s := by
  show execPuntDeliver n raw s = _
  refine State.withDev_same ?_
  rcases h with h | h
  · simp only [h]
  · cases ringReady s.dev n <;> simp only [h]

/-- The bytes of a punted frame that a descriptor's buffer takes. -/
def puntLen (p : Punt) (x : Desc) : Nat := min p.bytes.length x.len

/-- The oldest frame of ring n has left it. -/
def Dev.puntTaken (d : Dev) (n : Nat) (p : Punt) : Dev := ({ fetchDesc d n with punts := d.punts.erase p }).pmuEvent 0 0x05 1

/-- The bytes of ring n's oldest frame have gone to the descriptor's buffer. -/
def Dev.puntWritten (d : Dev) (n : Nat) (p : Punt) (x : Desc) : Dev :=
  (d.puntTaken n p).emit (.hostWrite (ringPf (d.puntTaken n p) n) x.addr (p.bytes.take (puntLen p x)))

/-- What a delivered frame's descriptor says from byte 8 on (R82). -/
def puntBack (p : Punt) (x : Desc) : List Byte :=
  leBytes 2 (puntLen p x) ++ leBytes 2 p.copy.pkt.inPort ++ leBytes 1 p.code ++ leBytes 1 (x.puntMark (decide (puntLen p x < p.bytes.length)))

section PuntDeliver

variable {s : State} (held : s.held = false) {n : Fin 64} (raw : BitVec 128) {p : Punt} {r : List Punt}
  (ready : ringReady s.dev n = true) (oldest : puntsOf s.dev n = p :: r)
include held ready oldest

theorem exec_puntDeliver_bad (bad : (descOf raw).bad = true) : exec (.puntDeliver n raw) s = .next { s with
    dev := (consume (fetchDesc s.dev n) n (leBytes 1 ((descOf raw).puntMark false)) 13).ringEvent n (DMA_RING_STATUS.DESC_ERR n) } := by
  show execPuntDeliver n raw s = _
  rw [execPuntDeliver, State.withDev_live _ held]
  simp only [ready, oldest, if_pos bad]

theorem exec_puntDeliver_good (good : (descOf raw).bad = false) : exec (.puntDeliver n raw) s = .next { s with
    dev := dropFrame (bpmFree (consume (s.dev.puntWritten n p (descOf raw)) n (puntBack p (descOf raw)) 8) 2 p.buf).2 p.copy.pkt.fid } := by
  show execPuntDeliver n raw s = _
  rw [execPuntDeliver, State.withDev_live _ held]
  simp only [ready, oldest, good]
  rfl

end PuntDeliver

/-- Between the frame's leaving its ring and its descriptor's return, what the rings rest on stays. -/
theorem HostSame.puntTaken (d : Dev) (n : Nat) (p : Punt) : HostSame { d with punts := d.punts.erase p } (d.puntTaken n p) :=
  (HostSame.emit ..).trans (.of_pooled (Pooled.pmuEvent ..))

/-- What a delivered frame leaves behind: its ring is one shorter, HEAD is past its descriptor, and both host writes went out. -/
theorem puntDeliver_good (d : Dev) {n : Nat} (hn : n < 128) (p : Punt) (x : Desc) {e : Dev}
    (he : e = dropFrame (bpmFree (consume (d.puntWritten n p x) n (puntBack p x) 8) 2 p.buf).2 p.copy.pkt.fid) :
    e.punts = d.punts.erase p ∧ e.get (DMA_RING_HEAD.HEAD n) = (d.get (DMA_RING_HEAD.HEAD n) + 1) % ringEntries d n
    ∧ Output.hostWrite (ringPf d n) x.addr (p.bytes.take (puntLen p x)) ∈ e.out ∧ d.handBack n 8 (puntBack p x) ∈ e.out := by
  have taken := HostSame.puntTaken d n p
  have before : HostSame { d with punts := d.punts.erase p } (d.puntWritten n p x) := taken.trans (.emit ..)
  have pf : ringPf (d.puntTaken n p) n = ringPf d n := taken.ringPf n
  have back : (d.puntWritten n p x).handBack n 8 (puntBack p x) = d.handBack n 8 (puntBack p x) := before.handBack hn ..
  have step := consume_regsOnly (d.puntWritten n p x) n (puntBack p x) 8
  have after := HostSame.freeFrame (consume (d.puntWritten n p x) n (puntBack p x) 8) 2 p.buf p.copy.pkt.fid
  have written := Books.consume (d.puntWritten n p x) n (puntBack p x) 8
  have freed : Books (consume (d.puntWritten n p x) n (puntBack p x) 8) e := he ▸ (Books.bpmFree ..).trans (Books.dropFrame ..)
  rw [← he] at after
  refine ⟨?_, ?_, ?_, ?_⟩
  · obtain ⟨⟨_, _, _, h⟩, -⟩ := step
    rw [after.punts, h]
    exact before.punts
  · rw [after.head hn, consume_head, before.head hn, before.ringEntries hn]
    rfl
  · refine freed.out.subset (written.out.subset ?_)
    rw [← pf]
    simp [Dev.puntWritten, Dev.emit]
  · refine freed.out.subset ?_
    rw [← back]
    exact handBack_mem_consume ..

/-! ### Frame injection (R84, R149, R389) -/

/-- The frame of an inject descriptor has been read into the device, as its next frame. -/
def Dev.injected (d : Dev) (r : Nat) (x : Desc) (bytes : List Byte) (now : Nat) : Dev :=
  (((d.emit (.hostRead (ringPf d r) x.addr x.len)).pmuEvent 0 0x06 1).newFrame
    { inPort := x.port % 1024, bytes := bytesAt bytes 0 x.len, complete := true, rxTs := now }).2

/-- An injected frame without PIPELINE is stamped here. -/
def injectPkt (s : State) (fid : Nat) (x : Desc) (now : Nat) : Pkt :=
  { fid := fid, inPort := x.port % 1024, stamped := true, bankB := s.banks.activeB, epoch := epochAt s.grid (x.port % 1024 / 32), entered := now }

/-- The injected frame waits where its descriptor says (R84). -/
def Dev.routed (s : State) (d : Dev) (fid : Nat) (x : Desc) (now : Nat) : Dev :=
  if x.pipeline then d.slice (x.port % 1024 / 32) fun h => { h with staging := h.staging ++ [{ fid := fid, inPort := x.port % 1024 }] }
  else pushAdmit d (x.port % 1024 / 32) (plainCopy (injectPkt s fid x now) (x.port % 1024) (x.queue % 8))

section InjectFrame

variable {s : State} (n : Fin 64) (raw : BitVec 128) (bytes : List Byte) (dt : Nat)

theorem exec_injectFrame_idle (idle : ringReady s.dev (64 + n.val) = false) : exec (.injectFrame n raw bytes dt) s = .next s := by
  show execInjectFrame n raw bytes dt s = _
  exact State.withDev_same (if_pos (by rw [idle]; rfl))

variable {n} (held : s.held = false) (ready : ringReady s.dev (64 + n.val) = true)
include held ready

theorem exec_injectFrame_bad (bad : (descOf raw).bad = true) : exec (.injectFrame n raw bytes dt) s = .next { s with
    dev := (consume (fetchDesc s.dev (64 + n.val)) (64 + n.val) (leBytes 1 (descOf raw).injectMark) 13).ringEvent (64 + n.val)
      (DMA_RING_STATUS.DESC_ERR (64 + n.val)) } := by
  show execInjectFrame n raw bytes dt s = _
  rw [execInjectFrame, State.withDev_live _ held]
  simp only [ready, Bool.not_true, Bool.false_eq_true, if_false, if_pos bad]

variable {raw} (good : (descOf raw).bad = false) {got : BpmGot} {d : Dev}
  (alloc : bpmAlloc (fetchDesc s.dev (64 + n.val)) 3 (descOf raw).len = (got, d))
include good alloc

theorem exec_injectFrame_none (hg : got.result ≠ 0) : exec (.injectFrame n raw bytes dt) s = .next { s with dev := d } := by
  show execInjectFrame n raw bytes dt s = _
  rw [execInjectFrame, State.withDev_live _ held]
  simp only [ready, Bool.not_true, Bool.false_eq_true, if_false, good, alloc, if_pos hg]

theorem exec_injectFrame_good (hg : got.result = 0) : exec (.injectFrame n raw bytes dt) s = .next { s with
    dev := consume (bpmFree (Dev.routed s (d.injected (64 + n.val) (descOf raw) bytes (s.grid.nowQ dt)) d.nextFid (descOf raw) (s.grid.nowQ dt)) 3 got.ptr).2
      (64 + n.val) (leBytes 1 (descOf raw).injectMark) 13 } := by
  have fid : ((d.emit (.hostRead (ringPf d (64 + n.val)) (descOf raw).addr (descOf raw).len)).pmuEvent 0 0x06 1).nextFid = d.nextFid :=
    (Pooled.pmuEvent _ 0 0x06 1 none).nextFid
  show execInjectFrame n raw bytes dt s = _
  rw [execInjectFrame, State.withDev_live _ held]
  simp only [ready, Bool.not_true, Bool.false_eq_true, if_false, good, alloc, hg, ne_eq, not_true_eq_false]
  rw [← fid]
  rfl

end InjectFrame

theorem HostSame.injected (d : Dev) (r : Nat) (x : Desc) (bytes : List Byte) (now : Nat) : HostSame d (d.injected r x bytes now) :=
  ((HostSame.emit ..).trans (.of_pooled (Pooled.pmuEvent ..))).trans ⟨fun _ _ => rfl, fun _ _ => rfl, rfl, rfl, rfl, rfl⟩

theorem HostSame.routed (s : State) (d : Dev) (fid : Nat) (x : Desc) (now : Nat) : HostSame d (Dev.routed s d fid x now) := by
  unfold Dev.routed
  split <;> exact ⟨fun _ _ => rfl, fun _ _ => rfl, rfl, rfl, rfl, rfl⟩

theorem Dev.sl_of_slices {d e : Dev} (h : e.slices = d.slices) (s : Nat) : e.sl s = d.sl s := by rw [Dev.sl, h, Dev.sl]

theorem Dev.injected_slices (d : Dev) (r : Nat) (x : Desc) (bytes : List Byte) (now : Nat) : (d.injected r x bytes now).slices = d.slices :=
  (Pooled.pmuEvent (d.emit (.hostRead (ringPf d r) x.addr x.len)) 0 0x06 1 none).slices

theorem Dev.injected_frame (d : Dev) (r : Nat) (x : Desc) (bytes : List Byte) (now : Nat) : (d.injected r x bytes now).frame d.nextFid
    = some { inPort := x.port % 1024, bytes := bytesAt bytes 0 x.len, complete := true, rxTs := now } := by
  have fid : ((d.emit (.hostRead (ringPf d r) x.addr x.len)).pmuEvent 0 0x06 1).nextFid = d.nextFid := (Pooled.pmuEvent _ 0 0x06 1 none).nextFid
  rw [← fid]
  rw [Dev.injected, Dev.newFrame, Dev.setFrame, Dev.frame, SMap.get_put_same]

theorem Dev.routed_frames (s : State) (d : Dev) (fid : Nat) (x : Desc) (now : Nat) : (Dev.routed s d fid x now).frames = d.frames := by
  unfold Dev.routed
  split <;> rfl

/-- With PIPELINE the frame is the last of its slice's staging buffer. -/
theorem Dev.routed_pipeline (s : State) (d : Dev) (fid : Nat) {x : Desc} (now : Nat) (h : x.pipeline = true) :
    (Dev.routed s d fid x now).sl (x.port % 1024 / 32)
      = { d.sl (x.port % 1024 / 32) with staging := (d.sl (x.port % 1024 / 32)).staging ++ [{ fid := fid, inPort := x.port % 1024 }] } := by
  rw [Dev.routed, if_pos h, Dev.sl_slice_same]

theorem pushAdmit_sl (d : Dev) (s : Nat) (c : Copy) : ((pushAdmit d s c).sl s).staging = (d.sl s).staging
    ∧ ∃ c', c' ∈ ((pushAdmit d s c).sl s).toAdmit ∧ c'.port = c.port ∧ c'.q = c.q ∧ c'.pkt = c.pkt := by
  simp only [pushAdmit, Dev.sl, Dev.slice, SMap.get_put_same]
  exact ⟨trivial, _, List.mem_append_right _ (List.mem_cons_self ..), rfl, rfl, rfl⟩

/-- An injected frame with its buffer: HEAD is past its descriptor, the frame is held, and it waits in its slice. -/
theorem injectFrame_good (s : State) (d : Dev) {r : Nat} (hr : r < 128) (x : Desc) (bytes back : List Byte) (now ptr off : Nat) {e : Dev}
    (he : e = consume (bpmFree (Dev.routed s (d.injected r x bytes now) d.nextFid x now) 3 ptr).2 r back off) :
    e.get (DMA_RING_HEAD.HEAD r) = (d.get (DMA_RING_HEAD.HEAD r) + 1) % ringEntries d r
    ∧ e.frame d.nextFid = some { inPort := x.port % 1024, bytes := bytesAt bytes 0 x.len, complete := true, rxTs := now }
    ∧ e.slices = (Dev.routed s (d.injected r x bytes now) d.nextFid x now).slices := by
  have freed := Pooled.bpmFree (Dev.routed s (d.injected r x bytes now) d.nextFid x now) 3 ptr
  have same : HostSame d (bpmFree (Dev.routed s (d.injected r x bytes now) d.nextFid x now) 3 ptr).2 :=
    ((HostSame.injected ..).trans (.routed ..)).trans (.of_pooled freed)
  obtain ⟨⟨_, _, _, step⟩, -⟩ := consume_regsOnly (bpmFree (Dev.routed s (d.injected r x bytes now) d.nextFid x now) 3 ptr).2 r back off
  refine ⟨?_, ?_, ?_⟩
  · rw [he, consume_head, same.head hr, same.ringEntries hr]
  · have frames : e.frames = (d.injected r x bytes now).frames := by
      rw [he, step]
      exact freed.frames.trans (Dev.routed_frames ..)
    rw [Dev.frame, frames]
    exact Dev.injected_frame ..
  · rw [he, step]
    exact freed.slices

/-! ### O31 -/

/-- A bad descriptor of either kind of ring: DESC_ERR, and HEAD is past it (R82). -/
theorem badDescriptor (d : Dev) {n : Nat} (hn : n < 128) (back : List Byte) (off : Nat) {e : Dev}
    (he : e = (consume (fetchDesc d n) n back off).ringEvent n (DMA_RING_STATUS.DESC_ERR n)) :
    e.get (DMA_RING_STATUS.DESC_ERR n) = 1 ∧ e.get (DMA_RING_HEAD.HEAD n) = (d.get (DMA_RING_HEAD.HEAD n) + 1) % ringEntries d n
    ∧ d.handBack n off back ∈ e.out ∧ e.punts = d.punts ∧ e.slices = d.slices ∧ e.frames = d.frames := by
  have fetched : HostSame d (fetchDesc d n) := .emit ..
  have event := Dev.regsOnly_ringEvent (consume (fetchDesc d n) n back off) n (DMA_RING_STATUS.DESC_ERR n)
  have signalled : Books (consume (fetchDesc d n) n back off) e := he ▸ ((Books.put ..).trans (Books.bump ..)).trans (Books.signal ..)
  have raised := Dev.raised_ringEvent (consume (fetchDesc d n) n back off) n (DMA_RING_STATUS.DESC_ERR n) (by simp [DMA_RING_STATUS.DESC_ERR])
  rw [← he] at event raised
  refine ⟨raised.1, ?_, ?_, ?_⟩
  · rw [event.get_eq (by simp [DMA_RING_STATUS.DESC_ERR, DMA_RING_HEAD.HEAD]), consume_head, fetched.head hn, fetched.ringEntries hn]
  · rw [← fetched.handBack hn]
    exact signalled.out.subset (handBack_mem_consume ..)
  · obtain ⟨⟨_, _, _, step⟩, -⟩ := consume_regsOnly (fetchDesc d n) n back off
    obtain ⟨⟨_, _, _, last⟩, -⟩ := event
    rw [last, step]
    exact ⟨rfl, rfl, rfl⟩

/-- Settles O31: doorbells, punt delivery and injection, each by its cases (the length written back is that of the bytes delivered,
log entry 138, and an injected frame's port and queue count modulo 1,024 and 8, log entry 139: the model's choices). -/
theorem hostRings : Obligations.HostRings := by
  unfold Obligations.HostRings
  refine ⟨fun src off shape v s held => ⟨fun oob => ?outOfBand, fun pcie below h => ?size, fun pcie below hs ha h => ?reserved, fun n pcie hs ho => ⟨fun w ns => ?world, fun w => ⟨fun good => ?accepted, fun bad => ?ignored⟩⟩⟩,
    fun n raw s held => ⟨fun h => exec_puntDeliver_idle raw h, fun p r ready oldest => ⟨fun good len hlen => ?delivered, fun bad => ?skipped⟩⟩,
    fun n raw bytes dt s held => ⟨fun idle => exec_injectFrame_idle n raw bytes dt idle, fun ready bad => ?skippedInject, fun got d ready good alloc => ⟨fun hg => ?noBuffer, fun hg => ?injected⟩⟩⟩
  case outOfBand =>
    subst oob
    rw [exec_doorbellWrite held, bar4Write_oob]
  case size => exact doorbell_refused held (bar4Write_size v pcie below h) (by decide)
  case reserved => exact doorbell_refused held (bar4Write_reserved v pcie below hs ha h) (by decide)
  case world =>
    subst hs
    refine doorbell_refused held ?_ (by decide)
    rw [ho, bar4Write_ring _ n v pcie, if_pos ⟨w, ns⟩]
  case accepted =>
    have open_ : ¬(ringPf s.dev n = 1 ∧ srcSecure src = false) := by
      rintro ⟨h1, h2⟩
      simp [h1, h2] at w
    subst hs
    rw [exec_doorbellWrite held, ho, bar4Write_ring _ n v pcie, if_neg open_, doorbell, if_pos good]
  case ignored =>
    have open_ : ¬(ringPf s.dev n = 1 ∧ srcSecure src = false) := by
      rintro ⟨h1, h2⟩
      simp [h1, h2] at w
    subst hs
    refine ⟨_, ?_, Dev.raised_ringEvent s.dev n (DMA_RING_STATUS.DB_ERR n) (by simp [DMA_RING_STATUS.DB_ERR]),
      Dev.regsOnly_ringEvent s.dev n (DMA_RING_STATUS.DB_ERR n)⟩
    rw [exec_doorbellWrite held, ho, bar4Write_ring _ n v pcie, if_neg open_, doorbell, if_neg bad]
  case delivered =>
    subst hlen
    obtain ⟨punts, head, data, back⟩ := puntDeliver_good s.dev (by omega : n.val < 128) p (descOf raw) rfl
    exact ⟨_, exec_puntDeliver_good held raw ready oldest good, punts, head, data, back⟩
  case skipped =>
    obtain ⟨err, head, back, punts, -⟩ := badDescriptor s.dev (by omega : n.val < 128) (leBytes 1 ((descOf raw).puntMark false)) 13 rfl
    exact ⟨_, exec_puntDeliver_bad held raw ready oldest bad, punts, err, head, back⟩
  case skippedInject =>
    obtain ⟨err, head, -, -, slices, frames⟩ := badDescriptor s.dev (by omega : 64 + n.val < 128) (leBytes 1 (descOf raw).injectMark) 13 rfl
    exact ⟨_, exec_injectFrame_bad raw bytes dt held ready bad, err, head, slices, frames⟩
  case noBuffer => exact exec_injectFrame_none bytes dt held ready good alloc hg
  case injected =>
    have same : HostSame s.dev d := (HostSame.emit ..).trans (.of_pooled (congrArg Prod.snd alloc ▸ Pooled.bpmAlloc ..))
    obtain ⟨head, frame, slices⟩ := injectFrame_good s d (by omega : 64 + n.val < 128) (descOf raw) bytes (leBytes 1 (descOf raw).injectMark)
      (s.grid.nowQ dt) got.ptr 13 rfl
    rw [same.head (by omega), same.ringEntries (by omega)] at head
    refine ⟨_, _, exec_injectFrame_good bytes dt held ready good alloc hg, head, frame, rfl, rfl, fun pl => ?_, fun pl => ?_⟩
    · rw [Dev.sl_of_slices slices, Dev.routed_pipeline s _ _ _ pl, Dev.sl_of_slices (Dev.injected_slices ..)]
      exact ⟨rfl, rfl⟩
    · have sl := Dev.sl_of_slices (Dev.injected_slices d (64 + n.val) (descOf raw) bytes (s.grid.nowQ dt)) ((descOf raw).port % 1024 / 32)
      obtain ⟨staging, c, mem, port, q, pkt⟩ := pushAdmit_sl (d.injected (64 + n.val) (descOf raw) bytes (s.grid.nowQ dt)) ((descOf raw).port % 1024 / 32)
        (plainCopy (injectPkt s d.nextFid (descOf raw) (s.grid.nowQ dt)) ((descOf raw).port % 1024) ((descOf raw).queue % 8))
      rw [Dev.sl_of_slices slices, Dev.routed, if_neg (by simp [pl])]
      exact ⟨staging.trans (by rw [sl]), c, mem, port, q, by rw [pkt]; rfl, by rw [pkt]; rfl, by rw [pkt]; rfl⟩

end Sys2Proof.Machine

namespace Sys2Proof.Machine

/-! ### Where a mailbox lies (R103, R104) -/

/-- The place k bytes below a place of the same block. -/
def Loc.back (l : Loc) (k : Nat) : Loc := { l with off := l.off - k }

theorem locate_central_back {a k : Nat} {l : Loc} (ha : a < 0x01000000) (h : locate a = some l) (hk : k ≤ l.off) :
    locate (a - k) = some (l.back k) := by
  rw [locate, if_pos ha] at h
  rw [locate, if_pos (by omega)]
  dsimp only at h ⊢
  have off : l.off = a % 0x10000 := by split at h <;> cases h <;> rfl
  rw [show (a - k) / 0x10000 = a / 0x10000 by omega, show (a - k) % 0x10000 = a % 0x10000 - k by omega]
  generalize a / 0x10000 = n at h ⊢
  split at h <;> cases h <;> rfl

theorem locate_half_back {a k : Nat} {l : Loc} (lo : 0x01000000 ≤ a) (hi : a < 0x03000000) (h : locate a = some l) (hk : k ≤ l.off) :
    locate (a - k) = some (l.back k) := by
  rw [locate, if_neg (by omega), if_pos hi] at h
  dsimp only at h
  have off : l.off ≤ a % 0x100000 := by
    split at h
    case h_2 => split_ifs at h <;> cases h <;> simp only <;> omega
    all_goals cases h <;> exact Nat.le_refl _
  rw [locate, if_neg (by omega), if_pos (by omega)]
  dsimp only
  rw [show (a - k) / 0x01000000 = a / 0x01000000 by omega, show (a - k) % 0x01000000 / 0x100000 = a % 0x01000000 / 0x100000 by omega,
    show (a - k) % 0x100000 = a % 0x100000 - k by omega]
  generalize a % 0x01000000 / 0x100000 = n at h ⊢
  split at h
  case h_2 =>
    by_cases spl : a % 0x100000 < 0x8000
    · rw [if_pos spl] at h
      cases h
      rw [if_pos (by omega)]
      rfl
    · rw [if_neg spl] at h
      split_ifs at h with mem
      cases h
      simp only at hk
      rw [if_neg (by omega), if_pos (by omega)]
      simp only [Loc.back, Option.some.injEq, Loc.mk.injEq, true_and]
      omega
  all_goals cases h <;> rfl

theorem locate_slice_back {a k : Nat} {l : Loc} (lo : 0x04000000 ≤ a) (hi : a < 0x06000000) (h : locate a = some l) (hk : k ≤ l.off) :
    locate (a - k) = some (l.back k) := by
  rw [locate, if_neg (by omega), if_neg (by omega), if_pos ⟨lo, hi⟩] at h
  dsimp only at h
  have off : l.off ≤ a % 0x10000 := by
    split at h
    case h_5 => split_ifs at h <;> cases h <;> simp only <;> omega
    all_goals cases h <;> simp only <;> omega
  rw [locate, if_neg (by omega), if_neg (by omega), if_pos (by omega)]
  dsimp only
  rw [show (a - k - 0x04000000) / 0x100000 = (a - 0x04000000) / 0x100000 by omega,
    show (a - k) % 0x100000 / 0x10000 = a % 0x100000 / 0x10000 by omega, show (a - k) % 0x10000 = a % 0x10000 - k by omega]
  generalize a % 0x100000 / 0x10000 = n at h ⊢
  split at h
  case h_1 | h_4 =>
    cases h
    simp only at hk
    simp only [Loc.back, Option.some.injEq, Loc.mk.injEq, true_and]
    omega
  case h_5 =>
    by_cases stg : a % 0x10000 < 0xC000
    · rw [if_pos stg] at h
      cases h
      simp only at hk
      rw [if_pos (by omega)]
      simp only [Loc.back, Option.some.injEq, Loc.mk.injEq, true_and]
      omega
    · rw [if_neg stg] at h
      cases h
      simp only at hk
      rw [if_neg (by omega)]
      simp only [Loc.back, Option.some.injEq, Loc.mk.injEq, true_and]
      omega
  all_goals cases h <;> rfl

/-- Within a block, places lie as their addresses do. -/
theorem locate_back {a k : Nat} {l : Loc} (h : locate a = some l) (hk : k ≤ l.off) : locate (a - k) = some (l.back k) := by
  by_cases h1 : a < 0x01000000
  · exact locate_central_back h1 h hk
  by_cases h2 : a < 0x03000000
  · exact locate_half_back (Nat.not_lt.mp h1) h2 h hk
  by_cases h3 : 0x04000000 ≤ a ∧ a < 0x06000000
  · exact locate_slice_back h3.1 h3.2 h hk
  · rw [locate, if_neg h1, if_neg h2, if_neg h3] at h
    cases h

/-- A mailbox's MBX_CTL, by the mailbox's base: the block's place of both, and the row of its map. -/
structure MbxCtl (h : Hit) (b : Nat) : Prop where
  place : locate (b + 0x14) = some h.loc
  base : mbxBase h.loc (b + 0x14) = some b
  addr : locate b = some (h.loc.back 0x14)
  fields : h.row.fields = [⟨15, 12, .ro, 0⟩, ⟨8, 8, .wo, 0⟩, ⟨1, 1, .rw, 0⟩, ⟨0, 0, .ro, 0⟩]

/-- Every block's MBX_CTL is laid out alike (R104). -/
theorem findRow_mbxCtl (k : BKind) : ∀ o ∈ mbxOff k, (findRow (mapOf k) (o + 0x14)).map (·.1.fields)
    = some [⟨15, 12, .ro, 0⟩, ⟨8, 8, .wo, 0⟩, ⟨1, 1, .rw, 0⟩, ⟨0, 0, .ro, 0⟩] := by
  cases k <;> decide +kernel

theorem regAt_some {a : Nat} {h : Hit} (hit : regAt a = some h) : locate a = some h.loc
    ∧ findRow (mapOf h.loc.kind) h.loc.off = some (h.row, h.ix) := by
  rw [regAt] at hit
  cases hl : locate a with
  | none => simp [hl] at hit
  | some l =>
    simp only [hl, Option.map_eq_some_iff] at hit
    obtain ⟨r, hr, rfl⟩ := hit
    exact ⟨rfl, hr⟩

theorem mbxBase_some {l : Loc} {a b : Nat} (h : mbxBase l a = some b) : ∃ o, mbxOff l.kind = some o ∧ o ≤ l.off ∧ b = a - (l.off - o) := by
  rw [mbxBase] at h
  cases ho : mbxOff l.kind with
  | none => simp [ho] at h
  | some o =>
    simp only [ho, Option.ite_none_right_eq_some, Option.some.injEq] at h
    exact ⟨o, rfl, h.1.1, h.2.symm⟩

theorem locate_off_le {a : Nat} {l : Loc} (h : locate a = some l) : l.off ≤ a := by
  by_contra hlt
  have origin := locate_back h (k := a) (by omega)
  rw [Nat.sub_self, show locate 0 = some ⟨.id, 0, 0, 0⟩ by decide, Option.some.injEq] at origin
  have off := congrArg Loc.off origin
  simp only [Loc.back] at off
  omega

theorem MbxCtl.of_regAt {h : Hit} {b : Nat} (hit : regAt (b + 0x14) = some h) (base : mbxBase h.loc (b + 0x14) = some b) : MbxCtl h b := by
  obtain ⟨place, row⟩ := regAt_some hit
  obtain ⟨o, ho, hle, hb⟩ := mbxBase_some base
  have le := locate_off_le place
  have hoff : h.loc.off = o + 0x14 := by omega
  have back := locate_back place (k := 0x14) (by omega)
  have fields := findRow_mbxCtl h.loc.kind o ho
  rw [← hoff, row] at fields
  exact ⟨place, base, back, Option.some.inj fields⟩

/-! ### MBX_CTL and MBX_DATA (R104, R105) -/

section MbxRegs

variable (d : Dev) (b : Nat)

/-- ERR and VALID of a mailbox. -/
def mbxErr (b : Nat) : Fld := ⟨b + 0x14, 15, 12⟩
def mbxValid (b : Nat) : Fld := ⟨b + 0x14, 0, 0⟩

/-- MBX_CTL with ERR set and VALID cleared. -/
def Dev.mbxAnswer (err : Nat) : Dev := (d.put (mbxErr b) err).put (mbxValid b) 0

theorem Dev.mbxAnswer_regsOnly (err : Nat) : Dev.regsOnly [b + 0x14] d (d.mbxAnswer b err) :=
  Dev.regsOnly_trans (Dev.regsOnly_put d (mbxErr b) err) (Dev.regsOnly_put _ (mbxValid b) 0)

theorem Dev.mbxAnswer_err {err : Nat} (h : err < 16) : (d.mbxAnswer b err).get (mbxErr b) = err := by
  rw [Dev.mbxAnswer, Dev.get_put_other _ _ _ _ (by simp [mbxValid]) (by simp [mbxValid]) (by simp [mbxValid, mbxErr]),
    Dev.get_put _ _ _ (by simp [mbxErr]) (by simp [mbxErr])]
  exact Nat.mod_eq_of_lt h

theorem Dev.mbxAnswer_valid (err : Nat) : (d.mbxAnswer b err).get (mbxValid b) = 0 := by
  rw [Dev.mbxAnswer, Dev.get_put _ _ _ (by simp [mbxValid]) (by simp [mbxValid])]
  exact Nat.zero_mod _

theorem mbxBegin_eq : mbxBegin d b = { d.mbxAnswer b 0 with mbxBusy := d.mbxBusy ++ [b] } := rfl

theorem mbxFail_eq (src : Src) (err kind : Nat) : mbxFail d src b err kind (b + 0x14)
    = busError (d.mbxAnswer b err) src kind 0 (b + 0x14) true := rfl

theorem Dev.get_withBusy (d : Dev) (m : List Nat) (f : Fld) : Dev.get { d with mbxBusy := m } f = d.get f := rfl

/-- A change of registers is one beside any operations in progress. -/
theorem Dev.regsOnly.withBusy {l : List Nat} {d e : Dev} (h : Dev.regsOnly l d e) (m : List Nat) :
    Dev.regsOnly l { d with mbxBusy := m } { e with mbxBusy := m } := by
  obtain ⟨⟨r, o, p, rfl⟩, words⟩ := h
  exact ⟨⟨r, o, p, rfl⟩, words⟩

theorem mbxBegin_regsOnly : Dev.regsOnly [b + 0x14] { d with mbxBusy := d.mbxBusy ++ [b] } (mbxBegin d b) := by
  rw [mbxBegin_eq]
  exact (Dev.mbxAnswer_regsOnly d b 0).withBusy _

theorem mbxBegin_err : (mbxBegin d b).get (mbxErr b) = 0 := by
  rw [mbxBegin_eq, Dev.get_withBusy, Dev.mbxAnswer_err d b (by decide)]

theorem mbxBegin_valid : (mbxBegin d b).get (mbxValid b) = 0 := by
  rw [mbxBegin_eq, Dev.get_withBusy, Dev.mbxAnswer_valid]

/-- The registers of a mailbox that hold a value. -/
def mbxDataRegs (b : Nat) : List Nat := [b + 4, b + 8, b + 12, b + 16]

theorem mbxPlace (b i : Nat) : b + 4 + 4 * i = b + (4 + 4 * i) := Nat.add_assoc ..

theorem setMbxData_eq (v : Nat) : setMbxData d b v
    = (((d.setWord (b + 4) (BitVec.ofNat 32 (dataWord v 0))).setWord (b + 8) (BitVec.ofNat 32 (dataWord v 1))).setWord (b + 12)
      (BitVec.ofNat 32 (dataWord v 2))).setWord (b + 16) (BitVec.ofNat 32 (dataWord v 3)) := by
  rw [setMbxData, show List.range 4 = [0, 1, 2, 3] from rfl]
  simp only [List.foldl_cons, List.foldl_nil, mbxPlace b]

theorem mbxData_eq : mbxData d b = (d.word (b + 4)).toNat + (d.word (b + 8)).toNat * 2 ^ 32 + (d.word (b + 12)).toNat * 2 ^ 64
    + (d.word (b + 16)).toNat * 2 ^ 96 := by
  rw [mbxData, show List.range 4 = [0, 1, 2, 3] from rfl, List.foldl_cons, List.foldl_cons, List.foldl_cons, List.foldl_cons,
    List.foldl_nil, Nat.mul_zero, Nat.pow_zero, Nat.mul_one, Nat.zero_add]

theorem setMbxData_regsOnly (v : Nat) : Dev.regsOnly (mbxDataRegs b) d (setMbxData d b v) := by
  rw [setMbxData_eq]
  have first := Dev.regsOnly_mono (m := mbxDataRegs b) (Dev.regsOnly_setWord d (b + 4) (BitVec.ofNat 32 (dataWord v 0))) (by simp [mbxDataRegs])
  exact ((first.then (Dev.regsOnly_setWord _ (b + 8) _) (fun _ => id) (by simp [mbxDataRegs])).then (Dev.regsOnly_setWord _ (b + 12) _)
    (fun _ => id) (by simp [mbxDataRegs])).then (Dev.regsOnly_setWord _ (b + 16) _) (fun _ => id) (by simp [mbxDataRegs])

/-- MBX_DATA reads as the value put there, cut to 128 bits. -/
theorem mbxData_setMbxData (v : Nat) : mbxData (setMbxData d b v) b = v % 2 ^ 128 := by
  rw [mbxData_eq, setMbxData_eq]
  simp only [Dev.word_setWord, Dev.word_setWord_other, ne_eq, Nat.add_right_inj, Nat.reduceEqDiff, not_false_eq_true, dataWord,
    BitVec.toNat_ofNat]
  omega

theorem mbxData_lt : mbxData d b < 2 ^ 128 := by
  rw [mbxData_eq]
  have w0 := (d.word (b + 4)).isLt
  have w1 := (d.word (b + 8)).isLt
  have w2 := (d.word (b + 12)).isLt
  have w3 := (d.word (b + 16)).isLt
  omega

theorem mbxData_congr {e : Dev} (h : ∀ a ∈ mbxDataRegs b, e.word a = d.word a) : mbxData e b = mbxData d b := by
  rw [mbxData_eq, mbxData_eq, h (b + 4) (by simp [mbxDataRegs]), h (b + 8) (by simp [mbxDataRegs]), h (b + 12) (by simp [mbxDataRegs]),
    h (b + 16) (by simp [mbxDataRegs])]

/-- A refused operation (R106): ERR says why, VALID is 0, and a bus error is logged. -/
theorem mbxFail_dev (src : Src) {err kind : Nat} (hb : b + 0x14 ∉ busErrorRegs) (herr : err < 16) (hk : kind < 16) {e : Dev}
    (he : e = mbxFail d src b err kind (b + 0x14)) : Dev.busErrorLogged src kind 0 (b + 0x14) true d e
      ∧ e.get (mbxErr b) = err ∧ e.get (mbxValid b) = 0
      ∧ Dev.regsOnly ((b + 0x14) :: busErrorRegs) { d with reports := e.reports } e := by
  rw [mbxFail_eq] at he
  subst he
  have answer := Dev.mbxAnswer_regsOnly d b err
  have logged := busError_regsOnly (d.mbxAnswer b err) src kind 0 (b + 0x14) true
  refine ⟨(busError_logged (d.mbxAnswer b err) src _ true hk (by decide)).after answer ?_, ?_, ?_, ?_⟩
  · intro a ha hm
    rw [List.mem_singleton.mp hm] at ha
    exact hb ha
  · exact (logged.get_of_reports (f := mbxErr b) hb).trans (Dev.mbxAnswer_err d b herr)
  · exact (logged.get_of_reports (f := mbxValid b) hb).trans (Dev.mbxAnswer_valid d b err)
  · exact (answer.withReports _).then logged (by simp) (fun _ => List.mem_cons_of_mem _)

end MbxRegs

/-! ### Operations of a mailbox (R104-R106) -/

theorem bit_toNat (w : Word) (i : Nat) : bit w.toNat i = w.getLsbD i := by
  rw [bit, ← BitVec.testBit_toNat, Nat.testBit_eq_decide_div_mod_eq]

/-- A write of MBX_CTL takes OP alone. -/
theorem merged_mbxCtl {h : Hit} {b : Nat} (c : MbxCtl h b) (d : Dev) (v : Word) :
    bit (merged d h (b + 0x14) v).toNat 1 = bit v.toNat 1 := by
  have mask : h.row.mask (fun f => [Acc.rw, .pw, .w1].contains f.acc) = 2 := by
    rw [RRow.mask, c.fields]
    decide
  rw [bit_toNat, bit_toNat, merged, mask]
  simp

/-- A register of 32 rw bits takes what is written to it. -/
theorem merged_whole {h : Hit} (fields : h.row.fields = [⟨31, 0, .rw, 0⟩]) (d : Dev) (a : Nat) (v : Word) : merged d h a v = v := by
  have mask : h.row.mask (fun f => [Acc.rw, .pw, .w1].contains f.acc) = 2 ^ 32 - 1 := by
    rw [RRow.mask, fields]
    decide
  rw [merged, mask, show BitVec.ofNat 32 (2 ^ 32 - 1) = BitVec.allOnes 32 from rfl, BitVec.not_allOnes, BitVec.and_zero,
    BitVec.zero_or, BitVec.and_allOnes]

section Operations

variable {src : Src} {h : Hit} {b : Nat} {dt : Nat} {v : Word} {x : Whole}

theorem writeEffect_mbx {a : Nat} (base : mbxBase h.loc a = some b) : writeEffect src h a dt v x = mbxWrite src h b a dt v x := by
  obtain ⟨g, k, d⟩ := x
  simp [writeEffect, base]

theorem mbxWrite_busy {a : Nat} (busy : b ∈ x.2.2.mbxBusy) : mbxWrite src h b a dt v x = onDev (fun d => mbxFail d src b 3 beMbx a) x := by
  simp [mbxWrite, busy]

/-- A register of an idle mailbox other than MBX_CTL is only stored. -/
theorem mbxWrite_stored {a : Nat} (idle : b ∉ x.2.2.mbxBusy) (ha : a ≠ b + 0x14) :
    mbxWrite src h b a dt v x = onDev (fun d => d.setWord a (merged d h a v)) x := by
  simp [mbxWrite, idle, ha]

/-- MBX_CTL as a write leaves it. -/
def Dev.withOp (d : Dev) (h : Hit) (b : Nat) (v : Word) : Dev := d.setWord (b + 0x14) (merged d h (b + 0x14) v)

/-- GO of an idle mailbox at an index open to its source starts the operation. -/
theorem mbxWrite_go (idle : b ∉ x.2.2.mbxBusy) (go : bit v.toNat 8 = true)
    (opens : srcSecure src = true ∨ mbxSecret x.2.2 h.loc (x.2.2.word b).toNat = false) :
    mbxWrite src h b (b + 0x14) dt v x = mbxGo src h.loc b dt (onDev (fun d => d.withOp h b v) x) := by
  have closed : (!srcSecure src && mbxSecret x.2.2 h.loc (x.2.2.word b).toNat) = false := by
    rcases opens with h | h <;> simp [h]
  simp only [mbxWrite, idle, go, closed, List.contains_eq_mem, decide_false, decide_true, Bool.true_and, Bool.false_eq_true, if_false, if_true]
  rfl

theorem mbxGo_read {l : Loc} {r : Nat × Dev} (op : bit (x.2.2.word (b + 0x14)).toNat 1 = false)
    (found : wideRead x.1 x.2.1 x.2.2 l b (x.2.2.word b).toNat dt = some r) :
    mbxGo src l b dt x = (x.1, x.2.1, mbxBegin (setMbxData r.2 b r.1) b) := by
  obtain ⟨g, k, d⟩ := x
  simp only at op found
  simp [mbxGo, op, found]

theorem mbxGo_noIndex {l : Loc} (op : bit (x.2.2.word (b + 0x14)).toNat 1 = false)
    (none : wideRead x.1 x.2.1 x.2.2 l b (x.2.2.word b).toNat dt = none) :
    mbxGo src l b dt x = onDev (fun d => mbxFail d src b 1 beMbx (b + 0x14)) x := by
  obtain ⟨g, k, d⟩ := x
  simp only at op none
  simp [mbxGo, op, none, onDev]

/-- The value that a write would store: the bits of MBX_DATA within the index's width. -/
def mbxValue (d : Dev) (l : Loc) (b i : Nat) : Nat := mbxData d b &&& (wideMask l i).getD 0

theorem mbxGo_write_refused {l : Loc} (op : bit (x.2.2.word (b + 0x14)).toNat 1 = true)
    (err : wideErr x.1 x.2.1 x.2.2 l b (x.2.2.word b).toNat dt (mbxValue x.2.2 l b (x.2.2.word b).toNat) ≠ 0) :
    mbxGo src l b dt x = onDev (fun d => mbxFail d src b
      (wideErr x.1 x.2.1 x.2.2 l b (x.2.2.word b).toNat dt (mbxValue x.2.2 l b (x.2.2.word b).toNat)) beMbx (b + 0x14)) x := by
  obtain ⟨g, k, d⟩ := x
  simp only [mbxValue] at op err
  simp [mbxGo, op, err, onDev, mbxValue]

theorem mbxGo_write {l : Loc} (op : bit (x.2.2.word (b + 0x14)).toNat 1 = true)
    (ok : wideErr x.1 x.2.1 x.2.2 l b (x.2.2.word b).toNat dt (mbxValue x.2.2 l b (x.2.2.word b).toNat) = 0)
    (own : l.kind ≠ .time ∨ follower x.2.2 = false) :
    mbxGo src l b dt x = onGrid (fun g d => let r := wideStore g d l b (x.2.2.word b).toNat dt (mbxValue x.2.2 l b (x.2.2.word b).toNat)
      (r.1, mbxBegin r.2 b)) x := by
  obtain ⟨g, k, d⟩ := x
  simp only [mbxValue] at op ok own
  have clock : (decide (l.kind = BKind.time) && decide ((d.word b).toNat ≠ 0) && follower d) = false := by
    rcases own with h | h <;> simp [h]
  simp only [mbxGo, op, ok, clock, onGrid, mbxValue, if_true, ne_eq, not_true_eq_false, if_false, Bool.false_eq_true]

end Operations

end Sys2Proof.Machine

namespace Sys2Proof.Machine

/-! ### A mailbox and the bus-error log -/

theorem MbxCtl.kind_ne {h : Hit} {b a : Nat} (c : MbxCtl h b) {l : Loc} (hl : locate a = some l) (hk : l.kind ≠ h.loc.kind) :
    b + 0x14 ≠ a := by
  rintro rfl
  rw [c.place, Option.some.injEq] at hl
  exact hk (congrArg Loc.kind hl.symm)

/-- HIF has no mailbox: MBX_CTL is no register of the bus-error log. -/
theorem MbxCtl.not_log {h : Hit} {b : Nat} (c : MbxCtl h b) : b + 0x14 ∉ busErrorRegs := by
  obtain ⟨o, ho, -⟩ := mbxBase_some c.base
  have hif : BKind.hif ≠ h.loc.kind := by
    intro hk
    rw [← hk] at ho
    cases ho
  have ne (a : Nat) (ha : locate a = some ⟨.hif, 0, 0, a % 0x10000⟩) : b + 0x14 ≠ a := c.kind_ne ha hif
  simp only [busErrorRegs, List.mem_cons, List.not_mem_nil, or_false, not_or]
  exact ⟨ne _ (by decide), ne _ (by decide), ne _ (by decide)⟩

/-- The role of the device's clock is no mailbox register. -/
theorem MbxCtl.follower_withOp {h : Hit} {b : Nat} (c : MbxCtl h b) (d : Dev) (v : Word) (clock : h.loc.kind = .time) :
    follower (d.withOp h b v) = follower d := by
  have ne : b + 0x14 ≠ GRT_GSYNC_CTL.word.addr := c.kind_ne (l := ⟨.grt, 0, 0, 0x60⟩) (by decide) (by rw [clock]; decide)
  have same : (d.withOp h b v).word GRT_GSYNC_CTL.word.addr = d.word GRT_GSYNC_CTL.word.addr := Dev.word_setWord_other _ _ ne.symm
  rw [follower, get_of_word (f := GRT_GSYNC_CTL.ROLE) same, follower]

/-! ### A write that passed its checks, on either path (R90) -/

/-- The device after it said l. -/
def Dev.said (l : List Output) (d : Dev) : Dev := { d with out := d.out ++ l }

theorem doWrite_said (src : Src) (h : Hit) (a dt : Nat) (v : Word) (x : Whole) :
    ∃ l, doWrite src h a dt v x = onDev (Dev.said l) (writeEffect src h a dt v x) := by
  by_cases hs : src = .oob
  · subst hs
    obtain ⟨o, ho⟩ := doWrite_oob h a dt v x
    exact ⟨[o], ho⟩
  · refine ⟨[], ?_⟩
    rw [doWrite_pcie hs, onDev, Dev.said, List.append_nil]

theorem Dev.said_word (l : List Output) (d : Dev) (a : Nat) : (d.said l).word a = d.word a := rfl

theorem Dev.said_get (l : List Output) (d : Dev) (f : Fld) : (d.said l).get f = d.get f := rfl

theorem Dev.busErrorLogged.said {src : Src} {kind bar off : Nat} {write : Bool} {d e : Dev} (h : Dev.busErrorLogged src kind bar off write d e)
    (l : List Output) : Dev.busErrorLogged src kind bar off write d (e.said l) := h

theorem Dev.regsOnly.said {r : List Nat} {d e : Dev} (h : Dev.regsOnly r d e) (l : List Output) : Dev.regsOnly r d (e.said l) := by
  obtain ⟨⟨g, o, p, rfl⟩, words⟩ := h
  exact ⟨⟨_, _, _, rfl⟩, words⟩

/-- A write of MBX_CTL that passes its checks reaches the mailbox. -/
theorem bar0Write_mbx {src : Src} {h : Hit} {b : Nat} {v : Word} {x : Whole} (dt : Nat) (c : MbxCtl h b) (align : b % 4 = 0)
    (ok : checkAccess x.2.1 x.2.2 src (b + 0x14) true v = .ok h)
    (goes : mustWait x.2.2 x.2.2.heldAcc ⟨src, true, 0, b + 0x14, .dword, v⟩ = false) :
    ∃ l, bar0Write src (b + 0x14) .dword v dt x = onDev (Dev.said l) (mbxWrite src h b (b + 0x14) dt v x) := by
  rw [bar0Write_done dt (by omega) ok goes, ← writeEffect_mbx c.base]
  exact doWrite_said ..

/-! ### Refusals (R106) -/

/-- Between d and e an operation of the mailbox at b was refused. -/
def MbxRefused (src : Src) (b err : Nat) (d e : Dev) : Prop :=
  Dev.busErrorLogged src beMbx 0 (b + 0x14) true d e ∧ e.get (mbxErr b) = err ∧ e.get (mbxValid b) = 0
    ∧ Dev.regsOnly ((b + 0x14) :: busErrorRegs) { d with reports := e.reports } e

theorem MbxRefused.of_fail {src : Src} {h : Hit} {b err : Nat} {d e : Dev} (c : MbxCtl h b) (herr : err < 16)
    (before : Dev.regsOnly [b + 0x14] d e) (l : List Output) : MbxRefused src b err d ((mbxFail e src b err beMbx (b + 0x14)).said l) := by
  obtain ⟨logged, hErr, hValid, only⟩ := mbxFail_dev e b src c.not_log herr (by decide : beMbx < 16) rfl
  refine ⟨(logged.after before fun a ha hm => ?_).said l, hErr, hValid, ?_⟩
  · rw [List.mem_singleton.mp hm] at ha
    exact c.not_log ha
  · exact ((before.withReports _).then only (by simp) (fun _ => id)).said l

/-! ### Reads (R105, R668) -/

/-- The mailbox at b holds a value that was read, and its operation is in progress. -/
def Dev.mbxShows (d : Dev) (b v : Nat) (l : List Output) : Dev := (mbxBegin (setMbxData d b v) b).said l

section Shows

variable (d : Dev) (b v : Nat) (l : List Output)

theorem setMbxData_mbxBusy : (setMbxData d b v).mbxBusy = d.mbxBusy := by
  obtain ⟨⟨_, _, _, h⟩, -⟩ := setMbxData_regsOnly d b v
  rw [h]

theorem setMbxData_badEntries : (setMbxData d b v).badEntries = d.badEntries := by
  obtain ⟨⟨_, _, _, h⟩, -⟩ := setMbxData_regsOnly d b v
  rw [h]

theorem Dev.mbxShows_regsOnly :
    Dev.regsOnly [b + 4, b + 8, b + 12, b + 16, b + 0x14] { d with mbxBusy := d.mbxBusy ++ [b] } (d.mbxShows b v l) := by
  have begun := mbxBegin_regsOnly (setMbxData d b v) b
  rw [setMbxData_mbxBusy] at begun
  have data := (setMbxData_regsOnly d b v).withBusy (d.mbxBusy ++ [b])
  exact (data.then begun (by simp [mbxDataRegs]) (by simp)).said l

theorem Dev.mbxShows_data : mbxData (d.mbxShows b v l) b = v % 2 ^ 128 := by
  rw [← mbxData_setMbxData d b v]
  refine mbxData_congr _ _ fun a ha => ?_
  have ne : a ∉ [b + 0x14] := by
    simp only [mbxDataRegs, List.mem_cons, List.not_mem_nil, or_false] at ha ⊢
    omega
  rw [Dev.mbxShows, Dev.said_word, (mbxBegin_regsOnly (setMbxData d b v) b).2 a ne]
  rfl

theorem Dev.mbxShows_err : (d.mbxShows b v l).get (mbxErr b) = 0 := by
  rw [Dev.mbxShows, Dev.said_get, mbxBegin_err]

theorem Dev.mbxShows_valid : (d.mbxShows b v l).get (mbxValid b) = 0 := by
  rw [Dev.mbxShows, Dev.said_get, mbxBegin_valid]

theorem Dev.mbxShows_mbxBusy : (d.mbxShows b v l).mbxBusy = d.mbxBusy ++ [b] := by
  obtain ⟨⟨_, _, _, h⟩, -⟩ := Dev.mbxShows_regsOnly d b v l
  rw [h]

theorem Dev.mbxShows_badEntries : (d.mbxShows b v l).badEntries = d.badEntries := by
  obtain ⟨⟨_, _, _, h⟩, -⟩ := Dev.mbxShows_regsOnly d b v l
  rw [h]

end Shows

/-! #### What a read finds in an entry that carries a check -/

/-- Entries with a check are the parser's, the stages' and the actions' (R668). -/
theorem kind_of_entryKey {l : Loc} {i : Nat} {k : Nat × Nat × Nat × Nat × Nat} (h : entryKey l i = some k) :
    l.kind = .prs ∨ l.kind = .stg ∨ l.kind = .act := by
  unfold entryKey at h
  split at h
  case h_1 hk => exact .inl hk
  case h_2 hk => exact .inr (.inl hk)
  case h_3 hk => exact .inr (.inr hk)
  case h_4 => cases h

/-- Reading such an entry removes nothing. -/
theorem wideRead_entry {g : Grid} {bk : Banks} {d : Dev} {l : Loc} {b i dt : Nat} {r : Nat × Dev} {k : Nat × Nat × Nat × Nat × Nat}
    (h : entryKey l i = some k) (found : wideRead g bk d l b i dt = some r) : r.2 = d := by
  have pop : popIndex l i = false := by
    rcases kind_of_entryKey h with hk | hk | hk <;> simp [popIndex, hk]
  rw [wideRead, pop] at found
  obtain ⟨v, -, rfl⟩ := Option.map_eq_some_iff.mp found
  rfl

theorem readParity_entry {d : Dev} {l : Loc} {i : Nat} {k : Nat × Nat × Nat × Nat × Nat} (h : entryKey l i = some k) (e : ReadErr) :
    readParity d l i e = d := by
  rcases kind_of_entryKey h with hk | hk | hk <;> simp [readParity, hk]

theorem readParity_none (d : Dev) (l : Loc) (i : Nat) : readParity d l i .none = d := by simp [readParity]

theorem readFinds_none {d : Dev} {l : Loc} {b i : Nat} (h : ∀ k, entryKey l i = some k → k ∉ d.badEntries) : readFinds d l b i .none = d := by
  unfold readFinds
  cases hk : entryKey l i with
  | none => rfl
  | some k => simp [h k hk]

theorem readFinds_bad {d : Dev} {l : Loc} {b i : Nat} {k : Nat × Nat × Nat × Nat × Nat} (h : entryKey l i = some k) (w : BitVec 128) :
    readFinds d l b i (.bad w) = setMbxData ((d.wput (wkey b i) (w.toNat &&& (wideMask l i).getD 0)).noteBad k (entryShadowBad l)) b
      (w.toNat &&& (wideMask l i).getD 0) := by
  unfold readFinds
  rw [h]

/-- An event and a report leave the entries known to be bad, and the operations in progress, as they are. -/
theorem eventReport_frame (d : Dev) (f : Fld) (src detail : Nat) :
    ((d.event f).report src detail).badEntries = d.badEntries ∧ ((d.event f).report src detail).mbxBusy = d.mbxBusy := by
  rw [Dev.report_badEntries, Dev.event_badEntries, Dev.report_mbxBusy, Dev.event_mbxBusy]
  exact ⟨rfl, rfl⟩

theorem tblShadowBad_frame (s g pt : Nat) (d : Dev) :
    (tblShadowBad s g pt d).badEntries = d.badEntries ∧ (tblShadowBad s g pt d).mbxBusy = d.mbxBusy := by
  unfold tblShadowBad
  split
  · exact eventReport_frame ..
  · exact ⟨rfl, rfl⟩

theorem entryShadowBad_frame (l : Loc) (d : Dev) : (entryShadowBad l d).badEntries = d.badEntries ∧ (entryShadowBad l d).mbxBusy = d.mbxBusy := by
  unfold entryShadowBad
  split
  · exact eventReport_frame ..
  · exact tblShadowBad_frame ..
  · exact tblShadowBad_frame ..

/-- An entry that is noted as bad is known to be bad. -/
theorem noteBad_entry (d : Dev) (k : Nat × Nat × Nat × Nat × Nat) (l : Loc) :
    k ∈ (d.noteBad k (entryShadowBad l)).badEntries ∧ (d.noteBad k (entryShadowBad l)).mbxBusy = d.mbxBusy := by
  unfold Dev.noteBad
  by_cases known : k ∈ d.badEntries <;> by_cases seen : k ∈ d.badSeen <;>
    simp [known, seen, entryShadowBad_frame]

/-! ### GO (R104-R106) -/

theorem Dev.withOp_regsOnly (d : Dev) (h : Hit) (b : Nat) (v : Word) : Dev.regsOnly [b + 0x14] d (d.withOp h b v) :=
  Dev.regsOnly_setWord d (b + 0x14) _

theorem Dev.withOp_addr (d : Dev) (h : Hit) (b : Nat) (v : Word) : (d.withOp h b v).word b = d.word b :=
  (d.withOp_regsOnly h b v).2 b (by simp)

theorem Dev.withOp_data (d : Dev) (h : Hit) (b : Nat) (v : Word) : mbxData (d.withOp h b v) b = mbxData d b := by
  refine mbxData_congr _ _ fun a ha => (d.withOp_regsOnly h b v).2 a ?_
  simp only [mbxDataRegs, List.mem_cons, List.not_mem_nil, or_false] at ha ⊢
  omega

theorem MbxCtl.withOp_op {h : Hit} {b : Nat} (c : MbxCtl h b) (d : Dev) (v : Word) :
    bit ((d.withOp h b v).word (b + 0x14)).toNat 1 = bit v.toNat 1 := by
  rw [Dev.withOp, Dev.word_setWord, merged_mbxCtl c]

section Go

variable {src : Src} {h : Hit} {b : Nat} {v : Word} {x : Whole} (dt : Nat) (c : MbxCtl h b) (align : b % 4 = 0)
  (ok : checkAccess x.2.1 x.2.2 src (b + 0x14) true v = .ok h)
  (goes : mustWait x.2.2 x.2.2.heldAcc ⟨src, true, 0, b + 0x14, .dword, v⟩ = false)
include c align ok goes

/-- A write of MBX_CTL while an operation is in progress (R106). -/
theorem bar0Write_busy (busy : b ∈ x.2.2.mbxBusy) :
    ∃ l, bar0Write src (b + 0x14) .dword v dt x = (x.1, x.2.1, (mbxFail x.2.2 src b 3 beMbx (b + 0x14)).said l) := by
  obtain ⟨l, hl⟩ := bar0Write_mbx dt c align ok goes
  exact ⟨l, by rw [hl, mbxWrite_busy busy]; rfl⟩

variable (idle : b ∉ x.2.2.mbxBusy) (opens : srcSecure src = true ∨ mbxSecret x.2.2 h.loc (x.2.2.word b).toNat = false)
include idle opens

/-- GO of an idle mailbox. -/
theorem bar0Write_go (go : bit v.toNat 8 = true) :
    ∃ l, bar0Write src (b + 0x14) .dword v dt x = onDev (Dev.said l) (mbxGo src h.loc b dt (onDev (fun d => d.withOp h b v) x)) := by
  obtain ⟨l, hl⟩ := bar0Write_mbx dt c align ok goes
  exact ⟨l, by rw [hl, mbxWrite_go idle go opens]⟩

/-- GO with OP 0 at an implemented index. -/
theorem bar0Write_read (hv : v = 0x100) {r : Nat × Dev}
    (found : wideRead x.1 x.2.1 (x.2.2.withOp h b v) h.loc b (x.2.2.word b).toNat dt = some r) :
    ∃ l, bar0Write src (b + 0x14) .dword v dt x = (x.1, x.2.1, r.2.mbxShows b r.1 l) := by
  obtain ⟨l, hl⟩ := bar0Write_go dt c align ok goes idle opens (by rw [hv]; decide)
  have op : bit ((x.2.2.withOp h b v).word (b + 0x14)).toNat 1 = false := by rw [c.withOp_op, hv]; decide
  rw [← x.2.2.withOp_addr h b v] at found
  exact ⟨l, by rw [hl, mbxGo_read (x := onDev (fun d => d.withOp h b v) x) op found]; rfl⟩

/-- GO with OP 0 at an index that is not implemented. -/
theorem bar0Write_noIndex (hv : v = 0x100)
    (none : wideRead x.1 x.2.1 (x.2.2.withOp h b v) h.loc b (x.2.2.word b).toNat dt = none) :
    ∃ l, bar0Write src (b + 0x14) .dword v dt x = (x.1, x.2.1, (mbxFail (x.2.2.withOp h b v) src b 1 beMbx (b + 0x14)).said l) := by
  obtain ⟨l, hl⟩ := bar0Write_go dt c align ok goes idle opens (by rw [hv]; decide)
  have op : bit ((x.2.2.withOp h b v).word (b + 0x14)).toNat 1 = false := by rw [c.withOp_op, hv]; decide
  rw [← x.2.2.withOp_addr h b v] at none
  exact ⟨l, by rw [hl, mbxGo_noIndex (x := onDev (fun d => d.withOp h b v) x) op none]; rfl⟩

/-- GO with OP 1 that the index refuses. -/
theorem bar0Write_writeRefused (hv : v = 0x102) {i n : Nat} (hi : i = (x.2.2.word b).toNat)
    (hn : n = wideErr x.1 x.2.1 (x.2.2.withOp h b v) h.loc b i dt (mbxValue x.2.2 h.loc b i)) (err : n ≠ 0) :
    ∃ l, bar0Write src (b + 0x14) .dword v dt x = (x.1, x.2.1, (mbxFail (x.2.2.withOp h b v) src b n beMbx (b + 0x14)).said l) := by
  obtain ⟨l, hl⟩ := bar0Write_go dt c align ok goes idle opens (by rw [hv]; decide)
  have op : bit ((x.2.2.withOp h b v).word (b + 0x14)).toNat 1 = true := by rw [c.withOp_op, hv]; decide
  rw [hi, mbxValue, ← x.2.2.withOp_data h b v, ← x.2.2.withOp_addr h b v] at hn
  refine ⟨l, ?_⟩
  rw [hl, mbxGo_write_refused (x := onDev (fun d => d.withOp h b v) x) op (hn ▸ err)]
  subst hn
  rfl

/-- GO with OP 1 that the index takes. -/
theorem bar0Write_write (hv : v = 0x102) {i : Nat} (hi : i = (x.2.2.word b).toNat)
    (fine : wideErr x.1 x.2.1 (x.2.2.withOp h b v) h.loc b i dt (mbxValue x.2.2 h.loc b i) = 0)
    (own : h.loc.kind ≠ .time ∨ follower x.2.2 = false) {r : Grid × Dev}
    (hr : r = wideStore x.1 (x.2.2.withOp h b v) h.loc b i dt (mbxValue x.2.2 h.loc b i)) :
    ∃ l, bar0Write src (b + 0x14) .dword v dt x = (r.1, x.2.1, (mbxBegin r.2 b).said l) := by
  obtain ⟨l, hl⟩ := bar0Write_go dt c align ok goes idle opens (by rw [hv]; decide)
  have op : bit ((x.2.2.withOp h b v).word (b + 0x14)).toNat 1 = true := by rw [c.withOp_op, hv]; decide
  have clock : h.loc.kind ≠ .time ∨ follower (x.2.2.withOp h b v) = false := by
    by_cases time : h.loc.kind = .time
    · exact .inr ((c.follower_withOp _ _ time).trans (own.resolve_left (not_not_intro time)))
    · exact .inl time
  rw [hi, mbxValue, ← x.2.2.withOp_data h b v, ← x.2.2.withOp_addr h b v] at fine hr
  refine ⟨l, ?_⟩
  rw [hl, mbxGo_write (x := onDev (fun d => d.withOp h b v) x) op fine clock]
  subst hr
  rfl

end Go

/-! ### The mailbox commands -/

theorem wideErr_lt (g : Grid) (bk : Banks) (d : Dev) (l : Loc) (b i dt v : Nat) : wideErr g bk d l b i dt v < 16 := by
  unfold wideErr
  split_ifs <;> decide

/-- The blocks whose writable values are stored where they are read. -/
def plainKinds : List BKind := [.boot, .hk, .dma, .bpm, .tel, .sch, .gz, .buf, .ase, .prs, .act]

theorem wideStore_plain {g : Grid} {d : Dev} {l : Loc} {b i dt v : Nat} (h : l.kind ∈ plainKinds) :
    (wideStore g d l b i dt v).2.wide = (d.wput (wkey b i) v).wide := by
  obtain ⟨kind, unit, sub, off⟩ := l
  change kind ∈ plainKinds at h
  cases kind
  case id | hif | wld | grt | pwr | flt | pmu | time | spl | mem | hpmu | ln | pt | stg | dep | eq | smp | cth => exact absurd h (by decide)
  all_goals rfl

theorem wget_of_wide {d e : Dev} (h : e.wide = d.wide) (k : Nat) : e.wget k = d.wget k := by rw [Dev.wget, h, Dev.wget]

/-- A mailbox that an operation has begun on, beside what it stored. -/
theorem mbxBegin_said (d : Dev) (b : Nat) (l : List Output) : ((mbxBegin d b).said l).get (mbxValid b) = 0
    ∧ ((mbxBegin d b).said l).get (mbxErr b) = 0
    ∧ Dev.regsOnly [b + 0x14] { d with mbxBusy := d.mbxBusy ++ [b] } ((mbxBegin d b).said l)
    ∧ ((mbxBegin d b).said l).wide = d.wide := by
  have only := (mbxBegin_regsOnly d b).said l
  refine ⟨?_, ?_, only, ?_⟩
  · rw [Dev.said_get, mbxBegin_valid]
  · rw [Dev.said_get, mbxBegin_err]
  · obtain ⟨⟨_, _, _, h⟩, -⟩ := only
    rw [h]

section Commands

variable {s : State} (held : s.held = false) {src : Src} {base : BitVec 27}
include held

theorem exec_mailboxRead_idle {h : Hit} (c : MbxCtl h base.toNat) (dt : Nat) (err : ReadErr) {d : Dev}
    (hd : bar0Write src (base.toNat + 0x14) .dword 0x100 dt (s.grid, s.banks, s.dev) = (s.grid, s.banks, d))
    (busy : base.toNat ∈ d.mbxBusy) (idle : base.toNat ∉ s.dev.mbxBusy) :
    exec (.mailboxRead src base dt err) s = .next { s with
      dev := readParity (readFinds d (h.loc.back 0x14) base.toNat (s.dev.word base.toNat).toNat err) (h.loc.back 0x14)
        (s.dev.word base.toNat).toNat err } := by
  show execMailboxRead src base dt err s = _
  rw [execMailboxRead, State.withWhole_live _ held]
  simp only [hd, c.addr, List.contains_eq_mem, busy, idle, decide_true, decide_false, Bool.not_false, Bool.and_self, if_true]
  rfl

theorem exec_mailboxRead_refused {h : Hit} (c : MbxCtl h base.toNat) (dt : Nat) (err : ReadErr) {d : Dev}
    (hd : bar0Write src (base.toNat + 0x14) .dword 0x100 dt (s.grid, s.banks, s.dev) = (s.grid, s.banks, d))
    (same : d.mbxBusy = s.dev.mbxBusy) : exec (.mailboxRead src base dt err) s = .next { s with dev := d } := by
  show execMailboxRead src base dt err s = _
  rw [execMailboxRead, State.withWhole_live _ held]
  simp only [hd, c.addr, same, Bool.and_not_self, Bool.false_eq_true, if_false]

theorem exec_mailboxWrite (dt : Nat) {y : Whole}
    (hy : bar0Write src (base.toNat + 0x14) .dword 0x102 dt (s.grid, s.banks, s.dev) = y) :
    exec (.mailboxWrite src base dt) s = .next { s with grid := y.1, banks := y.2.1, dev := y.2.2 } := by
  show execMailboxWrite src base dt s = _
  rw [execMailboxWrite, State.withWhole_live _ held, hy]

end Commands

theorem exec_mailboxComplete_idle {s : State} {base : BitVec 27} (idle : base.toNat ∉ s.dev.mbxBusy) : exec (.mailboxComplete base) s = .next s := by
  show execMailboxComplete base s = _
  exact State.withDev_same (if_neg (by simpa using idle))

theorem MbxRefused.mbxBusy {src : Src} {b err : Nat} {d e : Dev} (h : MbxRefused src b err d e) : e.mbxBusy = d.mbxBusy := by
  obtain ⟨-, -, -, ⟨_, _, _, h⟩, -⟩ := h
  rw [h]

/-- The operation at b is complete (R104). -/
def Dev.mbxDone (d : Dev) (b : Nat) : Dev := { d with mbxBusy := d.mbxBusy.filter (· ≠ b) }.put (mbxValid b) 1

theorem exec_mailboxComplete {s : State} (held : s.held = false) {base : BitVec 27} (busy : base.toNat ∈ s.dev.mbxBusy) :
    exec (.mailboxComplete base) s = .next { s with dev := s.dev.mbxDone base.toNat } := by
  show execMailboxComplete base s = _
  rw [execMailboxComplete, State.withDev_live _ held, if_pos (by simpa using busy)]
  rfl

/-- An entry found bad in both copies is shown as it is stored, and known to be bad (R668). -/
theorem badShown (d : Dev) (b i : Nat) (k : Nat × Nat × Nat × Nat × Nat) (w : BitVec 128) (l : Loc) :
    let v := w.toNat &&& (wideMask l i).getD 0
    let e := setMbxData ((d.wput (wkey b i) v).noteBad k (entryShadowBad l)) b v
    k ∈ e.badEntries ∧ e.mbxBusy = d.mbxBusy ∧ mbxData e b = v := by
  intro v e
  obtain ⟨mem, busy⟩ := noteBad_entry (d.wput (wkey b i) v) k l
  refine ⟨by rwa [setMbxData_badEntries], (setMbxData_mbxBusy ..).trans busy, ?_⟩
  rw [mbxData_setMbxData]
  exact Nat.mod_eq_of_lt (Nat.lt_of_le_of_lt Nat.and_le_left w.isLt)

/-- Settles O27: GO by its cases; a refused index, a refused value and a GO in progress each leave the mailbox's answer and a bus
error alone (that an operation in progress keeps the ERR 3 of a refused one is the model's choice, log entry 140). -/
theorem mailboxes : Obligations.Mailboxes := by
  unfold Obligations.Mailboxes
  intro src base dt s h b ctl i held hb hctl align hit hbase hi
  subst hb hctl
  have c := MbxCtl.of_regAt hit hbase
  refine ⟨fun ⟨ok, goes⟩ ⟨idle, opens⟩ d hd => ⟨fun v d' found => ⟨fun good => ?read, fun k w hk => ?bad⟩, fun none => ?noIndex⟩,
    fun ⟨ok, goes⟩ ⟨idle, opens⟩ d v r hd hv hr => ⟨fun fine own => ?write, fun err => ?writeRefused⟩,
    fun busy => ⟨fun ⟨ok, goes⟩ x => ?busyRead, fun ⟨ok, goes⟩ => ?busyWrite, ?complete⟩, fun idle => exec_mailboxComplete_idle idle⟩
  case read =>
    subst hd hi
    obtain ⟨l, hl⟩ := bar0Write_read (x := (s.grid, s.banks, s.dev)) dt c align ok goes idle opens rfl found
    have begun : base.toNat ∈ (d'.mbxShows base.toNat v l).mbxBusy := by simp [Dev.mbxShows_mbxBusy]
    have entry : ∀ k, entryKey (h.loc.back 0x14) (s.dev.word base.toNat).toNat = some k → k ∉ (d'.mbxShows base.toNat v l).badEntries := by
      intro k hk
      rw [Dev.mbxShows_badEntries, show d' = _ from wideRead_entry hk found]
      exact good k hk
    refine ⟨_, ?_, Dev.mbxShows_data d' _ v l, Dev.mbxShows_valid .., Dev.mbxShows_err .., Dev.mbxShows_regsOnly ..⟩
    rw [exec_mailboxRead_idle held c dt .none hl begun idle, readFinds_none entry, readParity_none]
  case bad =>
    subst hd hi
    obtain ⟨l, hl⟩ := bar0Write_read (x := (s.grid, s.banks, s.dev)) dt c align ok goes idle opens rfl found
    have begun : base.toNat ∈ (d'.mbxShows base.toNat v l).mbxBusy := by simp [Dev.mbxShows_mbxBusy]
    obtain ⟨mem, busy, data⟩ := badShown (d'.mbxShows base.toNat v l) base.toNat (s.dev.word base.toNat).toNat k w (h.loc.back 0x14)
    refine ⟨_, ?_, mem, data, busy.trans ?_⟩
    · rw [exec_mailboxRead_idle held c dt (.bad w) hl begun idle, readFinds_bad (l := h.loc.back 0x14) hk,
        readParity_entry (l := h.loc.back 0x14) hk]
    · rw [Dev.mbxShows_mbxBusy, show d' = _ from wideRead_entry hk found]
      rfl
  case noIndex =>
    subst hd hi
    obtain ⟨l, hl⟩ := bar0Write_noIndex (x := (s.grid, s.banks, s.dev)) dt c align ok goes idle opens rfl none
    have refused := MbxRefused.of_fail (src := src) (err := 1) c (by decide) (s.dev.withOp_regsOnly h base.toNat 0x100) l
    exact ⟨_, exec_mailboxRead_refused held c dt .none hl refused.mbxBusy, refused⟩
  case write =>
    subst hd hv
    obtain ⟨l, hl⟩ := bar0Write_write (x := (s.grid, s.banks, s.dev)) dt c align ok goes idle (hi ▸ opens) rfl hi fine own hr
    obtain ⟨valid, noErr, only, wide⟩ := mbxBegin_said r.2 base.toNat l
    refine ⟨_, exec_mailboxWrite held dt hl, valid, noErr, only, fun plain => ?_⟩
    have stored : ((mbxBegin r.2 base.toNat).said l).wide = _ := wide.trans (hr ▸ wideStore_plain plain)
    refine ⟨?_, fun k hk => ?_⟩
    · rw [wget_of_wide stored, Dev.wget_wput_same _ _ (Nat.lt_of_le_of_lt Nat.and_le_left (mbxData_lt ..))]
    · rw [wget_of_wide stored, Dev.wget_wput_other _ _ hk]
      rfl
  case writeRefused =>
    subst hd hv
    obtain ⟨l, hl⟩ := bar0Write_writeRefused (x := (s.grid, s.banks, s.dev)) dt c align ok goes idle (hi ▸ opens) rfl hi rfl err
    have refused := MbxRefused.of_fail (src := src) c (wideErr_lt s.grid s.banks (s.dev.withOp h base.toNat 0x102) h.loc base.toNat i dt
      (mbxValue s.dev h.loc base.toNat i)) (s.dev.withOp_regsOnly h base.toNat 0x102) l
    exact ⟨_, exec_mailboxWrite held dt hl, refused⟩
  case busyRead =>
    obtain ⟨l, hl⟩ := bar0Write_busy (x := (s.grid, s.banks, s.dev)) dt c align ok goes busy
    have refused := MbxRefused.of_fail (src := src) (err := 3) c (by decide) (Dev.regsOnly_refl _ s.dev) l
    exact ⟨_, exec_mailboxRead_refused held c dt x hl refused.mbxBusy, refused⟩
  case busyWrite =>
    obtain ⟨l, hl⟩ := bar0Write_busy (x := (s.grid, s.banks, s.dev)) dt c align ok goes busy
    have refused := MbxRefused.of_fail (src := src) (err := 3) c (by decide) (Dev.regsOnly_refl _ s.dev) l
    exact ⟨_, exec_mailboxWrite held dt hl, refused⟩
  case complete =>
    have busy' : (s.dev.mbxDone base.toNat).mbxBusy = s.dev.mbxBusy.filter (· ≠ base.toNat) := rfl
    refine ⟨_, exec_mailboxComplete held busy, ?_, ?_, fun x hx hm => ?_, ?_⟩
    · exact Dev.get_put _ (mbxValid base.toNat) 1 (by simp [mbxValid]) (by simp [mbxValid])
    · rw [busy']
      simp
    · rw [busy']
      simp [hx, hm]
    · rw [busy']
      exact Dev.regsOnly_put _ (mbxValid base.toNat) 1

end Sys2Proof.Machine

namespace Sys2Proof.Machine

/-! ### The mailboxes whose reads remove an entry (R220, R531, R633) -/

/-- Every block's MBX_ADDR is one field (R104). -/
theorem findRow_mbxAddr (k : BKind) : ∀ o ∈ mbxOff k, (findRow (mapOf k) o).map (·.1.fields) = some [⟨31, 0, .rw, 0⟩] := by
  cases k <;> decide +kernel

/-- The mailbox at b is that of unit u of a kind of block. -/
structure MbxAt (b : Nat) (k : BKind) (u o : Nat) : Prop where
  off : mbxOff k = some o
  place : locate (b + 0x14) = some ⟨k, u, 0, o + 0x14⟩
  align : b % 4 = 0
  pops : k ∈ [BKind.pt, .pmu, .hpmu, .smp, .flt]

theorem mbxAt_pt (s : Fin 32) : MbxAt (mbxPt s) .pt s 0xF80 :=
  ⟨rfl, (by decide +kernel : ∀ s : Fin 32, locate (mbxPt s + 0x14) = some ⟨.pt, s, 0, 0xF94⟩) s, by rw [mbxPt, sliceBase]; omega, by decide⟩

theorem mbxAt_smp (s : Fin 32) : MbxAt (mbxSmp s) .smp s 0xF80 :=
  ⟨rfl, (by decide +kernel : ∀ s : Fin 32, locate (mbxSmp s + 0x14) = some ⟨.smp, s, 0, 0xF94⟩) s, by rw [mbxSmp, sliceBase]; omega, by decide⟩

theorem mbxAt_hpmu (h : Fin 2) : MbxAt (mbxHpmu h) .hpmu h 0xF80 :=
  ⟨rfl, (by decide +kernel : ∀ h : Fin 2, locate (mbxHpmu h + 0x14) = some ⟨.hpmu, h, 0, 0xF94⟩) h, by rw [mbxHpmu, halfBase]; omega, by decide⟩

theorem mbxAt_pmu : MbxAt mbxPmu .pmu 0 0x80 := ⟨rfl, by decide, by decide, by decide⟩

theorem mbxAt_flt : MbxAt mbxFlt .flt 0 0x80 := ⟨rfl, by decide, by decide, by decide⟩

theorem regAt_of_row {a : Nat} {l : Loc} {f : List RField} (place : locate a = some l)
    (row : (findRow (mapOf l.kind) l.off).map (·.1.fields) = some f) : ∃ h, regAt a = some h ∧ h.loc = l ∧ h.row.fields = f := by
  obtain ⟨r, hr, rfl⟩ := Option.map_eq_some_iff.mp row
  exact ⟨⟨l, r.1, r.2⟩, by simp [regAt, place, hr], rfl, rfl⟩

namespace MbxAt

variable {b : Nat} {k : BKind} {u o : Nat} (m : MbxAt b k u o)
include m

theorem addr_place : locate b = some ⟨k, u, 0, o⟩ := by
  have back := locate_back m.place (k := 0x14) (Nat.le_add_left ..)
  rwa [Nat.add_sub_cancel, Loc.back, Nat.add_sub_cancel] at back

theorem ctl : ∃ h, regAt (b + 0x14) = some h ∧ h.loc = ⟨k, u, 0, o + 0x14⟩ ∧ MbxCtl h b := by
  obtain ⟨h, hit, loc, fields⟩ := regAt_of_row m.place (findRow_mbxCtl k o m.off)
  have base : mbxBase h.loc (b + 0x14) = some b := by
    rw [loc, mbxBase]
    simp [m.off]
  exact ⟨h, hit, loc, .of_regAt hit base⟩

theorem addr : ∃ h, regAt b = some h ∧ h.loc = ⟨k, u, 0, o⟩ ∧ h.row.fields = [⟨31, 0, .rw, 0⟩] ∧ mbxBase h.loc b = some b := by
  obtain ⟨h, hit, loc, fields⟩ := regAt_of_row m.addr_place (findRow_mbxAddr k o m.off)
  refine ⟨h, hit, loc, fields, ?_⟩
  rw [loc, mbxBase]
  simp [m.off]

end MbxAt

/-- A device on which no access waits, and whose mailbox at b is idle and open to a source. -/
structure PopReady (d : Dev) (src : Src) (b : Nat) (k : BKind) (u : Nat) : Prop where
  pcie : src ≠ .oob
  held : d.heldAcc = []
  idle : b ∉ d.mbxBusy
  live : answers d k = true
  unfenced : ∀ n, locSlice ⟨k, u, 0, 0⟩ = some n → fenced d n = false
  up : ∀ n, locSlice ⟨k, u, 0, 0⟩ = some n → (d.sl n).inReset = false
  opens : srcSecure src = true ∨ (k = .pt ∧ u < 32 ∧ bit (d.word (WLD_SLICE.word u).addr).toNat 1 = false)

theorem mustWait_none {d : Dev} {a : Nat} {l : Loc} (src : Src) (v : Word) (held : d.heldAcc = []) (place : locate a = some l)
    (up : ∀ n, locSlice l = some n → (d.sl n).inReset = false) : mustWait d d.heldAcc ⟨src, true, 0, a, .dword, v⟩ = false := by
  have goes : waitsFor d l = false := by
    unfold waitsFor
    cases hs : locSlice l with
    | none => rfl
    | some n => exact up n hs
  simp [mustWait, held, place, goes]

/-- Of a block whose reads remove entries, no register that is written as a whole or as MBX_CTL is locked (R99, R110). -/
theorem locked_pops {bk : Banks} {d : Dev} {h : Hit} {a : Nat} (place : locate a = some h.loc)
    (pops : h.loc.kind ∈ [BKind.pt, .pmu, .hpmu, .smp, .flt]) (once : h.row.fields.any (fun f => decide (f.acc = .w1)) = false) :
    locked bk d h a = false := by
  have window : bankWindow h.loc = none := by
    simp only [List.mem_cons, List.not_mem_nil, or_false] at pops
    rcases pops with hk | hk | hk | hk | hk <;> simp only [bankWindow, hk]
  have map : h.loc.kind ≠ .wld := by
    intro hk
    rw [hk] at pops
    exact absurd pops (by decide)
  have clock : a ≠ TIME_FREQ.word.addr := by
    intro ha
    rw [ha, show locate TIME_FREQ.word.addr = some ⟨.time, 0, 0, 4⟩ by decide, Option.some.injEq] at place
    rw [← place] at pops
    exact absurd pops (by decide)
  simp [locked, window, map, clock, once]

namespace PopReady

variable {d : Dev} {src : Src} {b : Nat} {k : BKind} {u o : Nat} (r : PopReady d src b k u) (m : MbxAt b k u o)
include r

/-- A register of the mailbox that can be written passes the checks (R665). -/
theorem checks {bk : Banks} {a w : Nat} {h : Hit} (v : Word) (hit : regAt a = some h) (loc : h.loc = ⟨k, u, 0, w⟩)
    (pops : k ∈ [BKind.pt, .pmu, .hpmu, .smp, .flt]) (once : h.row.fields.any (fun f => decide (f.acc = .w1)) = false)
    (writable : h.row.fields.any RField.writable = true) : checkAccess bk d src a true v = .ok h := by
  have there : absent d h.loc = false := by
    rw [loc]
    simp only [List.mem_cons, List.not_mem_nil, or_false] at pops
    rcases pops with rfl | rfl | rfl | rfl | rfl <;> rfl
  have kind : h.loc.kind = k := by rw [loc]
  have slice : locSlice h.loc = locSlice ⟨k, u, 0, 0⟩ := by rw [loc]; rfl
  have unfenced : fencedOff d h.loc = false := fencedOff_false fun n hn => r.unfenced n (slice ▸ hn)
  have open_ : (!srcSecure src && (secureBlock d h.loc || alwaysSecure h.loc || partSecure d h.loc true v)) = false := by
    rcases r.opens with hs | ⟨rfl, -, hs⟩
    · simp [hs]
    · rw [loc]
      simp [secureBlock, alwaysSecure, partSecure, hs]
  have free : locked bk d h a = false := locked_pops (regAt_some hit).1 (by rw [kind]; exact pops) once
  rw [checkAccess_hit bk d src true v hit, kind, r.live, there, unfenced, open_, free, writable]
  rfl

theorem goes {a w : Nat} (v : Word) (place : locate a = some ⟨k, u, 0, w⟩) : mustWait d d.heldAcc ⟨src, true, 0, a, .dword, v⟩ = false :=
  mustWait_none src v r.held place fun n hn => r.up n hn

include m

/-- MBX_ADDR decides none of the checks. -/
theorem withAddr (v : Word) : PopReady (d.setWord b v) src b k u := by
  have same {a : Nat} {l : Loc} (place : locate a = some l) (hk : l.kind ≠ k) : (d.setWord b v).word a = d.word a := by
    refine Dev.word_setWord_other _ _ ?_
    rintro rfl
    rw [m.addr_place, Option.some.injEq] at place
    exact hk (place ▸ rfl)
  have pops := m.pops
  refine ⟨r.pcie, r.held, r.idle, ?_, fun n hn => ?_, r.up, r.opens.imp id ?_⟩
  · rw [← r.live, answers, answers, pwrLive, pwrLive, get_of_word (f := BOOT_STATE.STATE) (same (l := ⟨.boot, 0, 0, 0⟩) (by decide) ?_)]
    rintro rfl
    exact absurd pops (by decide)
  · rw [← r.unfenced n hn, fenced, fenced, get_of_word (f := FLT_FENCED.FENCED) (same (l := ⟨.flt, 0, 0, 0x2C⟩) (by decide) ?_)]
    rintro rfl
    cases hn
  · rintro ⟨rfl, hu, hs⟩
    refine ⟨rfl, hu, ?_⟩
    rw [same (locate_worldMap (by simp only [WLD_SLICE.word]; omega) (by simp only [WLD_SLICE.word]; omega)) nofun, hs]

end PopReady

/-! ### A pop: MBX_ADDR, then GO -/

section Pop

variable {s : State} (held : s.held = false) {src : Src} {b : Nat} {k : BKind} {u o : Nat} (m : MbxAt b k u o)
  (r : PopReady s.dev src b k u) {i : Nat} (hi : i < 2 ^ 32)

section
include m r

/-- The index stands in MBX_ADDR once it is written. -/
theorem bar0Write_addr (v : Word) : bar0Write src b .dword v 0 (s.grid, s.banks, s.dev) = (s.grid, s.banks, s.dev.setWord b v) := by
  obtain ⟨h, hit, loc, fields, base⟩ := m.addr
  have ok : checkAccess s.banks s.dev src b true v = .ok h := r.checks v hit loc m.pops (by rw [fields]; rfl) (by rw [fields]; rfl)
  rw [bar0Write_ok (x := (s.grid, s.banks, s.dev)) 0 r.pcie m.align ok (r.goes v m.addr_place), writeEffect_mbx base,
    mbxWrite_stored r.idle (by omega), onDev, merged_whole fields]

end

include held m r hi

/-- GO at the index: what MBX_CTL's write finds. -/
theorem mailboxPop_go : ∃ h, MbxCtl h b ∧ h.loc = ⟨k, u, 0, o + 0x14⟩ ∧
    ∃ d, d = (s.dev.setWord b (BitVec.ofNat 32 i)).withOp h b 0x100 ∧ Dev.regsOnly [b, b + 0x14] s.dev d ∧
      (∀ v, wideRead s.grid s.banks d ⟨k, u, 0, o + 0x14⟩ b i 0 = some v →
        ∃ l, mailboxPop src b i s = .next { s with dev := v.2.mbxShows b v.1 l })
      ∧ (wideRead s.grid s.banks d ⟨k, u, 0, o + 0x14⟩ b i 0 = none →
        ∃ e, mailboxPop src b i s = .next { s with dev := e } ∧ MbxRefused src b 1 (s.dev.setWord b (BitVec.ofNat 32 i)) e) := by
  obtain ⟨h, hit, loc, c⟩ := m.ctl
  obtain ⟨d1, hd1⟩ : ∃ d1, s.dev.setWord b (BitVec.ofNat 32 i) = d1 := ⟨_, rfl⟩
  have r1 := r.withAddr m (BitVec.ofNat 32 i)
  have addr := Dev.regsOnly_setWord s.dev b (BitVec.ofNat 32 i)
  have index : (d1.word b).toNat = i := by rw [← hd1, Dev.word_setWord, BitVec.toNat_ofNat, Nat.mod_eq_of_lt hi]
  rw [hd1] at r1 addr
  have ok : checkAccess s.banks d1 src (b + 0x14) true 0x100 = .ok h :=
    r1.checks 0x100 hit loc m.pops (by rw [c.fields]; rfl) (by rw [c.fields]; rfl)
  have opens : srcSecure src = true ∨ mbxSecret d1 h.loc (d1.word b).toNat = false := r.opens.imp id fun hpt => by rw [loc, hpt.1]; rfl
  have pop {y : Dev} (hy : bar0Write src (b + 0x14) .dword 0x100 0 (s.grid, s.banks, d1) = (s.grid, s.banks, y)) :
      mailboxPop src b i s = .next { s with dev := y } := by
    rw [mailboxPop, State.withWhole_live _ held, bar0Write_addr m r, hd1, hy]
  rw [hd1]
  refine ⟨h, c, loc, _, rfl, addr.then (Dev.withOp_regsOnly d1 h b 0x100) (by simp) (by simp), fun v found => ?_, fun none => ?_⟩
  · rw [← loc, ← index] at found
    obtain ⟨l, hl⟩ := bar0Write_read (x := (s.grid, s.banks, d1)) 0 c m.align ok (r1.goes 0x100 m.place) r1.idle opens rfl found
    exact ⟨l, pop hl⟩
  · rw [← loc, ← index] at none
    obtain ⟨l, hl⟩ := bar0Write_noIndex (x := (s.grid, s.banks, d1)) 0 c m.align ok (r1.goes 0x100 m.place) r1.idle opens rfl none
    exact ⟨_, pop hl, .of_fail c (by decide) (Dev.withOp_regsOnly d1 h b 0x100) l⟩

/-- An empty FIFO: the read is refused with ERR 1 (R106). -/
theorem mailboxPop_empty (none : ∀ d, Dev.regsOnly [b, b + 0x14] s.dev d → wideRead s.grid s.banks d ⟨k, u, 0, o + 0x14⟩ b i 0 = none) :
    ∃ e, mailboxPop src b i s = .next { s with dev := e } ∧ e.get (mbxErr b) = 1 ∧ e.get (mbxValid b) = 0 ∧ e.mbxBusy = s.dev.mbxBusy
      ∧ Dev.regsOnly ([b, b + 0x14] ++ busErrorRegs) { s.dev with reports := e.reports } e := by
  obtain ⟨-, -, -, d, -, only, -, refused⟩ := mailboxPop_go held m r hi
  obtain ⟨e, he, fail⟩ := refused (none d only)
  obtain ⟨-, err, valid, log⟩ := id fail
  exact ⟨e, he, err, valid, fail.mbxBusy, ((Dev.regsOnly_setWord s.dev b _).withReports _).then log (by simp)
    (fun _ => List.mem_cons_of_mem _)⟩

/-- An entry that was popped stands in DATA, and the operation is in progress. -/
theorem mailboxPop_found {v : Dev → Nat × Dev} (found : ∀ d, Dev.regsOnly [b, b + 0x14] s.dev d →
      wideRead s.grid s.banks d ⟨k, u, 0, o + 0x14⟩ b i 0 = some (v d) ∧ (v d).2.mbxBusy = d.mbxBusy) :
    ∃ d l, Dev.regsOnly [b, b + 0x14] s.dev d ∧ mailboxPop src b i s = .next { s with dev := (v d).2.mbxShows b (v d).1 l }
      ∧ mbxData ((v d).2.mbxShows b (v d).1 l) b = (v d).1 % 2 ^ 128
      ∧ ((v d).2.mbxShows b (v d).1 l).mbxBusy = s.dev.mbxBusy ++ [b] := by
  obtain ⟨-, -, -, d, -, only, shows, -⟩ := mailboxPop_go held m r hi
  obtain ⟨read, busy⟩ := found d only
  obtain ⟨l, hl⟩ := shows _ read
  refine ⟨d, l, only, hl, Dev.mbxShows_data .., ?_⟩
  obtain ⟨⟨_, _, _, same⟩, -⟩ := only
  rw [Dev.mbxShows_mbxBusy, busy, same]

end Pop

/-! ### O29 -/

theorem Dev.mbxShows_frame (d : Dev) (b v : Nat) (l : List Output) :
    ∃ r o p m, d.mbxShows b v l = { d with regs := r, out := o, pba := p, mbxBusy := m } := by
  obtain ⟨⟨r, o, p, h⟩, -⟩ := Dev.mbxShows_regsOnly d b v l
  exact ⟨r, o, p, _, h⟩

/-- No mailbox register is one of a lane's, a port's or a unit's own. -/
theorem Dev.mbxShows_get (d : Dev) {b : Nat} (v : Nat) (l : List Output) {f : Fld} (hf : f.addr < b ∨ b + 0x14 < f.addr) :
    (d.mbxShows b v l).get f = d.get f := by
  refine get_of_word (((Dev.mbxShows_regsOnly d b v l).2 _ ?_).trans rfl)
  simp only [List.mem_cons, List.not_mem_nil, or_false]
  omega

/-- The index of a pop of KIND 2 (R531, R633). -/
theorem kindOf_two {e : Nat} (he : e < 2) : kindOf (2 * 2 ^ 28 + e) = 2 ∧ kindRest (2 * 2 ^ 28 + e) = e := by
  rw [kindOf, kindRest]
  omega

/-- TS_FIFO_POP's mailbox is ready. -/
theorem popReady_pt {d : Dev} {src : Src} (p : Fin 1024) (acc : d.heldAcc = []) (pcie : src ≠ .oob)
    (opens : srcSecure src = true ∨ bit (d.word (WLD_SLICE.word (p.val / 32)).addr).toNat 1 = false) (live : pwrLive d = true)
    (idle : mbxPt (p.val / 32) ∉ d.mbxBusy) (unfenced : fenced d (p.val / 32) = false) (up : (d.sl (p.val / 32)).inReset = false) :
    PopReady d src (mbxPt (p.val / 32)) .pt (p.val / 32) where
  pcie := pcie
  held := acc
  idle := idle
  live := by rw [answers, live]; rfl
  unfenced n hn := Option.some.inj hn ▸ unfenced
  up n hn := Option.some.inj hn ▸ up
  opens := opens.imp id fun h => ⟨rfl, by omega, h⟩

/-- The mailboxes that are read through PF1 (log entry 48). -/
theorem popReady_pf1 {d : Dev} {b u : Nat} {k : BKind} (acc : d.heldAcc = []) (live : answers d k = true) (idle : b ∉ d.mbxBusy)
    (slice : ∀ n, locSlice ⟨k, u, 0, 0⟩ = some n → fenced d n = false ∧ (d.sl n).inReset = false) : PopReady d .pf1 b k u where
  pcie := nofun
  held := acc
  idle := idle
  live := live
  unfenced n hn := (slice n hn).1
  up n hn := (slice n hn).2
  opens := .inl rfl

section WideRead

variable (g : Grid) (bk : Banks) (d : Dev) (b o : Nat)

theorem wideRead_pt (p : Fin 1024) : wideRead g bk d ⟨.pt, p.val / 32, 0, o⟩ b (p.val % 32 * 64 + 48) 0 = tsPop d p := by
  have pop : popIndex ⟨.pt, p.val / 32, 0, o⟩ (p.val % 32 * 64 + 48) = true := by
    simp only [popIndex, Bool.and_eq_true, decide_eq_true_eq]
    omega
  have port : 32 * (p.val / 32) + (p.val % 32 * 64 + 48) / 64 = p.val := by omega
  rw [wideRead, if_pos pop]
  exact congrArg (tsPop d) port

theorem wideRead_pmu (e : Fin 2) : wideRead g bk d ⟨.pmu, 0, 0, o⟩ b (2 * 2 ^ 28 + e) 0
    = (samplePop d 0 e).map fun x => (x.1.toNat, x.2) := by
  obtain ⟨kind, rest⟩ := kindOf_two e.isLt
  have pop : popIndex ⟨.pmu, 0, 0, o⟩ (2 * 2 ^ 28 + e) = true := by
    simp only [popIndex, kind, rest, e.isLt, decide_true, Bool.and_self]
  rw [wideRead, if_pos pop, rest]
  rfl

theorem wideRead_smp (n : Nat) : wideRead g bk d ⟨.smp, n, 0, o⟩ b (2 * 2 ^ 28 + 0) 0
    = (samplePop d (3 + n) 0).map fun x => (x.1.toNat, x.2) := by
  obtain ⟨kind, rest⟩ := kindOf_two (e := 0) (by decide)
  have pop : popIndex ⟨.smp, n, 0, o⟩ (2 * 2 ^ 28 + 0) = true := by
    simp only [popIndex, kind, rest, decide_true, Bool.and_self]
  rw [wideRead, if_pos pop, rest]
  rfl

/-- A half's PMU keeps no samples (R531). -/
theorem wideRead_hpmu (h : Nat) : wideRead g bk d ⟨.hpmu, h, 0, o⟩ b (2 * 2 ^ 28 + 0) 0 = none := by
  obtain ⟨kind, -⟩ := kindOf_two (e := 0) (by decide)
  rw [wideRead, if_neg (by simp [popIndex])]
  show (pmuWide d (halfPmu h) (2 * 2 ^ 28 + 0)).map _ = none
  simp only [pmuWide, kind, Option.map_none]

theorem wideRead_flt : wideRead g bk d ⟨.flt, 0, 0, o⟩ b (2 * 2 ^ 28) 0 = logPop d := by
  rw [wideRead, if_pos (show popIndex ⟨.flt, 0, 0, o⟩ (2 * 2 ^ 28) = true from rfl)]

end WideRead

theorem samplePop_slice_cons {d : Dev} {n : Nat} {x : BitVec 128} {r : List (BitVec 128)} (h : (d.sl n).samples = x :: r) :
    samplePop d (3 + n) 0 = some (x, d.slice n fun y => { y with samples := r }) := by
  rw [samplePop, if_neg (by omega), if_neg (by omega), Nat.add_sub_cancel_left, h]

theorem samplePop_slice_nil {d : Dev} {n : Nat} (h : (d.sl n).samples = []) : samplePop d (3 + n) 0 = none := by
  rw [samplePop, if_neg (by omega), if_neg (by omega), Nat.add_sub_cancel_left, h]

theorem samplePop_tansy_cons {d : Dev} {e : Nat} {x : BitVec 128} {r : List (BitVec 128)} (h : d.pmu.tansy.get [] e = x :: r) :
    samplePop d 0 e
      = some (x, ({ d with pmu := { d.pmu with tansy := d.pmu.tansy.put [] e r } } : Dev).put (PMU_TS_STAT.COUNT e) r.length) := by
  rw [samplePop, if_pos rfl, h]

theorem samplePop_tansy_nil {d : Dev} {e : Nat} (h : d.pmu.tansy.get [] e = []) : samplePop d 0 e = none := by
  rw [samplePop, if_pos rfl, h]

theorem tsPop_cons {d : Dev} {p sec ns tag : Nat} {r : List (Nat × Nat × Nat)} (h : (d.po p).tsFifo = (sec, ns, tag) :: r) :
    tsPop d p = some (sec + ns * 2 ^ 64 + tag * 2 ^ 96, d.port p fun x => { x with tsFifo := r }) := by
  rw [tsPop, h]

theorem tsPop_nil {d : Dev} {p : Nat} (h : (d.po p).tsFifo = []) : tsPop d p = none := by
  rw [tsPop, h]

section Kept

variable {l : List Nat} {d e : Dev} (h : Dev.regsOnly l d e)
include h

theorem Dev.regsOnly.po (p : Nat) : e.po p = d.po p := by obtain ⟨⟨_, _, _, rfl⟩, -⟩ := h; rfl
theorem Dev.regsOnly.sl (n : Nat) : e.sl n = d.sl n := by obtain ⟨⟨_, _, _, rfl⟩, -⟩ := h; rfl
theorem Dev.regsOnly.pmu : e.pmu = d.pmu := by obtain ⟨⟨_, _, _, rfl⟩, -⟩ := h; rfl
theorem Dev.regsOnly.flt : e.flt = d.flt := by obtain ⟨⟨_, _, _, rfl⟩, -⟩ := h; rfl

end Kept

section Shown

variable (d : Dev) (b v : Nat) (l : List Output)

theorem Dev.mbxShows_po (p : Nat) : (d.mbxShows b v l).po p = d.po p := by obtain ⟨_, _, _, _, h⟩ := d.mbxShows_frame b v l; rw [h]; rfl
theorem Dev.mbxShows_sl (n : Nat) : (d.mbxShows b v l).sl n = d.sl n := by obtain ⟨_, _, _, _, h⟩ := d.mbxShows_frame b v l; rw [h]; rfl
theorem Dev.mbxShows_pmu : (d.mbxShows b v l).pmu = d.pmu := by obtain ⟨_, _, _, _, h⟩ := d.mbxShows_frame b v l; rw [h]
theorem Dev.mbxShows_flt : (d.mbxShows b v l).flt = d.flt := by obtain ⟨_, _, _, _, h⟩ := d.mbxShows_frame b v l; rw [h]

end Shown

/-- The sample mailboxes of slices and halves. -/
theorem exec_samplePop_slice {n : Fin 32} {m : Fin 35} (k : Fin 2) (hm : m.val = 3 + n.val) (s : State) :
    exec (.samplePop m k) s = mailboxPop .pf1 (mbxSmp n) (2 * 2 ^ 28 + 0) s := by
  show execSamplePop m k s = _
  rw [execSamplePop, mbxOfPmu, if_neg (by omega), if_neg (by omega), if_neg (by omega), hm, Nat.add_sub_cancel_left]

theorem exec_samplePop_half {h : Fin 2} {m : Fin 35} (k : Fin 2) (hm : m.val = 1 + h.val) (s : State) :
    exec (.samplePop m k) s = mailboxPop .pf1 (mbxHpmu h) (2 * 2 ^ 28 + 0) s := by
  show execSamplePop m k s = _
  rw [execSamplePop, mbxOfPmu, if_neg (by omega), if_pos (by omega), if_neg (by omega), hm, Nat.add_sub_cancel_left]

/-- Settles O29: each command writes its index to the mailbox and GO; the FIFO's head goes to DATA, and an empty one refuses (that
SAMPLE_POP and LOG_POP come through PF1 is the model's choice, log entry 48). -/
theorem poppingReads : Obligations.PoppingReads := by
  unfold Obligations.PoppingReads
  intro s held acc
  refine ⟨fun src p pcie opens live idle unfenced up => ⟨fun sec ns tag r fifo => ?ts, fun fifo => ?tsEmpty⟩,
    fun k live idle => ⟨fun x r fifo => ?pmu, fun fifo => ?pmuEmpty⟩,
    fun n m k hm live idle unfenced up => ⟨fun x r fifo => ?smp, fun fifo => ?smpEmpty⟩,
    fun h m k hm live idle => ?hpmu, fun idle => ⟨fun x r fifo => ?log, fun fifo => ?logEmpty⟩⟩
  case ts =>
    have ready := popReady_pt p acc pcie opens live idle unfenced up
    obtain ⟨d, l, only, he, data, busy⟩ := mailboxPop_found held (mbxAt_pt ⟨p.val / 32, by omega⟩) ready (i := p.val % 32 * 64 + 48) (by omega)
      (v := fun d => (sec + ns * 2 ^ 64 + tag * 2 ^ 96, d.port p fun x => { x with tsFifo := r })) fun d only => ⟨(wideRead_pt ..).trans
        (tsPop_cons (by rw [only.po, fifo])), rfl⟩
    refine ⟨_, he, ?_, data, busy⟩
    rw [Dev.mbxShows_po, Dev.po_port_same]
  case tsEmpty =>
    have ready := popReady_pt p acc pcie opens live idle unfenced up
    exact mailboxPop_empty held (mbxAt_pt ⟨p.val / 32, by omega⟩) ready (by omega) fun d only => (wideRead_pt ..).trans
      (tsPop_nil (by rw [only.po, fifo]))
  case pmu =>
    have ready : PopReady s.dev .pf1 mbxPmu .pmu 0 := popReady_pf1 acc (by rw [answers, live]; rfl) idle nofun
    obtain ⟨d, l, only, he, data, busy⟩ := mailboxPop_found held mbxAt_pmu ready (i := 2 * 2 ^ 28 + k) (by omega)
      (v := fun d => (x.toNat, ({ d with pmu := { d.pmu with tansy := d.pmu.tansy.put [] k r } } : Dev).put (PMU_TS_STAT.COUNT k) r.length))
      fun d only => ⟨by rw [wideRead_pmu, samplePop_tansy_cons (only.pmu ▸ fifo)]; rfl, rfl⟩
    refine ⟨_, he, ?_, ?_, data, busy⟩
    · rw [Dev.mbxShows_pmu, Dev.put_pmu, SMap.get_put_same]
    · rw [Dev.mbxShows_get _ _ _ (by simp only [PMU_TS_STAT.COUNT, mbxPmu]; omega), Dev.get_put _ _ _ (by simp [PMU_TS_STAT.COUNT]) (by simp [PMU_TS_STAT.COUNT])]
      rfl
  case pmuEmpty =>
    have ready : PopReady s.dev .pf1 mbxPmu .pmu 0 := popReady_pf1 acc (by rw [answers, live]; rfl) idle nofun
    exact mailboxPop_empty held mbxAt_pmu ready (i := 2 * 2 ^ 28 + k) (by omega) fun d only => by
      rw [wideRead_pmu, samplePop_tansy_nil (only.pmu ▸ fifo)]
      rfl
  case smp =>
    have ready : PopReady s.dev .pf1 (mbxSmp n) .smp n := popReady_pf1 acc (by rw [answers, live]; rfl) idle
      fun j hj => Option.some.inj hj ▸ ⟨unfenced, up⟩
    obtain ⟨d, l, only, he, data, busy⟩ := mailboxPop_found held (mbxAt_smp n) ready (i := 2 * 2 ^ 28 + 0) (by omega)
      (v := fun d => (x.toNat, d.slice n fun y => { y with samples := r }))
      fun d only => ⟨by rw [wideRead_smp, samplePop_slice_cons (only.sl n ▸ fifo)]; rfl, rfl⟩
    refine ⟨_, (exec_samplePop_slice k hm s).trans he, ?_, data, busy⟩
    rw [Dev.mbxShows_sl, Dev.sl_slice_same]
  case smpEmpty =>
    have ready : PopReady s.dev .pf1 (mbxSmp n) .smp n := popReady_pf1 acc (by rw [answers, live]; rfl) idle
      fun j hj => Option.some.inj hj ▸ ⟨unfenced, up⟩
    obtain ⟨e, he, rest⟩ := mailboxPop_empty held (mbxAt_smp n) ready (i := 2 * 2 ^ 28 + 0) (by omega) fun d only => by
      rw [wideRead_smp, samplePop_slice_nil (only.sl n ▸ fifo)]
      rfl
    exact ⟨e, (exec_samplePop_slice k hm s).trans he, rest⟩
  case hpmu =>
    have ready : PopReady s.dev .pf1 (mbxHpmu h) .hpmu h := popReady_pf1 acc (by rw [answers, live]; rfl) idle nofun
    obtain ⟨e, he, rest⟩ := mailboxPop_empty held (mbxAt_hpmu h) ready (i := 2 * 2 ^ 28 + 0) (by omega) fun d _ => wideRead_hpmu ..
    exact ⟨e, (exec_samplePop_half k hm s).trans he, rest⟩
  case log =>
    have ready : PopReady s.dev .pf1 mbxFlt .flt 0 := popReady_pf1 acc (by simp [answers]) idle nofun
    obtain ⟨d, l, only, he, data, busy⟩ := mailboxPop_found held mbxAt_flt ready (i := 2 * 2 ^ 28) (by omega)
      (v := fun d => (logWord x, (d.coll fun f => { f with log := r }).put FLT_LOG_STAT.COUNT r.length))
      fun d only => ⟨by rw [wideRead_flt, logPop, only.flt, fifo], rfl⟩
    refine ⟨_, he, ?_, ?_, data, busy⟩
    · rw [Dev.mbxShows_flt, Dev.put_flt]
      rfl
    · rw [Dev.mbxShows_get _ _ _ (by decide), Dev.get_put _ _ _ (by decide) (by decide)]
      rfl
  case logEmpty =>
    have ready : PopReady s.dev .pf1 mbxFlt .flt 0 := popReady_pf1 acc (by simp [answers]) idle nofun
    exact mailboxPop_empty held mbxAt_flt ready (i := 2 * 2 ^ 28) (by omega) fun d only => by rw [wideRead_flt, logPop, only.flt, fifo]

end Sys2Proof.Machine

namespace Sys2Proof.Machine

/-! ### The ring's command under way (R559, R560) -/

theorem ringCur_some {d : Dev} {op : Nat} {c : RingCmd} (h : ringCur d op = some c) : d.hk.cur = some c := by
  unfold ringCur at h
  cases hc : d.hk.cur with
  | none => simp [hc] at h
  | some x =>
    simp only [hc, Option.ite_none_right_eq_some] at h
    exact h.2

theorem ringAnswer_eq {d : Dev} {c : RingCmd} (h : d.hk.cur = some c) (res : Nat) (loc tg : Word) (img : Nat) :
    ringAnswer d res loc tg img = { d with hk := { d.hk with
      cur := some { c with started := true, answer := some (res, loc, tg, BitVec.ofNat 512 img) } } } := by
  rw [ringAnswer, h]
  rfl

section NopFence

variable {s : State}

theorem exec_nop_idle (h : (ringCur s.dev 1).isSome = false ∨ s.dev.serves 0 = false) : exec .nop s = .next s := by
  show execNop s = _
  refine State.withDev_same ?_
  rcases h with h | h
  · rw [Option.isSome_eq_false_iff, Option.isNone_iff_eq_none] at h
    simp only [h]
  · cases ringCur s.dev 1 <;> simp [h]

theorem exec_fence_idle (h : (ringCur s.dev 4).isSome = false ∨ s.dev.serves 0 = false ∨ s.grid.epoch < s.dev.gaz.portTarget.get 0 2) :
    exec .fence s = .next s := by
  show execFence s = _
  refine State.withDev_same ?_
  rcases h with h | h | h
  · rw [Option.isSome_eq_false_iff, Option.isNone_iff_eq_none] at h
    simp only [h]
  · cases ringCur s.dev 4 <;> simp [h]
  · have late : ¬ s.dev.gaz.portTarget.get 0 2 ≤ s.grid.epoch := BitVec.not_le.mpr h
    cases ringCur s.dev 4 with
    | none => rfl
    | some c => exact if_neg fun hr => late hr.1

/-- NOP and FENCE answer RESULT 0. -/
theorem exec_nop {c : RingCmd} (held : s.held = false) (h : ringCur s.dev 1 = some c) (serves : s.dev.serves 0 = true) :
    exec .nop s = .next { s with dev := ringAnswer s.dev 0 0 0 0 } := by
  show execNop s = _
  rw [execNop, State.withDev_live _ held]
  simp only [h, serves, if_true]

theorem exec_fence {c : RingCmd} (held : s.held = false) (h : ringCur s.dev 4 = some c) (serves : s.dev.serves 0 = true)
    (reached : s.dev.gaz.portTarget.get 0 2 ≤ s.grid.epoch) : exec .fence s = .next { s with dev := ringAnswer s.dev 0 0 0 0 } := by
  show execFence s = _
  rw [execFence, State.withDev_live _ held]
  simp only [h, serves, reached, and_self, if_true]

end NopFence

/-! ### GZ (R314-R341, R560) -/

/-- Between d and e the ring's command and the Gazetteer's ports stay. -/
structure PortsSame (d e : Dev) : Prop where
  cur : e.hk.cur = d.hk.cur
  cmds : e.gaz.cmds = d.gaz.cmds

namespace PortsSame

theorem refl (d : Dev) : PortsSame d d := ⟨rfl, rfl⟩

theorem trans {d e f : Dev} (h : PortsSame d e) (k : PortsSame e f) : PortsSame d f := ⟨k.cur.trans h.cur, k.cmds.trans h.cmds⟩

theorem foldl {α : Type} {f : Dev → α → Dev} (h : ∀ d x, PortsSame d (f d x)) (l : List α) (d : Dev) : PortsSame d (l.foldl f d) :=
  List.foldlRecOn l f (refl d) fun _ k x _ => k.trans (h _ x)

theorem of_regsOnly {l : List Nat} {d e : Dev} (h : Dev.regsOnly l d e) : PortsSame d e := by
  obtain ⟨⟨_, _, _, rfl⟩, -⟩ := h
  exact ⟨rfl, rfl⟩

theorem event (d : Dev) (f : Fld) : PortsSame d (d.event f) := of_regsOnly (Dev.regsOnly_event d f)
theorem bump (d : Dev) (f : Fld) : PortsSame d (d.bump f) := of_regsOnly (Dev.regsOnly_bump d f)
theorem addTo (d : Dev) (f : Fld) (n : Nat) : PortsSame d (d.addTo f n) := of_regsOnly (Dev.regsOnly_put d f _)

theorem gzQueue (d : Dev) (e : Nat) (bs : List (List GzWr)) : PortsSame d (gzQueue d e bs).2 := ⟨rfl, rfl⟩

theorem locField (d : Dev) (l : Option GzLoc) : PortsSame d (locField d l).2 := by
  cases l <;> exact ⟨rfl, rfl⟩

theorem gzNote (d : Dev) (h t kind : Nat) (l : Option GzLoc) : PortsSame d (gzNote d h t kind l) :=
  (locField d l).trans (of_regsOnly (Dev.regsOnly_setWord _ (GZ_EVENT.word h).addr _))

theorem rehashReq (d : Dev) (t : Nat) : PortsSame d (rehashReq d t) := (gzNote ..).trans (event ..)

theorem countPlaced (d : Dev) (t : Nat) (x : GzPlaced) : PortsSame d (countPlaced d t x) := by
  unfold Machine.countPlaced
  split
  · exact bump ..
  · exact refl d

/-- Freeing places queues steps and closes windows. -/
theorem gzDelete (d : Dev) (t w kw : Nat) (l : List (GzLoc × Nat)) : PortsSame d (gzDelete d t w kw l).2 := by
  have closed := foldl (f := fun d (x : GzLoc × Nat) => closeWindow d t (gzKey w kw x.2)) (fun _ _ => ⟨rfl, rfl⟩) l d
  unfold Machine.gzDelete
  generalize l.foldl (fun d x => closeWindow d t (gzKey w kw x.2)) d = e at closed ⊢
  exact closed.trans (List.foldlRecOn (motive := fun (r : Nat × Dev) => PortsSame e r.2) (parts l) _ (refl e) fun _ k _ _ => k.trans (gzQueue ..))

theorem setAge (d : Dev) (l : GzLoc) (a : Nat) : PortsSame d (setAge d l a) := ⟨rfl, rfl⟩

theorem clearHits (d : Dev) (l : GzLoc) : PortsSame d (clearHits d l) := ⟨rfl, rfl⟩

theorem gzAge (d : Dev) (t : Nat) : PortsSame d (gzAge d t).2.2 := by
  unfold Machine.gzAge
  extract_lets tbl now plan key static all copies hit age limit live idle old aged d1 d2
  have first : PortsSame d d1 := foldl (fun d x => foldl (fun d l => (clearHits d l).trans (setAge ..)) (copies x) d) live d
  have second : PortsSame d1 d2 := foldl (fun d x => foldl (fun d l => setAge d l x.2) x.1 d) aged d1
  exact ((first.trans second).trans (gzDelete ..)).trans (addTo ..)

end PortsSame

/-! #### Plans (R314) -/

/-- A command as it is planned asks for what it asked for. -/
def SameAsk (c g : GzCmd) : Prop := g.half = c.half ∧ g.word = c.word ∧ g.image = c.image ∧ g.cursor = c.cursor

/-- A plan of a command: only its outcome is written into it, and the ports stay. -/
def Plans (d : Dev) (c : GzCmd) (r : GzCmd × Dev) : Prop := SameAsk c r.1 ∧ PortsSame d r.2

theorem SameAsk.refl (c : GzCmd) : SameAsk c c := ⟨rfl, rfl, rfl, rfl⟩

theorem planInsert_plans (d : Dev) (c : GzCmd) : Plans d c (planInsert d c) := by
  unfold planInsert
  extract_lets table t e img key ent p
  split
  · exact ⟨.refl c, .refl d⟩
  · split
    · split
      · exact ⟨⟨rfl, rfl, rfl, rfl⟩, (PortsSame.gzQueue ..).trans (.bump ..)⟩
      · exact ⟨⟨rfl, rfl, rfl, rfl⟩, .refl d⟩
    · split
      · exact ⟨⟨rfl, rfl, rfl, rfl⟩, (PortsSame.rehashReq ..).trans (.bump ..)⟩
      · exact ⟨⟨rfl, rfl, rfl, rfl⟩, ((PortsSame.countPlaced ..).trans (.gzQueue ..)).trans (.bump ..)⟩

theorem planDelete_plans (d : Dev) (c : GzCmd) : Plans d c (planDelete d c) := by
  unfold planDelete
  extract_lets table t key
  split
  · exact ⟨⟨rfl, rfl, rfl, rfl⟩, .refl d⟩
  · exact ⟨⟨rfl, rfl, rfl, rfl⟩, (PortsSame.gzDelete ..).trans (.bump ..)⟩

theorem planFlush_plans (d : Dev) (c : GzCmd) : Plans d c (planFlush d c) :=
  ⟨⟨rfl, rfl, rfl, rfl⟩, (PortsSame.gzDelete ..).trans (.addTo ..)⟩

theorem planAge_plans (d : Dev) (c : GzCmd) : Plans d c (planAge d c) := ⟨⟨rfl, rfl, rfl, rfl⟩, .gzAge ..⟩

theorem gzPlanCmd_plans (d : Dev) (c : GzCmd) : Plans d c (gzPlanCmd d c []) := by
  rw [gzPlanCmd]
  split
  · exact ⟨.refl c, .refl d⟩
  · have meets : gzMeets d c [] = d := rfl
    change Plans d { c with planned := true } _
    dsimp only
    rw [meets]
    split
    · exact planInsert_plans ..
    · exact planDelete_plans ..
    · exact planFlush_plans ..
    · exact planAge_plans ..

/-- The ring's command is `cur`, and port 2 holds a command that asks for what c does. -/
def RingAsks (cur : Option RingCmd) (c : GzCmd) (d : Dev) : Prop := d.hk.cur = cur ∧ ∃ g, d.gcmd 2 = some g ∧ SameAsk c g

theorem Dev.gcmd_setGcmd_same (d : Dev) (p : Nat) (c : Option GzCmd) : (d.setGcmd p c).gcmd p = c := SMap.get_put_same ..

theorem Dev.gcmd_setGcmd_other (d : Dev) {p q : Nat} (c : Option GzCmd) (h : q ≠ p) : (d.setGcmd p c).gcmd q = d.gcmd q :=
  SMap.get_put_other _ _ _ _ h

theorem RingAsks.planPort {cur : Option RingCmd} {c : GzCmd} {d : Dev} (h : RingAsks cur c d) (p : Nat) : RingAsks cur c (planPort d p) := by
  unfold Machine.planPort
  cases hp : d.gcmd p with
  | none => exact h
  | some x =>
    obtain ⟨hcur, g, hg, ask⟩ := h
    obtain ⟨⟨half, word, image, cursor⟩, same⟩ := gzPlanCmd_plans d x
    refine ⟨same.cur.trans hcur, ?_⟩
    change ∃ g, ((gzPlanCmd d x []).2.setGcmd p (some (gzPlanCmd d x []).1)).gcmd 2 = some g ∧ SameAsk c g
    by_cases h2 : p = 2
    · subst h2
      obtain rfl : x = g := Option.some.inj (hp.symm.trans hg)
      obtain ⟨ahalf, aword, aimage, acursor⟩ := ask
      exact ⟨_, Dev.gcmd_setGcmd_same .., half.trans ahalf, word.trans aword, image.trans aimage, cursor.trans acursor⟩
    · refine ⟨g, ?_, ask⟩
      rw [Dev.gcmd_setGcmd_other _ _ (Ne.symm h2), Dev.gcmd, same.cmds]
      exact hg

theorem RingAsks.planBefore {cur : Option RingCmd} {c : GzCmd} {d : Dev} (h : RingAsks cur c d) (e n : Nat) :
    RingAsks cur c (planBefore d e n) :=
  List.foldlRecOn _ _ h fun _ k _ _ => List.foldlRecOn _ _ k fun _ k x _ => k.planPort x.2

/-- A command that enters port 2 stands there, planned or not (R339). -/
theorem gzIssue_asks (d : Dev) (c : GzCmd) : RingAsks d.hk.cur c (gzIssue d 2 c) := by
  unfold gzIssue
  extract_lets n a d1 d2
  have entered : RingAsks d.hk.cur c d2 := ⟨rfl, _, Dev.gcmd_setGcmd_same d1 2 _, ⟨rfl, rfl, rfl, rfl⟩⟩
  split
  · exact entered
  · exact entered.planBefore ..

/-! #### The ring's GZ -/

section Gz

variable {s : State} (held : s.held = false) {c : RingCmd} (cur : ringCur s.dev 2 = some c) (serves : s.dev.serves 0 = true)

theorem exec_gz_idle (h : (ringCur s.dev 2).isSome = false ∨ s.dev.serves 0 = false) : exec .gz s = .next s := by
  show execGz s = _
  refine State.withDev_same ?_
  rcases h with h | h
  · rw [Option.isSome_eq_false_iff, Option.isNone_iff_eq_none] at h
    simp only [ringGz, h]
  · unfold ringGz
    cases ringCur s.dev 2 <;> simp [h]

section
include held cur

/-- A GZ command answered at once: RESULT, and a free location (R340). -/
theorem exec_gz_now {res : Nat} (h : ringGz s.dev = ringAnswer (locField s.dev none).2 res (BitVec.ofNat 32 (locField s.dev none).1) 0 0) :
    ∃ e r, exec .gz s = .next { s with dev := e } ∧ e.hk.cur = some { c with started := true, answer := some (res, r, 0, 0) }
      ∧ e.gaz = s.dev.gaz := by
  have under : (locField s.dev none).2.hk.cur = some c := (ringCur_some cur)
  have step : exec .gz s = .next { s with dev := ringGz s.dev } := State.withDev_live _ held
  rw [h, ringAnswer_eq under] at step
  exact ⟨_, _, step, rfl, rfl⟩

end

section
include cur serves

/-- The ring's GZ by its cases (R560). -/
theorem ringGz_some : ringGz s.dev =
    if (bit (s.dev.word WLD_GZ_TABLE.word.addr).toNat (gcTable c.word) && !secureBlock s.dev ⟨.hk, 0, 0, 0⟩) = true
        ∨ s.dev.flag (GZ_TBL_CFG.EN c.half (gcTable c.word)) = false then
      ringAnswer (locField s.dev none).2 gzBadTable (BitVec.ofNat 32 (locField s.dev none).1) 0 0
    else if gcOp c.word = 0 ∨ 6 < gcOp c.word then
      ringAnswer (locField s.dev none).2 gzBadOp (BitVec.ofNat 32 (locField s.dev none).1) 0 0
    else gzIssue { s.dev with hk := { s.dev.hk with cur := some { c with started := true } } } 2
      { half := c.half, word := c.word, image := c.image, cursor := c.cursor } := by
  unfold ringGz
  rw [cur]
  exact if_neg (by simp [serves])

end

include held cur serves

/-- An OP that is one, for an enabled table in the ring's reach, goes to the Gazetteer. -/
theorem exec_gz_issued (enabled : s.dev.flag (GZ_TBL_CFG.EN c.half (gcTable c.word)) = true)
    (world : secureBlock s.dev ⟨.hk, 0, 0, 0⟩ = true ∨ bit (s.dev.word WLD_GZ_TABLE.word.addr).toNat (gcTable c.word) = false)
    (lo : 0 < gcOp c.word) (hi : gcOp c.word ≤ 6) : ∃ e g, exec .gz s = .next { s with dev := e }
      ∧ e.hk.cur = some { c with started := true } ∧ e.gcmd 2 = some g ∧ g.half = c.half ∧ g.word = c.word
      ∧ g.image = c.image ∧ g.cursor = c.cursor := by
  have step : exec .gz s = .next { s with dev := ringGz s.dev } := State.withDev_live _ held
  rw [ringGz_some cur serves, if_neg (by rcases world with h | h <;> simp [h, enabled]), if_neg (by omega)] at step
  obtain ⟨hcur, g, hg, ask⟩ := gzIssue_asks { s.dev with hk := { s.dev.hk with cur := some { c with started := true } } }
    { half := c.half, word := c.word, image := c.image, cursor := c.cursor }
  exact ⟨_, g, step, hcur, hg, ask⟩

end Gz

/-! ### SCH (R459-R462, R560) -/

/-- Between d and e the HK's hidden state stays. -/
def HkSame (d e : Dev) : Prop := e.hk = d.hk

namespace HkSame

theorem refl (d : Dev) : HkSame d d := Eq.refl d.hk

theorem trans {d e f : Dev} (h : HkSame d e) (k : HkSame e f) : HkSame d f := Eq.trans k h

theorem put (d : Dev) (f : Fld) (v : Nat) : HkSame d (d.put f v) := Dev.put_hk ..

theorem event (d : Dev) (f : Fld) : HkSame d (d.event f) := Dev.event_hk ..

theorem ite {d : Dev} {c : Prop} [Decidable c] {x y : Nat × Nat × Dev} (h : HkSame d x.2.2) (k : HkSame d y.2.2) :
    HkSame d (if c then x else y).2.2 := by
  split
  · exact h
  · exact k

theorem promUpdate (d : Dev) (e : Nat) : HkSame d (promUpdate d e) := by
  unfold Machine.promUpdate
  extract_lets n d1 d2 d3
  have first : HkSame d d1 := put ..
  have second : HkSame d1 d2 := (put ..).trans (put ..)
  have third : HkSame d2 d3 := put ..
  exact ((first.trans second).trans third).trans (put ..)

theorem checkPort (d : Dev) (e : Nat) : HkSame d (checkPort d e) := by
  unfold Machine.checkPort
  extract_lets s n set ok
  split
  · exact put ..
  · split
    · exact refl d
    · exact ((put ..).trans (event ..)).trans (event ..)

theorem acceptCheck (d : Dev) (e : Nat) : HkSame d (acceptCheck d e) := by
  unfold Machine.acceptCheck
  split
  · exact checkPort ..
  · exact refl d

theorem noteCheck (d : Dev) (e deadline : Nat) (rs : List Resv) : HkSame d (noteCheck d e deadline rs) := by
  rw [HkSame, Machine.noteCheck, Dev.wput]

theorem withResv (d : Dev) (m : SMap (Option Resv)) (e : Nat) : HkSame d (Machine.promUpdate { d with resv := m } e) :=
  promUpdate { d with resv := m } e

theorem schAdd (d : Dev) (v : Nat) : HkSame d (schAdd d v).2.2 := by
  unfold Machine.schAdd
  extract_lets i e rho sigma deadline r set d1
  have checked : HkSame d d1 := noteCheck ..
  refine ite (refl d) (ite (refl d) (ite (refl d) (ite (refl d) (ite (refl d) (ite checked (ite checked ?_))))))
  cases freeEntry d1 (e / 32) with
  | none => exact checked
  | some k => exact (checked.trans (withResv d1 _ e)).trans (acceptCheck _ e)

theorem schRemove (d : Dev) (v : Nat) : HkSame d (schRemove d v).2.2 := by
  unfold Machine.schRemove
  extract_lets id
  cases d.resv.get none id with
  | none => exact refl d
  | some r => exact withResv d _ r.egress

theorem schSetPort (d : Dev) (v : Nat) : HkSame d (schSetPort d v).2.2 := by
  unfold Machine.schSetPort
  extract_lets e deadline share dq set s n apply d1
  have promised (d : Dev) : HkSame d (apply d) := ((put d (EQ_PROM.DEADLINE s n) deadline).trans (put _ (EQ_PROM.SHARE s n) share)).trans
    (put _ (EQ_PROM.DEMOTE_Q s n) dq)
  have checked : HkSame d d1 := noteCheck ..
  exact ite (refl d) (ite (refl d) (ite (ite (promised d) (refl d))
    (ite checked (ite checked ((checked.trans (promised d1)).trans (acceptCheck (apply d1) e))))))

/-- A promise command touches the reservations, not the ring's command. -/
theorem schBody (d : Dev) (op v : Nat) : HkSame d (schBody d op v).2.2 := by
  unfold Machine.schBody
  split
  · exact schAdd ..
  · exact schRemove ..
  · exact schSetPort ..
  · exact refl d

end HkSame

section Sch

variable {s : State} {c : RingCmd}

theorem exec_sch_idle (h : (ringCur s.dev 3).isSome = false) : exec .sch s = .next s := by
  show execSch s = _
  refine State.withDev_same ?_
  rw [Option.isSome_eq_false_iff, Option.isNone_iff_eq_none] at h
  simp only [ringSch, h]

theorem exec_sch_waits (cur : ringCur s.dev 3 = some c) (h : s.dev.flag SCH_CMD_STAT.BUSY = true
      ∨ s.dev.serves (schEngine (bits c.word.toNat 3 0) (c.image.toNat % 2 ^ 128)) = false) : exec .sch s = .next s := by
  show execSch s = _
  refine State.withDev_same ?_
  unfold ringSch
  rw [cur]
  exact if_pos h

/-- A refused promise command raises REFUSED (R459). -/
def Dev.schNoted (d : Dev) (res : Nat) : Dev := if res ≠ 0 then d.event SCH_STATUS.REFUSED else d

theorem Dev.schNoted_hk (d : Dev) (res : Nat) : (d.schNoted res).hk = d.hk ∧ (d.schNoted res).resv = d.resv := by
  unfold Dev.schNoted
  split
  · exact ⟨Dev.event_hk .., Dev.event_resv ..⟩
  · exact ⟨rfl, rfl⟩

theorem exec_sch (held : s.held = false) (cur : ringCur s.dev 3 = some c) (free : s.dev.flag SCH_CMD_STAT.BUSY = false)
    (serves : s.dev.serves (schEngine (bits c.word.toNat 3 0) (c.image.toNat % 2 ^ 128)) = true) {b : Nat × Nat × Dev}
    (hb : schBody s.dev (bits c.word.toNat 3 0) (c.image.toNat % 2 ^ 128) = b) :
    exec .sch s = .next { s with dev := ringAnswer (b.2.2.schNoted b.1) b.1 (BitVec.ofNat 32 b.2.1) 0 ((b.2.2.schNoted b.1).wget (wkey mbxSch 1)) } := by
  have step : exec .sch s = .next { s with dev := ringSch s.dev } := State.withDev_live _ held
  rw [step]
  unfold ringSch
  rw [cur]
  have ready : ¬(s.dev.flag SCH_CMD_STAT.BUSY = true ∨ s.dev.serves (schEngine (bits c.word.toNat 3 0) (c.image.toNat % 2 ^ 128)) = false) := by
    rintro (h | h)
    · rw [free] at h
      cases h
    · rw [serves] at h
      cases h
  dsimp only
  rw [if_neg ready, hb]
  rfl

/-- The ring's promise command is answered with its RESULT (R560). -/
theorem exec_sch_answer (held : s.held = false) (cur : ringCur s.dev 3 = some c) (free : s.dev.flag SCH_CMD_STAT.BUSY = false)
    (serves : s.dev.serves (schEngine (bits c.word.toNat 3 0) (c.image.toNat % 2 ^ 128)) = true) {b : Nat × Nat × Dev}
    (hb : schBody s.dev (bits c.word.toNat 3 0) (c.image.toNat % 2 ^ 128) = b) :
    ∃ e r, exec .sch s = .next { s with dev := e } ∧ e.resv = b.2.2.resv
      ∧ e.hk.cur = some { c with started := true, answer := some (b.1, BitVec.ofNat 32 b.2.1, 0, r) } := by
  obtain ⟨hk, resv⟩ := b.2.2.schNoted_hk b.1
  have body : HkSame s.dev b.2.2 := by
    rw [← hb]
    exact HkSame.schBody ..
  have under : (b.2.2.schNoted b.1).hk.cur = some c := by rw [hk, show b.2.2.hk = s.dev.hk from body, ringCur_some cur]
  have step := exec_sch held cur free serves hb
  rw [ringAnswer_eq under] at step
  exact ⟨_, _, step, resv, rfl⟩

end Sch

/-! ### The rings' registers (R559-R565) -/

/-- The registers that say how many entries the rings hold, and which of the response ring's are taken. -/
structure RingRegs (d e : Dev) : Prop where
  cfg : e.word HK_RING_CFG.word.addr = d.word HK_RING_CFG.word.addr
  prod : e.word HK_RSP_PROD.PROD.addr = d.word HK_RSP_PROD.PROD.addr
  world : e.word WLD_DEV.word.addr = d.word WLD_DEV.word.addr
  wide : e.wide = d.wide

theorem cmdSlots_pos (d : Dev) : 0 < cmdSlots d := Nat.two_pow_pos _
theorem cmdSlots_le (d : Dev) : cmdSlots d ≤ 2 ^ 12 := Nat.pow_le_pow_right (by decide) (by omega)
theorem rspSlots_pos (d : Dev) : 0 < rspSlots d := Nat.two_pow_pos _
theorem rspSlots_le (d : Dev) : rspSlots d ≤ 2 ^ 12 := Nat.pow_le_pow_right (by decide) (by omega)

theorem rspSlots_congr {d e : Dev} (h : RingRegs d e) : rspSlots e = rspSlots d := by
  rw [rspSlots, get_of_word (f := HK_RING_CFG.RSP_LOG2) h.cfg, rspSlots]

theorem hkPf_congr {d e : Dev} (h : RingRegs d e) : hkPf e = hkPf d := by rw [hkPf, h.world, hkPf]

/-- What the response ring's next entry is written as, and where. -/
def Dev.rspEntry (d : Dev) (b : List Byte) : Output :=
  .hostWrite (hkPf d) (BitVec.ofNat 64 (d.wget (wkey mbxHk (3 * 2 ^ 28 + 1)) + 128 * d.get HK_RSP_PROD.PROD)) (bytesAt b 0 128)

theorem rspEntry_congr {d e : Dev} (h : RingRegs d e) (b : List Byte) : e.rspEntry b = d.rspEntry b := by
  rw [Dev.rspEntry, hkPf_congr h, get_of_word h.prod, wget_of_wide h.wide, Dev.rspEntry]

/-- The response ring's entry is written; PROD moves on. -/
def Dev.rspAdvanced (d : Dev) (b : List Byte) : Dev :=
  (d.emit (d.rspEntry b)).put HK_RSP_PROD.PROD ((d.get HK_RSP_PROD.PROD + 1) % rspSlots d)

theorem writeResponse_eq (d : Dev) (b : List Byte) : writeResponse d b = (d.rspAdvanced b).event HK_RING_STATUS.RSP_WRITTEN := rfl

theorem writeResponse_regsOnly (d : Dev) (b : List Byte) :
    Dev.regsOnly [HK_RSP_PROD.word.addr, HK_RING_STATUS.word.addr] d (writeResponse d b) := by
  have adv : Dev.regsOnly [HK_RSP_PROD.word.addr] d (d.rspAdvanced b) :=
    Dev.regsOnly_trans (Dev.regsOnly_emit ..) (Dev.regsOnly_put _ HK_RSP_PROD.PROD _)
  rw [writeResponse_eq]
  exact adv.then (Dev.regsOnly_event _ HK_RING_STATUS.RSP_WRITTEN) (by simp) (by simp [HK_RING_STATUS.RSP_WRITTEN, HK_RING_STATUS.word])

theorem writeResponse_prod (d : Dev) (b : List Byte) :
    (writeResponse d b).get HK_RSP_PROD.PROD = (d.get HK_RSP_PROD.PROD + 1) % rspSlots d := by
  rw [writeResponse_eq, (Dev.regsOnly_event _ HK_RING_STATUS.RSP_WRITTEN).get_eq (by decide), Dev.rspAdvanced,
    Dev.get_put _ _ _ (by decide) (by decide)]
  exact Nat.mod_eq_of_lt (Nat.lt_of_lt_of_le (Nat.mod_lt _ (rspSlots_pos d)) (Nat.le_trans (rspSlots_le d) (by decide)))

theorem writeResponse_raised (d : Dev) (b : List Byte) : Dev.raised HK_RING_STATUS.RSP_WRITTEN d (writeResponse d b) := by
  have adv : Dev.regsOnly [HK_RSP_PROD.word.addr] d (d.rspAdvanced b) :=
    Dev.regsOnly_trans (Dev.regsOnly_emit ..) (Dev.regsOnly_put _ HK_RSP_PROD.PROD _)
  rw [writeResponse_eq]
  exact (Dev.raised_event _ HK_RING_STATUS.RSP_WRITTEN (by decide)).after (adv.get_eq (by decide))

theorem writeResponse_out (d : Dev) (b : List Byte) : d.rspEntry b ∈ (writeResponse d b).out := by
  have rest : Books (d.emit (d.rspEntry b)) (writeResponse d b) :=
    (Books.put (d.emit (d.rspEntry b)) HK_RSP_PROD.PROD _).trans (Books.event (d.rspAdvanced b) HK_RING_STATUS.RSP_WRITTEN)
  exact rest.out.subset (by simp [Dev.emit])

end Sys2Proof.Machine

namespace Sys2Proof.Machine

/-! ### COMMAND_FETCH (R559, R560, R562) -/

/-- R559 allows none of these entries. -/
theorem parseRing_bad (b : List Byte) : (parseRing b).2 = true ↔
    leField b 0 2 = 0 ∨ 4 < leField b 0 2 ∨ 2 ≤ leField b 4 1 ∨ leField b 5 3 ≠ 0 ∨ leField b 80 48 ≠ 0 := by
  simp only [parseRing, Bool.or_eq_true, decide_eq_true_eq, or_assoc]

/-- The command that a fetched entry is: a bad one is answered 0xFF at once (R560). -/
def ringEntry (entry : List Byte) : RingCmd :=
  if (parseRing entry).2 then { (parseRing entry).1 with answer := some (0xFF, 0, 0, 0) } else (parseRing entry).1

theorem ringEntry_fields (b : List Byte) : (ringEntry b).op = leField b 0 2 ∧ (ringEntry b).tag = leField b 2 2
    ∧ (ringEntry b).half = leField b 4 1 % 2 ∧ (ringEntry b).image = BitVec.ofNat 512 (leField b 16 64) := by
  unfold ringEntry
  split
  · exact ⟨rfl, rfl, rfl, rfl⟩
  · exact ⟨rfl, rfl, rfl, rfl⟩

theorem ringEntry_answer (b : List Byte) :
    (ringEntry b).answer = if (parseRing b).2 then some (0xFF, 0, 0, 0) else none := by
  unfold ringEntry
  split
  · rfl
  · rfl

/-- The read of the command ring's entry at CONS. -/
def Dev.cmdEntryRead (d : Dev) : Output :=
  .hostRead (hkPf d) (BitVec.ofNat 64 (d.wget (wkey mbxHk (3 * 2 ^ 28)) + 128 * (d.get HK_CMD_CONS.CONS % cmdSlots d))) 128

/-- The entry is read and CONS moves on. -/
def Dev.cmdPassed (d : Dev) : Dev :=
  (d.emit d.cmdEntryRead).put HK_CMD_CONS.CONS ((d.get HK_CMD_CONS.CONS + 1) % cmdSlots d)

/-- The fetched entry is the command under way. -/
def Dev.fetched (d : Dev) (entry : List Byte) : Dev :=
  { d.cmdPassed.bump HK_CNT_CMDS with hk := { d.hk with cur := some (ringEntry entry) } }

/-- COMMAND_FETCH took an entry between d and e. -/
structure Fetched (d : Dev) (entry : List Byte) (e : Dev) : Prop where
  cur : e.hk.cur = some (ringEntry entry)
  cons : e.get HK_CMD_CONS.CONS = (d.get HK_CMD_CONS.CONS + 1) % cmdSlots d
  read : d.cmdEntryRead ∈ e.out
  count : e.get HK_CNT_CMDS = (d.get HK_CNT_CMDS + 1) % 2 ^ 32
  frame : Dev.regsOnly [HK_CMD_CONS.word.addr, HK_CNT_CMDS.addr, HK_RING_STATUS.word.addr] { d with hk := e.hk } e

theorem Dev.regsOnly.withHk {l : List Nat} {d e : Dev} (h : Dev.regsOnly l d e) (x : Hk) :
    Dev.regsOnly l { d with hk := x } { e with hk := x } := by
  obtain ⟨⟨r, o, p, rfl⟩, words⟩ := h
  exact ⟨⟨r, o, p, rfl⟩, words⟩

theorem Dev.regsOnly_cmdPassed (d : Dev) : Dev.regsOnly [HK_CMD_CONS.word.addr] d d.cmdPassed :=
  Dev.regsOnly_trans (Dev.regsOnly_emit _ d d.cmdEntryRead) (Dev.regsOnly_put _ HK_CMD_CONS.CONS _)

theorem Dev.regsOnly_counted (d : Dev) :
    Dev.regsOnly [HK_CMD_CONS.word.addr, HK_CNT_CMDS.addr] d (d.cmdPassed.bump HK_CNT_CMDS) :=
  d.regsOnly_cmdPassed.then (Dev.regsOnly_bump d.cmdPassed HK_CNT_CMDS) (by decide) (by decide)

theorem Dev.cmdPassed_cons (d : Dev) :
    d.cmdPassed.get HK_CMD_CONS.CONS = (d.get HK_CMD_CONS.CONS + 1) % cmdSlots d := by
  rw [Dev.cmdPassed, Dev.get_put _ _ _ (by decide) (by decide)]
  exact Nat.mod_eq_of_lt (Nat.lt_of_lt_of_le (Nat.mod_lt _ (cmdSlots_pos d)) (Nat.le_trans (cmdSlots_le d) (by decide)))

theorem Dev.fetched_fetched (d : Dev) (entry : List Byte) : Fetched d entry (d.fetched entry) where
  cur := rfl
  cons := ((Dev.regsOnly_bump d.cmdPassed HK_CNT_CMDS).get_eq (by decide)).trans d.cmdPassed_cons
  read := by
    have held : d.cmdEntryRead ∈ d.cmdPassed.out := List.mem_append_right _ (List.mem_singleton_self _)
    exact held
  count := by
    have count := Dev.get_bump d.cmdPassed HK_CNT_CMDS (by decide) (by decide)
    rw [d.regsOnly_cmdPassed.get_eq (f := HK_CNT_CMDS) (by decide)] at count
    exact count
  frame := Dev.regsOnly_mono (l := [HK_CMD_CONS.word.addr, HK_CNT_CMDS.addr])
    (d.regsOnly_counted.withHk { d.hk with cur := some (ringEntry entry) }) (by decide)

theorem Fetched.event {d e : Dev} {entry : List Byte} (h : Fetched d entry e) :
    Fetched d entry (e.event HK_RING_STATUS.CMD_BAD) := by
  have only := Dev.regsOnly_event e HK_RING_STATUS.CMD_BAD
  have hk : (e.event HK_RING_STATUS.CMD_BAD).hk = e.hk := Dev.event_hk e HK_RING_STATUS.CMD_BAD
  refine ⟨?_, ?_, (Books.event e HK_RING_STATUS.CMD_BAD).out.subset h.read, ?_, ?_⟩
  · rw [hk, h.cur]
  · rw [only.get_eq (by decide), h.cons]
  · rw [only.get_eq (by decide), h.count]
  · rw [hk]
    exact Dev.regsOnly_trans h.frame (Dev.regsOnly_mono only (by decide))

/-- The response ring has no room: RSP_FULL. -/
theorem exec_rspFull {s : State} {i : Instr} (step : exec i s = .next { s with dev := s.dev.event HK_RING_STATUS.RSP_FULL }) :
    ∃ e, exec i s = .next { s with dev := e } ∧ Dev.raised HK_RING_STATUS.RSP_FULL s.dev e
      ∧ Dev.regsOnly [HK_RING_STATUS.word.addr] s.dev e :=
  ⟨_, step, Dev.raised_event s.dev HK_RING_STATUS.RSP_FULL (by decide), Dev.regsOnly_event s.dev HK_RING_STATUS.RSP_FULL⟩

section Fetch

variable {s : State} {entry : List Byte}

theorem exec_commandFetch_idle (h : ringServed s.dev = false ∨ s.dev.hk.cur.isSome = true
    ∨ s.dev.get HK_CMD_CONS.CONS % cmdSlots s.dev = s.dev.get HK_CMD_PROD.PROD % cmdSlots s.dev) :
    exec (.commandFetch entry) s = .next s := by
  show execCommandFetch entry s = _
  refine State.withDev_same (if_pos ?_)
  rwa [Bool.not_eq_true']

variable (held : s.held = false) (served : ringServed s.dev = true) (free : s.dev.hk.cur = none)
  (more : s.dev.get HK_CMD_CONS.CONS % cmdSlots s.dev ≠ s.dev.get HK_CMD_PROD.PROD % cmdSlots s.dev)
include held served free more

/-- COMMAND_FETCH where an entry is to be had. -/
theorem exec_commandFetch : exec (.commandFetch entry) s = .next { s with dev := (
    if rspFull s.dev then s.dev.event HK_RING_STATUS.RSP_FULL
    else if (parseRing entry).2 then (s.dev.fetched entry).event HK_RING_STATUS.CMD_BAD else s.dev.fetched entry) } := by
  have step : exec (.commandFetch entry) s = .next { s with dev := commandFetch s.dev entry } :=
    State.withDev_live (fun d => commandFetch d entry) held
  have go : ¬((!ringServed s.dev) = true ∨ s.dev.hk.cur.isSome = true
      ∨ s.dev.get HK_CMD_CONS.CONS % cmdSlots s.dev = s.dev.get HK_CMD_PROD.PROD % cmdSlots s.dev) := by
    rintro (h | h | h)
    · rw [served] at h
      cases h
    · rw [free] at h
      cases h
    · exact more h
  rw [step, commandFetch]
  dsimp only
  rw [if_neg go]
  rfl

theorem exec_commandFetch_full (full : rspFull s.dev = true) : ∃ e, exec (.commandFetch entry) s = .next { s with dev := e }
    ∧ Dev.raised HK_RING_STATUS.RSP_FULL s.dev e ∧ Dev.regsOnly [HK_RING_STATUS.word.addr] s.dev e := by
  have step := exec_commandFetch (entry := entry) held served free more
  rw [if_pos full] at step
  exact exec_rspFull step

/-- An entry as R559 says is taken with no event. -/
theorem exec_commandFetch_good (room : rspFull s.dev = false) (good : (parseRing entry).2 = false) :
    ∃ e, exec (.commandFetch entry) s = .next { s with dev := e } ∧ Fetched s.dev entry e
      ∧ e.get HK_RING_STATUS.SEQ = s.dev.get HK_RING_STATUS.SEQ := by
  have step := exec_commandFetch (entry := entry) held served free more
  rw [if_neg (Bool.eq_false_iff.mp room), if_neg (Bool.eq_false_iff.mp good)] at step
  exact ⟨_, step, s.dev.fetched_fetched entry, s.dev.regsOnly_counted.get_eq (f := HK_RING_STATUS.SEQ) (by decide)⟩

/-- Another raises CMD_BAD. -/
theorem exec_commandFetch_bad (room : rspFull s.dev = false) (bad : (parseRing entry).2 = true) :
    ∃ e, exec (.commandFetch entry) s = .next { s with dev := e } ∧ Fetched s.dev entry e
      ∧ Dev.raised HK_RING_STATUS.CMD_BAD s.dev e := by
  have step := exec_commandFetch (entry := entry) held served free more
  rw [if_neg (Bool.eq_false_iff.mp room), if_pos bad] at step
  have seq : (s.dev.fetched entry).get HK_RING_STATUS.SEQ = s.dev.get HK_RING_STATUS.SEQ :=
    s.dev.regsOnly_counted.get_eq (f := HK_RING_STATUS.SEQ) (by decide)
  exact ⟨_, step, (s.dev.fetched_fetched entry).event,
    (Dev.raised_event (s.dev.fetched entry) HK_RING_STATUS.CMD_BAD (by decide)).after seq⟩

end Fetch

/-! ### RESPONSE_WRITE (R561, R602) -/

theorem writeResponse_hidden (d : Dev) (b : List Byte) : (writeResponse d b).hk = d.hk ∧ (writeResponse d b).resv = d.resv := by
  obtain ⟨⟨_, _, _, h⟩, -⟩ := writeResponse_regsOnly d b
  rw [h]
  exact ⟨rfl, rfl⟩

/-- The command is done; a promise command's meter acts from here (R602). -/
def Dev.answered (d : Dev) (c : RingCmd) : Dev :=
  { d with hk := { d.hk with cur := none }, resv := if c.op = 3 then (metersAct d).resv else d.resv }

theorem Dev.ringRegs_answered (d : Dev) (c : RingCmd) : RingRegs d (d.answered c) := ⟨rfl, rfl, rfl, rfl⟩

theorem Dev.regsOnly.withHkResv {l : List Nat} {d e : Dev} {c : RingCmd} (h : Dev.regsOnly l (d.answered c) e)
    (hk : e.hk = (d.answered c).hk) (resv : e.resv = (d.answered c).resv) :
    Dev.regsOnly l { d with hk := e.hk, resv := e.resv } e := by
  rw [hk, resv]
  exact h

section Response

variable {s : State}

theorem exec_responseWrite_idle (h : s.dev.hk.cur = none ∨ ringServed s.dev = false) : exec .responseWrite s = .next s := by
  show execResponseWrite s = _
  refine State.withDev_same ?_
  unfold responseWrite
  cases cur : s.dev.hk.cur with
  | none => rfl
  | some c =>
    cases answer : c.answer with
    | none => simp only [answer]
    | some a =>
      have stopped : ringServed s.dev = false := h.resolve_left (by rw [cur]; exact Option.some_ne_none c)
      simp only [answer]
      exact if_pos (.inl (by rw [stopped]; rfl))

variable {c : RingCmd} (cur : s.dev.hk.cur = some c)
include cur

theorem exec_responseWrite_unanswered (answer : c.answer = none) : exec .responseWrite s = .next s := by
  show execResponseWrite s = _
  refine State.withDev_same ?_
  simp only [responseWrite, cur, answer]

variable {a : Nat × Word × Word × BitVec 512} (answer : c.answer = some a)
include answer

/-- RESPONSE_WRITE of an answered command by its cases. -/
theorem responseWrite_answered : responseWrite s.dev =
    if (!ringServed s.dev) = true ∨ (c.op = 3 ∧ belowFloor s.dev = true) then s.dev
    else if rspFull s.dev then s.dev.event HK_RING_STATUS.RSP_FULL
    else writeResponse (s.dev.answered c) (responseBytes c a) := by
  have done : { (if c.op = 3 then metersAct s.dev else s.dev) with
      hk := { (if c.op = 3 then metersAct s.dev else s.dev).hk with cur := none } } = s.dev.answered c := by
    unfold Dev.answered
    split
    · rfl
    · rfl
  unfold responseWrite
  rw [cur]
  dsimp only
  rw [answer]
  dsimp only
  rw [done]

/-- A promise command's answer waits for the point to reach the floor (R602). -/
theorem exec_responseWrite_waits (op : c.op = 3) (below : belowFloor s.dev = true) : exec .responseWrite s = .next s := by
  show execResponseWrite s = _
  refine State.withDev_same ?_
  rw [responseWrite_answered cur answer]
  exact if_pos (.inr ⟨op, below⟩)

variable (held : s.held = false) (served : ringServed s.dev = true) (ready : c.op ≠ 3 ∨ belowFloor s.dev = false)
include held served ready

theorem exec_responseWrite : exec .responseWrite s = .next { s with dev := (
    if rspFull s.dev then s.dev.event HK_RING_STATUS.RSP_FULL
    else writeResponse (s.dev.answered c) (responseBytes c a)) } := by
  have step : exec .responseWrite s = .next { s with dev := responseWrite s.dev } := State.withDev_live _ held
  have go : ¬((!ringServed s.dev) = true ∨ (c.op = 3 ∧ belowFloor s.dev = true)) := by
    rintro (h | ⟨op, below⟩)
    · rw [served] at h
      cases h
    · rcases ready with h | h
      · exact h op
      · rw [h] at below
        cases below
  rw [step, responseWrite_answered cur answer, if_neg go]

theorem exec_responseWrite_full (full : rspFull s.dev = true) : ∃ e, exec .responseWrite s = .next { s with dev := e }
    ∧ Dev.raised HK_RING_STATUS.RSP_FULL s.dev e ∧ Dev.regsOnly [HK_RING_STATUS.word.addr] s.dev e := by
  have step := exec_responseWrite cur answer held served ready
  rw [if_pos full] at step
  exact exec_rspFull step

theorem exec_responseWrite_written (room : rspFull s.dev = false) : ∃ e, exec .responseWrite s = .next { s with dev := e }
    ∧ e.hk.cur = none ∧ e.get HK_RSP_PROD.PROD = (s.dev.get HK_RSP_PROD.PROD + 1) % rspSlots s.dev
    ∧ Dev.raised HK_RING_STATUS.RSP_WRITTEN s.dev e ∧ s.dev.rspEntry (responseBytes c a) ∈ e.out
    ∧ Dev.regsOnly [HK_RSP_PROD.word.addr, HK_RING_STATUS.word.addr] { s.dev with hk := e.hk, resv := e.resv } e := by
  have step := exec_responseWrite cur answer held served ready
  rw [if_neg (Bool.eq_false_iff.mp room)] at step
  obtain ⟨hk, resv⟩ := writeResponse_hidden (s.dev.answered c) (responseBytes c a)
  have out := writeResponse_out (s.dev.answered c) (responseBytes c a)
  rw [rspEntry_congr (s.dev.ringRegs_answered c)] at out
  exact ⟨_, step, by rw [hk]; rfl, writeResponse_prod (s.dev.answered c) (responseBytes c a),
    writeResponse_raised (s.dev.answered c) (responseBytes c a), out,
    (writeResponse_regsOnly (s.dev.answered c) (responseBytes c a)).withHkResv hk resv⟩

end Response

/-! ### HOST_EVENT_POST (R564, R565) -/

/-- The oldest host event leaves those held. -/
def Dev.eventTaken (d : Dev) (rest : List HostEv) : Dev :=
  Dev.put { d with hk := { d.hk with events := rest } } HK_EVT_HELD.HELD rest.length

/-- It counts as posted. -/
def Dev.eventPosted (d : Dev) (rest : List HostEv) : Dev := (d.eventTaken rest).bump HK_CNT_EVENTS

theorem Dev.eventTaken_word_other (d : Dev) (rest : List HostEv) {a : Nat} (h : a ≠ HK_EVT_HELD.HELD.addr) :
    (d.eventTaken rest).word a = d.word a := Dev.word_put_other { d with hk := { d.hk with events := rest } } HK_EVT_HELD.HELD _ h

theorem Dev.eventPosted_word_other (d : Dev) (rest : List HostEv) {a : Nat} (h : a ≠ HK_EVT_HELD.HELD.addr)
    (h' : a ≠ HK_CNT_EVENTS.addr) : (d.eventPosted rest).word a = d.word a :=
  (Dev.word_put_other (d.eventTaken rest) HK_CNT_EVENTS _ h').trans (d.eventTaken_word_other rest h)

theorem Dev.ringRegs_eventPosted (d : Dev) (rest : List HostEv) : RingRegs d (d.eventPosted rest) :=
  ⟨d.eventPosted_word_other rest (by decide) (by decide), d.eventPosted_word_other rest (by decide) (by decide),
    d.eventPosted_word_other rest (by decide) (by decide), rfl⟩

theorem Dev.eventPosted_held (d : Dev) (rest : List HostEv) :
    (d.eventPosted rest).get HK_EVT_HELD.HELD = rest.length % 2 ^ 7 := by
  rw [Dev.eventPosted, (Dev.regsOnly_bump (d.eventTaken rest) HK_CNT_EVENTS).get_eq (by decide), Dev.eventTaken,
    Dev.get_put _ _ _ (by decide) (by decide)]
  rfl

theorem Dev.eventPosted_count (d : Dev) (rest : List HostEv) :
    (d.eventPosted rest).get HK_CNT_EVENTS = (d.get HK_CNT_EVENTS + 1) % 2 ^ 32 := by
  have count := Dev.get_bump (d.eventTaken rest) HK_CNT_EVENTS (by decide) (by decide)
  rw [get_of_word (f := HK_CNT_EVENTS) (d.eventTaken_word_other rest (by decide))] at count
  exact count

section HostEvents

variable {s : State}

theorem exec_hostEventPost_idle (h : s.dev.hk.events = [] ∨ ringServed s.dev = false) : exec .hostEventPost s = .next s := by
  show execHostEventPost s = _
  refine State.withDev_same ?_
  unfold hostEventPost
  cases events : s.dev.hk.events with
  | nil => rfl
  | cons x rest =>
    have stopped : ringServed s.dev = false := h.resolve_left (by rw [events]; exact List.cons_ne_nil x rest)
    exact if_pos (by rw [stopped]; rfl)

variable {x : HostEv} {rest : List HostEv} (held : s.held = false) (events : s.dev.hk.events = x :: rest)
  (served : ringServed s.dev = true)
include held events served

theorem exec_hostEventPost : exec .hostEventPost s = .next { s with dev := (
    if rspFull s.dev then s.dev.event HK_RING_STATUS.RSP_FULL
    else writeResponse (s.dev.eventPosted rest) (eventBytes s.grid x)) } := by
  have step : exec .hostEventPost s = .next { s with dev := hostEventPost s.grid s.dev } :=
    State.withDev_live (hostEventPost s.grid) held
  rw [step, hostEventPost, events]
  dsimp only
  rw [served, if_neg (by decide)]
  rfl

theorem exec_hostEventPost_full (full : rspFull s.dev = true) : ∃ e, exec .hostEventPost s = .next { s with dev := e }
    ∧ Dev.raised HK_RING_STATUS.RSP_FULL s.dev e ∧ Dev.regsOnly [HK_RING_STATUS.word.addr] s.dev e := by
  have step := exec_hostEventPost held events served
  rw [if_pos full] at step
  exact exec_rspFull step

theorem exec_hostEventPost_posted (room : rspFull s.dev = false) : ∃ e, exec .hostEventPost s = .next { s with dev := e }
    ∧ e.hk.events = rest ∧ e.get HK_EVT_HELD.HELD = rest.length % 2 ^ 7
    ∧ e.get HK_CNT_EVENTS = (s.dev.get HK_CNT_EVENTS + 1) % 2 ^ 32
    ∧ e.get HK_RSP_PROD.PROD = (s.dev.get HK_RSP_PROD.PROD + 1) % rspSlots s.dev
    ∧ Dev.raised HK_RING_STATUS.RSP_WRITTEN s.dev e ∧ s.dev.rspEntry (eventBytes s.grid x) ∈ e.out := by
  have step := exec_hostEventPost held events served
  rw [if_neg (Bool.eq_false_iff.mp room)] at step
  have regs := s.dev.ringRegs_eventPosted rest
  have only := writeResponse_regsOnly (s.dev.eventPosted rest) (eventBytes s.grid x)
  have prod := writeResponse_prod (s.dev.eventPosted rest) (eventBytes s.grid x)
  rw [get_of_word regs.prod, rspSlots_congr regs] at prod
  have seq : (s.dev.eventPosted rest).get HK_RING_STATUS.SEQ = s.dev.get HK_RING_STATUS.SEQ :=
    get_of_word (s.dev.eventPosted_word_other rest (by decide) (by decide))
  have out := writeResponse_out (s.dev.eventPosted rest) (eventBytes s.grid x)
  rw [rspEntry_congr regs] at out
  exact ⟨_, step, by rw [(writeResponse_hidden (s.dev.eventPosted rest) (eventBytes s.grid x)).1]; rfl,
    (only.get_eq (by decide)).trans (s.dev.eventPosted_held rest),
    (only.get_eq (by decide)).trans (s.dev.eventPosted_count rest), prod,
    (writeResponse_raised (s.dev.eventPosted rest) (eventBytes s.grid x)).after seq, out⟩

end HostEvents

end Sys2Proof.Machine

namespace Sys2Proof.Machine

/-! ### O58 -/

/-- COMMAND_FETCH with room for a response, as the statement of the rings puts it. -/
theorem exec_commandFetch_taken {s : State} {entry : List Byte} (held : s.held = false) (served : ringServed s.dev = true)
    (free : s.dev.hk.cur = none)
    (more : s.dev.get HK_CMD_CONS.CONS % cmdSlots s.dev ≠ s.dev.get HK_CMD_PROD.PROD % cmdSlots s.dev)
    (room : rspFull s.dev = false) : ∃ e c, exec (.commandFetch entry) s = .next { s with dev := e } ∧ e.hk.cur = some c
      ∧ e.get HK_CMD_CONS.CONS = (s.dev.get HK_CMD_CONS.CONS + 1) % cmdSlots s.dev
      ∧ s.dev.cmdEntryRead ∈ e.out
      ∧ e.get HK_CNT_CMDS = (s.dev.get HK_CNT_CMDS + 1) % 2 ^ 32
      ∧ c.op = leField entry 0 2 ∧ c.tag = leField entry 2 2 ∧ c.image.toNat = leField entry 16 64 % 2 ^ 512
      ∧ (1 ≤ leField entry 0 2 → leField entry 0 2 ≤ 4 → leField entry 4 1 < 2 → leField entry 5 3 = 0 →
          leField entry 80 48 = 0 → c.answer = none ∧ c.half = leField entry 4 1 ∧ e.get HK_RING_STATUS.SEQ = s.dev.get HK_RING_STATUS.SEQ)
      ∧ ((leField entry 0 2 = 0 ∨ 4 < leField entry 0 2 ∨ 2 ≤ leField entry 4 1 ∨ leField entry 5 3 ≠ 0
          ∨ leField entry 80 48 ≠ 0) → (c.answer.map fun a => a.1) = some 0xFF ∧ Dev.raised HK_RING_STATUS.CMD_BAD s.dev e)
      ∧ Dev.regsOnly [HK_CMD_CONS.word.addr, HK_CNT_CMDS.addr, HK_RING_STATUS.word.addr] { s.dev with hk := e.hk } e := by
  obtain ⟨op, tag, half, image⟩ := ringEntry_fields entry
  have answer := ringEntry_answer entry
  have badIff := parseRing_bad entry
  rcases Bool.eq_false_or_eq_true (parseRing entry).2 with bad | good
  · obtain ⟨e, step, taken, raised⟩ := exec_commandFetch_bad held served free more room bad
    rw [if_pos bad] at answer
    have notGood (lo : 1 ≤ leField entry 0 2) (hi : leField entry 0 2 ≤ 4) (half : leField entry 4 1 < 2)
        (mid : leField entry 5 3 = 0) (tail : leField entry 80 48 = 0) : False := by
      have isBad := badIff.mp bad
      omega
    exact ⟨e, ringEntry entry, step, taken.cur, taken.cons, taken.read, taken.count, op, tag,
      by simp only [image, BitVec.toNat_ofNat],
      fun lo hi half mid tail => (notGood lo hi half mid tail).elim, fun _ => ⟨by rw [answer]; rfl, raised⟩, taken.frame⟩
  · obtain ⟨e, step, taken, seq⟩ := exec_commandFetch_good held served free more room good
    rw [if_neg (Bool.eq_false_iff.mp good)] at answer
    have notBad := fun h => Bool.eq_false_iff.mp good (badIff.mpr h)
    exact ⟨e, ringEntry entry, step, taken.cur, taken.cons, taken.read, taken.count, op, tag,
      by simp only [image, BitVec.toNat_ofNat],
      fun _ _ lt _ _ => ⟨answer, half.trans (Nat.mod_eq_of_lt lt), seq⟩, fun h => absurd h notBad, taken.frame⟩

/-- NOP and FENCE, as the statement of the rings puts them. -/
theorem exec_nop_or_fence {s : State} (held : s.held = false) {c : RingCmd} {cmd : Instr}
    (cur : ringCur s.dev (if cmd = .nop then 1 else 4) = some c)
    (which : cmd = .nop ∨ (cmd = .fence ∧ s.dev.gaz.portTarget.get 0 2 ≤ s.grid.epoch)) (serves : s.dev.serves 0 = true) :
    exec cmd s = .next { s with dev := { s.dev with hk := { s.dev.hk with cur := (
      some { c with started := true, answer := some (0, 0, 0, 0) }) } } } := by
  rcases which with rfl | ⟨rfl, reached⟩
  · rw [if_pos rfl] at cur
    rw [exec_nop held cur serves, ringAnswer_eq (ringCur_some cur)]
    rfl
  · rw [if_neg (by decide)] at cur
    rw [exec_fence held cur serves reached, ringAnswer_eq (ringCur_some cur)]
    rfl

section Gz

variable {s : State} (held : s.held = false) {c : RingCmd} (cur : ringCur s.dev 2 = some c) (serves : s.dev.serves 0 = true)
include held cur serves

/-- A table that is disabled, or a secret one to a ring of the open world, is BAD_TABLE, before BAD_OP. -/
theorem exec_gz_badTable (h : (bit (s.dev.word WLD_GZ_TABLE.word.addr).toNat (gcTable c.word) && !secureBlock s.dev ⟨.hk, 0, 0, 0⟩) = true
      ∨ s.dev.flag (GZ_TBL_CFG.EN c.half (gcTable c.word)) = false) : ∃ e r, exec .gz s = .next { s with dev := e }
    ∧ e.hk.cur = some { c with started := true, answer := some (gzBadTable, r, 0, 0) } ∧ e.gaz = s.dev.gaz :=
  exec_gz_now held cur ((ringGz_some cur serves).trans (if_pos h))

theorem exec_gz_badOp (enabled : s.dev.flag (GZ_TBL_CFG.EN c.half (gcTable c.word)) = true)
    (world : secureBlock s.dev ⟨.hk, 0, 0, 0⟩ = true ∨ bit (s.dev.word WLD_GZ_TABLE.word.addr).toNat (gcTable c.word) = false)
    (op : gcOp c.word = 0 ∨ 6 < gcOp c.word) : ∃ e r, exec .gz s = .next { s with dev := e }
    ∧ e.hk.cur = some { c with started := true, answer := some (gzBadOp, r, 0, 0) } ∧ e.gaz = s.dev.gaz := by
  refine exec_gz_now held cur ?_
  rw [ringGz_some cur serves, if_neg (by rcases world with h | h <;> simp [h, enabled]), if_pos op]

end Gz

/-- Settles O58: each command of the host rings by its cases. That a ring is full with one entry free, and BAD_TABLE before
BAD_OP (log entry 37), are the model's reading. -/
theorem hostCommandRing : Obligations.HostCommandRing := by
  unfold Obligations.HostCommandRing
  intro s held
  refine ⟨fun entry => ⟨exec_commandFetch_idle, fun served free more =>
      ⟨exec_commandFetch_full held served free more, exec_commandFetch_taken held served free more⟩⟩,
    exec_nop_idle, exec_fence_idle, fun c cmd => exec_nop_or_fence held, exec_gz_idle, fun c cur serves => ⟨?_, ?_, ?_⟩,
    exec_sch_idle, fun c cur => ⟨exec_sch_waits cur, fun free serves => exec_sch_answer held cur free serves rfl⟩,
    exec_responseWrite_idle, fun c => exec_responseWrite_unanswered, fun c a cur answer served => ⟨?_, ?_, ?_⟩,
    exec_hostEventPost_idle, fun x rest events served =>
      ⟨exec_hostEventPost_full held events served, exec_hostEventPost_posted held events served⟩⟩
  · exact fun disabled => exec_gz_badTable held cur serves (.inr disabled)
  · exact fun secret opened => exec_gz_badTable held cur serves (.inl (by rw [secret, opened]; rfl))
  · exact fun enabled world => ⟨exec_gz_badOp held cur serves enabled world, exec_gz_issued held cur serves enabled world⟩
  · exact exec_responseWrite_waits cur answer
  · exact exec_responseWrite_full cur answer held served
  · exact exec_responseWrite_written cur answer held served

end Sys2Proof.Machine

namespace Sys2Proof.Machine

/-! ### What happens to the banks (R132, R144-R147, R151)

`BankStep b c`: the one change of the banks that a rule of chapter 04 names. Every command's part in the banks is a run of such
changes, so that an invariant of the banks is one that each of them keeps. -/

/-- What the invariant of the banks speaks of: their states, their sequence numbers, the bank in force. -/
def Banks.shape (b : Banks) : (Bool → BankState) × (Bool → BitVec 16) × Bool := (b.st, b.seq, b.activeB)

/-- One change of the banks. -/
inductive BankStep (b : Banks) : Banks → Prop
  /-- Counts, targets and the reason of a refusal are written (R146, R151, R153). -/
  | noted {c : Banks} (h : c.shape = b.shape) : BankStep b c
  /-- A FREE bank is sealed (R145). -/
  | sealed {w : Bool} {q : BitVec 16} (h : b.st w = .free) (hq : q ≠ 0) : BankStep b ((b.setSt w .sealed).setSeq w q)
  /-- The swap of a SEALED bank is armed (R145). -/
  | armed {w : Bool} (t : BitVec 64) (h : b.st w = .sealed) : BankStep b (b.arm w t)
  /-- A SEALED bank is unsealed, or a DRAINING one has drained (R145). -/
  | freed {w : Bool} (h : b.st w = .sealed ∨ b.st w = .draining) : BankStep b ((b.setSt w .free).setSeq w 0)
  /-- An ARMED bank becomes active at its tick (R145). -/
  | swapped {w : Bool} (epoch : BitVec 64) (d : Dev) (h : b.st w = .armed) : BankStep b (bankActive epoch w (b, d)).1
  /-- Both banks are FREE: a reset, or a load that failed (R132, R153). -/
  | emptied {c : Banks} (h : c.shape = Banks.shape {}) : BankStep b c
  /-- An image is loaded: bank A is active (R126). -/
  | loaded : BankStep b (bankAActive b)

/-! #### The invariant, bank by bank -/

/-- The invariant says the same of both banks. -/
theorem Banks.legal_iff (b : Banks) : b.legal ↔ ∀ w, (b.st w = .active → b.st (!w) ≠ .active ∧ b.activeB = w)
    ∧ (b.st w = .draining → b.st (!w) = .active) ∧ (b.st w = .free ↔ b.seq w = 0) := by
  rw [Bool.forall_bool]
  simp only [Banks.legal, Banks.st, Banks.seq, Bool.not_false, Bool.not_true, Bool.false_eq_true, if_true, if_false]
  tauto

theorem Banks.legal_congr {b c : Banks} (h : c.shape = b.shape) : c.legal ↔ b.legal := by
  obtain ⟨st, seq, active⟩ : c.st = b.st ∧ c.seq = b.seq ∧ c.activeB = b.activeB := by simpa [Banks.shape] using h
  rw [Banks.legal_iff, Banks.legal_iff, st, seq, active]

section
variable (b : Banks) (w : Bool) (x : BankState) (q : BitVec 16) (t : BitVec 64)

@[simp] theorem Banks.st_change : ((b.setSt w x).setSeq w q).st w = x := by cases w <;> rfl
@[simp] theorem Banks.st_change_other : ((b.setSt w x).setSeq w q).st (!w) = b.st (!w) := by cases w <;> rfl
@[simp] theorem Banks.seq_change : ((b.setSt w x).setSeq w q).seq w = q := by cases w <;> rfl
@[simp] theorem Banks.seq_change_other : ((b.setSt w x).setSeq w q).seq (!w) = b.seq (!w) := by cases w <;> rfl
@[simp] theorem Banks.activeB_change : ((b.setSt w x).setSeq w q).activeB = b.activeB := by cases w <;> rfl
@[simp] theorem Banks.st_arm : (b.arm w t).st w = .armed := by cases w <;> rfl
@[simp] theorem Banks.st_arm_other : (b.arm w t).st (!w) = b.st (!w) := by cases w <;> rfl
@[simp] theorem Banks.seq_arm (v : Bool) : (b.arm w t).seq v = b.seq v := by cases w <;> cases v <;> rfl
@[simp] theorem Banks.activeB_arm : (b.arm w t).activeB = b.activeB := by cases w <;> rfl

theorem bankActive_seq (epoch : BitVec 64) (y : Banks × Dev) (v : Bool) : (bankActive epoch w y).1.seq v = y.1.seq v := by
  unfold bankActive
  split
  · cases w <;> rfl
  · cases w <;> rfl

end

/-- Settles O16: after reset both banks are FREE and have no sequence number. -/
theorem resetBanksLegal : Obligations.ResetBanksLegal := by
  simp [Obligations.ResetBanksLegal, Banks.legal, State.reset]

/-- The invariant after a change of bank w alone, that did not become active. -/
theorem Banks.legal.of_change {b c : Banks} {w : Bool} (h : b.legal) (idle : b.st w ≠ .active) (idle' : c.st w ≠ .active)
    (drain : c.st w ≠ .draining) (free : c.st w = .free ↔ c.seq w = 0) (st : c.st (!w) = b.st (!w))
    (seq : c.seq (!w) = b.seq (!w)) (active : c.activeB = b.activeB) : c.legal := by
  rw [Banks.legal_iff] at h ⊢
  obtain ⟨hActive, hDrain, hFree⟩ := h (!w)
  rw [Bool.not_not] at hActive hDrain
  intro v
  by_cases hv : v = w
  · subst hv
    exact ⟨fun k => absurd k idle', fun k => absurd k drain, free⟩
  · obtain rfl := Bool.eq_not.mpr hv
    rw [st, seq, active, Bool.not_not]
    exact ⟨fun k => ⟨idle', (hActive k).2⟩, fun k => absurd (hDrain k) idle, hFree⟩

/-- The invariant after a swap: the bank that was active drains for the new one. -/
theorem bankActive_legal {b : Banks} {w : Bool} (epoch : BitVec 64) (d : Dev) (h : b.legal) (armed : b.st w = .armed) :
    (bankActive epoch w (b, d)).1.legal := by
  obtain ⟨new, force, old⟩ := bankActive_st epoch w (b, d)
  rw [Banks.legal_iff] at h ⊢
  obtain ⟨-, -, hFree⟩ := h w
  obtain ⟨hActive, hDrain, hFree'⟩ := h (!w)
  rw [Bool.not_not, armed] at hActive hDrain
  intro v
  by_cases hv : v = w
  · subst hv
    rw [new, force, old, bankActive_seq]
    refine ⟨fun _ => ⟨?_, rfl⟩, by simp, by simpa [armed] using hFree⟩
    split
    · decide
    · assumption
  · obtain rfl := Bool.eq_not.mpr hv
    rw [old, force, bankActive_seq, Bool.not_not, new, ← hFree']
    split
    · next k => simp [k]
    · next k => exact ⟨fun k' => absurd k' k, fun _ => rfl, Iff.rfl⟩

/-- Each change keeps the banks legal. -/
theorem BankStep.legal {b c : Banks} (h : BankStep b c) (legal : b.legal) : c.legal := by
  cases h with
  | noted h => exact (Banks.legal_congr h).mpr legal
  | @sealed w q h hq =>
    exact legal.of_change (w := w) (by simp [h]) (by simp) (by simp) (by simpa using hq) (by simp) (by simp) (by simp)
  | @armed w t h =>
    have free : b.st w = .free ↔ b.seq w = 0 := ((Banks.legal_iff b).mp legal w).2.2
    exact legal.of_change (w := w) (by simp [h]) (by simp) (by simp) (by simpa [h] using free) (by simp) (by simp) (by simp)
  | @freed w h =>
    have idle : b.st w ≠ .active := by rcases h with h | h <;> simp [h]
    exact legal.of_change (w := w) idle (by simp) (by simp) (by simp) (by simp) (by simp) (by simp)
  | swapped epoch d h => exact bankActive_legal epoch d legal h
  | emptied h => exact (Banks.legal_congr h).mpr resetBanksLegal
  | loaded => simp [Banks.legal, bankAActive, failedBanks]

/-- And so does every run of such changes. -/
theorem Banks.legal.steps {b c : Banks} (legal : b.legal) (h : Relation.ReflTransGen BankStep b c) : c.legal := by
  induction h with
  | refl => exact legal
  | tail _ step ih => exact step.legal ih

/-! #### The bank commands (R145, R146) -/

section
variable {b : Banks} {d : Dev} {w : Bool}

theorem bankSeal_taken {q : BitVec 16} (free : b.st w = .free) (hq : q ≠ 0) (new : q ≠ b.activeSeq) :
    bankSeal w q b d = ((b.setSt w .sealed).setSeq w q, d) :=
  (if_neg (not_not.mpr free)).trans (if_neg (not_or.mpr ⟨hq, new⟩))

theorem bankSeal_busy {q : BitVec 16} (h : b.st w ≠ .free) : bankSeal w q b d = bankReject 1 b d := if_pos h

theorem bankSeal_badSeq {q : BitVec 16} (free : b.st w = .free) (h : q = 0 ∨ q = b.activeSeq) :
    bankSeal w q b d = bankReject 2 b d := (if_neg (not_not.mpr free)).trans (if_pos h)

/-- The SEALED bank that SWAP and UNSEAL take, and the device after the choice: with both SEALED a free one (log entry 68). -/
def sealedBank (b : Banks) (d : Dev) : Bool × Dev :=
  let r := if b.a = .sealed ∧ b.b = .sealed then d.fresh else (if b.b = .sealed then 1 else 0, d)
  (r.1.getLsbD 0, r.2)

theorem bankArm_taken {g : Grid} (h : ¬ (b.a ≠ .sealed ∧ b.b ≠ .sealed)) :
    bankArm g b d = (b.arm (sealedBank b d).1 (g.epoch + 2), (sealedBank b d).2) := if_neg h

theorem bankArm_none {g : Grid} (h : b.a ≠ .sealed ∧ b.b ≠ .sealed) : bankArm g b d = bankReject 3 b d := if_pos h

theorem bankUnseal_taken (h : ¬ (b.a ≠ .sealed ∧ b.b ≠ .sealed)) :
    bankUnseal b d = ((b.setSt (sealedBank b d).1 .free).setSeq (sealedBank b d).1 0, (sealedBank b d).2) := if_neg h

theorem bankUnseal_none (h : b.a ≠ .sealed ∧ b.b ≠ .sealed) : bankUnseal b d = bankReject 4 b d := if_pos h

theorem sealedBank_one (h : b.st w = .sealed) (other : b.st (!w) ≠ .sealed) : sealedBank b d = (w, d) := by
  cases w
  · have a : b.a = .sealed := h
    have b' : b.b ≠ .sealed := other
    simp [sealedBank, b']
  · have b' : b.b = .sealed := h
    have a : b.a ≠ .sealed := other
    simp [sealedBank, a, b']

/-- The bank taken is SEALED. -/
theorem sealedBank_sealed (h : ¬ (b.a ≠ .sealed ∧ b.b ≠ .sealed)) : b.st (sealedBank b d).1 = .sealed := by
  by_cases a : b.st false = .sealed
  · by_cases b' : b.st true = .sealed
    · cases (sealedBank b d).1
      · exact a
      · exact b'
    · rw [sealedBank_one a b']; exact a
  · have b' : b.st true = .sealed := by
      by_contra b'; exact h ⟨a, b'⟩
    rw [sealedBank_one b' a]; exact b'

theorem bankReject_step (why : Nat) : BankStep b (bankReject why b d).1 := .noted rfl

theorem bankSeal_step (q : BitVec 16) : BankStep b (bankSeal w q b d).1 := by
  by_cases free : b.st w = .free
  · by_cases bad : q = 0 ∨ q = b.activeSeq
    · rw [bankSeal_badSeq free bad]; exact bankReject_step 2
    · rw [bankSeal_taken free (not_or.mp bad).1 (not_or.mp bad).2]; exact .sealed free (not_or.mp bad).1
  · rw [bankSeal_busy free]; exact bankReject_step 1

theorem bankArm_step (g : Grid) : BankStep b (bankArm g b d).1 := by
  by_cases none : b.a ≠ .sealed ∧ b.b ≠ .sealed
  · rw [bankArm_none none]; exact bankReject_step 3
  · rw [bankArm_taken none]; exact .armed _ (sealedBank_sealed none)

theorem bankUnseal_step : BankStep b (bankUnseal b d).1 := by
  by_cases none : b.a ≠ .sealed ∧ b.b ≠ .sealed
  · rw [bankUnseal_none none]; exact bankReject_step 4
  · rw [bankUnseal_taken none]; exact .freed (.inl (sealedBank_sealed none))

theorem bankCmdWrite_step (v : Word) (g : Grid) : BankStep b (bankCmdWrite v g b d).1 := by
  unfold bankCmdWrite
  split
  · exact bankReject_step 5
  · exact bankUnseal_step
  · exact bankArm_step g
  · exact .noted rfl

/-! #### The drain and the swaps at a tick (R145, R151) -/

theorem Banks.draining_some (h : b.draining = some w) : b.st w = .draining := by
  unfold Banks.draining at h
  split at h
  · next a => cases h; exact a
  · split at h
    · next a => cases h; exact a
    · cases h

theorem drainEnd_done (h : b.draining = some w) (ready : b.drainReady = true) :
    drainEnd b = { (b.setSt w .free).setSeq w 0 with drainReady := false } := by simp [drainEnd, h, ready]

theorem drainEnd_same (h : b.draining = none ∨ b.drainReady = false) : drainEnd b = b := by
  rcases h with h | h
  · simp [drainEnd, h]
  · unfold drainEnd; split
    · rw [h]; rfl
    · rfl

theorem drainExpire_same {g : Grid} (h : b.draining = none ∨ d.get BOOT_BANK_CTL.DRAIN_LIMIT = 0
    ∨ b.drainFrames < d.get BOOT_BANK_CTL.DRAIN_LIMIT ∨ (d.serves 0 = false ∧ d.serves 1 = false)) :
    drainExpire g b d = (b, d) := by
  cases hb : b.draining with
  | none => simp [drainExpire, hb]
  | some w =>
    have idle := h.resolve_left (by simp [hb])
    have test : d.get BOOT_BANK_CTL.DRAIN_LIMIT = 0 ∨ b.drainFrames < d.get BOOT_BANK_CTL.DRAIN_LIMIT
        ∨ (!(d.serves 0 || d.serves 1)) = true := by simpa using idle
    simp only [drainExpire, hb]
    exact if_pos test

/-- The packets of a bank that drains, in every queue. -/
def expirePackets (g : Grid) (d : Dev) (w : Bool) : Nat × Dev :=
  retireAll g d drBankRetired (fun p => p.stamped && decide (p.bankB = w)) fun q => { q with markBank := some w }

theorem drainExpire_done {g : Grid} (h : b.draining = some w) (limit : d.get BOOT_BANK_CTL.DRAIN_LIMIT ≠ 0)
    (reached : d.get BOOT_BANK_CTL.DRAIN_LIMIT ≤ b.drainFrames) (serves : d.serves 0 = true ∨ d.serves 1 = true) :
    drainExpire g b d = ({ b with expired := b.expired + BitVec.ofNat 32 (expirePackets g d w).1, drainFrames := 0 },
      (expirePackets g d w).2.event BOOT_STATUS.DRAIN_EXPIRED) := by
  have test : ¬ (d.get BOOT_BANK_CTL.DRAIN_LIMIT = 0 ∨ b.drainFrames < d.get BOOT_BANK_CTL.DRAIN_LIMIT
      ∨ (!(d.serves 0 || d.serves 1)) = true) := by
    rw [not_or, not_or, Nat.not_lt]
    exact ⟨limit, reached, by rcases serves with h | h <;> simp [h]⟩
  simp only [drainExpire, h]
  exact if_neg test

theorem drainExpire_step (g : Grid) : BankStep b (drainExpire g b d).1 := by
  unfold drainExpire
  dsimp only
  split
  · split
    · exact .noted rfl
    · exact .noted rfl
  · exact .noted rfl

theorem drainEnd_steps : Relation.ReflTransGen BankStep b (drainEnd b) := by
  cases hb : b.draining with
  | none => rw [drainEnd_same (.inl hb)]
  | some w =>
    cases ready : b.drainReady with
    | false => rw [drainEnd_same (.inr ready)]
    | true =>
      rw [drainEnd_done hb ready]
      have freed : BankStep b ((b.setSt w .free).setSeq w 0) := .freed (.inr (Banks.draining_some hb))
      exact (Relation.ReflTransGen.single freed).tail (.noted rfl)

end

/-- A swap of one bank leaves the other's state but from ACTIVE. -/
theorem swapOne_armed {jump : Bool} {epoch : BitVec 64} {b : Banks} {d : Dev} {w : Bool} (h : b.st (!w) = .armed) :
    (swapOne jump epoch b w (b, d)).1.st (!w) = .armed := by
  unfold swapOne
  split
  · rw [(bankActive_st ..).2.2, if_neg (by simp [h])]; exact h
  · exact h

theorem swapOne_step (jump : Bool) (epoch : BitVec 64) {b : Banks} {w : Bool} (x : Banks × Dev)
    (h : b.st w = .armed → x.1.st w = .armed) : BankStep x.1 (swapOne jump epoch b w x).1 := by
  unfold swapOne
  split
  · next due =>
    have armed : b.st w = .armed := by
      unfold Banks.swapDue at due
      simpa using (Bool.and_eq_true_iff.mp due).1
    exact .swapped epoch x.2 (h armed)
  · exact .noted rfl

theorem bankSwap_steps (jump : Bool) (epoch : BitVec 64) (b : Banks) (d : Dev) :
    Relation.ReflTransGen BankStep b (bankSwap jump epoch b d).1 := by
  obtain ⟨first, e⟩ := bankSwap_eq jump epoch b d
  rw [e]
  exact (Relation.ReflTransGen.single (swapOne_step jump epoch (b, d) id)).tail
    (swapOne_step jump epoch _ swapOne_armed)

theorem drainSeen_shape (before after : Banks) (d : Dev) : (drainSeen before after d).shape = after.shape := by
  unfold drainSeen
  split
  · split
    · rfl
    · rfl
  · rfl

theorem windows_shape (frame : Bool) (g : Grid) (b : Banks) (d : Dev) :
    (if frame = true then frameWindows (g, b, d) else (g, b, d)).2.1.shape = b.shape := by
  split
  · rfl
  · rfl

/-- What a tick does to the banks: the swaps that are due, and the drain's count. -/
theorem tickWork_steps (x : TickIn) (jump : Bool) (len : Int) (g : Grid) (b : Banks) (d : Dev) :
    Relation.ReflTransGen BankStep b (tickWork x jump len g b d).2.1 := by
  unfold tickWork
  exact (bankSwap_steps jump g.epoch b _).tail
    (.noted ((windows_shape (jump || frameTick g) _ _ _).trans (drainSeen_shape ..)))

end Sys2Proof.Machine

namespace Sys2Proof.Machine

/-! ### The banks through register writes, image loads and routines

`BankSteps x y`: from x to y the banks went through changes of chapter 04 alone. -/

/-- y's banks come from x's by changes that chapter 04 names. -/
def BankSteps (x y : Whole) : Prop := Relation.ReflTransGen BankStep x.2.1 y.2.1

namespace BankSteps

@[simp] theorem refl (x : Whole) : BankSteps x x := Relation.ReflTransGen.refl

theorem trans {x y z : Whole} (h : BankSteps x y) (k : BankSteps y z) : BankSteps x z := Relation.ReflTransGen.trans h k

/-- Banks that stay went through no change. -/
theorem of_eq {x y : Whole} (h : y.2.1 = x.2.1) : BankSteps x y := by
  unfold BankSteps; rw [h]

theorem same (g g' : Grid) (b : Banks) (d d' : Dev) : BankSteps (g, b, d) (g', b, d') := of_eq rfl

theorem onDev (f : Dev → Dev) (x : Whole) : BankSteps x (onDev f x) := of_eq rfl

@[simp] theorem onDev_iff {f : Dev → Dev} {x y : Whole} : BankSteps x (Machine.onDev f y) ↔ BankSteps x y := Iff.rfl

@[simp] theorem onGrid_iff {f : Grid → Dev → Grid × Dev} {x y : Whole} : BankSteps x (Machine.onGrid f y) ↔ BankSteps x y := Iff.rfl

theorem onBanks {f : Banks → Dev → Banks × Dev} (h : ∀ b d, BankStep b (f b d).1) (x : Whole) : BankSteps x (onBanks f x) :=
  .single (h x.2.1 x.2.2)

theorem ite {x y z : Whole} {c : Prop} [Decidable c] (h : BankSteps x y) (k : BankSteps x z) :
    BankSteps x (if c then y else z) := iteInduction (fun _ => h) fun _ => k

theorem ite_snd {α : Type} {x : Whole} {y z : α × Whole} {c : Prop} [Decidable c] (h : BankSteps x y.2)
    (k : BankSteps x z.2) : BankSteps x (if c then y else z).2 := by
  rw [apply_ite Prod.snd]; exact ite h k

/-! #### Register writes and the accesses that wait -/

theorem ite_mid {α β : Type} {x : Whole} {y z : α × Whole × β} {c : Prop} [Decidable c] (h : BankSteps x y.2.1)
    (k : BankSteps x z.2.1) : BankSteps x (if c then y else z).2.1 := by
  rw [apply_ite Prod.snd, apply_ite Prod.fst]; exact ite h k

theorem mbxGo (src : Src) (l : Loc) (base dt : Nat) (x : Whole) : BankSteps x (mbxGo src l base dt x) := by
  unfold Machine.mbxGo
  dsimp only
  split
  · exact ite (same ..) (ite (same ..) (same ..))
  · split
    · exact same ..
    · exact same ..

theorem mbxWrite (src : Src) (h : Hit) (base a dt : Nat) (v : Word) (x : Whole) : BankSteps x (mbxWrite src h base a dt v x) := by
  unfold Machine.mbxWrite
  exact ite (onDev ..) (ite (onDev ..) (ite ((onDev ..).trans (mbxGo ..)) (onDev ..)))

/-- A register write: SEAL and BANK_CMD of BOOT are bank commands (R145), and no other register reaches the banks. -/
theorem writeEffect (src : Src) (h : Hit) (a dt : Nat) (v : Word) (x : Whole) : BankSteps x (writeEffect src h a dt v x) := by
  unfold Machine.writeEffect
  dsimp only
  split
  · exact mbxWrite ..
  · exact onDev ..
  · refine ite (onDev ..) ?_
    cases h.loc.kind
    case boot =>
      dsimp only
      split
      · exact onDev ..
      · exact onBanks (fun _ _ => bankSeal_step _) x
      · exact onBanks (fun _ _ => bankCmdWrite_step v x.1) x
      · exact onDev ..
      · exact onDev ..
    all_goals
      dsimp only
      repeat' split
    all_goals simp only [onDev_iff, onGrid_iff, refl]

theorem doWrite (src : Src) (h : Hit) (a dt : Nat) (v : Word) (x : Whole) : BankSteps x (doWrite src h a dt v x) := by
  unfold Machine.doWrite
  exact ite (writeEffect ..) (writeEffect ..)

theorem heldDone (x : Whole) (q : HeldAcc) : BankSteps x (heldDone x q) := by
  unfold Machine.heldDone
  refine ite (onDev ..) (ite (onDev ..) (ite (onDev ..) ?_))
  split
  · exact refl x
  · exact ite (onDev ..) (ite (onDev ..) (doWrite ..))

theorem accept {done : Whole → Whole} (h : ∀ x, BankSteps x (done x)) (q : HeldAcc) (x : Whole) :
    BankSteps x (accept q done x) := ite (onDev ..) (h x)

theorem releaseHeld (x : Whole) : BankSteps x (releaseHeld x) := by
  unfold Machine.releaseHeld
  rw [onDev_iff]
  refine List.foldlRecOn (motive := fun r : List HeldAcc × Whole => BankSteps x r.2) _ _ (refl x) fun r h q _ => ?_
  exact ite_snd h (h.trans (heldDone ..))

theorem bar0Write (src : Src) (a : Nat) (shape : Shape) (v : Word) (dt : Nat) (x : Whole) :
    BankSteps x (bar0Write src a shape v dt x) := by
  unfold Machine.bar0Write
  dsimp only
  split
  · exact onDev ..
  · split
    · exact onDev ..
    · exact accept (doWrite src _ a dt v) _ x

theorem bar0Read (src : Src) (a : Nat) (shape : Shape) (x : Whole) : BankSteps x (bar0Read src a shape x) := by
  unfold Machine.bar0Read
  refine ite (accept (onDev _) _ x) ?_
  split
  · exact onDev ..
  · split
    · exact onDev ..
    · exact accept (fun y => onDev _ y) _ x

theorem rejoin (s : Nat) (x : Whole) : BankSteps x (rejoin s x) := by
  unfold Machine.rejoin
  exact ite ((onDev ..).trans (releaseHeld ..)) (refl x)

/-! #### Tansy's routines and the redo record (R550, R551) -/

theorem storeWord (e port a dt : Nat) (v : Word) (x : Whole) : BankSteps x (storeWord e port a dt v x) := by
  unfold Machine.storeWord
  split
  · exact onDev ..
  · split
    · exact accept (writeEffect .pf1 _ a dt v) _ x
    · exact refl x
  · exact onDev ..
  · exact refl x

theorem storeWords (e port dt : Nat) (vs : List Word) : ∀ a x, BankSteps x (storeWords e port a dt vs x) := by
  induction vs with
  | nil => exact fun _ => refl
  | cons v r ih => exact fun a x => (storeWord e port a dt v x).trans (ih _ _)

theorem applyEff (e dt : Nat) (f : TEff) (x : Whole) : BankSteps x (applyEff e dt f x).2 := by
  unfold Machine.applyEff
  split
  case h_1 => exact storeWords ..
  all_goals exact onDev ..

theorem applyEffs (e dt : Nat) (fs : List TEff) : ∀ x, BankSteps x (applyEffs e dt fs x).2 := by
  induction fs with
  | nil => exact refl
  | cons f r ih => exact fun x => (applyEff e dt f x).trans (ih _)

theorem redoApply (e : Nat) (x : Whole) : BankSteps x (redoApply e x) := applyEffs ..

/-- A READ changes the device alone. -/
theorem readWord {e port a : Nat} {x : Whole} {r : Word × Whole} (h : readWord e port a x = some r) : r.2.2.1 = x.2.1 := by
  unfold Machine.readWord at h
  dsimp only at h
  repeat' split at h
  all_goals simp_all only [Option.some.injEq, reduceCtorEq]
  all_goals subst h
  all_goals rfl

theorem readWords (e port : Nat) (buf : List TEff) (n : Nat) :
    ∀ a x r, readWords e port a n buf x = some r → r.2.2.1 = x.2.1 := by
  induction n with
  | zero => rintro a x r ⟨⟩; rfl
  | succ n ih =>
    intro a x r h
    unfold Machine.readWords at h
    split at h
    · cases h
    · next v y hv =>
      obtain ⟨z, hz, rfl⟩ := Option.map_eq_some_iff.mp h
      refine (ih _ _ z hz).trans ?_
      split at hv
      · cases hv; rfl
      · exact readWord hv

theorem effect (e dt : Nat) (f : TEff) (t : TRun) (x : Whole) : BankSteps x (effect e dt f t x).2 :=
  ite_snd (applyEff ..) (refl x)

theorem memOp (e dt op port a dst : Nat) (vs : List Word) (t : TRun) (x : Whole) :
    BankSteps x (memOp e dt op port a dst vs t x).2 := by
  unfold Machine.memOp
  refine ite_snd (refl x) ?_
  dsimp only
  split
  · refine ite_snd ?_ (same ..)
    split
    · next h => exact (same ..).trans (of_eq (readWords _ _ _ _ _ _ _ h))
    · exact same ..
  · exact ite_snd (same ..) (ite_snd ((same ..).trans (onDev ..)) ((same ..).trans (effect ..)))
  · exact ite_snd (ite_snd (same ..) (same ..)) (same ..)
  · exact ite_snd ((same ..).trans (effect ..)) (same ..)
  · exact same ..

theorem evtOp (e dt op : Nat) (t : TRun) (x : Whole) : BankSteps x (evtOp e dt op t x).2 := by
  unfold Machine.evtOp
  split
  · exact effect ..
  · exact (same ..).trans (effect ..)
  · exact (same ..).trans (effect ..)
  · exact effect ..
  · exact refl x

theorem commit (e dt : Nat) (sig : Bool) (t : TRun) (x : Whole) : BankSteps x (commit e dt sig t x).2 :=
  ite_snd (refl x) ((applyEffs ..).trans (onDev ..))

theorem tWord (e : Nat) (x : TRoutine) (w : Nat) (t : TRun) (s : Whole) : BankSteps s (tWord e x w t s).2.1 := by
  have worked (t t' : TRun) (d : Dev) (op port a dst eop : Nat) (vs : List Word) :
      BankSteps s (Machine.evtOp e x.dt eop t' (Machine.memOp e x.dt op port a dst vs t (s.1, s.2.1, d)).2).2 :=
    ((same ..).trans (memOp ..)).trans (evtOp ..)
  unfold Machine.tWord
  dsimp only
  exact ite_mid ((worked ..).trans (same ..)) (ite_mid (worked ..) (ite_snd ((worked ..).trans (commit ..)) (worked ..)))

theorem tRunWords (e : Nat) (x : TRoutine) (fuel : Nat) : ∀ t s, BankSteps s (tRunWords fuel e x t s).2.1 := by
  induction fuel with
  | zero => exact fun _ => refl
  | succ fuel ih =>
    intro t s
    unfold Machine.tRunWords
    dsimp only
    split
    · exact refl s
    · split
      · exact refl s
      · next w _ =>
        split
        · exact refl s
        · split
          · exact tWord ..
          · split
            · exact tWord ..
            · exact (tWord e x w t s).trans (ih _ _)

/-- The words of one try of a routine. -/
theorem tried (fuel e : Nat) (x : TRoutine) (t : TRun) (s : Whole) (d : Dev) :
    BankSteps s (Machine.tRunWords fuel e x t (s.1, s.2.1, d)).2.1 :=
  (same ..).trans (tRunWords ..)

theorem tRoutine (e : Nat) (x : TRoutine) (left tries total : Nat) (s : Whole) :
    BankSteps s (tRoutine tries e x left total s) := by
  fun_induction Machine.tRoutine tries e x left total s with
  | case1 => exact (tried ..).trans ((commit ..).trans ((onDev ..).trans (onDev ..)))
  | case2 => exact (tried ..).trans ((ite (onDev ..) (onDev ..)).trans (onDev ..))
  | case3 => exact (tried ..).trans ((onDev ..).trans (onDev ..))
  | case4 => exact (tried ..).trans ((onDev ..).trans ((onDev ..).trans (onDev ..)))
  | case5 => exact (tried ..).trans ((onDev ..).trans ((onDev ..).trans (onDev ..)))
  | case6 _ _ _ _ _ _ _ _ _ _ _ _ ih => exact ((tried ..).trans (onDev ..)).trans ih

theorem serveEvent (e : Nat) (x : TRoutine) (s : Whole) : BankSteps s (serveEvent e x s) :=
  ite (refl s) ((onDev ..).trans (tRoutine ..))

end BankSteps

end Sys2Proof.Machine

namespace Sys2Proof.Machine

/-! ### The banks through resets and the boot ROM's load of an image (R116, R125, R132, R137, R141) -/

namespace BankSteps

theorem warmReset (cause : Nat) (x : Whole) : BankSteps x (warmReset cause x) := .single (.emptied rfl)

theorem loadReg {t a : Nat} {bankB : Bool} {v : Word} {x y : Whole} (h : loadReg t bankB a v x = some y) : BankSteps x y := by
  unfold Machine.loadReg at h
  dsimp only at h
  repeat' split at h
  all_goals simp only [Option.some.injEq, reduceCtorEq] at h
  all_goals subst h
  case isFalse.isFalse.isFalse.isFalse => exact writeEffect ..
  all_goals exact same ..

theorem loadGz {h i v : Nat} {x y : Whole} (e : loadGz h i v x = some y) : BankSteps x y := by
  unfold Machine.loadGz at e
  dsimp only at e
  repeat' split at e
  all_goals simp only [Option.some.injEq, reduceCtorEq] at e
  all_goals subst e
  all_goals exact onDev ..

theorem loadAse {s i v : Nat} {x y : Whole} (h : loadAse s i v x = some y) : BankSteps x y := by
  unfold Machine.loadAse at h
  obtain ⟨-, h⟩ := Option.ite_none_left_eq_some.mp h
  obtain rfl := Option.some.inj h
  exact onDev ..

theorem loadMbx {t base i : Nat} {bankB : Bool} {v : BitVec 128} {x y : Whole} (h : loadMbx t bankB base i v x = some y) :
    BankSteps x y := by
  unfold Machine.loadMbx at h
  dsimp only at h
  split at h
  · cases h
  · obtain ⟨-, h⟩ := Option.ite_none_left_eq_some.mp h
    split at h
    · exact loadGz h
    split at h
    · exact loadAse h
    obtain ⟨-, h⟩ := Option.ite_none_left_eq_some.mp h
    obtain ⟨-, h⟩ := Option.ite_none_left_eq_some.mp h
    obtain rfl := Option.some.inj h
    exact same ..

theorem loadItem {t : Nat} {bankB : Bool} {x y : Whole} : ∀ {i : Item}, loadItem t bankB x i = some y → BankSteps x y
  | .reg _ _, h => loadReg h
  | .mbx _ _ _, h => loadMbx h
  | .resv _, h => by
    obtain ⟨-, h⟩ := Option.ite_none_right_eq_some.mp h
    obtain rfl := Option.some.inj h
    exact refl x

/-- Steps of a fold that may fail. -/
theorem foldl_bind {α : Type} {f : α → Whole → Option Whole} (h : ∀ a x y, f a x = some y → BankSteps x y) (l : List α)
    (x z : Whole) (hz : l.foldl (fun y a => y.bind (f a)) (some x) = some z) : BankSteps x z :=
  List.foldlRecOn (motive := fun y : Option Whole => ∀ z, y = some z → BankSteps x z) l _
    (by rintro z ⟨⟩; exact refl x)
    (fun y ih a _ z hz => by
      obtain ⟨u, hu, hz⟩ := Option.bind_eq_some_iff.mp hz
      exact (ih u hu).trans (h a u z hz)) z hz

theorem loadSection {i : Image} {t : Nat} {bankB : Bool} {x y : Whole} (h : loadSection i t bankB x = some y) :
    BankSteps x y := by
  unfold Machine.loadSection at h
  split at h
  · obtain rfl := Option.some.inj h; exact refl x
  · exact foldl_bind (f := fun i x => Machine.loadItem t bankB x i) (fun _ _ _ => loadItem) _ x y h

theorem enginesStart {i : Image} {x y : Whole} (h : enginesStart i x = some y) : BankSteps x y := by
  have started (z : Whole) : BankSteps z ([0, 1].foldl
      (fun x e => Machine.onDev (fun d => d.put (HK_ENGINE.STATE e) tsRunning) (Machine.redoApply e x)) z) :=
    List.foldlRecOn (motive := BankSteps z) _ _ (refl z) fun _ h e _ => h.trans ((redoApply e _).trans (onDev ..))
  unfold Machine.enginesStart at h
  dsimp only at h
  split at h
  · obtain rfl := Option.some.inj h; exact started x
  · obtain ⟨-, h⟩ := Option.ite_none_right_eq_some.mp h
    obtain rfl := Option.some.inj h
    exact (onDev ..).trans (started _)

theorem afterSection {i : Image} {t : Nat} {x y : Whole} (h : afterSection i t x = some y) : BankSteps x y := by
  unfold Machine.afterSection at h
  split at h
  case h_2 => exact enginesStart h
  case h_4 => obtain rfl := Option.some.inj h; exact .single .loaded
  all_goals
    obtain rfl := Option.some.inj h
    exact same ..

theorem loadImage {i : Image} {x y : Whole} (h : loadImage i x = some y) : BankSteps x y := by
  unfold Machine.loadImage at h
  obtain ⟨-, h⟩ := Option.ite_none_right_eq_some.mp h
  refine foldl_bind (f := fun t x => (Machine.loadSection i t false x).bind (Machine.afterSection i t))
    (fun t a b hb => ?_) _ x y h
  obtain ⟨z, hz, hb⟩ := Option.bind_eq_some_iff.mp hb
  exact (loadSection hz).trans (afterSection hb)

theorem tryImage (i : Image) (src : Nat) (seq : Word) (x : Whole) : BankSteps x (tryImage i src seq x).2 := by
  unfold Machine.tryImage
  refine ite_snd (refl x) ?_
  split
  · exact .single (.emptied rfl)
  · next y h => exact (loadImage h).trans (onDev ..)

theorem tryAll (l : List (Nat × Image)) : ∀ x, BankSteps x (tryAll l x).2 := by
  induction l with
  | nil => exact refl
  | cons c r ih =>
    intro x
    obtain ⟨slot, i⟩ := c
    unfold Machine.tryAll
    have tried : BankSteps x (Machine.onDev (fun d => slotResult d slot (Machine.tryImage i slot i.seq x).1)
        (Machine.tryImage i slot i.seq x).2) :=
      (tryImage ..).trans (onDev ..)
    exact ite_snd (tried.trans (onDev ..)) (tried.trans (ih _))

theorem bootSelect (sfdp : Option (BitVec 8)) (a b : Image) (x : Whole) : BankSteps x (bootSelect sfdp a b x) := by
  unfold Machine.bootSelect
  exact ite ((onDev ..).trans ((onDev ..).trans (tryAll ..)))
    ((onDev ..).trans ((onDev ..).trans ((tryAll ..).trans (onDev ..))))

theorem bootDo (op : Nat) (slot : Option Nat) {f : Whole → Nat × Whole} (h : ∀ x, BankSteps x (f x).2) (x : Whole) :
    BankSteps x (bootDo op slot f x) := by
  unfold Machine.bootDo
  have issued : BankSteps x
      (if x.2.2.flag BOOT_CMD_RESULT.BUSY then x else Machine.onDev (fun d => bootIssue d op (slot.getD 0)) x) :=
    ite (refl x) (onDev ..)
  generalize (if x.2.2.flag BOOT_CMD_RESULT.BUSY then x else Machine.onDev (fun d => bootIssue d op (slot.getD 0)) x) = y at *
  dsimp only
  split
  · exact ite (issued.trans ((h y).trans (onDev ..))) issued
  · exact issued

theorem applyImage (i : Image) (x : Whole) : BankSteps x (applyImage i x).2 := by
  unfold Machine.applyImage
  split
  · exact refl x
  · refine ite_snd (refl x) ?_
    split
    · exact refl x
    · next w _ _ y h =>
      obtain ⟨z, hz, hy⟩ := Option.bind_eq_some_iff.mp h
      have armed : BankSteps x (Machine.onBanks (bankArm y.1) (Machine.onBanks (bankSeal w (nextSeq y.2.1)) y)) :=
        ((loadSection hz).trans (loadSection hy)).trans
          ((onBanks (fun _ _ => bankSeal_step _) y).trans (onBanks (fun _ _ => bankArm_step _) _))
      dsimp only
      split
      · next h => exact armed.trans ((onDev ..).trans ((onDev ..).trans ((loadSection h).trans (onDev ..))))
      · exact armed.trans (onDev ..)

theorem loadHost (i : Image) (x : Whole) : BankSteps x (loadHost i x).2 := by
  unfold Machine.loadHost
  refine ite_snd (refl x) (ite_snd (same ..) (ite_snd ?_ ?_))
  · exact (onDev ..).trans (tryImage ..)
  · exact (onDev ..).trans ((tryImage ..).trans (onDev ..))

end BankSteps

/-! ### The banks through every command (R144-R147) -/

/-- From s to t the banks went through changes of chapter 04. -/
abbrev State.BankSteps (s t : State) : Prop := Relation.ReflTransGen BankStep s.banks t.banks

theorem withAll_bankSteps {s t : State} {f : Grid → Banks → Dev → Grid × Banks × Dev} (h : s.withAll f = .next t)
    (steps : ∀ g b d, Relation.ReflTransGen BankStep b (f g b d).2.1) : s.BankSteps t := by
  unfold State.withAll at h
  split at h
  · cases h; exact .refl
  · cases h; exact steps ..

theorem withWhole_bankSteps {s t : State} {f : Whole → Whole} (h : s.withWhole f = .next t) (steps : ∀ x, BankSteps x (f x)) :
    s.BankSteps t := withAll_bankSteps h fun g b d => steps (g, b, d)

theorem withDev_bankSteps {s t : State} {f : Dev → Dev} (h : s.withDev f = .next t) : s.BankSteps t := by
  rw [State.BankSteps, (withDev_frame s t f h).2.2]

theorem execRegisterWrite_bankSteps {src : Src} {bar : Fin 3} {off : BitVec 27} {shape : Shape} {v : Word} {dt : Nat} {s t : State}
    (h : execRegisterWrite src bar off shape v dt s = .next t) : s.BankSteps t :=
  withWhole_bankSteps h fun x => by
    split
    · exact .bar0Write ..
    · exact .ite (.refl x) (.onDev ..)
    · exact .onDev ..

theorem execRegisterRead_bankSteps {src : Src} {bar : Fin 3} {off : BitVec 27} {shape : Shape} {dt : Nat} {s t : State}
    (h : execRegisterRead src bar off shape dt s = .next t) : s.BankSteps t :=
  withWhole_bankSteps h fun x => .ite (.bar0Read ..) (.ite (.refl x) (.accept (.onDev _) _ x))

theorem execMailboxRead_bankSteps {src : Src} {base : BitVec 27} {dt : Nat} {err : ReadErr} {s t : State}
    (h : execMailboxRead src base dt err s = .next t) : s.BankSteps t :=
  withWhole_bankSteps h fun x => by
    dsimp only
    split
    · exact .ite ((BankSteps.bar0Write ..).trans (.onDev ..)) (.bar0Write ..)
    · exact .bar0Write ..

theorem mailboxPop_bankSteps {src : Src} {base idx : Nat} {s t : State} (h : mailboxPop src base idx s = .next t) :
    s.BankSteps t :=
  withWhole_bankSteps h fun _ => (BankSteps.bar0Write ..).trans (.bar0Write ..)

theorem execOobRead32_bankSteps {addr : BitVec 7} {off : Word} {timeout more : Bool} {s t : State}
    (h : execOobRead32 addr off timeout more s = .next t) : s.BankSteps t :=
  withWhole_bankSteps h fun x => by
    refine .ite (.refl x) (.ite ?_ (.ite ((BankSteps.bar0Read ..).trans (.onDev ..)) (.bar0Read ..)))
    split
    · exact .onDev ..
    · exact .bar0Read ..

theorem execOobWrite32_bankSteps {addr : BitVec 7} {off v : Word} {pec : Option Byte} {dt : Nat} {s t : State}
    (h : execOobWrite32 addr off v pec dt s = .next t) : s.BankSteps t :=
  withWhole_bankSteps h fun x => by
    refine .ite (.refl x) (.ite ?_ (.ite ((BankSteps.bar0Write ..).trans (.onDev ..)) (.bar0Write ..)))
    split
    · exact .refl x
    · exact .ite (.bar0Write ..) (.onDev ..)

theorem execReboot_bankSteps {s t : State} (h : execReboot s = .next t) : s.BankSteps t :=
  withWhole_bankSteps h fun x => by
    have issued : BankSteps x (if x.2.2.flag BOOT_CMD_RESULT.BUSY then x else onDev (fun d => bootIssue d 5 0) x) :=
      .ite (.refl x) (.onDev ..)
    dsimp only
    split
    · exact issued.trans (.warmReset ..)
    · exact issued

theorem execTick_bankSteps {x : TickIn} {s t : State} (h : execTick x s = .next t) : s.BankSteps t :=
  withAll_bankSteps h fun g b d => by
    split
    · exact tickWork_steps ..
    · exact .refl

theorem execJumpTick_bankSteps {x : TickIn} {s t : State} (h : execJumpTick x s = .next t) : s.BankSteps t :=
  withAll_bankSteps h fun g b d => by
    split
    · split
      · exact .refl
      · exact tickWork_steps ..
    · exact .refl

/-- A pin of power-on reset empties the banks, or finds nothing to let go. -/
theorem powerPin_bankSteps {c : Instr} {s t : State} (pin : powerPin c = true) (h : exec c s = .next t) : s.BankSteps t := by
  cases c
  case porstAssert => cases h; exact .single (.emptied rfl)
  case railMonitorTrip => cases h; exact .single (.emptied rfl)
  case porstRelease strap tst =>
    change execPorstRelease strap tst s = _ at h
    unfold execPorstRelease at h
    split at h
    · cases h; exact .single (.emptied rfl)
    · cases h; exact .refl
  case railMonitorRelease strap tst =>
    change execRailMonitorRelease strap tst s = _ at h
    unfold execRailMonitorRelease at h
    split at h
    · cases h; exact .single (.emptied rfl)
    · cases h; exact .refl
  all_goals exact absurd pin Bool.false_ne_true

/-- Whatever the command, the banks go through changes of chapter 04 alone. -/
theorem exec_bankSteps {c : Instr} {s t : State} (h : exec c s = .next t) : s.BankSteps t := by
  cases c
  case porstAssert | porstRelease | railMonitorTrip | railMonitorRelease => exact powerPin_bankSteps rfl h
  all_goals dsimp only [exec] at h
  -- the configuration banks
  case bankSeal => exact withAll_bankSteps h fun _ _ _ => .single (bankSeal_step _)
  case bankSwapArm => exact withAll_bankSteps h fun g _ _ => .single (bankArm_step g)
  case bankUnseal => exact withAll_bankSteps h fun _ _ _ => .single bankUnseal_step
  case bankDrainEnd => exact withAll_bankSteps h fun _ _ _ => drainEnd_steps
  case bankDrainExpire => exact withAll_bankSteps h fun g _ _ => .single (drainExpire_step g)
  -- ticks, and commands on the Graticule and the clock, which leave the banks as they are
  case tick => exact execTick_bankSteps h
  case jumpTick => exact execJumpTick_bankSteps h
  case jumpReq | gsyncWordRx | postedWriteApply => exact withAll_bankSteps h fun _ _ _ => .refl
  case gsyncHoldover | timeStep | timeOffset | ppsInEdge =>
    exact withAll_bankSteps h fun g b d => BankSteps.ite (x := (g, b, d)) (.same ..) (.same ..)
  -- the registers, their mailboxes and the paths to them (chapter 03)
  case timeFreqWrite | statusAck | mailboxWrite | postedWrite | wldLockSet =>
    exact withWhole_bankSteps h (BankSteps.bar0Write _ _ _ _ _)
  case registerWrite => exact execRegisterWrite_bankSteps h
  case registerRead _ _ _ _ dt => exact execRegisterRead_bankSteps (dt := dt) h
  case readTimeout => exact withWhole_bankSteps h fun _ => (BankSteps.onDev ..).trans (.releaseHeld _)
  case mailboxRead => exact execMailboxRead_bankSteps h
  case tsFifoPop | samplePop | logPop => exact mailboxPop_bankSteps h
  case oobRead32 => exact execOobRead32_bankSteps h
  case oobWrite32 => exact execOobWrite32_bankSteps h
  -- warm resets and the boot ROM
  case fatalReset => exact withWhole_bankSteps h fun x => .ite (.warmReset ..) (.refl x)
  case sysrstPulse | coreRefReturn =>
    exact withWhole_bankSteps h fun x => .ite ((BankSteps.onDev ..).trans (.warmReset ..)) (.refl x)
  case bootImageSelect => exact withWhole_bankSteps h fun x => .ite (.bootSelect ..) (.refl x)
  case verify => exact withWhole_bankSteps h (.bootDo _ _ fun x => .refl x)
  case apply img _ => exact withWhole_bankSteps h (.bootDo _ _ (.applyImage img))
  case loadHost img => exact withWhole_bankSteps h (.bootDo _ _ (.loadHost img))
  case reboot => exact execReboot_bankSteps h
  -- slices and Tansy
  case sliceRejoin => exact withWhole_bankSteps h (.rejoin _)
  case tansyRoutine e x => exact withWhole_bankSteps h (.serveEvent e x)
  case engineRunning => exact withWhole_bankSteps h fun x => .ite (.refl x) ((BankSteps.redoApply ..).trans (.onDev ..))
  -- every other command acts on the device alone
  all_goals exact withDev_bankSteps h

/-- Settles O15: every command takes the banks through changes of chapter 04 alone (`exec_bankSteps`), and each of them keeps the
banks legal (`BankStep.legal`). -/
theorem banksStayLegal : Obligations.BanksStayLegal := by
  intro s t legal h
  unfold step at h
  split at h
  · cases h; exact legal
  · have steps := exec_bankSteps h
    exact legal.steps steps

end Sys2Proof.Machine

namespace Sys2Proof.Machine

/-! ### Power-on reset holds the device (R115, R645) -/

/-- A command on Graticule, banks and device, in power-on reset. -/
theorem State.withAll_held {s : State} (f : Grid → Banks → Dev → Grid × Banks × Dev) (h : s.held = true) :
    s.withAll f = .next s := if_pos h

theorem State.withWhole_held {s : State} (f : Whole → Whole) (h : s.held = true) : s.withWhole f = .next s :=
  State.withAll_held _ h

theorem mailboxPop_held {s : State} (src : Src) (base idx : Nat) (h : s.held = true) : mailboxPop src base idx s = .next s :=
  State.withWhole_held _ h

/-- Settles O4: a command on the device, or on Graticule, banks and device, finds the device held; only the pins of power-on reset
act otherwise. -/
theorem heldDeviceIsStill : Obligations.HeldDeviceIsStill := by
  intro c s held notPin
  cases c
  case porstAssert | porstRelease | railMonitorTrip | railMonitorRelease => exact absurd notPin Bool.noConfusion
  all_goals dsimp only [exec]
  -- commands on Graticule, banks and device
  case tick | jumpTick | jumpReq | gsyncWordRx | gsyncHoldover | timeStep | timeOffset | ppsInEdge | postedWriteApply =>
    exact State.withAll_held _ held
  case bankSeal | bankSwapArm | bankUnseal | bankDrainEnd | bankDrainExpire => exact State.withAll_held _ held
  case registerWrite | registerRead | readTimeout | statusAck | mailboxRead | mailboxWrite | postedWrite | wldLockSet
      | timeFreqWrite | oobRead32 | oobWrite32 =>
    exact State.withWhole_held _ held
  case tsFifoPop | samplePop | logPop => exact mailboxPop_held _ _ _ held
  case sysrstPulse | fatalReset | coreRefReturn | bootImageSelect | verify | apply | loadHost | reboot =>
    exact State.withWhole_held _ held
  case sliceRejoin | tansyRoutine | engineRunning => exact State.withWhole_held _ held
  -- every other command acts on the device alone
  all_goals exact State.withDev_held _ held

/-! ### Bank commands (R145, R146) -/

section
variable {s : State} (held : s.held = false)
include held

theorem exec_bankSeal (k : Fin 2) (q : BitVec 16) : exec (.bankSeal k q) s = .next { s with
    banks := (bankSeal (decide (k = 1)) q s.banks s.dev).1, dev := (bankSeal (decide (k = 1)) q s.banks s.dev).2 } := by
  show execBankSeal k q s = _
  rw [execBankSeal, State.withAll_live _ held]

theorem exec_bankSwapArm : exec .bankSwapArm s = .next { s with
    banks := (bankArm s.grid s.banks s.dev).1, dev := (bankArm s.grid s.banks s.dev).2 } := by
  show execBankSwapArm s = _
  rw [execBankSwapArm, State.withAll_live _ held]

theorem exec_bankUnseal : exec .bankUnseal s = .next { s with
    banks := (bankUnseal s.banks s.dev).1, dev := (bankUnseal s.banks s.dev).2 } := by
  show execBankUnseal s = _
  rw [execBankUnseal, State.withAll_live _ held]

theorem exec_bankDrainEnd : exec .bankDrainEnd s = .next { s with banks := drainEnd s.banks } := by
  show execBankDrainEnd s = _
  rw [execBankDrainEnd, State.withAll_live _ held]

theorem exec_bankDrainExpire : exec .bankDrainExpire s = .next { s with
    banks := (drainExpire s.grid s.banks s.dev).1, dev := (drainExpire s.grid s.banks s.dev).2 } := by
  show execBankDrainExpire s = _
  rw [execBankDrainExpire, State.withAll_live _ held]

/-- With one bank SEALED, SWAP and UNSEAL take it. -/
theorem exec_sealed_one {w : Bool} (h : s.banks.st w = .sealed) (other : s.banks.st (!w) ≠ .sealed) :
    exec .bankSwapArm s = .next { s with banks := s.banks.arm w (s.grid.epoch + 2) }
      ∧ exec .bankUnseal s = .next { s with banks := (s.banks.setSt w .free).setSeq w 0 } := by
  have found : ¬ (s.banks.a ≠ .sealed ∧ s.banks.b ≠ .sealed) := fun no => by
    cases w
    · exact no.1 h
    · exact no.2 h
  rw [exec_bankSwapArm held, exec_bankUnseal held, bankArm_taken found, bankUnseal_taken found, sealedBank_one h other]
  exact ⟨rfl, rfl⟩

/-- With both SEALED they take one of them (log entry 68). -/
theorem exec_sealed_both (a : s.banks.a = .sealed) (b : s.banks.b = .sealed) : ∃ n,
    (∃ w, exec .bankSwapArm s = .next { s with banks := s.banks.arm w (s.grid.epoch + 2), dev := { s.dev with free := n } })
      ∧ ∃ w, exec .bankUnseal s = .next { s with
          banks := (s.banks.setSt w .free).setSeq w 0, dev := { s.dev with free := n } } := by
  have found : ¬ (s.banks.a ≠ .sealed ∧ s.banks.b ≠ .sealed) := fun no => no.1 a
  have drawn : (sealedBank s.banks s.dev).2 = { s.dev with free := s.dev.free + 1 } := by
    rw [sealedBank, if_pos ⟨a, b⟩]; rfl
  rw [exec_bankSwapArm held, exec_bankUnseal held, bankArm_taken found, bankUnseal_taken found, drawn]
  exact ⟨_, ⟨_, rfl⟩, ⟨_, rfl⟩⟩

/-- The bank commands that the table of R145 does not allow, with their reasons (R146). -/
theorem exec_bank_refused {c : Instr} {why : Nat}
    (h : (∃ (k : Fin 2) (q : BitVec 16), c = .bankSeal k q ∧ s.banks.st (decide (k = 1)) ≠ .free ∧ why = 1)
      ∨ (∃ (k : Fin 2) (q : BitVec 16), c = .bankSeal k q ∧ s.banks.st (decide (k = 1)) = .free
          ∧ (q = 0 ∨ q = s.banks.activeSeq) ∧ why = 2)
      ∨ (c = .bankSwapArm ∧ s.banks.a ≠ .sealed ∧ s.banks.b ≠ .sealed ∧ why = 3)
      ∨ (c = .bankUnseal ∧ s.banks.a ≠ .sealed ∧ s.banks.b ≠ .sealed ∧ why = 4)) :
    exec c s = .next { s with
      banks := (bankReject why s.banks s.dev).1, dev := (bankReject why s.banks s.dev).2 } := by
  rcases h with ⟨k, q, rfl, busy, rfl⟩ | ⟨k, q, rfl, free, bad, rfl⟩ | ⟨rfl, a, b, rfl⟩ | ⟨rfl, a, b, rfl⟩
  · rw [exec_bankSeal held, bankSeal_busy busy]
  · rw [exec_bankSeal held, bankSeal_badSeq free bad]
  · rw [exec_bankSwapArm held, bankArm_none ⟨a, b⟩]
  · rw [exec_bankUnseal held, bankUnseal_none ⟨a, b⟩]

end

theorem Banks.due_arm (b : Banks) (w : Bool) (t : BitVec 64) :
    (b.arm w t).due w = t ∧ (b.arm w t).due (!w) = b.due (!w) ∧ (b.arm w t).target = t := by
  cases w
  · exact ⟨rfl, rfl, rfl⟩
  · exact ⟨rfl, rfl, rfl⟩

/-- SWAP and UNSEAL written together (R146). -/
theorem bankCmdWrite_both {v : Word} (swap : v.getLsbD 0 = true) (undo : v.getLsbD 1 = true) (g : Grid) (b : Banks) (d : Dev) :
    bankCmdWrite v g b d = bankReject 5 b d := by
  have bitOf (i : Nat) : bit v.toNat i = v.getLsbD i := by
    rw [bit, BitVec.getLsbD, Nat.testBit_eq_decide_div_mod_eq]
  simp only [bankCmdWrite, bitOf, swap, undo]

/-- Settles O17: the cases of the bank commands by the lemmas of `bankSeal`, `bankArm`, `bankUnseal` and `drainEnd`. Which of two
SEALED banks is taken is the model's choice (log entry 68). -/
theorem bankCommands : Obligations.BankCommands := by
  intro s held
  refine ⟨fun k q free hq new => ?_, fun w => exec_sealed_one held, fun w => ?_, exec_sealed_both held, fun w drains ready => ?_,
    fun same => ?_, fun c why h => ⟨_, exec_bank_refused held h,
      Dev.raised_event s.dev BOOT_STATUS.BANK_REJECT (by decide), Dev.regsOnly_event s.dev BOOT_STATUS.BANK_REJECT⟩,
    fun v swap undo => bankCmdWrite_both swap undo ..⟩
  · rw [exec_bankSeal held, bankSeal_taken free hq new]
  · obtain ⟨due, other, target⟩ := s.banks.due_arm w (s.grid.epoch + 2)
    exact ⟨Banks.st_arm .., due, Banks.st_arm_other .., other, fun v => Banks.seq_arm .., target⟩
  · rw [exec_bankDrainEnd held, drainEnd_done drains ready]
  · rw [exec_bankDrainEnd held, drainEnd_same same]

/-- Settles O18: the drain's limit by `drainExpire_done` and `drainExpire_same`. That the count starts anew and the expiry may
repeat is the model's choice (log entry 69). -/
theorem bankDrainExpiry : Obligations.BankDrainExpiry := by
  refine ⟨fun s w held drains limit reached serves => ⟨_, _, rfl, ?_⟩, fun s same => ?_⟩
  · rw [exec_bankDrainExpire held, drainExpire_done drains limit reached serves]
    rfl
  · show execBankDrainExpire s = _
    exact State.withAll_same (by rw [drainExpire_same same])

end Sys2Proof.Machine

namespace Sys2Proof.Machine

/-! ### Flash (R138, R139) -/

section FlashCommand
variable {d : Dev} {op : Nat}

/-- Where a flash command starts: FL_ADDR rounded down to the command's size. -/
def flashAt (d : Dev) (op : Nat) : Nat := d.get BOOT_FL_ADDR.ADDR - d.get BOOT_FL_ADDR.ADDR % flashSize op

/-- A flash command under way: BUSY is set and its bytes go out. -/
def flashStarted (d : Dev) (op : Nat) : Dev :=
  let d := { d with boot := { d.boot with flash := some (op, flashAt d op) } }
  (d.put BOOT_FL_STAT.BUSY 1).emit (.flash op (flashAt d op) (if op = 2 then flashBuf d else []))

theorem flashProtected_iff (d : Dev) (op a : Nat) : flashProtected d op a = true ↔ op ≠ 1 ∧ d.flag BOOT_FL_CFG.PROTECT_RUNNING = true
    ∧ d.get BOOT_STATE.SOURCE < 2 ∧ a / 0x2000000 = d.get BOOT_STATE.SOURCE := by
  simp only [flashProtected, Bool.and_eq_true, decide_eq_true_eq]
  tauto

theorem flashCommand_busy (legal : ¬ (op = 0 ∨ 4 < op)) (busy : d.flag BOOT_FL_STAT.BUSY = true) :
    flashCommand d op = d.event BOOT_FL_STAT.REJECTED := by
  rw [flashCommand, if_neg legal, if_pos busy]

theorem flashCommand_protected (legal : ¬ (op = 0 ∨ 4 < op)) (idle : d.flag BOOT_FL_STAT.BUSY = false)
    (kept : flashProtected d op (flashAt d op) = true) : flashCommand d op = d.event BOOT_FL_STAT.PROTECT_HIT := by
  rw [flashCommand, if_neg legal, if_neg (Bool.not_eq_true _ ▸ idle)]
  exact if_pos kept

theorem flashCommand_starts (legal : ¬ (op = 0 ∨ 4 < op)) (idle : d.flag BOOT_FL_STAT.BUSY = false)
    (free : ¬ flashProtected d op (flashAt d op) = true) : flashCommand d op = flashStarted d op := by
  rw [flashCommand, if_neg legal, if_neg (Bool.not_eq_true _ ▸ idle)]
  exact if_neg free

theorem flashStarted_regsOnly (d : Dev) (op : Nat) (page : List Byte) : Dev.regsOnly [BOOT_FL_STAT.word.addr]
    { d with boot := { d.boot with flash := some (op, flashAt d op) }, out := d.out ++ [.flash op (flashAt d op) page] }
    (flashStarted d op) :=
  ⟨⟨_, _, _, rfl⟩, fun _ h => Dev.word_put_other _ BOOT_FL_STAT.BUSY 1 (List.mem_singleton.not.mp h)⟩

theorem flashStarted_busy (d : Dev) (op : Nat) : (flashStarted d op).get BOOT_FL_STAT.BUSY = 1 :=
  Dev.get_put _ BOOT_FL_STAT.BUSY 1 (by decide) (by decide)

theorem flashBuf_length (d : Dev) : (flashBuf d).length = 256 := by
  simp [flashBuf, leBytes, beBytes, List.length_flatMap]

end FlashCommand

/-! ### The page buffer -/

section Page
variable (at_ : Nat → Nat) (v : Nat → Word)

/-- Words written one after the other. -/
def Dev.fill (n : Nat) (d : Dev) : Dev := (List.range n).foldl (fun d i => d.setWord (at_ i) (v i)) d

theorem Dev.fill_succ (n : Nat) (d : Dev) : d.fill at_ v (n + 1) = (d.fill at_ v n).setWord (at_ n) (v n) := by
  simp only [Dev.fill, List.range_succ, List.foldl_append, List.foldl_cons, List.foldl_nil]

theorem Dev.fill_boot (n : Nat) (d : Dev) : (d.fill at_ v n).boot = d.boot := by
  induction n with
  | zero => rfl
  | succ n ih => rw [Dev.fill_succ, Dev.setWord_boot, ih]

theorem Dev.word_fill_other (n : Nat) (d : Dev) {a : Nat} (h : ∀ i, i < n → a ≠ at_ i) : (d.fill at_ v n).word a = d.word a := by
  induction n with
  | zero => rfl
  | succ n ih =>
    rw [Dev.fill_succ, Dev.word_setWord_other _ _ (h n n.lt_succ_self), ih fun i hi => h i (Nat.lt_succ_of_lt hi)]

theorem Dev.word_fill (inj : Function.Injective at_) {n i : Nat} (hi : i < n) (d : Dev) : (d.fill at_ v n).word (at_ i) = v i := by
  induction n with
  | zero => exact absurd hi i.not_lt_zero
  | succ n ih =>
    rw [Dev.fill_succ]
    rcases Nat.lt_succ_iff_lt_or_eq.mp hi with lt | rfl
    · rw [Dev.word_setWord_other _ _ fun e => lt.ne (inj e), ih lt]
    · exact Dev.word_setWord ..

end Page

/-- Four bytes survive the way through a little-endian word. -/
theorem leBytes_word (a b c d : Byte) :
    leBytes 4 (BitVec.ofNat 32 (beNat [a, b, c, d].reverse)).toNat = [a, b, c, d] := by
  have value : beNat [d, c, b, a] = a.toNat + 256 * b.toNat + 65536 * c.toNat + 16777216 * d.toNat := by
    simp only [beNat, List.foldl_cons, List.foldl_nil]
    omega
  show leBytes 4 (BitVec.ofNat 32 (beNat [d, c, b, a])).toNat = _
  rw [value]
  simp only [leBytes, beBytes, List.reverse_cons, List.reverse_nil, List.nil_append, List.cons_append, List.cons.injEq, and_true,
    BitVec.toNat_ofNat]
  refine ⟨?_, ?_, ?_, ?_⟩ <;> refine BitVec.eq_of_toNat_eq ?_ <;> rw [BitVec.toNat_ofNat] <;> omega

theorem bytesAt_of_le {b : List Byte} {off n : Nat} (h : off + n ≤ b.length) : bytesAt b off n = (b.drop off).take n := by
  simp [bytesAt, Nat.min_eq_left (Nat.le_sub_of_add_le' h)]

/-- The word of the page buffer that a page's bytes fill. -/
def pageWord (page : List Byte) (i : Nat) : Word := BitVec.ofNat 32 (beNat (bytesAt page (4 * i) 4).reverse)

theorem leBytes_pageWord {page : List Byte} {i : Nat} (h : 4 * i + 4 ≤ page.length) :
    leBytes 4 (pageWord page i).toNat = (page.drop (4 * i)).take 4 := by
  rw [pageWord, bytesAt_of_le h]
  have four : ((page.drop (4 * i)).take 4).length = 4 := by simp; omega
  match e : (page.drop (4 * i)).take 4, four with
  | [a, b, c, d], _ => exact leBytes_word a b c d

/-- A list cut into pieces of four. -/
theorem flatMap_take_four {α : Type} (n : Nat) (l : List α) :
    (List.range n).flatMap (fun i => (l.drop (4 * i)).take 4) = l.take (4 * n) := by
  induction n with
  | zero => rfl
  | succ n ih =>
    rw [List.range_succ, List.flatMap_append, ih, List.flatMap_cons, List.flatMap_nil, List.append_nil, Nat.mul_succ, List.take_add]

def bufAt (i : Nat) : Nat := (BOOT_FL_BUF.word i).addr

theorem bufAt_injective : Function.Injective bufAt := fun i j h => by
  simp only [bufAt, BOOT_FL_BUF.word] at h
  omega

/-- A page that fills the buffer is what the buffer then holds. -/
theorem flashBuf_of_words {d : Dev} {page : List Byte} (full : page.length = 256)
    (h : ∀ i, i < 64 → d.word (bufAt i) = pageWord page i) : flashBuf d = page := by
  have pieces : flashBuf d = (List.range 64).flatMap fun i => (page.drop (4 * i)).take 4 := by
    refine List.flatMap_congr fun i hi => ?_
    have lt := List.mem_range.mp hi
    rw [← leBytes_pageWord (by omega), ← h i lt, bufAt]
  rw [pieces, flatMap_take_four, List.take_of_length_le full.le]

/-- Equal words in the buffer's registers are an equal buffer. -/
theorem flashBuf_congr {d e : Dev} (h : ∀ i, i < 64 → e.word (bufAt i) = d.word (bufAt i)) : flashBuf e = flashBuf d :=
  List.flatMap_congr fun i hi => by rw [← bufAt, h i (List.mem_range.mp hi)]

/-! ### The end of a flash command -/

section FlashEnd
variable {d : Dev} {op a : Nat}

/-- The end of a flash command shows in its status registers. -/
def flashEnded (d : Dev) : Dev := (d.put BOOT_FL_STAT.BUSY 0).event BOOT_STATUS.FL_DONE

theorem flashEnded_regsOnly (d : Dev) : Dev.regsOnly [BOOT_FL_STAT.word.addr, BOOT_STATUS.word.addr] d (flashEnded d) :=
  (Dev.regsOnly_put d BOOT_FL_STAT.BUSY 0).then (Dev.regsOnly_event _ BOOT_STATUS.FL_DONE) (by decide) (by decide)

theorem flashEnded_busy (d : Dev) : (flashEnded d).get BOOT_FL_STAT.BUSY = 0 := by
  rw [flashEnded, Dev.event_get_other _ _ _ (by decide) (by decide), Dev.get_put _ _ _ (by decide) (by decide), Nat.zero_mod]

theorem flashEnded_error (d : Dev) : (flashEnded d).get BOOT_FL_STAT.FLASH_ERR = d.get BOOT_FL_STAT.FLASH_ERR := by
  rw [flashEnded, Dev.event_get_other _ _ _ (by decide) (by decide), Dev.get_put_other _ _ _ _ (by decide) (by decide) (by decide)]

/-- FL_DONE is raised over every state whose status word agrees. -/
theorem flashEnded_raised {d₀ : Dev} (h : d.word BOOT_STATUS.word.addr = d₀.word BOOT_STATUS.word.addr) :
    Dev.raised BOOT_STATUS.FL_DONE d₀ (flashEnded d) := by
  refine (Dev.raised_event (d.put BOOT_FL_STAT.BUSY 0) BOOT_STATUS.FL_DONE (by decide)).after ?_
  rw [Dev.get_put_other _ _ _ _ (by decide) (by decide) (by decide)]
  exact get_of_word h

@[simp] theorem flashEnded_boot (d : Dev) : (flashEnded d).boot = d.boot := by rw [flashEnded, Dev.event_boot, Dev.put_boot]

theorem bufAt_ge (i : Nat) : 0x30400 ≤ bufAt i := Nat.le_add_right ..

theorem flashEnded_buf (d : Dev) (i : Nat) : (flashEnded d).word (bufAt i) = d.word (bufAt i) := by
  refine (flashEnded_regsOnly d).2 _ fun h => ?_
  have low : ∀ b ∈ [BOOT_FL_STAT.word.addr, BOOT_STATUS.word.addr], b < 0x30400 := by decide
  exact absurd (low _ h) (Nat.not_lt.mpr (bufAt_ge i))

/-- The device with no flash command. -/
def Dev.flashIdle (d : Dev) : Dev := { d with boot := { d.boot with flash := none } }

theorem flashDone_read (ok : Bool) (page : List Byte) (h : d.boot.flash = some (1, a)) :
    flashDone ok page d = flashEnded (d.flashIdle.fill bufAt (pageWord page) 64) := by
  rw [flashDone, h]
  simp only [if_true, flashEnded, Dev.fill, bufAt, pageWord, Dev.flashIdle]

theorem flashDone_ok (page : List Byte) (h : d.boot.flash = some (op, a)) (write : op ≠ 1) :
    flashDone true page d = flashEnded d.flashIdle := by
  rw [flashDone, h]
  simp only [if_neg write, if_true, flashEnded, Dev.flashIdle]

theorem flashDone_failed (page : List Byte) (h : d.boot.flash = some (op, a)) (write : op ≠ 1) :
    flashDone false page d = flashEnded (d.flashIdle.event BOOT_FL_STAT.FLASH_ERR) := by
  rw [flashDone, h]
  simp only [if_neg write, Bool.false_eq_true, if_false, flashEnded, Dev.flashIdle]

theorem flashDone_idle (ok : Bool) (page : List Byte) (h : d.boot.flash = none) : flashDone ok page d = d := by rw [flashDone, h]

/-- What FLASH_CMD_DONE does to the registers, by the command that ends. -/
theorem flashDone_spec (ok : Bool) (page : List Byte) (h : d.boot.flash = some (op, a)) :
    (flashDone ok page d).get BOOT_FL_STAT.BUSY = 0 ∧ Dev.raised BOOT_STATUS.FL_DONE d (flashDone ok page d)
      ∧ (flashDone ok page d).boot = { d.boot with flash := none }
      ∧ (op = 1 → page.length = 256 → flashBuf (flashDone ok page d) = page)
      ∧ (op ≠ 1 → flashBuf (flashDone ok page d) = flashBuf d)
      ∧ (op ≠ 1 → ok = false → (flashDone ok page d).get BOOT_FL_STAT.FLASH_ERR = 1) := by
  by_cases read : op = 1
  · subst read
    rw [flashDone_read ok page h]
    refine ⟨flashEnded_busy _, flashEnded_raised ?_, ?_, fun _ full => ?_, fun no => absurd rfl no, fun no => absurd rfl no⟩
    · exact Dev.word_fill_other bufAt _ 64 d.flashIdle fun i _ => (Nat.lt_of_lt_of_le (by decide) (bufAt_ge i)).ne
    · rw [flashEnded_boot, Dev.fill_boot]; rfl
    · refine flashBuf_of_words full fun i lt => ?_
      rw [flashEnded_buf, Dev.word_fill _ _ bufAt_injective lt]
  · cases ok
    · rw [flashDone_failed page h read]
      refine ⟨flashEnded_busy _, flashEnded_raised ?_, ?_, fun yes => absurd yes read, fun _ => flashBuf_congr fun i _ => ?_, fun _ _ => ?_⟩
      · exact Dev.event_word_other d.flashIdle BOOT_FL_STAT.FLASH_ERR (by decide)
      · rw [flashEnded_boot, Dev.event_boot]; rfl
      · rw [flashEnded_buf]
        exact Dev.event_word_other d.flashIdle BOOT_FL_STAT.FLASH_ERR (Nat.lt_of_lt_of_le (by decide) (bufAt_ge i)).ne'
      · rw [flashEnded_error]
        exact Dev.event_bit d.flashIdle BOOT_FL_STAT.FLASH_ERR (by decide)
    · rw [flashDone_ok page h read]
      refine ⟨flashEnded_busy _, flashEnded_raised rfl, by rw [flashEnded_boot]; rfl, fun yes => absurd yes read,
        fun _ => flashBuf_congr fun i _ => flashEnded_buf .., fun _ no => nomatch no⟩

end FlashEnd

/-- Which flash command runs an instruction is, and its size. -/
theorem exec_flash {s : State} {c : Instr} {op size : Nat}
    (h : (c, op, size) ∈ [(Instr.readPage, 1, 0x100), (.programPage, 2, 0x100), (.erase4k, 3, 0x1000), (.erase64k, 4, 0x10000)]) :
    exec c s = s.withDev (flashCommand · op) ∧ flashSize op = size ∧ ¬ (op = 0 ∨ 4 < op) := by
  simp only [List.mem_cons, Prod.mk.injEq, List.not_mem_nil, or_false] at h
  rcases h with ⟨rfl, rfl, rfl⟩ | ⟨rfl, rfl, rfl⟩ | ⟨rfl, rfl, rfl⟩ | ⟨rfl, rfl, rfl⟩ <;> exact ⟨rfl, rfl, by decide⟩

/-- Settles O19: the start of a flash command by the cases of `flashCommand`, its end by `flashDone_spec`. -/
theorem flashCommands : Obligations.FlashCommands := by
  intro s c op size held hc
  obtain ⟨run, rfl, legal⟩ := exec_flash (s := s) hc
  rw [run, State.withDev_live _ held]
  refine ⟨fun busy => ?_, fun idle kept => ?_, fun idle free => ?_, fun ok page under => ?_, fun ok page none => ?_⟩
  · rw [flashCommand_busy legal busy]
  · rw [flashCommand_protected legal idle ((flashProtected_iff ..).mpr kept)]
  · refine ⟨_, if op = 2 then flashBuf s.dev else [], ?_, flashStarted_busy s.dev op, fun h => if_neg h, fun h => ?_,
      flashStarted_regsOnly ..⟩
    · rw [flashCommand_starts legal idle fun kept => free ((flashProtected_iff ..).mp kept)]
    · rw [if_pos h, flashBuf_length]
  · exact ⟨_, State.withDev_live (flashDone ok page) held, flashDone_spec ok page under⟩
  · exact State.withDev_same (flashDone_idle ok page none)

end Sys2Proof.Machine

namespace Sys2Proof.Machine

/-! ### Below the power block: what bring-up and the limiters leave alone

The start of lanes and a new TARGET (R135, R159, R580) write registers of PWR, the halves and the slices, all at 0x50000 and
above: BOOT's registers keep what the load wrote. -/

/-- No register below the power block changes. -/
structure LowSame (d e : Dev) : Prop where
  words : ∀ a, a < 0x50000 → e.word a = d.word a

namespace LowSame

theorem refl (d : Dev) : LowSame d d := ⟨fun _ _ => rfl⟩

theorem trans {d e f : Dev} (h : LowSame d e) (k : LowSame e f) : LowSame d f := ⟨fun a low => (k.words a low).trans (h.words a low)⟩

theorem foldl {α : Type} {f : Dev → α → Dev} (h : ∀ d x, LowSame d (f d x)) (l : List α) (d : Dev) : LowSame d (l.foldl f d) :=
  List.foldlRecOn l f (refl d) fun _ k x _ => k.trans (h _ x)

theorem ite {c : Prop} [Decidable c] {d e f : Dev} (h : LowSame d e) (k : LowSame d f) : LowSame d (if c then e else f) := by
  split
  · exact h
  · exact k

theorem put (d : Dev) (f : Fld) (v : Nat) (h : 0x50000 ≤ f.addr) : LowSame d (d.put f v) :=
  ⟨fun _ low => Dev.word_put_other d f v (Nat.lt_of_lt_of_le low h).ne⟩

theorem event (d : Dev) (f : Fld) (h : 0x50000 ≤ f.addr) : LowSame d (d.event f) :=
  ⟨fun _ low => Dev.event_word_other d f (Nat.lt_of_lt_of_le low h).ne⟩

theorem lane (d : Dev) (l : Nat) (f : LaneHid → LaneHid) : LowSame d (d.lane l f) := ⟨fun _ _ => rfl⟩

theorem power (d : Dev) (f : Pwr → Pwr) : LowSame d (d.power f) := ⟨fun _ _ => rfl⟩

theorem get {d e : Dev} (h : LowSame d e) {f : Fld} (low : f.addr < 0x50000) : e.get f = d.get f := get_of_word (h.words _ low)

end LowSame

theorem slice_high (s i j : Nat) : 0x50000 ≤ sliceBase s + i + j := by
  simp only [sliceBase]
  omega

theorem half_high (h i j : Nat) : 0x50000 ≤ halfBase h + i + j := by
  simp only [halfBase]
  omega

theorem lane_high (l off : Nat) : 0x50000 ≤ laneBase l + off := slice_high ..

namespace LowSame

/-! #### Bring-up (R159) -/

theorem setFreeze (d : Dev) (l m : Nat) : LowSame d (setFreeze d l m) := by
  have shown : LowSame d (d.put (LN_STATE.FREEZE l) m) := put d _ m (lane_high l 4)
  have counted : LowSame d ((d.put (LN_STATE.FREEZE l) m).bump (LN_CNT_FREEZE l)) :=
    shown.trans (put _ (LN_CNT_FREEZE l) _ (lane_high l _))
  exact ite (counted.trans (lane ..)) (ite (shown.trans (lane ..)) shown)

theorem setLaneStates (d : Dev) (ls : List Nat) (st : Nat) : LowSame d (setLaneStates d ls st) :=
  foldl (fun d l => ite (refl d) ((put d (LN_STATE.STATE l) st (lane_high l 4)).trans (setFreeze ..))) ls d

theorem emit (d : Dev) (o : Output) : LowSame d (d.emit o) := ⟨fun _ _ => rfl⟩

theorem anStart (d : Dev) (p : Nat) : LowSame d (anStart d p) := ite ((lane ..).trans (emit ..)) (lane ..)

theorem detectStart (d : Dev) (p : Nat) : LowSame d (detectStart d p) := by
  refine ite ?_ (refl d)
  have powered : LowSame d ((portLanes d p).foldl (fun d l => freshLane (d.put (LN_STATE.POWERED l) 1) l) d) :=
    foldl (fun d l => (put d (LN_STATE.POWERED l) 1 (lane_high l 4)).trans (lane ..)) _ d
  exact powered.trans ((setLaneStates ..).trans ((put _ (LN_CNT_DETECT p) _ (lane_high p _)).trans (anStart ..)))

/-! #### The limiters (R580, R596) -/

theorem setLevels (d : Dev) : LowSame d (setLevels d) := by
  have slices : LowSame d ((List.range 32).foldl (fun d s => d.put (ASE_THR.LEVEL s) (aseLevel d)) d) :=
    foldl (fun d s => put d (ASE_THR.LEVEL s) _ (slice_high s 0x50000 0x18)) _ d
  have halves (spl : Nat) (d : Dev) :
      LowSame d ([0, 1].foldl (fun d h => (d.put (SPL_BW.WR_LIMIT h) spl).put (SPL_BW.RD_LIMIT h) spl) d) :=
    foldl (fun d h => (put d (SPL_BW.WR_LIMIT h) spl (half_high h 0x100000 0xC)).trans
      (put _ (SPL_BW.RD_LIMIT h) spl (half_high h 0x100000 0xC))) _ d
  unfold Machine.setLevels
  dsimp only
  refine trans (trans ?_ (put _ PWR_STATE.MEM_RATE_STEPS _ (by decide))) (put _ PWR_STATE.LINKS_OFF _ (by decide))
  refine trans (trans ?_ (put _ PWR_STATE.ASE_LEVEL _ (by decide))) (put _ PWR_STATE.SPL_STEPS _ (by decide))
  exact slices.trans (ite (halves ..) (refl _))

theorem setReasons (d : Dev) : LowSame d (setReasons d) := by
  have shown : LowSame d (d.put PWR_STATE.REASONS (reasonBits d)) := put d _ _ (by decide)
  exact ite (shown.trans (event _ PWR_STATUS.THROTTLE (by decide))) shown

theorem writeVolts (d : Dev) (p : Nat) : LowSame d (writeVolts d p) := ite (refl d) ((emit ..).trans (emit ..))

theorem actionEffect (start : Bool) (d : Dev) : LowSame d (actionEffect start d) := ite (power ..) (refl d)

theorem retarget (d : Dev) : LowSame d (retarget d) := by
  unfold Machine.retarget
  dsimp only
  refine trans (trans ?_ (ite (ite (refl _) ((power ..).trans (writeVolts ..))) (power ..))) (actionEffect ..)
  refine trans (trans ?_ (put _ PWR_STATE.TARGET _ (by decide))) (put _ PWR_STATE.FIXED_ON _ (by decide))
  exact (ite (refl d) (power ..)).trans ((setLevels _).trans (setReasons _))

end LowSame

/-! ### A loaded image runs (R126, R135) -/

/-- BOOT shows an image from source `src` in state TRAIN. -/
structure InTrain (src : Nat) (seq : Word) (d : Dev) : Prop where
  state : d.get BOOT_STATE.STATE = 4
  source : d.get BOOT_STATE.SOURCE = src
  runSeq : d.word BOOT_RUN_SEQ.word.addr = seq

theorem InTrain.low {src : Nat} {seq : Word} {d e : Dev} (h : InTrain src seq d) (k : LowSame d e) : InTrain src seq e :=
  ⟨(k.get (by decide)).trans h.state, (k.get (by decide)).trans h.source, (k.words _ (by decide)).trans h.runSeq⟩

/-- A write of another register leaves it shown. -/
theorem InTrain.put {src : Nat} {seq : Word} {d : Dev} (h : InTrain src seq d) {f : Fld} (v : Nat)
    (state : BOOT_STATE.word.addr ≠ f.addr) (run : BOOT_RUN_SEQ.word.addr ≠ f.addr) : InTrain src seq (d.put f v) :=
  ⟨(get_of_word (f := BOOT_STATE.STATE) (Dev.word_put_other d f v state)).trans h.state,
    (get_of_word (f := BOOT_STATE.SOURCE) (Dev.word_put_other d f v state)).trans h.source,
    (Dev.word_put_other d f v run).trans h.runSeq⟩

theorem InTrain.wput {src : Nat} {seq : Word} {d : Dev} (h : InTrain src seq d) (k v : Nat) : InTrain src seq (d.wput k v) :=
  ⟨h.state, h.source, h.runSeq⟩

theorem runImage_inTrain (i : Image) {src : Nat} (seq : Word) (d : Dev) (h : src < 4) : InTrain src seq (runImage i src seq d) := by
  have shown (d : Dev) : InTrain src seq (((d.put BOOT_STATE.STATE 4).put BOOT_STATE.SOURCE src).setWord BOOT_RUN_SEQ.RUN_SEQ.addr seq) := by
    refine ⟨?_, ?_, Dev.word_setWord ..⟩
    · rw [get_of_word (Dev.word_setWord_other _ seq (by decide)), Dev.get_put_other _ _ _ _ (by decide) (by decide) (by decide),
        Dev.get_put _ _ _ (by decide) (by decide)]
      rfl
    · rw [get_of_word (Dev.word_setWord_other _ seq (by decide)), Dev.get_put _ _ _ (by decide) (by decide)]
      exact Nat.mod_eq_of_lt h
  have loaded := (shown (metersAct ((heldResv i).foldl submitResv d))).put (f := BOOT_ROLLBACK.RUN) i.rollback (by decide) (by decide)
  unfold runImage
  dsimp only
  exact (loaded.wput (wkey mbxBoot 2) i.buildId).low ((LowSame.foldl LowSame.detectStart ..).trans (LowSame.retarget _))

/-- An image with a good body and content that loads runs. -/
theorem tryImage_runs {i : Image} {x y : Whole} (src : Nat) (seq : Word) (body : bodyCode x.2.2 i = 0) (loads : loadImage i x = some y) :
    tryImage i src seq x = (0, onDev (runImage i src seq) y) := by
  rw [tryImage, body, loads]
  simp only [ne_eq, not_true_eq_false, if_false]

/-- R132: a first candidate that loads is the choice, and those after it report 1. -/
theorem tryAll_chosen {slot : Nat} {i : Image} {x z : Whole} (r : List (Nat × Image)) (h : tryImage i slot i.seq x = (0, z)) :
    tryAll ((slot, i) :: r) x = (true, onDev (fun d => r.foldl (fun d c => slotResult d c.1 1) (slotResult d slot 0)) z) := by
  rw [tryAll, h]
  rfl

/-- The header's failure depends on the grade and the fused ROLLBACK alone. -/
theorem headerCode_congr {d e : Dev} (cap : e.word ID_CAP.word.addr = d.word ID_CAP.word.addr) (fused : e.rollback = d.rollback)
    (i : Image) : headerCode e i = headerCode d i := by
  have spill : spillPresent e = spillPresent d := flag_of_word cap
  have archive : e.flag ID_CAP.ARCHIVE_PRESENT = d.flag ID_CAP.ARCHIVE_PRESENT := flag_of_word cap
  have banks : aseBanks e = aseBanks d := congrArg (2 * ·) (get_of_word cap)
  rw [headerCode, headerCode, spill, archive, banks, fused]

/-- The body's failure depends on the fused key hash alone. -/
theorem bodyCode_congr {d e : Dev} (key : e.keyHash = d.keyHash) (i : Image) : bodyCode e i = bodyCode d i := by
  rw [bodyCode, bodyCode, key]

/-! ### The choice of an image (R121, R132) -/

section Choice
variable {x : Whole} {a b : Image} {n : BitVec 8}

/-- The device as the boot ROM starts: the voltages of point 5 are written, and SFDP has given the flash's size. -/
def bootFlash (n : BitVec 8) (d : Dev) : Dev :=
  (writeVolts { d with boot := { d.boot with waiting := false } } 5).put BOOT_FL_CFG.SIZE_LOG2 n.toNat

/-- SLOT_SEQ of the slots whose headers are read. -/
def seqShown (slot : Nat) (i : Image) (d : Dev) : Dev :=
  d.setWord (if slot = 0 then BOOT_SLOT_SEQ_A.SEQ_A.addr else BOOT_SLOT_SEQ_B.SEQ_B.addr) i.seq

theorem writeVolts_frame (d : Dev) (p : Nat) : ∃ o, writeVolts d p = { d with out := o } := by
  unfold writeVolts
  split
  · exact ⟨_, rfl⟩
  · exact ⟨_, rfl⟩

/-- Neither the grade nor the fuses change as the boot ROM starts. -/
theorem bootFlash_kept (n : BitVec 8) (d : Dev) : (bootFlash n d).word ID_CAP.word.addr = d.word ID_CAP.word.addr
    ∧ (bootFlash n d).rollback = d.rollback ∧ (bootFlash n d).keyHash = d.keyHash ∧ (bootFlash n d).boot.waiting = false := by
  obtain ⟨o, h⟩ := writeVolts_frame { d with boot := { d.boot with waiting := false } } 5
  rw [bootFlash, h]
  exact ⟨Dev.word_put_other _ _ _ (by decide), rfl, rfl, rfl⟩

theorem bootFlash_headerCode (n : BitVec 8) (d : Dev) (i : Image) : headerCode (bootFlash n d) i = headerCode d i :=
  let ⟨cap, fused, _⟩ := bootFlash_kept n d
  headerCode_congr cap fused i

theorem bootFlash_bodyCode (n : BitVec 8) (d : Dev) (i : Image) : bodyCode (bootFlash n d) i = bodyCode d i :=
  bodyCode_congr (bootFlash_kept n d).2.2.1 i

theorem seqShown_headerCode (slot : Nat) (j i : Image) (d : Dev) : headerCode (seqShown slot j d) i = headerCode d i := by
  refine headerCode_congr (Dev.word_setWord_other _ _ ?_) rfl i
  split
  · decide
  · decide

theorem seqShown_bodyCode (slot : Nat) (j i : Image) (d : Dev) : bodyCode (seqShown slot j d) i = bodyCode d i := bodyCode_congr rfl i

/-- With nothing to read, the host is waited for. -/
theorem bootSelect_none {sfdp : Option (BitVec 8)} (h : sfdp = none ∨ (a.readable = false ∧ b.readable = false)) :
    bootSelect sfdp a b x = onDev (fun d => waitHost (bootFlash (sfdp.getD 0) d)) x := by
  have heads : [(0, a), (1, b)].filter (fun c => sfdp.isSome && c.2.readable) = [] := by
    rcases h with rfl | ⟨ha, hb⟩
    · rfl
    · simp [ha, hb]
  rw [bootSelect, heads]
  simp only [List.foldl_nil, List.filter_nil, tryAll, onDev, bootFlash, Bool.false_eq_true, if_false]

/-- A header's check, as the boot ROM leaves it in a slot's registers. -/
def headRead (d : Dev) (c : Nat × Image) : Dev :=
  if headerCode (seqShown c.1 c.2 d) c.2 = 0 then seqShown c.1 c.2 d
  else slotResult (seqShown c.1 c.2 d) c.1 (headerCode (seqShown c.1 c.2 d) c.2)

/-- Good headers are shown in SLOT_SEQ alone, and stay good. -/
theorem headsRead_good (l : List (Nat × Image)) : ∀ d : Dev, (∀ c ∈ l, headerCode d c.2 = 0) →
    l.foldl headRead d = l.foldl (fun d c => seqShown c.1 c.2 d) d ∧ ∀ i, headerCode (l.foldl headRead d) i = headerCode d i := by
  induction l with
  | nil => exact fun d _ => ⟨rfl, fun _ => rfl⟩
  | cons c l ih =>
    intro d good
    have read : headRead d c = seqShown c.1 c.2 d := if_pos ((seqShown_headerCode ..).trans (good c List.mem_cons_self))
    obtain ⟨folded, kept⟩ := ih (seqShown c.1 c.2 d) fun e he => (seqShown_headerCode ..).trans (good e (List.mem_cons_of_mem _ he))
    rw [List.foldl_cons, List.foldl_cons, read]
    exact ⟨folded, fun i => (kept i).trans (seqShown_headerCode ..)⟩

/-- R132: of two good headers the one with the higher SEQ comes first, A where they are equal. -/
def bySeq : List (Nat × Image) → List (Nat × Image)
  | [p, q] => if p.2.seq.toNat < q.2.seq.toNat then [q, p] else [p, q]
  | l => l

/-- The slots whose headers the boot ROM reads. -/
def headsOf (a b : Image) : List (Nat × Image) := [(0, a), (1, b)].filter fun c => c.2.readable

/-- The device after the headers, where all are good. -/
def headsShown (n : BitVec 8) (l : List (Nat × Image)) (d : Dev) : Dev :=
  l.foldl (fun d c => seqShown c.1 c.2 d) (bootFlash n d)

theorem bootSelect_good (good : ∀ c ∈ headsOf a b, headerCode x.2.2 c.2 = 0) :
    bootSelect (some n) a b x =
      (let r := tryAll (bySeq (headsOf a b)) (onDev (headsShown n (headsOf a b)) x)
       if r.1 then r.2 else onDev waitHost r.2) := by
  have flashed : ∀ c ∈ headsOf a b, headerCode (bootFlash n x.2.2) c.2 = 0 := fun c hc => (bootFlash_headerCode ..).trans (good c hc)
  obtain ⟨folded, kept⟩ := headsRead_good (headsOf a b) (bootFlash n x.2.2) flashed
  have all : (headsOf a b).filter (fun c => decide (headerCode ((headsOf a b).foldl headRead (bootFlash n x.2.2)) c.2 = 0)) = headsOf a b :=
    List.filter_eq_self.mpr fun c hc => decide_eq_true ((kept c.2).trans (flashed c hc))
  have unfolded : bootSelect (some n) a b x =
      (let r := tryAll (bySeq ((headsOf a b).filter fun c =>
          decide (headerCode ((headsOf a b).foldl headRead (bootFlash n x.2.2)) c.2 = 0)))
        (x.1, x.2.1, (headsOf a b).foldl headRead (bootFlash n x.2.2))
       if r.1 then r.2 else onDev waitHost r.2) := rfl
  rw [unfolded, all, folded]
  rfl

/-- The first in the order is chosen where its image is good and loads. -/
theorem bootSelect_chosen {slot : Nat} {i : Image} {r : List (Nat × Image)} {y : Whole}
    (good : ∀ c ∈ headsOf a b, headerCode x.2.2 c.2 = 0) (order : bySeq (headsOf a b) = (slot, i) :: r)
    (body : bodyCode (headsShown n (headsOf a b) x.2.2) i = 0)
    (loads : loadImage i (onDev (headsShown n (headsOf a b)) x) = some y) :
    bootSelect (some n) a b x
      = onDev (fun d => r.foldl (fun d c => slotResult d c.1 1) (slotResult d slot 0)) (onDev (runImage i slot i.seq) y) := by
  rw [bootSelect_good good, order, tryAll_chosen r (tryImage_runs slot i.seq body loads)]
  exact if_pos rfl

theorem headsShown_bodyCode (n : BitVec 8) (l : List (Nat × Image)) (d : Dev) (i : Image) : bodyCode (headsShown n l d) i = bodyCode d i :=
  (List.foldlRecOn l _ (motive := fun e => bodyCode e i = bodyCode (bootFlash n d) i) rfl fun _ h _ _ =>
    (seqShown_bodyCode ..).trans h).trans (bootFlash_bodyCode ..)

theorem headsOf_one (ha : a.readable = true) (hb : b.readable = false) : headsOf a b = [(0, a)] := by simp [headsOf, ha, hb]

theorem headsOf_both (ha : a.readable = true) (hb : b.readable = true) : headsOf a b = [(0, a), (1, b)] := by simp [headsOf, ha, hb]

end Choice

theorem slotResult_inTrain {src : Nat} {seq : Word} {d : Dev} (h : InTrain src seq d) (slot code : Nat) :
    InTrain src seq (slotResult d slot code) := by
  unfold slotResult
  split
  · exact h.put code (by decide) (by decide)
  · exact h.put code (by decide) (by decide)

/-- RESULT of both slots, after that of one is written. -/
theorem slotResult_a (d : Dev) (c : Nat) : (slotResult d 0 c).get BOOT_SLOT_RESULT.A = c % 256
    ∧ (slotResult d 0 c).get BOOT_SLOT_RESULT.B = d.get BOOT_SLOT_RESULT.B :=
  ⟨Dev.get_put d BOOT_SLOT_RESULT.A c (by decide) (by decide),
    Dev.get_put_other d BOOT_SLOT_RESULT.A _ c (by decide) (by decide) (by decide)⟩

theorem slotResult_b (d : Dev) (c : Nat) : (slotResult d 1 c).get BOOT_SLOT_RESULT.B = c % 256
    ∧ (slotResult d 1 c).get BOOT_SLOT_RESULT.A = d.get BOOT_SLOT_RESULT.A :=
  ⟨Dev.get_put d BOOT_SLOT_RESULT.B c (by decide) (by decide),
    Dev.get_put_other d BOOT_SLOT_RESULT.B _ c (by decide) (by decide) (by decide)⟩

theorem State.withWhole_same {s : State} {f : Whole → Whole} (h : f (s.grid, s.banks, s.dev) = (s.grid, s.banks, s.dev)) :
    s.withWhole f = .next s := State.withAll_same h

/-- No image runs (R133). -/
theorem waitHost_spec (d : Dev) : (waitHost d).get BOOT_STATE.STATE = 6 ∧ (waitHost d).get BOOT_STATE.SOURCE = 3
    ∧ Dev.raised BOOT_STATUS.WAIT_HOST d (waitHost d) := by
  refine ⟨?_, ?_, (Dev.raised_event _ BOOT_STATUS.WAIT_HOST (by decide)).after ?_⟩
  · rw [waitHost, Dev.event_get_other _ _ _ (by decide) (by decide), Dev.get_put_other _ _ _ _ (by decide) (by decide) (by decide),
      Dev.get_put _ _ _ (by decide) (by decide)]
    rfl
  · rw [waitHost, Dev.event_get_other _ _ _ (by decide) (by decide), Dev.get_put _ _ _ (by decide) (by decide)]
    rfl
  · rw [Dev.get_put_other _ _ _ _ (by decide) (by decide) (by decide), Dev.get_put_other _ _ _ _ (by decide) (by decide) (by decide)]

section BootExec
variable {s : State} {sfdp : Option (BitVec 8)} {a b : Image}

theorem exec_bootImageSelect (may : s.dev.boot.waiting = true ∧ mayBoot s.dev.pins = true) :
    exec (.bootImageSelect sfdp a b) s = s.withWhole (bootSelect sfdp a b) := by
  show execBootImageSelect sfdp a b s = _
  simp only [execBootImageSelect, State.withWhole, State.withAll, if_pos may]

theorem exec_bootImageSelect_idle (no : s.dev.boot.waiting = false ∨ mayBoot s.dev.pins = false) :
    exec (.bootImageSelect sfdp a b) s = .next s := by
  show execBootImageSelect sfdp a b s = _
  refine State.withWhole_same (if_neg fun may => ?_)
  rcases no with no | no
  · exact Bool.false_ne_true (no.symm.trans may.1)
  · exact Bool.false_ne_true (no.symm.trans may.2)

theorem exec_boot_run {run show_ : Dev → Dev} {y : Whole} (held : s.held = false) (may : s.dev.boot.waiting = true ∧ mayBoot s.dev.pins = true)
    (h : bootSelect sfdp a b (s.grid, s.banks, s.dev) = onDev show_ (onDev run y)) :
    exec (.bootImageSelect sfdp a b) s = .next { s with grid := y.1, banks := y.2.1, dev := show_ (run y.2.2) } := by
  rw [exec_bootImageSelect may, State.withWhole_live _ held, h]
  rfl

/-- R133: nothing to load. -/
theorem exec_boot_none (held : s.held = false) (may : s.dev.boot.waiting = true ∧ mayBoot s.dev.pins = true)
    (h : sfdp = none ∨ (a.readable = false ∧ b.readable = false)) : ∃ e,
    exec (.bootImageSelect sfdp a b) s = .next { s with dev := e } ∧ e.get BOOT_STATE.STATE = 6 ∧ e.get BOOT_STATE.SOURCE = 3
      ∧ e.get BOOT_STATUS.WAIT_HOST = 1 ∧ e.boot.waiting = false := by
  obtain ⟨state, source, raised⟩ := waitHost_spec (bootFlash (sfdp.getD 0) s.dev)
  refine ⟨_, (exec_bootImageSelect may).trans (State.withWhole_onDev held (bootSelect_none h)), state, source, raised.1, ?_⟩
  rw [waitHost, Dev.event_boot, Dev.put_boot, Dev.put_boot]
  exact (bootFlash_kept ..).2.2.2

/-- R126, R132: the first in the order is good and loads. -/
theorem exec_boot_chosen {n : BitVec 8} {slot : Nat} {i : Image} {r : List (Nat × Image)} {y : Whole} (held : s.held = false)
    (may : s.dev.boot.waiting = true ∧ mayBoot s.dev.pins = true) (good : ∀ c ∈ headsOf a b, headerCode s.dev c.2 = 0)
    (order : bySeq (headsOf a b) = (slot, i) :: r) (hs : slot < 4) (body : bodyCode s.dev i = 0)
    (loads : loadImage i (s.grid, s.banks, headsShown n (headsOf a b) s.dev) = some y) :
    ∃ d, InTrain slot i.seq d ∧ exec (.bootImageSelect (some n) a b) s
      = .next { s with grid := y.1, banks := y.2.1, dev := r.foldl (fun d c => slotResult d c.1 1) (slotResult d slot 0) } := by
  have boot : bootSelect (some n) a b (s.grid, s.banks, s.dev) = _ :=
    bootSelect_chosen good order ((headsShown_bodyCode ..).trans body) loads
  exact ⟨_, runImage_inTrain i i.seq y.2.2 hs, exec_boot_run held may boot⟩

end BootExec

/-- RUNNING is shown with its time (R135). -/
def nowRunning (ms : Nat) (d : Dev) : Dev := (d.put BOOT_STATE.STATE 5).put BOOT_TIME.TO_RUN (min 65535 ms)

theorem nowRunning_spec (ms : Nat) (d : Dev) : (nowRunning ms d).get BOOT_STATE.STATE = 5
    ∧ (nowRunning ms d).get BOOT_TIME.TO_RUN = min 65535 ms
    ∧ Dev.regsOnly [BOOT_STATE.word.addr, BOOT_TIME.word.addr] d (nowRunning ms d) := by
  refine ⟨?_, ?_, (Dev.regsOnly_put d BOOT_STATE.STATE 5).then (Dev.regsOnly_put _ BOOT_TIME.TO_RUN _) (by decide) (by decide)⟩
  · rw [nowRunning, Dev.get_put_other _ _ _ _ (by decide) (by decide) (by decide), Dev.get_put _ _ _ (by decide) (by decide)]
    rfl
  · rw [nowRunning, Dev.get_put _ _ _ (by decide) (by decide)]
    exact Nat.mod_eq_of_lt (Nat.lt_succ_of_le (Nat.min_le_left ..))

/-- Settles O20: no image by `bootSelect_none`, the choice by `bootSelect_chosen` in the order of SEQ, and RUNNING. -/
theorem bootChoosesImage : Obligations.BootChoosesImage := by
  refine ⟨fun s sfdp a b held waiting may => ⟨exec_boot_none held ⟨waiting, may⟩, ?_⟩, fun s sfdp a b => exec_bootImageSelect_idle,
    fun s ms held => ⟨fun train settled => ?_, fun no => ?_⟩⟩
  · rintro n d y rfl rfl
    refine ⟨fun ha hb good body loads => ?_, fun ha hb goodA goodB => ⟨fun le body loads => ?_, fun lt body loads => ?_⟩⟩
    · have heads := headsOf_one ha hb
      obtain ⟨d, train, run⟩ := exec_boot_chosen (n := n) (r := []) held ⟨waiting, may⟩ (by rw [heads]; simpa using good) (by rw [heads]; rfl)
        (by decide) body (by rw [heads]; exact loads)
      have shown := slotResult_inTrain train 0 0
      exact ⟨_, run, shown.state, shown.source, shown.runSeq, (slotResult_a d 0).1, rfl⟩
    · have heads := headsOf_both ha hb
      obtain ⟨d, train, run⟩ := exec_boot_chosen (n := n) (r := [(1, b)]) held ⟨waiting, may⟩ (by rw [heads]; simpa using ⟨goodA, goodB⟩)
        (by rw [heads]; exact if_neg (Nat.not_lt.mpr le)) (by decide) body (by rw [heads]; exact loads)
      have shown := slotResult_inTrain (slotResult_inTrain train 0 0) 1 1
      obtain ⟨resB, resA⟩ := slotResult_b (slotResult d 0 0) 1
      exact ⟨_, run, shown.state, shown.source, shown.runSeq, resA.trans (slotResult_a d 0).1, resB, rfl⟩
    · have heads := headsOf_both ha hb
      obtain ⟨d, train, run⟩ := exec_boot_chosen (n := n) (r := [(0, a)]) held ⟨waiting, may⟩ (by rw [heads]; simpa using ⟨goodA, goodB⟩)
        (by rw [heads]; exact if_pos lt) (by decide) body (by rw [heads]; exact loads)
      have shown := slotResult_inTrain (slotResult_inTrain train 1 0) 0 1
      obtain ⟨resA, resB⟩ := slotResult_a (slotResult d 1 0) 1
      exact ⟨_, run, shown.state, shown.source, shown.runSeq, resB.trans (slotResult_b d 0).1, resA, rfl⟩
  · refine ⟨_, State.withDev_live _ held, ?_⟩
    rw [if_pos ⟨train, settled⟩]
    exact nowRunning_spec ms s.dev
  · refine State.withDev_same (if_neg fun yes => ?_)
    rcases no with other | ⟨unsettled, soon⟩
    · exact other yes.1
    · rcases yes.2 with settled | late
      · exact Bool.false_ne_true (unsettled.symm.trans settled)
      · exact Nat.not_le.mpr soon late

end Sys2Proof.Machine

namespace Sys2Proof.Machine

/-! ### BOOT_CMD (R153): the issue of an operation -/

/-- The device on which a BOOT_CMD operation waits, or shows its RESULT. -/
def Dev.cmdSet (op slot : Nat) (res : Option Nat) (d : Dev) : Dev := { d with boot := { d.boot with cmd := some (op, slot, res) } }

@[simp] theorem Dev.word_cmdSet (op slot : Nat) (res : Option Nat) (d : Dev) (a : Nat) :
    (d.cmdSet op slot res).word a = d.word a := rfl

@[simp] theorem Dev.get_cmdSet (op slot : Nat) (res : Option Nat) (d : Dev) (f : Fld) :
    (d.cmdSet op slot res).get f = d.get f := rfl

theorem Dev.put_cmdSet (op slot : Nat) (res : Option Nat) (d : Dev) (f : Fld) (v : Nat) :
    (d.put f v).cmdSet op slot res = (d.cmdSet op slot res).put f v := rfl

theorem Dev.regsOnly.cmdSet {l : List Nat} {op slot : Nat} {was res : Option Nat} {d e : Dev}
    (h : Dev.regsOnly l (d.cmdSet op slot was) e) : Dev.regsOnly l (d.cmdSet op slot res) (e.cmdSet op slot res) := by
  obtain ⟨⟨r, o, p, rfl⟩, words⟩ := h
  exact ⟨⟨r, o, p, rfl⟩, words⟩

section Issue
variable {d : Dev} {op slot : Nat}

theorem bootIssue_busy (busy : d.flag BOOT_CMD_RESULT.BUSY = true) : bootIssue d op slot = d := by
  rw [bootIssue, if_pos (.inl busy)]

theorem bootIssue_idle (idle : d.flag BOOT_CMD_RESULT.BUSY = false) (legal : ¬ (op = 0 ∨ 5 < op)) : bootIssue d op slot =
    ((if op = 3 ∧ decide (d.get BOOT_STATE.STATE = 6) then d.put BOOT_STATE.STATE 7 else d).put BOOT_CMD_RESULT.BUSY 1).cmdSet op slot
      (if op = 3 ∧ !decide (d.get BOOT_STATE.STATE = 6) then some 14 else none) := by
  have known : ¬ (d.flag BOOT_CMD_RESULT.BUSY = true ∨ op = 0 ∨ 5 < op) := by
    rw [idle]
    exact fun no => no.elim Bool.noConfusion legal
  rw [bootIssue, if_neg known, Dev.cmdSet, Dev.put_boot]

theorem bootIssue_plain (idle : d.flag BOOT_CMD_RESULT.BUSY = false) (legal : op = 1 ∨ op = 2 ∨ op = 4) :
    bootIssue d op slot = (d.put BOOT_CMD_RESULT.BUSY 1).cmdSet op slot none := by
  have other : op ≠ 3 := by omega
  rw [bootIssue_idle idle (by omega), if_neg fun h => other h.1, if_neg fun h => other h.1]

/-- LOAD_HOST outside WAIT_HOST (R137). -/
theorem bootIssue_host_refused (idle : d.flag BOOT_CMD_RESULT.BUSY = false) (h : d.get BOOT_STATE.STATE ≠ 6) :
    bootIssue d 3 slot = (d.put BOOT_CMD_RESULT.BUSY 1).cmdSet 3 slot (some 14) := by
  rw [bootIssue_idle idle (by decide), if_pos ⟨rfl, by rw [decide_eq_false h]; rfl⟩, if_neg fun yes => h (of_decide_eq_true yes.2)]

/-- LOAD_HOST in WAIT_HOST: STATE is LOAD_HOST. -/
theorem bootIssue_host (idle : d.flag BOOT_CMD_RESULT.BUSY = false) (h : d.get BOOT_STATE.STATE = 6) :
    bootIssue d 3 slot = ((d.put BOOT_STATE.STATE 7).put BOOT_CMD_RESULT.BUSY 1).cmdSet 3 slot none := by
  have on : decide (d.get BOOT_STATE.STATE = 6) = true := decide_eq_true h
  rw [bootIssue_idle idle (by decide), if_neg fun no => by simp [on] at no, if_pos ⟨rfl, on⟩]

theorem busy_of_flag (busy : d.flag BOOT_CMD_RESULT.BUSY = true) : d.get BOOT_CMD_RESULT.BUSY = 1 := by
  have lt : d.get BOOT_CMD_RESULT.BUSY < 2 := Fld.read_lt BOOT_CMD_RESULT.BUSY _
  have nonzero : d.get BOOT_CMD_RESULT.BUSY ≠ 0 := of_decide_eq_true busy
  omega

/-- An operation that is issued now, or was and waits. -/
theorem bootIssue_waits (legal : op = 1 ∨ op = 2 ∨ op = 4)
    (h : d.flag BOOT_CMD_RESULT.BUSY = false ∨ d.boot.cmd = some (op, slot, none)) :
    (bootIssue d op slot).boot.cmd = some (op, slot, none) ∧ (bootIssue d op slot).get BOOT_CMD_RESULT.BUSY = 1
      ∧ Dev.regsOnly [BOOT_CMD_RESULT.word.addr] (d.cmdSet op slot none) (bootIssue d op slot) := by
  cases busy : d.flag BOOT_CMD_RESULT.BUSY with
  | false =>
    rw [bootIssue_plain busy legal]
    refine ⟨rfl, ?_, ?_⟩
    · rw [Dev.get_cmdSet, Dev.get_put _ _ _ (by decide) (by decide)]
      rfl
    · rw [Dev.put_cmdSet]
      exact Dev.regsOnly_put _ BOOT_CMD_RESULT.BUSY 1
  | true =>
    have cmd := h.resolve_left (by rw [busy]; exact Bool.noConfusion)
    have same : d.cmdSet op slot none = d := by rw [Dev.cmdSet, ← cmd]
    rw [bootIssue_busy busy, same]
    exact ⟨cmd, busy_of_flag busy, Dev.regsOnly_refl ..⟩

end Issue

section Do
variable {op sl : Nat} {slot : Option Nat} {f : Whole → Nat × Whole} {x : Whole}

/-- The state with the operation issued. -/
def issued (op : Nat) (slot : Option Nat) (x : Whole) : Whole := onDev (fun d => bootIssue d op (slot.getD 0)) x

theorem issue_once (x : Whole) :
    (if x.2.2.flag BOOT_CMD_RESULT.BUSY then x else onDev (fun d => bootIssue d op (slot.getD 0)) x) = issued op slot x := by
  split
  · next busy => rw [issued, onDev, bootIssue_busy busy]
  · rfl

/-- An operation that waits is carried out, and its RESULT is kept for its completion. -/
theorem bootDo_runs (waits : (issued op slot x).2.2.boot.cmd = some (op, sl, none)) (mine : slot.getD sl = sl) :
    bootDo op slot f x = onDev (Dev.cmdSet op sl (some (f (issued op slot x)).1)) (f (issued op slot x)).2 := by
  unfold bootDo
  dsimp only
  rw [issue_once, waits]
  exact if_pos ⟨rfl, mine⟩

/-- Where another operation waits, or this one has its RESULT, it is issued at most. -/
theorem bootDo_skips (other : ∀ k, slot.getD k = k → (issued op slot x).2.2.boot.cmd ≠ some (op, k, none)) :
    bootDo op slot f x = issued op slot x := by
  unfold bootDo
  dsimp only
  rw [issue_once]
  split
  · next o k cmd =>
    refine if_neg fun ⟨same, mine⟩ => other k mine ?_
    rw [cmd, same]
  · rfl

end Do

/-! ### The check of a slot (R129, R131, R140) -/

section Check
variable {d : Dev} {i : Image} {g : Grid} {b : Banks}

theorem checkSlot_unreadable (h : i.readable = false) : checkSlot i (g, b, d) = 13 := by
  rw [checkSlot, h]; rfl

theorem checkSlot_header (readable : i.readable = true) (h : headerCode d i ≠ 0) : checkSlot i (g, b, d) = headerCode d i := by
  rw [checkSlot, readable]
  exact if_pos h

theorem checkSlot_body (readable : i.readable = true) (header : headerCode d i = 0) (h : bodyCode d i ≠ 0) :
    checkSlot i (g, b, d) = bodyCode d i := by
  rw [checkSlot, readable]
  exact (if_neg (not_not.mpr header)).trans (if_pos h)

theorem checkSlot_zero (h : checkSlot i (g, b, d) = 0) : i.readable = true ∧ headerCode d i = 0 ∧ bodyCode d i = 0 := by
  have readable : i.readable = true := by
    by_contra no
    rw [checkSlot_unreadable (Bool.not_eq_true _ ▸ no)] at h
    cases h
  have header : headerCode d i = 0 := by
    by_contra no
    exact no ((checkSlot_header readable no).symm.trans h)
  refine ⟨readable, header, ?_⟩
  by_contra no
  exact no ((checkSlot_body readable header no).symm.trans h)

/-- A header of another magic (R129). -/
theorem headerCode_magic (h : bytesAt i.header 0 4 ≠ [0x48, 0x52, 0x4C, 0x31]) : headerCode d i = 2 := if_pos (.inl h)

/-- What a good body is (R131). -/
theorem bodyCode_zero (h : bodyCode d i = 0) : i.digest = i.bigField 0x140 48 ∧ sha384 (bytesAt i.header 0x170 96) = d.keyHash.toNat
    ∧ ecdsaOk (i.bigField 0x170 48) (i.bigField 0x1A0 48) (i.bigField 0x1D0 48) (i.bigField 0x200 48) (i.bigField 0x140 48) = true := by
  unfold bodyCode at h
  split at h
  · cases h
  · next digest =>
    split at h
    · cases h
    · next key =>
      split at h
      · cases h
      · next sign => exact ⟨not_not.mp digest, not_not.mp key, by simpa using sign⟩

end Check

theorem Dev.regsOnly.rollback {l : List Nat} {d e : Dev} (h : Dev.regsOnly l d e) : e.rollback = d.rollback := by
  obtain ⟨⟨_, _, _, rfl⟩, -⟩ := h; rfl

theorem Dev.regsOnly.keyHash {l : List Nat} {d e : Dev} (h : Dev.regsOnly l d e) : e.keyHash = d.keyHash := by
  obtain ⟨⟨_, _, _, rfl⟩, -⟩ := h; rfl

/-- BOOT_CMD's issue changes no image's check. -/
theorem codes_cmdSet {op slot : Nat} {res : Option Nat} {d e : Dev} (h : Dev.regsOnly [BOOT_CMD_RESULT.word.addr] (d.cmdSet op slot res) e)
    (i : Image) : headerCode e i = headerCode d i ∧ bodyCode e i = bodyCode d i :=
  ⟨headerCode_congr (h.2 ID_CAP.word.addr (by decide)) h.rollback i, bodyCode_congr h.keyHash i⟩

/-! ### VERIFY (R140) -/

section Verify
variable {s : State} {slot : Fin 2}

/-- An operation on a slot that is issued now, or waits, is carried out. -/
theorem withWhole_bootDo {op : Nat} {f : Whole → Nat × Whole} (held : s.held = false) (legal : op = 1 ∨ op = 2 ∨ op = 4)
    (h : s.dev.flag BOOT_CMD_RESULT.BUSY = false ∨ s.dev.boot.cmd = some (op, slot.val, none)) {r : Nat} {y : Whole}
    (run : f (s.grid, s.banks, bootIssue s.dev op slot) = (r, y)) :
    s.withWhole (bootDo op (some slot.val) f)
      = .next { s with grid := y.1, banks := y.2.1, dev := y.2.2.cmdSet op slot (some r) } := by
  have waits := (bootIssue_waits legal h).1
  rw [State.withWhole_live _ held, bootDo_runs (x := (s.grid, s.banks, s.dev)) (slot := some slot.val) waits rfl]
  simp only [issued, onDev, Option.getD_some, run]

/-- VERIFY's check, with SEQ from BOOT_CMD_SEQ; nothing changes. -/
def verifyStep (img : Image) (x : Whole) : Nat × Whole := (checkSlot (img.withSeq (x.2.2.word BOOT_CMD_SEQ.SEQ.addr)) x, x)

/-- The RESULT of VERIFY. -/
def verifyRes (img : Image) (slot : Fin 2) (s : State) : Nat :=
  checkSlot (img.withSeq (s.dev.word BOOT_CMD_SEQ.SEQ.addr)) (s.grid, s.banks, bootIssue s.dev 1 slot)

theorem exec_verify (held : s.held = false) (img : Image)
    (h : s.dev.flag BOOT_CMD_RESULT.BUSY = false ∨ s.dev.boot.cmd = some (1, slot.val, none)) : exec (.verify img slot) s
      = .next { s with dev := (bootIssue s.dev 1 slot).cmdSet 1 slot (some (verifyRes img slot s)) } := by
  have seq : (bootIssue s.dev 1 slot).word BOOT_CMD_SEQ.SEQ.addr = s.dev.word BOOT_CMD_SEQ.SEQ.addr :=
    (bootIssue_waits (.inl rfl) h).2.2.2 _ (by decide)
  have run : verifyStep img (s.grid, s.banks, bootIssue s.dev 1 slot)
      = (verifyRes img slot s, s.grid, s.banks, bootIssue s.dev 1 slot) := by
    rw [verifyStep, verifyRes, seq]
  show s.withWhole (bootDo 1 (some slot.val) (verifyStep img)) = _
  exact withWhole_bootDo held (.inl rfl) h run

/-- VERIFY shows the first failure in R129's order. -/
theorem verify_spec (img : Image) (h : s.dev.flag BOOT_CMD_RESULT.BUSY = false ∨ s.dev.boot.cmd = some (1, slot.val, none))
    {i : Image} (hi : i = img.withSeq (s.dev.word BOOT_CMD_SEQ.SEQ.addr)) :
    (img.readable = false → verifyRes img slot s = 13)
      ∧ (img.readable = true → bytesAt i.header 0 4 ≠ [0x48, 0x52, 0x4C, 0x31] → verifyRes img slot s = 2)
      ∧ (img.readable = true → headerCode s.dev i ≠ 0 → verifyRes img slot s = headerCode s.dev i)
      ∧ (img.readable = true → headerCode s.dev i = 0 → bodyCode s.dev i ≠ 0 → verifyRes img slot s = bodyCode s.dev i)
      ∧ (verifyRes img slot s = 0 → img.readable = true ∧ headerCode s.dev i = 0 ∧ bodyCode s.dev i = 0) := by
  obtain ⟨header, body⟩ := codes_cmdSet (bootIssue_waits (.inl rfl) h).2.2 i
  subst hi
  rw [verifyRes, ← header, ← body]
  refine ⟨checkSlot_unreadable (i := img.withSeq _), fun readable magic => ?_, checkSlot_header (i := img.withSeq _),
    checkSlot_body (i := img.withSeq _), checkSlot_zero⟩
  have two := headerCode_magic (d := bootIssue s.dev 1 slot) magic
  rw [checkSlot_header (i := img.withSeq _) readable (by rw [two]; decide), two]

end Verify

/-! ### APPLY (R141) -/

section Load
variable {t : Nat} {bankB : Bool} {x y : Whole}

/-- The register items of an APPLY change the device alone; a patch has none. -/
theorem loadReg_banks (ht : t = 3 ∨ t = 5 ∨ t = 6) {a : Nat} {v : Word} (h : loadReg t bankB a v x = some y) : y.2.1 = x.2.1 := by
  unfold loadReg at h
  split at h
  · cases h
  · obtain ⟨inside, h⟩ := Option.ite_none_left_eq_some.mp h
    rcases ht with rfl | program
    · simp [regInSection] at inside
    · rw [if_pos program] at h
      obtain ⟨-, h⟩ := Option.ite_none_right_eq_some.mp h
      obtain rfl := Option.some.inj h
      rfl

theorem loadMbx_banks (ht : t = 3 ∨ t = 5 ∨ t = 6) {base i : Nat} {v : BitVec 128} (h : loadMbx t bankB base i v x = some y) :
    y.2.1 = x.2.1 := by
  unfold loadMbx at h
  split at h
  · cases h
  · obtain ⟨-, h⟩ := Option.ite_none_left_eq_some.mp h
    rw [if_neg fun no => by omega, if_neg fun no => by omega] at h
    obtain ⟨-, h⟩ := Option.ite_none_left_eq_some.mp h
    obtain ⟨-, h⟩ := Option.ite_none_left_eq_some.mp h
    obtain rfl := Option.some.inj h
    rfl

theorem loadItem_banks (ht : t = 3 ∨ t = 5 ∨ t = 6) : ∀ {i : Item}, loadItem t bankB x i = some y → y.2.1 = x.2.1
  | .reg _ _, h => loadReg_banks ht h
  | .mbx _ _ _, h => loadMbx_banks ht h
  | .resv _, h => by
    obtain ⟨-, h⟩ := Option.ite_none_right_eq_some.mp h
    obtain rfl := Option.some.inj h
    rfl

theorem loadSection_banks (ht : t = 3 ∨ t = 5 ∨ t = 6) {i : Image} (h : loadSection i t bankB x = some y) : y.2.1 = x.2.1 := by
  unfold loadSection at h
  split at h
  · obtain rfl := Option.some.inj h
    rfl
  · refine List.foldlRecOn (motive := fun o : Option Whole => ∀ z, o = some z → z.2.1 = x.2.1) _ _ ?_ ?_ y h
    · rintro z ⟨⟩
      rfl
    · intro o ih item _ z hz
      obtain ⟨w, rfl, step⟩ := Option.bind_eq_some_iff.mp hz
      exact (loadItem_banks ht step).trans (ih w rfl)

end Load

section Apply
variable {s : State} {slot : Fin 2} {img : Image}

theorem applyImage_full {x : Whole} (h : freeBank x.2.1 = none) : applyImage img x = (12, x) := by
  rw [applyImage, h]

theorem freeBank_none {b : Banks} (ha : b.a ≠ .free) (hb : b.b ≠ .free) : freeBank b = none := by
  rw [freeBank, if_neg ha, if_neg hb]

theorem freeBank_some {b : Banks} {w : Bool} (h : freeBank b = some w) : b.st w = .free := by
  unfold freeBank at h
  split at h
  · next a => cases h; exact a
  · split at h
    · next b' => cases h; exact b'
    · cases h

/-- The program's banks and the Graticule after its load, and the swap that an APPLY arms. -/
def applyArmed (w : Bool) (y : Whole) : Whole := onBanks (bankArm y.1) (onBanks (bankSeal w (nextSeq y.2.1)) y)

/-- A good image's program is loaded, sealed and armed; the patch changes no bank. -/
theorem applyImage_armed {x y : Whole} {w : Bool} (free : freeBank x.2.1 = some w) (good : checkSlot img x = 0)
    (loads : (loadSection img 5 w x).bind (loadSection img 6 w) = some y) :
    (applyImage img x).1 = 0 ∧ (applyImage img x).2.2.1 = (applyArmed w y).2.1 := by
  unfold applyImage
  simp only [free, good, ne_eq, not_true_eq_false, if_false, loads]
  split
  · next z _ patch =>
    have kept := loadSection_banks (.inl rfl) patch
    exact ⟨rfl, kept⟩
  · exact ⟨rfl, rfl⟩

theorem nextSeq_ne (b : Banks) : nextSeq b ≠ 0 ∧ nextSeq b ≠ b.activeSeq := by
  unfold nextSeq
  split
  · next h =>
    refine ⟨by decide, fun e => ?_⟩
    rw [← e] at h
    exact absurd h (by decide)
  · next h => exact ⟨h, fun e => by bv_omega⟩

/-- With the other bank ACTIVE, the FREE bank is sealed with the next SEQ and armed. -/
theorem applyArmed_banks {w : Bool} {y : Whole} (free : y.2.1.st w = .free) (active : y.2.1.st (!w) = .active) :
    (applyArmed w y).2.1 = ((y.2.1.setSt w .sealed).setSeq w (nextSeq y.2.1)).arm w (y.1.epoch + 2) := by
  obtain ⟨nonzero, new⟩ := nextSeq_ne y.2.1
  have one : sealedBank ((y.2.1.setSt w .sealed).setSeq w (nextSeq y.2.1)) y.2.2 = (w, y.2.2) :=
    sealedBank_one (Banks.st_change ..) (by rw [Banks.st_change_other, active]; decide)
  have found : ¬ (((y.2.1.setSt w .sealed).setSeq w (nextSeq y.2.1)).a ≠ .sealed
      ∧ ((y.2.1.setSt w .sealed).setSeq w (nextSeq y.2.1)).b ≠ .sealed) := fun no => by
    cases w
    · exact no.1 rfl
    · exact no.2 rfl
  simp only [applyArmed, onBanks, bankSeal_taken free nonzero new, bankArm_taken found, one]

theorem activeSeq_of_active {b : Banks} {w : Bool} (active : b.st w = .active) (h : b.activeB = w) : b.activeSeq = b.seq w := by
  rw [Banks.activeSeq, h, if_pos active]

/-- APPLY, issued now or waiting, by what `applyImage` answers. -/
theorem exec_apply (held : s.held = false)
    (h : s.dev.flag BOOT_CMD_RESULT.BUSY = false ∨ s.dev.boot.cmd = some (2, slot.val, none)) {r : Nat} {y : Whole}
    (run : applyImage img (s.grid, s.banks, bootIssue s.dev 2 slot) = (r, y)) :
    exec (.apply img slot) s = .next { s with grid := y.1, banks := y.2.1, dev := y.2.2.cmdSet 2 slot (some r) } :=
  withWhole_bootDo held (.inr (.inl rfl)) h run

theorem exec_apply_full (held : s.held = false)
    (h : s.dev.flag BOOT_CMD_RESULT.BUSY = false ∨ s.dev.boot.cmd = some (2, slot.val, none)) (ha : s.banks.a ≠ .free)
    (hb : s.banks.b ≠ .free) : ∃ e, exec (.apply img slot) s = .next { s with dev := e }
      ∧ e.boot.cmd = some (2, slot.val, some 12) ∧ e.get BOOT_CMD_RESULT.BUSY = 1 :=
  ⟨_, exec_apply held h (applyImage_full (freeBank_none ha hb)), rfl,
    (Dev.get_cmdSet ..).trans (bootIssue_waits (.inr (.inl rfl)) h).2.1⟩

theorem exec_apply_armed (held : s.held = false)
    (h : s.dev.flag BOOT_CMD_RESULT.BUSY = false ∨ s.dev.boot.cmd = some (2, slot.val, none)) {w : Bool} {y : Whole}
    (free : freeBank s.banks = some w) (active : s.banks.st (!w) = .active) (new : s.banks.activeB = !w)
    (good : checkSlot img (s.grid, s.banks, bootIssue s.dev 2 slot) = 0)
    (loads : (loadSection img 5 w (s.grid, s.banks, bootIssue s.dev 2 slot)).bind (loadSection img 6 w) = some y) :
    ∃ t, exec (.apply img slot) s = .next t ∧ t.banks.st w = .armed ∧ t.banks.st (!w) = .active
      ∧ t.banks.target = s.grid.epoch + 2 ∧ t.banks.due w = s.grid.epoch + 2
      ∧ t.banks.seq w = (if s.banks.seq (!w) + 1 = 0 then 1 else s.banks.seq (!w) + 1)
      ∧ t.dev.boot.cmd = some (2, slot.val, some 0) := by
  obtain ⟨z, program, state⟩ := Option.bind_eq_some_iff.mp loads
  have banks : y.2.1 = s.banks := (loadSection_banks (.inr (.inr rfl)) state).trans (loadSection_banks (.inr (.inl rfl)) program)
  have epoch : y.1.epoch = s.grid.epoch := (SameEpoch.loadSection program).trans (SameEpoch.loadSection state)
  obtain ⟨zero, left⟩ := applyImage_armed (x := (s.grid, s.banks, bootIssue s.dev 2 slot)) free good loads
  have armed := applyArmed_banks (w := w) (y := y) (by rw [banks]; exact freeBank_some free) (by rw [banks]; exact active)
  rw [banks, epoch] at armed
  refine ⟨_, exec_apply held h (Prod.ext zero rfl), ?_⟩
  dsimp only
  obtain ⟨due, -, target⟩ := ((s.banks.setSt w .sealed).setSeq w (nextSeq s.banks)).due_arm w (s.grid.epoch + 2)
  rw [left, armed]
  refine ⟨Banks.st_arm .., ?_, target, due, ?_, rfl⟩
  · rw [Banks.st_arm_other, Banks.st_change_other, active]
  · rw [Banks.seq_arm, Banks.seq_change, nextSeq, activeSeq_of_active active new]

end Apply

/-! ### What BUSY refuses -/

theorem exec_bootDo_busy {s : State} {op : Nat} {slot : Option Nat} {f : Whole → Nat × Whole}
    (busy : s.dev.flag BOOT_CMD_RESULT.BUSY = true) (other : ∀ k, slot.getD k = k → s.dev.boot.cmd ≠ some (op, k, none)) :
    s.withWhole (bootDo op slot f) = .next s := by
  have same : issued op slot (s.grid, s.banks, s.dev) = (s.grid, s.banks, s.dev) := by
    rw [issued, onDev, bootIssue_busy busy]
  refine State.withWhole_same ?_
  rw [bootDo_skips (by rw [same]; exact other), same]

/-! ### LOAD_HOST (R137) -/

section LoadHost
variable {s : State} {img : Image}

/-- Outside WAIT_HOST it has RESULT 14 at once. -/
theorem exec_loadHost_refused (held : s.held = false) (idle : s.dev.flag BOOT_CMD_RESULT.BUSY = false)
    (h : s.dev.get BOOT_STATE.STATE ≠ 6) : ∃ e, exec (.loadHost img) s = .next { s with dev := e }
      ∧ e.boot.cmd = some (3, 0, some 14) ∧ e.get BOOT_CMD_RESULT.BUSY = 1
      ∧ e.get BOOT_STATE.STATE = s.dev.get BOOT_STATE.STATE := by
  have issue := bootIssue_host_refused (slot := 0) idle h
  have skips : bootDo 3 none (loadHost img) (s.grid, s.banks, s.dev) = issued 3 none (s.grid, s.banks, s.dev) :=
    bootDo_skips fun k _ => by
      show (bootIssue s.dev 3 0).boot.cmd ≠ _
      rw [issue]
      simp [Dev.cmdSet]
  refine ⟨_, State.withWhole_onDev held skips, ?_⟩
  show (bootIssue s.dev 3 0).boot.cmd = _ ∧ (bootIssue s.dev 3 0).get _ = _ ∧ (bootIssue s.dev 3 0).get _ = _
  rw [issue, Dev.get_cmdSet, Dev.get_cmdSet, Dev.get_put _ _ _ (by decide) (by decide),
    Dev.get_put_other _ _ _ _ (by decide) (by decide) (by decide)]
  exact ⟨rfl, rfl, rfl⟩

/-- The device as LOAD_HOST reads the image. -/
def hostRead (img : Image) (d : Dev) : Dev :=
  d.emit (.hostRead 1 (BitVec.ofNat 64 (d.wget (wkey mbxBoot 1))) (0x1000 + img.length))

/-- The issue in WAIT_HOST, and what it leaves. -/
theorem host_issued (idle : s.dev.flag BOOT_CMD_RESULT.BUSY = false) (h : s.dev.get BOOT_STATE.STATE = 6) :
    (bootIssue s.dev 3 0).boot.cmd = some (3, 0, none) ∧ (bootIssue s.dev 3 0).get BOOT_STATE.STATE = 7
      ∧ Dev.regsOnly [BOOT_STATE.word.addr, BOOT_CMD_RESULT.word.addr] (s.dev.cmdSet 3 0 none) (bootIssue s.dev 3 0) := by
  rw [bootIssue_host idle h]
  refine ⟨rfl, ?_, ?_⟩
  · rw [Dev.get_cmdSet, Dev.get_put_other _ _ _ _ (by decide) (by decide) (by decide), Dev.get_put _ _ _ (by decide) (by decide)]
    rfl
  · rw [Dev.put_cmdSet, Dev.put_cmdSet]
    exact (Dev.regsOnly_put _ BOOT_STATE.STATE 7).then (Dev.regsOnly_put _ BOOT_CMD_RESULT.BUSY 1) (by decide) (by decide)

theorem exec_loadHost (held : s.held = false) (waits : (bootIssue s.dev 3 0).boot.cmd = some (3, 0, none)) {r : Nat} {k : Dev → Dev}
    {y : Whole} (run : loadHost img (s.grid, s.banks, bootIssue s.dev 3 0) = (r, onDev k y)) :
    exec (.loadHost img) s = .next { s with grid := y.1, banks := y.2.1, dev := (k y.2.2).cmdSet 3 0 (some r) } := by
  show s.withWhole (bootDo 3 none (loadHost img)) = _
  rw [State.withWhole_live _ held, bootDo_runs (x := (s.grid, s.banks, s.dev)) (slot := none) waits rfl]
  simp only [issued, onDev, Option.getD_none, run]

variable {x : Whole}

theorem loadHost_unreadable (h : x.2.2.get BOOT_STATE.STATE = 7) (no : img.readable = false) :
    loadHost img x = (13, onDev (fun d => waitHost (hostRead img d)) x) := by
  rw [loadHost, if_neg (not_not.mpr h), no]
  rfl

/-- A good image that loads runs. -/
theorem loadHost_runs {y : Whole} (h : x.2.2.get BOOT_STATE.STATE = 7) (readable : img.readable = true)
    (header : headerCode (hostRead img x.2.2) img = 0) (body : bodyCode (hostRead img x.2.2) img = 0)
    (loads : loadImage img (onDev (hostRead img) x) = some y) :
    loadHost img x = (0, onDev (runImage img 2 img.seq) y) := by
  have tried : loadHost img x = (let r := tryImage img 2 img.seq (onDev (hostRead img) x)
      if r.1 = 0 then r else (r.1, onDev waitHost r.2)) := by
    rw [loadHost, if_neg (not_not.mpr h), readable]
    exact if_neg (not_not.mpr header)
  rw [tried, tryImage_runs (x := onDev (hostRead img) x) 2 img.seq body loads]
  exact if_pos rfl

theorem Dev.regsOnly.wget {l : List Nat} {d e : Dev} (h : Dev.regsOnly l d e) (k : Nat) : e.wget k = d.wget k := by
  obtain ⟨⟨_, _, _, rfl⟩, -⟩ := h; rfl

/-- The image is read at the address set before the command. -/
theorem hostRead_issued (idle : s.dev.flag BOOT_CMD_RESULT.BUSY = false) (h : s.dev.get BOOT_STATE.STATE = 6) :
    hostRead img (bootIssue s.dev 3 0)
      = (bootIssue s.dev 3 0).emit (.hostRead 1 (BitVec.ofNat 64 (s.dev.wget (wkey mbxBoot 1))) (0x1000 + img.length)) := by
  rw [hostRead, (host_issued idle h).2.2.wget]
  rfl

theorem exec_loadHost_unreadable (held : s.held = false) (idle : s.dev.flag BOOT_CMD_RESULT.BUSY = false)
    (h : s.dev.get BOOT_STATE.STATE = 6) (no : img.readable = false) : ∃ e, exec (.loadHost img) s = .next { s with dev := e }
      ∧ e.boot.cmd = some (3, 0, some 13) ∧ e.get BOOT_STATE.STATE = 6 ∧ e.get BOOT_STATE.SOURCE = 3
      ∧ Dev.raised BOOT_STATUS.WAIT_HOST s.dev e := by
  obtain ⟨waits, loading, frame⟩ := host_issued idle h
  obtain ⟨state, source, raised⟩ := waitHost_spec (hostRead img (bootIssue s.dev 3 0))
  refine ⟨_, exec_loadHost held waits (loadHost_unreadable loading no), rfl, state, source, Dev.raised.of_word (raised.after ?_) rfl⟩
  exact frame.get_eq (f := ⟨0x30020, 31, 24⟩) (by decide)

theorem exec_loadHost_runs (held : s.held = false) (idle : s.dev.flag BOOT_CMD_RESULT.BUSY = false)
    (h : s.dev.get BOOT_STATE.STATE = 6) (readable : img.readable = true) (header : headerCode s.dev img = 0)
    (body : bodyCode s.dev img = 0) {y : Whole} (loads : loadImage img (s.grid, s.banks, hostRead img (bootIssue s.dev 3 0)) = some y) :
    ∃ t, exec (.loadHost img) s = .next t ∧ t.dev.get BOOT_STATE.STATE = 4 ∧ t.dev.get BOOT_STATE.SOURCE = 2
      ∧ t.dev.word BOOT_RUN_SEQ.word.addr = img.seq ∧ t.banks = y.2.1 ∧ t.dev.boot.cmd = some (3, 0, some 0) := by
  obtain ⟨waits, loading, frame⟩ := host_issued idle h
  have cap : (hostRead img (bootIssue s.dev 3 0)).word ID_CAP.word.addr = s.dev.word ID_CAP.word.addr := frame.2 _ (by decide)
  have run := loadHost_runs (x := (s.grid, s.banks, bootIssue s.dev 3 0)) loading readable
    ((headerCode_congr cap frame.rollback img).trans header) ((bodyCode_congr frame.keyHash img).trans body) loads
  have train := runImage_inTrain img img.seq y.2.2 (src := 2) (by decide)
  exact ⟨_, exec_loadHost held waits run, (Dev.get_cmdSet ..).trans train.state, (Dev.get_cmdSet ..).trans train.source,
    (Dev.word_cmdSet ..).trans train.runSeq, rfl, rfl⟩

end LoadHost

/-! ### ADVANCE_ROLLBACK and BOOT_CMD_COMPLETE (R142, R153) -/

section Complete
variable {s : State} {d : Dev}

theorem exec_advanceRollback (held : s.held = false) (idle : s.dev.flag BOOT_CMD_RESULT.BUSY = false) :
    exec .advanceRollback s = .next { s with dev := bootIssue s.dev 4 0 } := by
  show execAdvanceRollback s = _
  rw [execAdvanceRollback, State.withDev_live _ held, if_neg (Bool.not_eq_true _ ▸ idle)]

theorem exec_advanceRollback_busy (busy : s.dev.flag BOOT_CMD_RESULT.BUSY = true) : exec .advanceRollback s = .next s := by
  show execAdvanceRollback s = _
  exact State.withDev_same (if_pos busy)

/-- The end of a BOOT_CMD operation with its RESULT. -/
def cmdEnded (r : Nat) (d : Dev) : Dev :=
  let d := { d with boot := { d.boot with cmd := none } }
  ((d.put BOOT_CMD_RESULT.BUSY 0).put BOOT_CMD_RESULT.RESULT r).event BOOT_STATUS.CMD_DONE

theorem cmdEnded_spec {r : Nat} (small : r < 256) (d : Dev) : (cmdEnded r d).get BOOT_CMD_RESULT.BUSY = 0
    ∧ (cmdEnded r d).get BOOT_CMD_RESULT.RESULT = r ∧ Dev.raised BOOT_STATUS.CMD_DONE d (cmdEnded r d)
    ∧ Dev.regsOnly [BOOT_CMD_RESULT.word.addr, BOOT_STATUS.word.addr] { d with boot := { d.boot with cmd := none } } (cmdEnded r d) := by
  refine ⟨?_, ?_, (Dev.raised_event _ BOOT_STATUS.CMD_DONE (by decide)).after ?_, ?_⟩
  · rw [cmdEnded, Dev.event_get_other _ _ _ (by decide) (by decide), Dev.get_put_other _ _ _ _ (by decide) (by decide) (by decide),
      Dev.get_put _ _ _ (by decide) (by decide)]
    rfl
  · rw [cmdEnded, Dev.event_get_other _ _ _ (by decide) (by decide), Dev.get_put _ _ _ (by decide) (by decide)]
    exact Nat.mod_eq_of_lt small
  · rw [Dev.get_put_other _ _ _ _ (by decide) (by decide) (by decide), Dev.get_put_other _ _ _ _ (by decide) (by decide) (by decide)]
    rfl
  · have result (d : Dev) : Dev.regsOnly [BOOT_CMD_RESULT.word.addr] d ((d.put BOOT_CMD_RESULT.BUSY 0).put BOOT_CMD_RESULT.RESULT r) :=
      Dev.regsOnly_trans (Dev.regsOnly_put d BOOT_CMD_RESULT.BUSY 0) (Dev.regsOnly_put _ BOOT_CMD_RESULT.RESULT r)
    exact (result _).then (Dev.regsOnly_event _ BOOT_STATUS.CMD_DONE) (by decide) (by decide)

theorem cmdEnded_rollback (r : Nat) (d : Dev) : (cmdEnded r d).rollback = d.rollback := by
  rw [cmdEnded, Dev.event_rollback, Dev.put_rollback, Dev.put_rollback]

theorem bootComplete_none (h : d.boot.cmd = none) : bootComplete d = d := by
  rw [bootComplete, h]

theorem bootComplete_result {op slot r : Nat} (h : d.boot.cmd = some (op, slot, some r)) : bootComplete d = cmdEnded r d := by
  unfold bootComplete
  split
  · next e => cases h.symm.trans e
  · next e => cases h.symm.trans e; rw [cmdEnded]
  · next no => exact absurd h (no _ _ _)

theorem bootComplete_advance {slot : Nat} (h : d.boot.cmd = some (4, slot, none)) : bootComplete d = cmdEnded 0 (blowFuses d) := by
  unfold bootComplete
  split
  · rw [cmdEnded]
  · next e => cases h.symm.trans e
  · next no _ => exact absurd h (no _)

/-- Fuses are blown up to the running image's ROLLBACK, and BOOT_STATUS is left alone. -/
theorem blowFuses_spec (d : Dev) : (blowFuses d).word BOOT_STATUS.word.addr = d.word BOOT_STATUS.word.addr
    ∧ (d.get BOOT_STATE.SOURCE ≠ 3 → (blowFuses d).rollback = max d.rollback (min 64 (d.get BOOT_ROLLBACK.RUN)))
    ∧ (d.get BOOT_STATE.SOURCE = 3 → (blowFuses d).rollback = d.rollback) := by
  unfold blowFuses
  dsimp only
  split
  · next h =>
    refine ⟨Dev.word_put_other _ _ _ (by decide), fun _ => ?_, fun no => absurd no h.1⟩
    rw [Dev.put_rollback, Nat.max_eq_right h.2.le]
  · next h =>
    exact ⟨rfl, fun image => (Nat.max_eq_left (Nat.not_lt.mp fun lt => h ⟨image, lt⟩)).symm, fun _ => rfl⟩

end Complete

/-- Settles O21: VERIFY by `verify_spec`, APPLY by `applyArmed_banks`, LOAD_HOST by the cases of `loadHost`, and the completion by
`cmdEnded_spec` and `blowFuses_spec`. RESULT 13 of an image that host memory does not give is the model's choice (log entry 145). -/
theorem bootCommands : Obligations.BootCommands := by
  refine ⟨fun s img slot held => ⟨fun waits i hi => ?_, fun waits => ⟨exec_apply_full held waits, fun w y => exec_apply_armed held waits⟩,
    fun busy => ⟨fun other => ?_, fun other => ?_, fun other => ?_, exec_advanceRollback_busy busy⟩, exec_loadHost_refused held,
    fun d idle state hd => ?_, fun idle => ?_⟩, fun s held => ⟨fun none => ?_, fun op slot r cmd small => ?_, fun slot cmd => ?_⟩⟩
  · obtain ⟨-, busy, frame⟩ := bootIssue_waits (.inl rfl) waits
    obtain ⟨unreadable, magic, header, body, good⟩ := verify_spec img waits hi
    refine ⟨_, _, exec_verify held img waits, busy, rfl, frame.cmdSet, unreadable, magic, header, body, fun zero => ?_⟩
    obtain ⟨readable, header, body⟩ := good zero
    exact ⟨readable, header, bodyCode_zero body⟩
  · exact exec_bootDo_busy busy fun k mine => by rw [← mine]; exact other
  · exact exec_bootDo_busy busy fun k mine => by rw [← mine]; exact other
  · exact exec_bootDo_busy busy fun k _ => other k
  · obtain rfl := hd.trans (hostRead_issued idle state).symm
    exact ⟨exec_loadHost_unreadable held idle state, fun y readable header body loads =>
      exec_loadHost_runs held idle state readable header body loads⟩
  · obtain ⟨-, busy, frame⟩ := bootIssue_waits (op := 4) (slot := 0) (.inr (.inr rfl)) (.inl idle)
    exact ⟨_, exec_advanceRollback held idle, busy, frame⟩
  · exact State.withDev_same (bootComplete_none none)
  · refine ⟨_, State.withDev_live bootComplete held, ?_⟩
    rw [bootComplete_result cmd]
    exact cmdEnded_spec small s.dev
  · obtain ⟨status, blown, kept⟩ := blowFuses_spec s.dev
    obtain ⟨busy, result, raised, -⟩ := cmdEnded_spec (r := 0) (by decide) (blowFuses s.dev)
    refine ⟨_, State.withDev_live bootComplete held, ?_⟩
    rw [bootComplete_advance cmd, cmdEnded_rollback]
    exact ⟨busy, result, raised.after (get_of_word status), blown, kept⟩

end Sys2Proof.Machine

namespace Sys2Proof.Machine

/-! ### What happens to the registers of lanes and ports (R192, R219)

`Writes W d e`: between d and e only the bits that the footprint W lists were written, each the same bits of a register of every
lane or of every port; fault reports and pins stay. -/

/-- Which register an address of an LN or PT block is, whatever the lane or port: its offset in the lane's registers, or 0x11000
and its offset in the port's. -/
def regKind (a : Nat) : Nat :=
  if a % 0x100000 < 0x10000 then a % 0x800
  else if 0x11000 ≤ a % 0x100000 ∧ a % 0x100000 < 0x12000 then 0x11000 + a % 0x80
  else a % 0x100000

theorem regKind_lane (l : Nat) {o : Nat} (h : o < 0x800) : regKind (laneBase l + o) = o := by
  rw [regKind, if_pos (by unfold laneBase sliceBase; omega)]
  unfold laneBase sliceBase
  omega

theorem regKind_laneBase (l : Nat) : regKind (laneBase l) = 0 := regKind_lane l (o := 0) (by decide)

theorem regKind_port (p : Nat) {o : Nat} (h : o < 0x80) : regKind (portBase p + o) = 0x11000 + o := by
  rw [regKind, if_neg (by unfold portBase sliceBase; omega), if_pos (by unfold portBase sliceBase; omega)]
  unfold portBase sliceBase
  omega

theorem regKind_octMode (l : Nat) : regKind (PT_OCT_MODE.MODE (l / 32) (l % 32 / 8)).addr = 0x10000 + l % 32 / 8 * 4 := by
  show regKind (sliceBase (l / 32) + 0x10000 + l % 32 / 8 * 4) = _
  rw [regKind, if_neg (by unfold sliceBase; omega), if_neg (by unfold sliceBase; omega)]
  unfold sliceBase
  omega

/-- Bits of a register of a kind: the kind, the lowest bit and the highest. -/
abbrev Footprint := List (Nat × Nat × Nat)

/-- No bit lo to hi of a register of kind k is in the footprint. -/
abbrev Footprint.spares (W : Footprint) (k lo hi : Nat) : Prop := ∀ w ∈ W, k ≠ w.1 ∨ w.2.2 < lo ∨ hi < w.2.1

/-- Every bit of V is in W. -/
abbrev Footprint.covers (W V : Footprint) : Prop := ∀ v ∈ V, ∃ w ∈ W, v.1 = w.1 ∧ w.2.1 ≤ v.2.1 ∧ v.2.2 ≤ w.2.2

/-- Between d and e every register bit outside the footprint stays. -/
structure Keeps (W : Footprint) (d e : Dev) : Prop where
  fields : ∀ g : Fld, W.spares (regKind g.addr) g.lo g.hi → e.get g = d.get g

/-- Only the bits of the footprint were written between d and e; pins and fault reports stay. -/
structure Writes (W : Footprint) (d e : Dev) : Prop extends Keeps W d e where
  pins : e.pins = d.pins
  reports : e.reports = d.reports
  silent : e.silent = d.silent

theorem flag_of_get {d e : Dev} {f : Fld} (h : e.get f = d.get f) : e.flag f = d.flag f := by rw [Dev.flag, h, Dev.flag]

theorem Fld.read_high {f : Fld} (w : Word) (h : 31 < f.lo) : f.read w = 0 := by
  rw [Fld.read, Nat.div_eq_of_lt (Nat.lt_of_lt_of_le w.isLt (Nat.pow_le_pow_right (by decide) h)), Nat.zero_mod]

namespace Keeps

variable {W V : Footprint} {d e f : Dev}

theorem trans (h : Keeps W d e) (k : Keeps W e f) : Keeps W d f := ⟨fun g hg => (k.fields g hg).trans (h.fields g hg)⟩

theorem mono (h : Keeps V d e) (hw : W.covers V) : Keeps W d e := by
  refine ⟨fun g hg => h.fields g fun v hv => ?_⟩
  obtain ⟨w, mem, kind, lo, hi⟩ := hw v hv
  rcases hg w mem with other | above | below
  · exact .inl (kind ▸ other)
  · exact .inr (.inl (Nat.lt_of_le_of_lt hi above))
  · exact .inr (.inr (Nat.lt_of_lt_of_le below lo))

/-- A report writes no register. -/
theorem report (h : Keeps W d e) (src detail : Nat) : Keeps W d (e.report src detail) :=
  h.trans ⟨fun g _ => Dev.get_report e src detail g⟩

theorem lane (h : Keeps W d e) (l : Nat) {o hi lo : Nat} (ho : o < 0x800) (hs : W.spares o lo hi) :
    e.get ⟨laneBase l + o, hi, lo⟩ = d.get ⟨laneBase l + o, hi, lo⟩ :=
  h.fields _ (by rw [regKind_lane l ho]; exact hs)

theorem ctl (h : Keeps W d e) (l : Nat) {hi lo : Nat} (hs : W.spares 0 lo hi) :
    e.flag ⟨laneBase l, hi, lo⟩ = d.flag ⟨laneBase l, hi, lo⟩ :=
  flag_of_get (h.fields _ (by rw [regKind_laneBase]; exact hs))

theorem port (h : Keeps W d e) (p : Nat) {o hi lo : Nat} (ho : o < 0x80) (hs : W.spares (0x11000 + o) lo hi) :
    e.get ⟨portBase p + o, hi, lo⟩ = d.get ⟨portBase p + o, hi, lo⟩ :=
  h.fields _ (by rw [regKind_port p ho]; exact hs)

/-- The octets keep their modes. -/
theorem laneMode (h : Keeps W d e) (hs : ∀ w ∈ W, w.1 < 0x10000 ∨ 0x10010 ≤ w.1) (l : Nat) : laneMode e l = laneMode d l := by
  rw [Machine.laneMode, octModeOf, h.fields _ fun w hw => ?_, Machine.laneMode, octModeOf]
  rw [regKind_octMode]
  have := hs w hw
  omega

end Keeps

namespace Writes

variable {W V : Footprint} {d e f : Dev}

theorem refl (d : Dev) : Writes W d d := ⟨⟨fun _ _ => rfl⟩, rfl, rfl, rfl⟩

theorem trans (h : Writes W d e) (k : Writes W e f) : Writes W d f :=
  ⟨h.toKeeps.trans k.toKeeps, k.pins.trans h.pins, k.reports.trans h.reports, k.silent.trans h.silent⟩

theorem mono (h : Writes V d e) (hw : W.covers V) : Writes W d e := ⟨h.toKeeps.mono hw, h.pins, h.reports, h.silent⟩

theorem ite {c : Prop} [Decidable c] (h : Writes W d e) (k : Writes W d f) : Writes W d (if c then e else f) := by
  split
  · exact h
  · exact k

theorem foldl {α : Type} {f : Dev → α → Dev} (h : ∀ d x, Writes W d (f d x)) (l : List α) (d : Dev) : Writes W d (l.foldl f d) :=
  List.foldlRecOn l f (refl d) fun _ k x _ => k.trans (h _ x)

/-- A change that keeps every register. -/
theorem of_regs (h : e.regs = d.regs := by rfl) (pins : e.pins = d.pins := by rfl) (reports : e.reports = d.reports := by rfl)
    (silent : e.silent = d.silent := by rfl) : Writes W d e :=
  ⟨⟨fun _ _ => get_of_word (by rw [Dev.word, h, Dev.word])⟩, pins, reports, silent⟩

/-! #### Writes of fields, events -/

theorem put (d : Dev) (f : Fld) (v : Nat) (hb : f.lo ≤ f.hi) (h31 : f.hi < 32) : Writes [(regKind f.addr, f.lo, f.hi)] d (d.put f v) := by
  refine ⟨⟨fun g hg => Dev.get_put_other d f g v hb h31 ?_⟩, rfl, rfl, rfl⟩
  rcases hg _ (List.mem_singleton.mpr rfl) with kind | bits
  · exact .inl fun same => kind (congrArg regKind same)
  · exact .inr bits

theorem putLane (d : Dev) (l v : Nat) {o hi lo : Nat} (ho : o < 0x800) (hb : lo ≤ hi) (h31 : hi < 32) :
    Writes [(o, lo, hi)] d (d.put ⟨laneBase l + o, hi, lo⟩ v) := by
  have h := put d ⟨laneBase l + o, hi, lo⟩ v hb h31
  rwa [regKind_lane l ho] at h

theorem putPort (d : Dev) (p v : Nat) {o hi lo : Nat} (ho : o < 0x80) (hb : lo ≤ hi) (h31 : hi < 32) :
    Writes [(0x11000 + o, lo, hi)] d (d.put ⟨portBase p + o, hi, lo⟩ v) := by
  have h := put d ⟨portBase p + o, hi, lo⟩ v hb h31
  rwa [regKind_port p ho] at h

/-- A change of one register. -/
theorem setWord (d : Dev) (a : Nat) (v : Word) : Writes [(regKind a, 0, 31)] d (d.setWord a v) := by
  refine ⟨⟨fun g hg => ?_⟩, rfl, rfl, rfl⟩
  rcases hg _ (List.mem_singleton.mpr rfl) with kind | high | low
  · exact get_of_word (Dev.word_setWord_other _ _ fun same => kind (congrArg regKind same))
  · rw [Dev.get, Dev.get, Fld.read_high _ high, Fld.read_high _ high]
  · exact absurd low (Nat.not_lt_zero _)

theorem setLaneWord (d : Dev) (l : Nat) {o : Nat} (v : Word) (ho : o < 0x800) :
    Writes [(o, 0, 31)] d (d.setWord (laneBase l + o) v) := by
  have h := setWord d (laneBase l + o) v
  rwa [regKind_lane l ho] at h

theorem event (d : Dev) (f : Fld) (h : f.lo < 32) : Writes [(regKind f.addr, f.lo, f.lo), (regKind f.addr, 24, 31)] d (d.event f) := by
  have bit : Writes [(regKind f.addr, f.lo, f.lo), (regKind f.addr, 24, 31)] d (d.put ⟨f.addr, f.lo, f.lo⟩ 1) :=
    (put d ⟨f.addr, f.lo, f.lo⟩ 1 (Nat.le_refl _) h).mono (by simp)
  have seq (d : Dev) : Writes [(regKind f.addr, f.lo, f.lo), (regKind f.addr, 24, 31)] d (d.bump ⟨f.addr, 31, 24⟩) :=
    (put d ⟨f.addr, 31, 24⟩ _ (by simp) (by simp)).mono (by simp)
  obtain ⟨⟨fields⟩, -, -, -⟩ := bit.trans (seq _)
  refine ⟨⟨fun g hg => ?_⟩, Dev.event_pins .., Dev.event_reports .., Dev.event_silent ..⟩
  rw [Dev.event_get]
  exact fields g hg

theorem eventLane (d : Dev) (l : Nat) {o hi lo : Nat} (ho : o < 0x800) (h : lo < 32) :
    Writes [(o, lo, lo), (o, 24, 31)] d (d.event ⟨laneBase l + o, hi, lo⟩) := by
  have k := event d ⟨laneBase l + o, hi, lo⟩ h
  rwa [regKind_lane l ho] at k

theorem eventPort (d : Dev) (p : Nat) {o hi lo : Nat} (ho : o < 0x80) (h : lo < 32) :
    Writes [(0x11000 + o, lo, lo), (0x11000 + o, 24, 31)] d (d.event ⟨portBase p + o, hi, lo⟩) := by
  have k := event d ⟨portBase p + o, hi, lo⟩ h
  rwa [regKind_port p ho] at k

theorem hidden (d : Dev) (l : Nat) (f : LaneHid → LaneHid) : Writes W d (d.lane l f) := of_regs

theorem wput (d : Dev) (k v : Nat) : Writes W d (d.wput k v) := of_regs

theorem emit (d : Dev) (o : Output) : Writes W d (d.emit o) := of_regs

theorem of_controlSent (h : ControlSent d e) : Writes W d e := by
  obtain ⟨_, _, _, rfl⟩ := h.frame
  exact of_regs

end Writes

end Sys2Proof.Machine

namespace Sys2Proof.Machine

theorem ControlSent.queueControl (d : Dev) (p : Nat) (b : List Byte) : ControlSent d (queueControl d p b) := by
  unfold Machine.queueControl
  exact ite (refl d) (ite (sendControl ..) (port ..))

theorem ControlSent.pauseOn (d : Dev) (p prio : Nat) : ControlSent d (pauseOn d p prio) := by
  unfold Machine.pauseOn sendPause
  refine ite ?_ (refl d)
  split
  · exact queueControl ..
  · exact queueControl ..
  · exact refl d

theorem ControlSent.pauseAgain (d : Dev) (p : Nat) : ControlSent d (pauseAgain d p) := foldl (fun _ _ => pauseOn ..) _ d

/-! ### What the operations on lanes and ports write -/

/-- A freeze: LN_STATE.FREEZE and LN_CNT_FREEZE (R177, R180). -/
abbrev frozenBits : Footprint := [(4, 4, 7), (0x60, 0, 31)]

/-- The end of a scan: a freeze, LN_EYE_STAT and LN_STATUS (R184). -/
abbrev scanBits : Footprint := (0x104, 0, 31) :: (0x10, 0, 31) :: frozenBits

/-- A report of the link state: PT_LINK.STATE and LIVE, and PT_STATUS (R205-R208). -/
abbrev linkBits : Footprint := [(0x11004, 0, 1), (0x11004, 7, 7), (0x11008, 0, 31)]

/-- A departure from service: scans end, PT_LINK and PT_STATUS change (R184, R205, R207). -/
abbrev serviceBits : Footprint := (0x11004, 0, 31) :: (0x11008, 0, 31) :: scanBits

/-- The Survey's record (R173). -/
abbrev surveyBits : Footprint := [(0x80, 0, 31), (0x84, 0, 31), (0x88, 0, 31)]

namespace Writes

theorem setFreeze (d : Dev) (l m : Nat) : Writes frozenBits d (setFreeze d l m) := by
  have shown : Writes frozenBits d (d.put (LN_STATE.FREEZE l) m) :=
    (putLane d l m (by decide) (by decide) (by decide)).mono (by decide)
  have counted (d : Dev) : Writes frozenBits d (d.bump (LN_CNT_FREEZE l)) :=
    (putLane d l _ (by decide) (by decide) (by decide)).mono (by decide)
  exact ite ((shown.trans (counted _)).trans (hidden ..)) (ite (shown.trans (hidden ..)) shown)

theorem refreeze (d : Dev) (l : Nat) : Writes frozenBits d (refreeze d l) := setFreeze ..

theorem freshLane {W : Footprint} (d : Dev) (l : Nat) : Writes W d (freshLane d l) := hidden ..

theorem putState (d : Dev) (l st : Nat) : Writes [(4, 0, 2)] d (d.put (LN_STATE.STATE l) st) :=
  putLane d l st (by decide) (by decide) (by decide)

theorem setLaneStates (d : Dev) (ls : List Nat) (st : Nat) : Writes ((4, 0, 2) :: frozenBits) d (setLaneStates d ls st) :=
  foldl (fun d l => ite (refl d) (((putState d l st).mono (by decide)).trans ((refreeze ..).mono (by decide)))) ls d

theorem adapt (d : Dev) (l : Nat) : Writes ((4, 9, 9) :: frozenBits) d (adapt d l) := by
  have mode : Writes ((4, 9, 9) :: frozenBits) d (d.put (LN_STATE.ADAPT_EYE l) (if eyeMode d l then 1 else 0)) :=
    (putLane d l _ (by decide) (by decide) (by decide)).mono (by decide)
  exact (ite (refl d) mode).trans ((refreeze ..).mono (by decide))

theorem anStart {W : Footprint} (d : Dev) (p : Nat) : Writes W d (anStart d p) := ite ((hidden ..).trans (emit ..)) (hidden ..)

theorem scanAbort (d : Dev) (l : Nat) : Writes scanBits d (scanAbort d l) := by
  have points (d : Dev) : Writes scanBits d (d.put (LN_EYE_STAT.POINTS l) (scannedPoints d l)) :=
    (putLane d l _ (by decide) (by decide) (by decide)).mono (by decide)
  have running (d : Dev) : Writes scanBits d (d.put (LN_EYE_STAT.RUNNING l) 0) :=
    (putLane d l _ (by decide) (by decide) (by decide)).mono (by decide)
  have abort (d : Dev) : Writes scanBits d (d.event (LN_STATUS.SCAN_ABORT l)) :=
    (eventLane d l (by decide) (by decide)).mono (by decide)
  refine ite (trans ?_ (abort _)) (refl d)
  exact ((points d).trans (running _)).trans ((refreeze ..).mono (by decide))

theorem updateLink (d : Dev) (p : Nat) : Writes linkBits d (updateLink d p) := by
  have state (d : Dev) (v : Nat) : Writes linkBits d (d.put (PT_LINK.STATE p) v) :=
    (putPort d p v (by decide) (by decide) (by decide)).mono (by decide)
  have live (d : Dev) : Writes linkBits d (d.put (PT_LINK.LIVE p) 0) :=
    (putPort d p 0 (by decide) (by decide) (by decide)).mono (by decide)
  have down (d : Dev) : Writes linkBits d (d.event (PT_STATUS.DOWN p)) := (eventPort d p (by decide) (by decide)).mono (by decide)
  have up (d : Dev) : Writes linkBits d (d.event (PT_STATUS.UP p)) := (eventPort d p (by decide) (by decide)).mono (by decide)
  have fault (d : Dev) : Writes linkBits d (d.event (PT_STATUS.FAULT p)) := (eventPort d p (by decide) (by decide)).mono (by decide)
  have counted (d : Dev) : Writes linkBits d (d.ctrAdd (ptCtr p 25) 1) := of_regs
  have noFrames (d : Dev) : Writes linkBits d (d.port p fun x => { x with ctlFrames := [] }) := of_regs
  unfold Machine.updateLink
  extract_lets old new d1 d2
  have shown : Writes linkBits d d1 := state ..
  have left : Writes linkBits d d2 := shown.trans (ite ((((live _).trans (counted _)).trans (down _)).trans (noFrames _)) (refl _))
  exact ite (refl d) (ite ((left.trans (up _)).trans (of_controlSent (ControlSent.pauseAgain ..))) (ite (left.trans (fault _)) left))

theorem prune (d : Dev) (p : Nat) : Writes [(0x11004, 7, 7)] d (prune d p) := (putPort d p 0 (by decide) (by decide) (by decide)).mono (by decide)

theorem clearSurvey (d : Dev) (p : Nat) : Writes surveyBits d (clearSurvey d p) := by
  have state (d : Dev) : Writes surveyBits d (d.setWord (LN_SURVEY_STATE.word p).addr 0) :=
    (setLaneWord d p 0 (by decide)).mono (by decide)
  have peer (d : Dev) : Writes surveyBits d (d.setWord (LN_SURVEY_PEER.word p).addr 0) :=
    (setLaneWord d p 0 (by decide)).mono (by decide)
  have peer2 (d : Dev) : Writes surveyBits d (d.setWord (LN_SURVEY_PEER2.word p).addr 0) :=
    (setLaneWord d p 0 (by decide)).mono (by decide)
  exact (((state d).trans (peer _)).trans (peer2 _)).trans ((wput ..).trans (wput ..))

theorem leaveService (d : Dev) (p : Nat) : Writes serviceBits d (leaveService d p) := by
  have align (d : Dev) : Writes serviceBits d (d.put (PT_LINK.FEC_ALIGN p) 0) :=
    (putPort d p 0 (by decide) (by decide) (by decide)).mono (by decide)
  have lf (d : Dev) : Writes serviceBits d (d.put (PT_LINK.LF p) 0) :=
    (putPort d p 0 (by decide) (by decide) (by decide)).mono (by decide)
  have rf (d : Dev) : Writes serviceBits d (d.put (PT_LINK.RF p) 0) :=
    (putPort d p 0 (by decide) (by decide) (by decide)).mono (by decide)
  unfold Machine.leaveService
  extract_lets d1 d2 d3
  have scans : Writes serviceBits d d1 := (foldl (fun d l => scanAbort d l) _ d).mono (by decide)
  have told : Writes serviceBits d d2 := scans.trans (ite (emit ..) (refl _))
  have forgot : Writes serviceBits d d3 := told.trans (((align _).trans (lf _)).trans (rf _))
  exact forgot.trans (((updateLink ..).mono (by decide)).trans ((prune ..).mono (by decide)))

theorem laneDown (d : Dev) (l : Nat) : Writes ((4, 0, 2) :: scanBits) d (laneDown d l) := by
  have down (d : Dev) : Writes ((4, 0, 2) :: scanBits) d (d.event (LN_STATUS.DOWN l)) :=
    (eventLane d l (by decide) (by decide)).mono (by decide)
  unfold Machine.laneDown
  extract_lets was d1 d2
  have fresh : Writes ((4, 0, 2) :: scanBits) d d1 := (((scanAbort d l).mono (by decide)).trans (freshLane ..)).trans (hidden ..)
  have off : Writes ((4, 0, 2) :: scanBits) d d2 :=
    fresh.trans (((putState ..).mono (by decide)).trans ((refreeze ..).mono (by decide)))
  exact ite (refl d) (ite off (off.trans (down _)))

theorem enterActive (d : Dev) (p : Nat) : Writes ((4, 0, 2) :: linkBits ++ scanBits) d (enterActive d p) := by
  have active (d : Dev) (l : Nat) : Writes ((4, 0, 2) :: linkBits ++ scanBits) d (d.event (LN_STATUS.ACTIVE l)) :=
    (eventLane d l (by decide) (by decide)).mono (by decide)
  unfold Machine.enterActive
  extract_lets ls d1 d2
  have scans : Writes ((4, 0, 2) :: linkBits ++ scanBits) d d1 := ite ((foldl (fun d l => scanAbort d l) _ d).mono (by decide)) (refl d)
  have states : Writes ((4, 0, 2) :: linkBits ++ scanBits) d d2 := scans.trans ((setLaneStates ..).mono (by decide))
  exact states.trans ((foldl active _ _).trans ((updateLink ..).mono (by decide)))

theorem takeLockFom (d : Dev) (p : Nat) : Writes [(0x20, 8, 15)] d (takeLockFom d p) :=
  foldl (fun d l => putLane d l _ (by decide) (by decide) (by decide)) _ d

theorem takeSkew (d : Dev) (p skew : Nat) : Writes [(0x11004, 8, 15)] d (takeSkew d p skew) :=
  ((putPort d p _ (by decide) (by decide) (by decide)).mono (by decide)).trans (hidden ..)

end Writes

end Sys2Proof.Machine

namespace Sys2Proof.Machine

/-! ### Which lanes form a port (R160, R194) -/

theorem laneMode_le {d : Dev} {l : Nat} : (laneMode d l).lanes ≤ 8 := by
  rw [laneMode]
  generalize octModeOf d l = m
  unfold modeRow
  split <;> decide

theorem mem_portLanes {d : Dev} {p l : Nat} : l ∈ portLanes d p ↔ p ≤ l ∧ l < p + (laneMode d p).lanes := by
  simp only [portLanes, List.mem_map, List.mem_range]
  constructor
  · rintro ⟨i, hi, rfl⟩
    omega
  · exact fun ⟨lo, hi⟩ => ⟨l - p, by omega, by omega⟩

theorem isPort_iff {d : Dev} {p : Nat} : isPort d p = true ↔ p < 1024 ∧ (laneMode d p).lanes ≠ 0 ∧ p % 8 % (laneMode d p).lanes = 0 := by
  simp only [isPort, Bool.and_eq_true, decide_eq_true_eq, and_assoc]

/-- A port's first lane is one of its lanes. -/
theorem isPort_mem {d : Dev} {p : Nat} (h : isPort d p = true) : p ∈ portLanes d p := by
  obtain ⟨-, some, -⟩ := isPort_iff.mp h
  exact mem_portLanes.mpr ⟨Nat.le_refl p, by omega⟩

theorem portOf_none {d : Dev} {l : Nat} (h : portOf d l = none) : isPort d l = false := by
  have none : (laneMode d l).lanes = 0 := by
    by_contra some
    simp [portOf, some] at h
  simp [isPort, none]

/-- A lane is one of the lanes of its port: the port lies in the lane's octet, so it has the same mode. -/
theorem portOf_mem {d : Dev} {l p : Nat} (h : portOf d l = some p) : l ∈ portLanes d p := by
  unfold portOf at h
  simp only at h
  split at h
  · cases h
  · next some =>
    obtain rfl := Option.some.inj h
    have le := laneMode_le (d := d) (l := l)
    have rest := Nat.mod_lt (l % 8) (Nat.pos_of_ne_zero some)
    have rest' := Nat.mod_le (l % 8) (laneMode d l).lanes
    have slice : (l - l % 8 % (laneMode d l).lanes) / 32 = l / 32 := by omega
    have octet : (l - l % 8 % (laneMode d l).lanes) % 32 / 8 = l % 32 / 8 := by omega
    have mode : laneMode d (l - l % 8 % (laneMode d l).lanes) = laneMode d l := by
      rw [laneMode, octModeOf, slice, octet, laneMode, octModeOf]
    exact mem_portLanes.mpr ⟨Nat.sub_le .., by rw [mode]; omega⟩

/-- The octets have the same modes in d and e. -/
def SameModes (d e : Dev) : Prop := ∀ l, laneMode e l = laneMode d l

namespace SameModes

variable {d e : Dev}

theorem portLanes (h : SameModes d e) (p : Nat) : portLanes e p = portLanes d p := by rw [Machine.portLanes, h, Machine.portLanes]

theorem portOf (h : SameModes d e) (l : Nat) : portOf e l = portOf d l := by rw [Machine.portOf, h, Machine.portOf]

theorem isPort (h : SameModes d e) (p : Nat) : isPort e p = isPort d p := by rw [Machine.isPort, h, Machine.isPort]

end SameModes

/-! ### The states of lanes (R158, R160) -/

theorem laneBase_inj {l k : Nat} (h : laneBase l = laneBase k) : l = k := by
  unfold laneBase sliceBase at h
  omega

theorem Keeps.laneState {W : Footprint} {d e : Dev} (h : Keeps W d e) (hs : W.spares 4 0 2) (k : Nat) :
    laneState e k = laneState d k := h.lane k (by decide) hs

theorem laneState_putState (d : Dev) (l k : Nat) {st : Nat} (h : st < 8) :
    laneState (d.put (LN_STATE.STATE l) st) k = if k = l then st else laneState d k := by
  split
  · next same =>
    subst same
    exact (Dev.get_put d (LN_STATE.STATE k) st (by simp [LN_STATE.STATE]) (by simp [LN_STATE.STATE])).trans (Nat.mod_eq_of_lt h)
  · next other =>
    exact Dev.get_put_other d (LN_STATE.STATE l) (LN_STATE.STATE k) st (by simp [LN_STATE.STATE]) (by simp [LN_STATE.STATE])
      (.inl fun same => other (laneBase_inj (Nat.add_right_cancel same)))

theorem refreeze_state (d : Dev) (l k : Nat) : laneState (refreeze d l) k = laneState d k :=
  (Writes.refreeze d l).laneState (by decide) k

/-- Every lane of the list takes the state, but those in TEST (R160). -/
theorem setLaneStates_state (d : Dev) (ls : List Nat) {st : Nat} (h : st < 8) (k : Nat) :
    laneState (setLaneStates d ls st) k = if k ∈ ls ∧ laneState d k ≠ 6 then st else laneState d k := by
  induction ls generalizing d with
  | nil => simp [setLaneStates]
  | cons l ls ih =>
    have step : setLaneStates d (l :: ls) st
        = setLaneStates (if laneState d l = 6 then d else refreeze (d.put (LN_STATE.STATE l) st) l) ls st := rfl
    rw [step, ih]
    by_cases test : laneState d l = 6
    · rw [if_pos test]
      refine if_congr ?_ rfl rfl
      simp only [List.mem_cons]
      constructor
      · exact fun ⟨mem, ne⟩ => ⟨.inr mem, ne⟩
      · rintro ⟨rfl | mem, ne⟩
        · exact absurd test ne
        · exact ⟨mem, ne⟩
    · rw [if_neg test, refreeze_state, laneState_putState _ _ _ h]
      by_cases same : k = l
      · subst same
        simp [test]
      · simp [same]

/-- A lane of a list that is not in TEST takes the state. -/
theorem setLaneStates_mem {d : Dev} {ls : List Nat} {st k : Nat} (h : st < 8) (mem : k ∈ ls) (test : laneState d k ≠ 6) :
    laneState (setLaneStates d ls st) k = st := by rw [setLaneStates_state d ls h, if_pos ⟨mem, test⟩]

/-- Every lane of a list takes the state or is in TEST. -/
theorem setLaneStates_or {d : Dev} {ls : List Nat} {st k : Nat} (h : st < 8) (mem : k ∈ ls) :
    laneState (setLaneStates d ls st) k = st ∨ laneState d k = 6 := by
  by_cases test : laneState d k = 6
  · exact .inr test
  · exact .inl (setLaneStates_mem h mem test)

/-- A lane goes to DOWN, but from TEST; the others stay (R159). -/
theorem laneDown_state (d : Dev) (l k : Nat) :
    laneState (laneDown d l) k = if k = l ∧ laneState d l ≠ 6 then 0 else laneState d k := by
  unfold laneDown
  extract_lets was d1 d2
  split
  · next test => simp [test]
  · next test =>
    have stopped : laneState d1 k = laneState d k := (Writes.scanAbort d l).laneState (by decide) k
    have off : laneState d2 k = if k = l then 0 else laneState d k := by
      rw [refreeze_state, laneState_putState _ _ _ (by decide), stopped]
    have down : laneState (d2.event (LN_STATUS.DOWN l)) k = laneState d2 k :=
      (Writes.eventLane d2 l (by decide) (by decide)).laneState (by decide) k
    simp only [test, ne_eq, not_false_eq_true, and_true, ← off]
    split
    · rfl
    · exact down

/-- Every lane of a list goes to DOWN or is in TEST. -/
theorem foldl_laneDown_state (ls : List Nat) (d : Dev) (k : Nat) :
    laneState (ls.foldl laneDown d) k = if k ∈ ls ∧ laneState d k ≠ 6 then 0 else laneState d k := by
  induction ls generalizing d with
  | nil => simp
  | cons l ls ih =>
    rw [List.foldl_cons, ih, laneDown_state]
    by_cases same : k = l
    · subst same
      by_cases test : laneState d k = 6
      · simp [test]
      · simp [test]
    · simp [same]

/-! ### The hidden records of lanes -/

@[simp] theorem Dev.get_lane (d : Dev) (l : Nat) (f : LaneHid → LaneHid) (g : Fld) : (d.lane l f).get g = d.get g := rfl

@[simp] theorem Dev.get_emit (d : Dev) (o : Output) (g : Fld) : (d.emit o).get g = d.get g := rfl

theorem laneHid_lane_same (d : Dev) (l : Nat) (f : LaneHid → LaneHid) : laneHid (d.lane l f) l = f (laneHid d l) :=
  SMap.get_put_same ..

theorem laneHid_lane_other (d : Dev) (f : LaneHid → LaneHid) {l k : Nat} (h : k ≠ l) : laneHid (d.lane l f) k = laneHid d k :=
  SMap.get_put_other _ _ _ _ h

/-- The hidden records of lanes changed only in their freezes' times. -/
structure FreezeTimes (d e : Dev) : Prop where
  hid : ∀ k, ∃ t u, laneHid e k = { laneHid d k with freezeTicks := t, frozenAt := u }

namespace FreezeTimes

variable {d e f : Dev}

theorem of_lanes (h : e.lanes = d.lanes) : FreezeTimes d e := ⟨fun k => ⟨_, _, by rw [laneHid, h, laneHid]⟩⟩

theorem trans (h : FreezeTimes d e) (k : FreezeTimes e f) : FreezeTimes d f := by
  refine ⟨fun l => ?_⟩
  obtain ⟨_, _, he⟩ := h.hid l
  obtain ⟨t, u, hf⟩ := k.hid l
  exact ⟨t, u, by rw [hf, he]⟩

theorem ite {c : Prop} [Decidable c] (h : FreezeTimes d e) (k : FreezeTimes d f) : FreezeTimes d (if c then e else f) := by
  split
  · exact h
  · exact k

theorem put (d : Dev) (f : Fld) (v : Nat) : FreezeTimes d (d.put f v) := of_lanes (Dev.put_lanes ..)

theorem lane (d : Dev) (l : Nat) (f : LaneHid → LaneHid) (hf : ∀ h, ∃ t u, f h = { h with freezeTicks := t, frozenAt := u }) :
    FreezeTimes d (d.lane l f) := by
  refine ⟨fun k => ?_⟩
  by_cases hk : k = l
  · subst hk
    rw [laneHid_lane_same]
    exact hf _
  · rw [laneHid_lane_other _ _ hk]
    exact ⟨_, _, rfl⟩

theorem setFreeze (d : Dev) (l m : Nat) : FreezeTimes d (setFreeze d l m) := by
  have frozen (d : Dev) (x : Nat) : FreezeTimes d (d.lane l fun h => { h with frozenAt := x }) := lane _ _ _ fun _ => ⟨_, _, rfl⟩
  have ended (d : Dev) (x : Nat) : FreezeTimes d (d.lane l fun h => { h with freezeTicks := h.freezeTicks + (x - h.frozenAt) }) :=
    lane _ _ _ fun _ => ⟨_, _, rfl⟩
  unfold Machine.setFreeze
  exact ite (((put ..).trans (put ..)).trans (frozen ..)) (ite ((put ..).trans (ended ..)) (put ..))

theorem refreeze (d : Dev) (l : Nat) : FreezeTimes d (refreeze d l) := setFreeze ..

theorem adapt (d : Dev) (l : Nat) : FreezeTimes d (adapt d l) := (ite (of_lanes rfl) (put ..)).trans (refreeze ..)

end FreezeTimes

end Sys2Proof.Machine

namespace Sys2Proof.Machine

/-! ### Frames of one lane's commands -/

/-- Device e differs from d in nothing but registers at the listed addresses, hidden records of lanes, outputs, and interrupts
that wait behind a mask. -/
structure LaneOnly (A : List Nat) (d e : Dev) : Prop where
  frame : ∃ r o p ls, e = { d with regs := r, out := o, pba := p, lanes := ls }
  words : ∀ a, a ∉ A → e.word a = d.word a

namespace LaneOnly

variable {A B : List Nat} {d e f : Dev}

theorem refl (d : Dev) : LaneOnly A d d := ⟨⟨d.regs, d.out, d.pba, d.lanes, rfl⟩, fun _ _ => rfl⟩

theorem trans (h : LaneOnly A d e) (k : LaneOnly A e f) : LaneOnly A d f := by
  obtain ⟨⟨_, _, _, _, rfl⟩, words⟩ := h
  obtain ⟨⟨_, _, _, _, rfl⟩, kept⟩ := k
  exact ⟨⟨_, _, _, _, rfl⟩, fun a ha => (kept a ha).trans (words a ha)⟩

theorem mono (h : LaneOnly A d e) (hs : ∀ a ∈ A, a ∈ B) : LaneOnly B d e := ⟨h.frame, fun a ha => h.words a fun mem => ha (hs a mem)⟩

theorem ite {c : Prop} [Decidable c] (h : LaneOnly A d e) (k : LaneOnly A d f) : LaneOnly A d (if c then e else f) := by
  split
  · exact h
  · exact k

theorem of_regsOnly (h : Dev.regsOnly A d e) : LaneOnly A d e := by
  obtain ⟨⟨_, _, _, rfl⟩, words⟩ := h
  exact ⟨⟨_, _, _, d.lanes, rfl⟩, words⟩

theorem put (d : Dev) (f : Fld) (v : Nat) (h : f.addr ∈ A) : LaneOnly A d (d.put f v) :=
  of_regsOnly (Dev.regsOnly_mono (Dev.regsOnly_put d f v) (by simpa using h))

theorem event (d : Dev) (f : Fld) (h : f.addr ∈ A) : LaneOnly A d (d.event f) :=
  of_regsOnly (Dev.regsOnly_mono (Dev.regsOnly_event d f) (by simpa using h))

theorem lane (d : Dev) (l : Nat) (f : LaneHid → LaneHid) : LaneOnly A d (d.lane l f) := ⟨⟨_, _, _, _, rfl⟩, fun _ _ => rfl⟩

theorem emit (d : Dev) (o : Output) : LaneOnly A d (d.emit o) := of_regsOnly (Dev.regsOnly_emit A d o)

/-- The frame as the claims state it. -/
theorem regsOnly (h : LaneOnly A d e) : Dev.regsOnly A { d with lanes := e.lanes } e := by
  obtain ⟨⟨r, o, p, ls, rfl⟩, words⟩ := h
  exact ⟨⟨r, o, p, rfl⟩, words⟩

end LaneOnly

/-- The registers of a freeze (R177, R180). -/
abbrev freezeRegs (l : Nat) : List Nat := [(LN_STATE.word l).addr, (LN_CNT_FREEZE l).addr]

theorem LaneOnly.setFreeze (d : Dev) (l m : Nat) : LaneOnly (freezeRegs l) d (setFreeze d l m) := by
  have shown : LaneOnly (freezeRegs l) d (d.put (LN_STATE.FREEZE l) m) := put _ _ _ (by simp [LN_STATE.FREEZE, LN_STATE.word])
  have counted (d : Dev) : LaneOnly (freezeRegs l) d (d.bump (LN_CNT_FREEZE l)) :=
    put _ _ _ (by simp)
  exact ite ((shown.trans (counted _)).trans (lane ..)) (ite (shown.trans (lane ..)) shown)

theorem LaneOnly.refreeze (d : Dev) (l : Nat) : LaneOnly (freezeRegs l) d (refreeze d l) := setFreeze ..

theorem LaneOnly.adapt (d : Dev) (l : Nat) : LaneOnly (freezeRegs l) d (adapt d l) :=
  (ite (refl d) (put _ (LN_STATE.ADAPT_EYE l) _ (by simp [LN_STATE.ADAPT_EYE, LN_STATE.word]))).trans (refreeze ..)

/-- What FREEZE shows. -/
theorem setFreeze_freeze (d : Dev) (l : Nat) {m : Nat} (h : m < 16) : (setFreeze d l m).get (LN_STATE.FREEZE l) = m := by
  have shown : (d.put (LN_STATE.FREEZE l) m).get (LN_STATE.FREEZE l) = m :=
    (Dev.get_put d (LN_STATE.FREEZE l) m (by simp [LN_STATE.FREEZE]) (by simp [LN_STATE.FREEZE])).trans (Nat.mod_eq_of_lt h)
  have counted (d : Dev) : (d.bump (LN_CNT_FREEZE l)).get (LN_STATE.FREEZE l) = d.get (LN_STATE.FREEZE l) :=
    (Writes.putLane d l _ (by decide) (by decide) (by decide)).lane l (by decide) (by decide)
  unfold setFreeze
  extract_lets old d1
  split
  · rw [Dev.get_lane]
    exact (counted d1).trans shown
  · split
    · rw [Dev.get_lane]
      exact shown
    · exact shown

/-! ### The pattern generator and checker (R188, R192) -/

/-- Writes of the checker: CHK_RUN and SYNC. -/
abbrev checkerBits : Footprint := [(0x208, 0, 1)]

theorem Writes.checkerRun (d : Dev) (l : Nat) : Writes checkerBits d (checkerRun d l) := by
  have run (v : Nat) : Writes checkerBits d (d.put (LN_PRBS_STAT.CHK_RUN l) v) :=
    (putLane d l v (by decide) (by decide) (by decide)).mono (by decide)
  have sync (d : Dev) : Writes checkerBits d (d.put (LN_PRBS_STAT.SYNC l) 0) :=
    (putLane d l 0 (by decide) (by decide) (by decide)).mono (by decide)
  exact ite (run _) ((run _).trans (sync _))

theorem Writes.patternRun (d : Dev) (l : Nat) : Writes checkerBits d (patternRun d l) :=
  ite (checkerRun d l) (((checkerRun d l).trans (hidden ..)).trans (emit ..))

theorem LaneOnly.patternRun (d : Dev) (l : Nat) : LaneOnly [(LN_PRBS_STAT.word l).addr] d (patternRun d l) := by
  have run (v : Nat) : LaneOnly [(LN_PRBS_STAT.word l).addr] d (d.put (LN_PRBS_STAT.CHK_RUN l) v) :=
    put _ _ _ (by simp [LN_PRBS_STAT.CHK_RUN, LN_PRBS_STAT.word])
  have sync (d : Dev) : LaneOnly [(LN_PRBS_STAT.word l).addr] d (d.put (LN_PRBS_STAT.SYNC l) 0) :=
    put _ _ _ (by simp [LN_PRBS_STAT.SYNC, LN_PRBS_STAT.word])
  have checker : LaneOnly [(LN_PRBS_STAT.word l).addr] d (checkerRun d l) := ite (run _) ((run _).trans (sync _))
  exact ite checker ((checker.trans (lane ..)).trans (emit ..))

/-- The generator sends what the registers and the USER word say. -/
theorem generatorSends_congr {d e : Dev} (l : Nat) (words : ∀ a, e.word a = d.word a) (wide : e.wide = d.wide) :
    generatorSends e l = generatorSends d l := by
  simp only [generatorSends, laneState, carries, Dev.flag, Dev.get, Dev.wget, words, wide]
  rfl

/-- The generator follows what it is to send. -/
theorem patternRun_gen (d : Dev) (l : Nat) : (laneHid (patternRun d l) l).gen = generatorSends (patternRun d l) l := by
  unfold patternRun
  extract_lets d1 new
  split
  · next same => exact same
  · have sends : generatorSends ((d1.lane l fun h => { h with gen := new }).emit (.pattern l new)) l = new :=
      generatorSends_congr l (fun _ => rfl) rfl
    have emitted : laneHid ((d1.lane l fun h => { h with gen := new }).emit (.pattern l new)) l
        = laneHid (d1.lane l fun h => { h with gen := new }) l := rfl
    rw [sends, emitted, laneHid_lane_same]

/-- Outside TEST neither generator nor checker runs. -/
theorem patternRun_off {d : Dev} {l : Nat} (h : laneState d l ≠ 6) :
    (patternRun d l).get (LN_PRBS_STAT.CHK_RUN l) = 0 ∧ (laneHid (patternRun d l) l).gen = none := by
  have stop : checkerRun d l = (d.put (LN_PRBS_STAT.CHK_RUN l) 0).put (LN_PRBS_STAT.SYNC l) 0 := by simp [checkerRun, h]
  have run : (checkerRun d l).get (LN_PRBS_STAT.CHK_RUN l) = 0 := by
    rw [stop, Dev.get_put_other _ _ _ _ (by simp [LN_PRBS_STAT.SYNC]) (by simp [LN_PRBS_STAT.SYNC])
      (by simp [LN_PRBS_STAT.SYNC, LN_PRBS_STAT.CHK_RUN]),
      Dev.get_put _ _ _ (by simp [LN_PRBS_STAT.CHK_RUN]) (by simp [LN_PRBS_STAT.CHK_RUN])]
    rfl
  refine ⟨?_, ?_⟩
  · unfold patternRun
    extract_lets d1 new
    split
    · exact run
    · exact run
  · have state : laneState (patternRun d l) l = laneState d l := (Writes.patternRun d l).laneState (by decide) l
    rw [patternRun_gen, generatorSends, state]
    simp [h]

end Sys2Proof.Machine

namespace Sys2Proof.Machine

theorem Dev.flag_false {d : Dev} {f : Fld} : d.flag f = false ↔ d.get f = 0 := by simp [Dev.flag]

/-- A field reads as the value last written to it, if that fits. -/
theorem Dev.get_put_fits (d : Dev) {a hi lo v : Nat} (hb : lo ≤ hi) (h31 : hi < 32) (h : v < 2 ^ (hi + 1 - lo)) :
    (d.put ⟨a, hi, lo⟩ v).get ⟨a, hi, lo⟩ = v :=
  (Dev.get_put d ⟨a, hi, lo⟩ v hb h31).trans (Nat.mod_eq_of_lt h)

/-! ### Test mode (R159, R188) -/

section Test
variable {l : Nat} {d : Dev}

theorem enterTest_spec (down : laneState d l = 0) (mode : d.flag (LN_CTL.TEST_MODE l) = true) :
    laneState (enterTest d l) l = 6 ∧ (enterTest d l).get (LN_STATE.POWERED l) = 1
      ∧ (laneHid (enterTest d l) l).gen = generatorSends (enterTest d l) l
      ∧ LaneOnly [(LN_STATE.word l).addr, (LN_PRBS_STAT.word l).addr, (LN_CNT_FREEZE l).addr] d (enterTest d l) := by
  have run : enterTest d l = patternRun (adapt ((d.put (LN_STATE.STATE l) 6).put (LN_STATE.POWERED l) 1) l) l := if_pos ⟨down, mode⟩
  rw [run]
  set d1 := d.put (LN_STATE.STATE l) 6 with hd1
  set d2 := d1.put (LN_STATE.POWERED l) 1 with hd2
  have ends : Writes ((4, 9, 9) :: checkerBits ++ frozenBits) d2 (patternRun (adapt d2 l) l) :=
    ((Writes.adapt d2 l).mono (by decide)).trans ((Writes.patternRun ..).mono (by decide))
  refine ⟨?_, ?_, patternRun_gen .., ?_⟩
  · have powered : Writes [(4, 16, 16)] d1 d2 := Writes.putLane d1 l 1 (by decide) (by decide) (by decide)
    rw [ends.laneState (by decide), powered.laneState (by decide), hd1, laneState_putState _ _ _ (by decide), if_pos rfl]
  · exact (ends.lane l (by decide) (by decide)).trans (Dev.get_put_fits d1 (by decide) (by decide) (by decide))
  · refine LaneOnly.trans (e := d2) (.trans (e := d1) (.put _ _ _ ?_) (.put _ _ _ ?_)) (.trans (e := adapt d2 l) ?_ ?_)
    · simp [LN_STATE.STATE, LN_STATE.word]
    · simp [LN_STATE.POWERED, LN_STATE.word]
    · exact (LaneOnly.adapt d2 l).mono (by simp)
    · exact (LaneOnly.patternRun _ l).mono (by simp)

theorem LaneOnly.scanAbort (d : Dev) (l : Nat) :
    LaneOnly [(LN_STATE.word l).addr, (LN_STATUS.word l).addr, (LN_EYE_STAT.word l).addr, (LN_CNT_FREEZE l).addr] d (scanAbort d l) := by
  have points (d : Dev) : LaneOnly [(LN_EYE_STAT.word l).addr] d (d.put (LN_EYE_STAT.POINTS l) (scannedPoints d l)) :=
    put _ _ _ (by simp [LN_EYE_STAT.POINTS, LN_EYE_STAT.word])
  have running (d : Dev) : LaneOnly [(LN_EYE_STAT.word l).addr] d (d.put (LN_EYE_STAT.RUNNING l) 0) :=
    put _ _ _ (by simp [LN_EYE_STAT.RUNNING, LN_EYE_STAT.word])
  have abort (d : Dev) : LaneOnly [(LN_STATUS.word l).addr] d (d.event (LN_STATUS.SCAN_ABORT l)) :=
    event _ _ (by simp [LN_STATUS.SCAN_ABORT, LN_STATUS.word])
  refine ite (trans ?_ ((abort _).mono (by simp))) (refl d)
  exact (((points d).trans (running _)).mono (by simp)).trans ((refreeze ..).mono (by simp))

/-- After an abort no scan runs. -/
theorem scanAbort_running (d : Dev) (l : Nat) : (scanAbort d l).get (LN_EYE_STAT.RUNNING l) = 0 := by
  unfold scanAbort
  split
  · have abort (d : Dev) : (d.event (LN_STATUS.SCAN_ABORT l)).get (LN_EYE_STAT.RUNNING l) = d.get (LN_EYE_STAT.RUNNING l) :=
      (Writes.eventLane d l (by decide) (by decide)).lane l (by decide) (by decide)
    have frozen (d : Dev) : (refreeze d l).get (LN_EYE_STAT.RUNNING l) = d.get (LN_EYE_STAT.RUNNING l) :=
      (Writes.refreeze d l).lane l (by decide) (by decide)
    rw [abort, frozen]
    exact Dev.get_put_fits _ (by decide) (by decide) (by decide)
  · next idle => exact Dev.flag_false.mp (Bool.eq_false_iff.mpr idle)

theorem leaveTest_spec (test : laneState d l = 6) (mode : d.flag (LN_CTL.TEST_MODE l) = false) :
    laneState (leaveTest d l) l = 0 ∧ (leaveTest d l).get (LN_STATUS.DOWN l) = 1
      ∧ (leaveTest d l).get (LN_PRBS_STAT.CHK_RUN l) = 0 ∧ (laneHid (leaveTest d l) l).gen = none
      ∧ (leaveTest d l).get (LN_EYE_STAT.RUNNING l) = 0
      ∧ LaneOnly [(LN_STATE.word l).addr, (LN_STATUS.word l).addr, (LN_PRBS_STAT.word l).addr, (LN_EYE_STAT.word l).addr,
          (LN_CNT_FREEZE l).addr] d (leaveTest d l) := by
  have run : leaveTest d l
      = patternRun ((refreeze ((scanAbort d l).put (LN_STATE.STATE l) 0) l).event (LN_STATUS.DOWN l)) l := if_pos ⟨test, mode⟩
  rw [run]
  set d1 := scanAbort d l with hd1
  set d2 := refreeze (d1.put (LN_STATE.STATE l) 0) l with hd2
  set d3 := d2.event (LN_STATUS.DOWN l) with hd3
  have off : Writes ((4, 0, 2) :: frozenBits) d1 d2 := ((Writes.putState ..).mono (by decide)).trans ((Writes.refreeze ..).mono (by decide))
  have told : Writes [(0x10, 0, 0), (0x10, 24, 31)] d2 d3 := Writes.eventLane d2 l (by decide) (by decide)
  have pattern : Writes checkerBits d3 (patternRun d3 l) := Writes.patternRun d3 l
  have state : laneState d3 l = 0 := by
    rw [told.laneState (by decide), hd2, refreeze_state, laneState_putState _ _ _ (by decide), if_pos rfl]
  obtain ⟨checker, generator⟩ := patternRun_off (d := d3) (l := l) (by omega)
  refine ⟨?_, ?_, checker, generator, ?_, ?_⟩
  · rw [pattern.laneState (by decide), state]
  · have kept : (patternRun d3 l).get (LN_STATUS.DOWN l) = d3.get (LN_STATUS.DOWN l) := pattern.lane l (by decide) (by decide)
    rw [kept]
    exact Dev.event_bit d2 (LN_STATUS.DOWN l) (by simp [LN_STATUS.DOWN])
  · have kept : Writes ((4, 0, 2) :: (0x10, 0, 31) :: checkerBits ++ frozenBits) d1 (patternRun d3 l) :=
      ((off.mono (by decide)).trans (told.mono (by decide))).trans (pattern.mono (by decide))
    have same : (patternRun d3 l).get (LN_EYE_STAT.RUNNING l) = d1.get (LN_EYE_STAT.RUNNING l) := kept.lane l (by decide) (by decide)
    rw [same, scanAbort_running]
  · have scans := (LaneOnly.scanAbort d l).mono (B := [(LN_STATE.word l).addr, (LN_STATUS.word l).addr, (LN_PRBS_STAT.word l).addr,
      (LN_EYE_STAT.word l).addr, (LN_CNT_FREEZE l).addr]) (by simp)
    refine scans.trans (.trans (.put d1 (LN_STATE.STATE l) 0 ?_) (.trans ?_ (.trans (.event d2 (LN_STATUS.DOWN l) ?_) ?_)))
    · simp [LN_STATE.STATE, LN_STATE.word]
    · exact (LaneOnly.refreeze ..).mono (by simp)
    · simp [LN_STATUS.DOWN, LN_STATUS.word]
    · exact (LaneOnly.patternRun ..).mono (by simp)

end Test

/-! ### Eye scans (R185-R187) -/

section Eye
variable {l : Nat} {d : Dev}

/-- The registers of a scan. -/
abbrev eyeRegs (l : Nat) : List Nat := [(LN_EYE_STAT.word l).addr, (LN_STATE.word l).addr, (LN_CNT_FREEZE l).addr]

/-- LN_EYE_STAT as a scan leaves it: a write of RUNNING, VALID and POINTS. -/
def eyeShown (d : Dev) (l running valid points : Nat) : Dev :=
  ((d.put (LN_EYE_STAT.RUNNING l) running).put (LN_EYE_STAT.VALID l) valid).put (LN_EYE_STAT.POINTS l) points

theorem eyeShown_get (d : Dev) (l : Nat) {running valid points : Nat} (hr : running < 2) (hv : valid < 2) (hp : points < 8192) :
    (eyeShown d l running valid points).get (LN_EYE_STAT.RUNNING l) = running
      ∧ (eyeShown d l running valid points).get (LN_EYE_STAT.VALID l) = valid
      ∧ (eyeShown d l running valid points).get (LN_EYE_STAT.POINTS l) = points := by
  have points' (d : Dev) : Writes [(0x104, 0, 12)] d (d.put (LN_EYE_STAT.POINTS l) points) :=
    Writes.putLane d l points (by decide) (by decide) (by decide)
  have valid' (d : Dev) : Writes [(0x104, 15, 15)] d (d.put (LN_EYE_STAT.VALID l) valid) :=
    Writes.putLane d l valid (by decide) (by decide) (by decide)
  refine ⟨?_, ?_, Dev.get_put_fits _ (by decide) (by decide) hp⟩
  · exact ((points' _).lane l (by decide) (by decide)).trans (((valid' _).lane l (by decide) (by decide)).trans
      (Dev.get_put_fits _ (by decide) (by decide) hr))
  · exact ((points' _).lane l (by decide) (by decide)).trans (Dev.get_put_fits _ (by decide) (by decide) hv)

theorem Writes.eyeShown (d : Dev) (l running valid points : Nat) : Writes [(0x104, 0, 31)] d (eyeShown d l running valid points) := by
  have run (d : Dev) : Writes [(0x104, 0, 31)] d (d.put (LN_EYE_STAT.RUNNING l) running) :=
    (putLane d l _ (by decide) (by decide) (by decide)).mono (by decide)
  have map (d : Dev) : Writes [(0x104, 0, 31)] d (d.put (LN_EYE_STAT.VALID l) valid) :=
    (putLane d l _ (by decide) (by decide) (by decide)).mono (by decide)
  have count (d : Dev) : Writes [(0x104, 0, 31)] d (d.put (LN_EYE_STAT.POINTS l) points) :=
    (putLane d l _ (by decide) (by decide) (by decide)).mono (by decide)
  exact ((run _).trans (map _)).trans (count _)

theorem LaneOnly.eyeShown (d : Dev) (l running valid points : Nat) : LaneOnly (eyeRegs l) d (eyeShown d l running valid points) := by
  refine trans (trans (put d (LN_EYE_STAT.RUNNING l) running ?_) (put _ (LN_EYE_STAT.VALID l) valid ?_))
    (put _ (LN_EYE_STAT.POINTS l) points ?_)
  · simp [LN_EYE_STAT.RUNNING, LN_EYE_STAT.word]
  · simp [LN_EYE_STAT.VALID, LN_EYE_STAT.word]
  · simp [LN_EYE_STAT.POINTS, LN_EYE_STAT.word]

/-- The device as a scan of lane l finds it: the lane's map empty, 4,096 free values taken. -/
def mapEmptied (d : Dev) (l : Nat) : Dev := { d with eye := d.eye.keep fun k => decide (k / 4096 ≠ l), free := d.free + 4096 }

/-- What EYE_START notes of the scan in the lane's hidden record. -/
def scanNoted (d : Dev) (l : Nat) (h : LaneHid) : LaneHid :=
  { h with scanAt := d.ticks, scanDwell := max 10 (min 30 (d.get (LN_EYE_CTL.DWELL_LOG2 l))), scanSeed := d.free }

/-- The device with n free values drawn. -/
def Dev.drawn (d : Dev) (n : Nat) : Dev := { d with free := n }

theorem Dev.put_drawn (d : Dev) (f : Fld) (v n : Nat) : (d.put f v).drawn n = (d.drawn n).put f v := rfl

theorem eyeShown_drawn (d : Dev) (l running valid points n : Nat) :
    (eyeShown d l running valid points).drawn n = eyeShown (d.drawn n) l running valid points := by
  rw [eyeShown, Dev.put_drawn, Dev.put_drawn, Dev.put_drawn, eyeShown]

theorem eyeShown_ticks (d : Dev) (l running valid points : Nat) : (eyeShown d l running valid points).ticks = d.ticks := by
  rw [eyeShown, Dev.put_ticks, Dev.put_ticks, Dev.put_ticks]

theorem eyeShown_free (d : Dev) (l running valid points : Nat) : (eyeShown d l running valid points).free = d.free := by
  rw [eyeShown, Dev.put_free, Dev.put_free, Dev.put_free]

theorem startEye_eq (idle : d.flag (LN_EYE_STAT.RUNNING l) = false) (locked : 3 ≤ laneState d l) :
    ∃ f : LaneHid → LaneHid, (∀ h, (f h).scanAt = d.ticks)
      ∧ startEye d l = refreeze ((eyeShown (mapEmptied d l) l 1 0 0).lane l f) l := by
  have go : ¬(d.flag (LN_EYE_STAT.RUNNING l) = true ∨ laneState d l < 3) := by rw [idle]; simp; omega
  set d1 := eyeShown { d with eye := d.eye.keep fun k => decide (k / 4096 ≠ l) } l 1 0 0 with hd1
  have start : startEye d l = refreeze ((d1.drawn (d1.free + 4096)).lane l (scanNoted d1 l)) l := if_neg go
  refine ⟨scanNoted d1 l, fun _ => ?_, ?_⟩
  · rw [scanNoted, hd1, eyeShown_ticks]
  · rw [start, hd1, eyeShown_drawn, eyeShown_free]
    rfl

theorem startEye_spec (idle : d.flag (LN_EYE_STAT.RUNNING l) = false) (locked : 3 ≤ laneState d l) :
    (startEye d l).get (LN_EYE_STAT.RUNNING l) = 1 ∧ (startEye d l).get (LN_EYE_STAT.VALID l) = 0
      ∧ laneState (startEye d l) l = laneState d l ∧ (∀ x ∈ (startEye d l).eye, x.1 / 4096 ≠ l)
      ∧ (laneHid (startEye d l) l).scanAt = d.ticks ∧ LaneOnly (eyeRegs l) (mapEmptied d l) (startEye d l) := by
  obtain ⟨f, noted, start⟩ := startEye_eq idle locked
  rw [start]
  set d1 := eyeShown (mapEmptied d l) l 1 0 0 with hd1
  obtain ⟨running, valid, -⟩ := eyeShown_get (mapEmptied d l) l (running := 1) (valid := 0) (points := 0) (by decide) (by decide) (by decide)
  have ends : Writes frozenBits d1 (refreeze (d1.lane l f) l) := (Writes.hidden ..).trans (Writes.refreeze ..)
  have frame : LaneOnly (eyeRegs l) (mapEmptied d l) (refreeze (d1.lane l f) l) :=
    ((LaneOnly.eyeShown ..).trans (.lane ..)).trans ((LaneOnly.refreeze ..).mono (by simp))
  refine ⟨(ends.lane l (by decide) (by decide)).trans running, (ends.lane l (by decide) (by decide)).trans valid, ?_, ?_, ?_, frame⟩
  · rw [ends.laneState (by decide), (Writes.eyeShown ..).laneState (by decide)]
    rfl
  · obtain ⟨_, _, _, _, same⟩ := frame.frame
    rw [same]
    intro x hx
    simpa using (List.mem_filter.mp hx).2
  · obtain ⟨_, _, hid⟩ := (FreezeTimes.refreeze (d1.lane l f) l).hid l
    rw [hid, laneHid_lane_same]
    exact noted _

/-- The map of lane l with the points from number n on. -/
def pointsFrom (l : Nat) (m : SMap (BitVec 16)) (n : Nat) (pts : List (BitVec 16)) : SMap (BitVec 16) × Nat :=
  pts.foldl (fun a v => (a.1.put 0 (l * 4096 + a.2) v, a.2 + 1)) (m, n)

/-- A point is read as it was written: point n + i of the map is the i-th of the list, the points before it stay. -/
theorem pointsFrom_get (l : Nat) (pts : List (BitVec 16)) : ∀ (m : SMap (BitVec 16)) (n : Nat),
    (∀ j, j < n → (pointsFrom l m n pts).1.get 0 (l * 4096 + j) = m.get 0 (l * 4096 + j))
      ∧ ∀ i v, pts[i]? = some v → (pointsFrom l m n pts).1.get 0 (l * 4096 + (n + i)) = v := by
  induction pts with
  | nil => exact fun m n => ⟨fun _ _ => rfl, fun i v h => by simp at h⟩
  | cons v pts ih =>
    intro m n
    obtain ⟨before, after⟩ := ih (m.put 0 (l * 4096 + n) v) (n + 1)
    refine ⟨fun j hj => (before j (by omega)).trans (SMap.get_put_other _ _ _ _ (by omega)), fun i w h => ?_⟩
    cases i with
    | zero =>
      obtain rfl : v = w := by simpa using h
      exact (before n (by omega)).trans (SMap.get_put_same ..)
    | succ i =>
      have point := after i w (by simpa using h)
      rwa [Nat.add_assoc, Nat.add_comm 1 i] at point

/-- The end of a scan, its map filled (R187). -/
def scanDone (d : Dev) (l : Nat) (m : SMap (BitVec 16)) : Dev :=
  (refreeze (eyeShown { d with eye := m } l 0 1 4096) l).event (LN_STATUS.SCAN_DONE l)

theorem scanDone_spec (d : Dev) (l : Nat) (m : SMap (BitVec 16)) : (scanDone d l m).get (LN_EYE_STAT.RUNNING l) = 0
      ∧ (scanDone d l m).get (LN_EYE_STAT.VALID l) = 1 ∧ (scanDone d l m).get (LN_EYE_STAT.POINTS l) = 4096
      ∧ Dev.raised (LN_STATUS.SCAN_DONE l) d (scanDone d l m) ∧ (scanDone d l m).eye = m
      ∧ LaneOnly [(LN_EYE_STAT.word l).addr, (LN_STATE.word l).addr, (LN_STATUS.word l).addr, (LN_CNT_FREEZE l).addr]
          { d with eye := m } (scanDone d l m) := by
  set d1 := eyeShown { d with eye := m } l 0 1 4096 with hd1
  have shown := eyeShown_get { d with eye := m } l (running := 0) (valid := 1) (points := 4096) (by decide) (by decide) (by decide)
  obtain ⟨running, valid, points⟩ := shown
  have done (d : Dev) : Writes [(0x10, 8, 8), (0x10, 24, 31)] d (d.event (LN_STATUS.SCAN_DONE l)) :=
    Writes.eventLane d l (by decide) (by decide)
  have ends : Writes ((0x10, 0, 31) :: frozenBits) d1 (scanDone d l m) :=
    ((Writes.refreeze ..).mono (by decide)).trans ((done _).mono (by decide))
  have frame : LaneOnly [(LN_EYE_STAT.word l).addr, (LN_STATE.word l).addr, (LN_STATUS.word l).addr, (LN_CNT_FREEZE l).addr]
      { d with eye := m } (scanDone d l m) := by
    refine .trans ((LaneOnly.eyeShown ..).mono (by simp)) (.trans ((LaneOnly.refreeze ..).mono (by simp)) (.event _ _ ?_))
    simp [LN_STATUS.SCAN_DONE, LN_STATUS.word]
  refine ⟨(ends.lane l (by decide) (by decide)).trans running, (ends.lane l (by decide) (by decide)).trans valid,
    (ends.lane l (by decide) (by decide)).trans points, ?_, ?_, frame⟩
  · refine (Dev.raised_event _ (LN_STATUS.SCAN_DONE l) (by simp [LN_STATUS.SCAN_DONE])).after ?_
    have seq : Writes ((0x104, 0, 31) :: frozenBits) { d with eye := m } (refreeze d1 l) :=
      ((Writes.eyeShown ..).mono (by decide)).trans ((Writes.refreeze ..).mono (by decide))
    exact seq.lane l (by decide) (by decide)
  · obtain ⟨_, _, _, _, same⟩ := frame.frame
    rw [same]

theorem exec_eyeScanDone {s : State} {l : Fin 1024} (held : s.held = false) (runs : s.dev.flag (LN_EYE_STAT.RUNNING l) = true)
    (pts : List (BitVec 16)) : exec (.eyeScanDone l pts) s
      = .next { s with dev := scanDone s.dev l (pointsFrom l s.dev.eye 0 (pts.take 4096)).1 } := by
  show execEyeScanDone l pts s = _
  rw [execEyeScanDone, State.withDev_live _ held, if_pos runs]
  rfl

end Eye

end Sys2Proof.Machine

namespace Sys2Proof.Machine

/-! ### Figure of merit (R174-R180) -/

section Fom
variable {l : Nat} {d : Dev}

/-- The registers of a window. -/
abbrev windowRegs (l : Nat) : List Nat :=
  [(LN_FOM.word l).addr, (LN_STATE.word l).addr, (LN_CNT_FREEZE l).addr, (LN_PRBS_ERR.word l).addr]

/-- LN_FOM and the history after a window with figure of merit `fom`. -/
def fomShown (d : Dev) (l fom td : Nat) : Dev :=
  ((d.put (LN_FOM.FOM l) fom).put (LN_FOM.TD l) td).lane l fun h => { h with fomHist := (fom :: h.fomHist).take 15 }

theorem fomShown_get (d : Dev) (l : Nat) {fom td : Nat} (hf : fom < 256) (ht : td < 256) :
    (fomShown d l fom td).get (LN_FOM.FOM l) = fom ∧ (fomShown d l fom td).get (LN_FOM.TD l) = td := by
  have td' (d : Dev) : Writes [(0x20, 24, 31)] d (d.put (LN_FOM.TD l) td) := Writes.putLane d l td (by decide) (by decide) (by decide)
  rw [fomShown, Dev.get_lane, Dev.get_lane]
  exact ⟨((td' _).lane l (by decide) (by decide)).trans (Dev.get_put_fits d (by decide) (by decide) hf),
    Dev.get_put_fits _ (by decide) (by decide) ht⟩

theorem Writes.fomShown (d : Dev) (l fom td : Nat) : Writes [(0x20, 0, 31)] d (fomShown d l fom td) := by
  have fom' (d : Dev) : Writes [(0x20, 0, 31)] d (d.put (LN_FOM.FOM l) fom) :=
    (putLane d l _ (by decide) (by decide) (by decide)).mono (by decide)
  have td' (d : Dev) : Writes [(0x20, 0, 31)] d (d.put (LN_FOM.TD l) td) :=
    (putLane d l _ (by decide) (by decide) (by decide)).mono (by decide)
  exact ((fom' _).trans (td' _)).trans (hidden ..)

theorem LaneOnly.fomShown (d : Dev) (l fom td : Nat) : LaneOnly [(LN_FOM.word l).addr] d (fomShown d l fom td) := by
  refine trans (trans (put d (LN_FOM.FOM l) fom ?_) (put _ (LN_FOM.TD l) td ?_)) (lane ..)
  · simp [LN_FOM.FOM, LN_FOM.word]
  · simp [LN_FOM.TD, LN_FOM.word]

/-- The reasons of a window: TD in bit 0, FOM in bit 1 (R177). -/
theorem windowReasons_bits (d : Dev) (l fom td was : Nat) (hist : List Nat) : windowReasons d l fom td was hist < 4
    ∧ (td < d.get (LN_FOM_CFG.TD_MIN l) → windowReasons d l fom td was hist % 2 = 1)
    ∧ (d.get (LN_FOM_CFG.TD_MIN l) + 4 ≤ td → windowReasons d l fom td was hist % 2 = 0) := by
  unfold windowReasons
  extract_lets tdMin b0 drop b1
  have low : b0 < 2 := by
    unfold b0
    split
    · decide
    · split <;> omega
  have high : b1 < 2 := by
    unfold b1
    split
    · decide
    · split <;> omega
  refine ⟨by omega, fun below => ?_, fun above => ?_⟩
  · have set : b0 = 1 := if_pos below
    omega
  · have clear : b0 = 0 := (if_neg (by omega)).trans (if_pos above)
    omega

/-- In EXCHANGE and ACTIVE the freeze shows the window's reasons (R177). -/
theorem showFreeze_ruled {low : Nat} (h : laneState d l = 4 ∨ laneState d l = 5) (hl : low < 4) :
    (showFreeze d l low).get (LN_STATE.FREEZE l) % 4 = low := by
  unfold showFreeze
  extract_lets st ruled scan host
  have rules : ruled = true := by simpa [ruled, st] using h
  rw [rules, if_pos rfl]
  have scans : (if scan = true then 4 else 0) = 4 ∨ (if scan = true then 4 else 0) = 0 := by
    cases scan
    · exact .inr rfl
    · exact .inl rfl
  have hosts : (if host = true then 8 else 0) = 8 ∨ (if host = true then 8 else 0) = 0 := by
    cases host
    · exact .inr rfl
    · exact .inl rfl
  rw [setFreeze_freeze _ _ (by omega)]
  omega

/-- What a window counts: the checker's errors in TEST, else the FEC's. -/
def windowCounted (d : Dev) (l : Nat) (test : Bool) (w : LaneWindow) : Dev :=
  if test = true then checkerErrs d l w.errs else fecCounts d l w

theorem Writes.windowCounted (d : Dev) (l : Nat) (test : Bool) (w : LaneWindow) :
    Writes [(0x204, 0, 31)] d (windowCounted d l test w) := by
  have errs (v : Word) : Writes [(0x204, 0, 31)] d (d.setWord (LN_PRBS_ERR.word l).addr v) := setLaneWord d l v (by decide)
  have counted (d : Dev) (k n : Nat) : Writes [(0x204, 0, 31)] d (d.ctrAdd k n) := of_regs
  exact ite (ite (errs _) (refl d)) (ite (((counted ..).trans (counted ..)).trans (counted ..)) (refl d))

/-- Counting touches LN_PRBS_ERR and the 64-bit counters. -/
theorem windowCounted_frame (d : Dev) (l : Nat) (test : Bool) (w : LaneWindow) :
    ∃ c r, windowCounted d l test w = { d with ctr := c, regs := r }
      ∧ ∀ a, a ≠ (LN_PRBS_ERR.word l).addr → (windowCounted d l test w).word a = d.word a := by
  unfold windowCounted checkerErrs fecCounts
  split
  · split
    · exact ⟨_, _, rfl, fun a ha => Dev.word_setWord_other _ _ ha⟩
    · exact ⟨_, _, rfl, fun _ _ => rfl⟩
  · split
    · exact ⟨_, _, rfl, fun _ _ => rfl⟩
    · exact ⟨_, _, rfl, fun _ _ => rfl⟩

/-- The device after a window. -/
def windowed (d : Dev) (l : Nat) (w : LaneWindow) : Dev :=
  let fom := min 255 (4 * w.snrQ / 64)
  showFreeze (windowCounted (fomShown d l fom w.td.toNat) l (decide (laneState d l = 6)) w) l
    (windowReasons d l fom w.td.toNat (d.get (LN_STATE.FREEZE l)) (laneHid d l).fomHist)

theorem windowed_writes (d : Dev) (l : Nat) (w : LaneWindow) :
    Writes ((0x204, 0, 31) :: frozenBits) (fomShown d l (min 255 (4 * w.snrQ / 64)) w.td.toNat) (windowed d l w) :=
  ((Writes.windowCounted ..).mono (by decide)).trans ((Writes.setFreeze ..).mono (by decide))

theorem windowed_frame (d : Dev) (l : Nat) (w : LaneWindow) :
    Dev.regsOnly (windowRegs l) { d with lanes := (windowed d l w).lanes, ctr := (windowed d l w).ctr } (windowed d l w) := by
  have shown := LaneOnly.fomShown d l (min 255 (4 * w.snrQ / 64)) w.td.toNat
  obtain ⟨c, r, counted, kept⟩ := windowCounted_frame (fomShown d l (min 255 (4 * w.snrQ / 64)) w.td.toNat) l (decide (laneState d l = 6)) w
  have froze : LaneOnly (freezeRegs l) _ (windowed d l w) := LaneOnly.setFreeze ..
  generalize windowed d l w = e at froze ⊢
  obtain ⟨⟨_, _, _, _, rfl⟩, frozen⟩ := froze
  have words : ∀ a, a ∉ windowRegs l → Dev.word _ a = d.word a := fun a ha =>
    (frozen a fun mem => ha (by simp at mem ⊢; tauto)).trans ((kept a fun same => ha (by simp [same])).trans
      (shown.words a fun mem => ha (by simp at mem ⊢; tauto)))
  refine ⟨?_, words⟩
  obtain ⟨⟨_, _, _, _, same⟩, -⟩ := shown
  exact ⟨_, _, _, by rw [counted, same]⟩

theorem windowed_spec (d : Dev) (l : Nat) (w : LaneWindow) :
    (windowed d l w).get (LN_FOM.FOM l) = min 255 (4 * w.snrQ / 64) ∧ (windowed d l w).get (LN_FOM.TD l) = w.td.toNat
      ∧ laneState (windowed d l w) l = laneState d l
      ∧ (laneState d l = 4 ∨ laneState d l = 5 →
        (w.td.toNat < d.get (LN_FOM_CFG.TD_MIN l) → (windowed d l w).get (LN_STATE.FREEZE l) % 2 = 1)
        ∧ (d.get (LN_FOM_CFG.TD_MIN l) + 4 ≤ w.td.toNat → (windowed d l w).get (LN_STATE.FREEZE l) % 2 = 0)) := by
  obtain ⟨fom, td⟩ := fomShown_get d l (fom := min 255 (4 * w.snrQ / 64)) (by omega) w.td.isLt
  have ends := windowed_writes d l w
  have state : ∀ W e, Writes W (fomShown d l (min 255 (4 * w.snrQ / 64)) w.td.toNat) e → W.spares 4 0 2 → laneState e l = laneState d l :=
    fun W e h hs => (h.laneState hs l).trans ((Writes.fomShown ..).laneState (by decide) l)
  refine ⟨(ends.lane l (by decide) (by decide)).trans fom, (ends.lane l (by decide) (by decide)).trans td,
    state _ _ ends (by decide), fun ruled => ?_⟩
  obtain ⟨small, set, clear⟩ := windowReasons_bits d l (min 255 (4 * w.snrQ / 64)) w.td.toNat (d.get (LN_STATE.FREEZE l)) (laneHid d l).fomHist
  have shown : (windowed d l w).get (LN_STATE.FREEZE l) % 4
      = windowReasons d l (min 255 (4 * w.snrQ / 64)) w.td.toNat (d.get (LN_STATE.FREEZE l)) (laneHid d l).fomHist :=
    showFreeze_ruled (by rwa [state _ _ (Writes.windowCounted ..) (by decide)]) small
  exact ⟨fun below => by have := set below; omega, fun above => by have := clear above; omega⟩

/-- In TEST the running checker's errors are added, saturating (R188). -/
theorem windowed_errs {w : LaneWindow} (test : laneState d l = 6) (runs : d.flag (LN_PRBS_STAT.CHK_RUN l) = true) :
    ((windowed d l w).word (LN_PRBS_ERR.word l).addr).toNat
      = min ((d.word (LN_PRBS_ERR.word l).addr).toNat + w.errs) (2 ^ 32 - 1) := by
  set d1 := fomShown d l (min 255 (4 * w.snrQ / 64)) w.td.toNat with hd1
  have run : d1.flag (LN_PRBS_STAT.CHK_RUN l) = true :=
    (flag_of_get ((Writes.fomShown ..).lane l (by decide) (by decide))).trans runs
  have before : d1.word (LN_PRBS_ERR.word l).addr = d.word (LN_PRBS_ERR.word l).addr :=
    (LaneOnly.fomShown ..).words _ (by simp [LN_PRBS_ERR.word, LN_FOM.word])
  have counted : windowCounted d1 l (decide (laneState d l = 6)) w = d1.setWord (LN_PRBS_ERR.word l).addr
      (BitVec.ofNat 32 (sat 32 ((d1.word (LN_PRBS_ERR.word l).addr).toNat + w.errs))) := by
    rw [windowCounted, decide_eq_true test, if_pos rfl, checkerErrs, if_pos run]
  have after : (windowed d l w).word (LN_PRBS_ERR.word l).addr
      = (windowCounted d1 l (decide (laneState d l = 6)) w).word (LN_PRBS_ERR.word l).addr :=
    (LaneOnly.setFreeze _ l _).words _ (by simp [LN_PRBS_ERR.word, LN_STATE.word, LN_CNT_FREEZE])
  rw [after, counted, Dev.word_setWord, before, BitVec.toNat_ofNat, sat]
  exact Nat.mod_eq_of_lt (by omega)

theorem exec_fomWindow {s : State} {l : Fin 1024} {w : LaneWindow} (held : s.held = false) (trains : 2 ≤ laneState s.dev l) :
    exec (.fomWindow l w) s = .next { s with dev := windowed s.dev l w } := by
  show execFomWindow l w s = _
  rw [execFomWindow, State.withDev_live _ held, if_neg (by omega), windowed, windowCounted, fomShown]
  simp only [decide_eq_true_eq]

/-- FOM_REBASE's effect (R178). -/
def rebased (d : Dev) (l : Nat) : Dev := (setFreeze (d.put (LN_FOM.LOCK_FOM l) (d.get (LN_FOM.FOM l))) l 0).bump (LN_CNT_REBASE l)

theorem rebased_spec (froze : d.get (LN_STATE.FREEZE l) = 2) : (rebased d l).get (LN_FOM.LOCK_FOM l) = d.get (LN_FOM.FOM l)
      ∧ (rebased d l).get (LN_STATE.FREEZE l) = 0
      ∧ (rebased d l).get (LN_CNT_REBASE l) = (d.get (LN_CNT_REBASE l) + 1) % 2 ^ 32
      ∧ LaneOnly [(LN_FOM.word l).addr, (LN_STATE.word l).addr, (LN_CNT_REBASE l).addr] d (rebased d l) := by
  set d1 := d.put (LN_FOM.LOCK_FOM l) (d.get (LN_FOM.FOM l)) with hd1
  have lock : Writes [(0x20, 8, 15)] d d1 := Writes.putLane d l _ (by decide) (by decide) (by decide)
  have thaw := Writes.setFreeze d1 l 0
  have count (d : Dev) : Writes [(0x64, 0, 31)] d (d.bump (LN_CNT_REBASE l)) := Writes.putLane d l _ (by decide) (by decide) (by decide)
  have was : d1.get (LN_STATE.FREEZE l) = 2 := (lock.lane l (by decide) (by decide)).trans froze
  have ends : setFreeze d1 l 0 = (d1.put (LN_STATE.FREEZE l) 0).lane l fun h => { h with
      freezeTicks := h.freezeTicks + ((d1.put (LN_STATE.FREEZE l) 0).ticks - h.frozenAt) } := by
    unfold setFreeze
    dsimp only
    rw [was, if_neg (by decide), if_pos (by decide)]
  refine ⟨?_, ?_, ?_, ?_⟩
  · refine (((count _).lane l (by decide) (by decide)).trans (thaw.lane l (by decide) (by decide))).trans
      (Dev.get_put_fits d (by decide) (by decide) ?_)
    exact Fld.read_lt ..
  · exact ((count _).lane l (by decide) (by decide)).trans (setFreeze_freeze d1 l (by decide))
  · have kept : (setFreeze d1 l 0).get (LN_CNT_REBASE l) = d.get (LN_CNT_REBASE l) :=
      (thaw.lane l (by decide) (by decide)).trans (lock.lane l (by decide) (by decide))
    rw [rebased, Dev.get_bump _ (LN_CNT_REBASE l) (by simp [LN_CNT_REBASE]) (by simp [LN_CNT_REBASE]), kept]
    rfl
  · have counts (d : Dev) : LaneOnly [(LN_FOM.word l).addr, (LN_STATE.word l).addr, (LN_CNT_REBASE l).addr] d (d.bump (LN_CNT_REBASE l)) :=
      .put _ _ _ (by simp)
    refine .trans (e := d1) (.put d (LN_FOM.LOCK_FOM l) _ ?_) (.trans (e := setFreeze d1 l 0) ?_ (counts _))
    · simp [LN_FOM.LOCK_FOM, LN_FOM.word]
    · rw [ends]
      refine .trans (.put d1 (LN_STATE.FREEZE l) 0 ?_) (.lane ..)
      simp [LN_STATE.FREEZE, LN_STATE.word]

/-- A report of RETRAIN_REQ changes neither ports nor AUTO_RETRAIN. -/
theorem Writes.retrainReq (d : Dev) (l : Nat) : Writes [(0x10, 5, 5), (0x10, 24, 31)] d (d.event (LN_STATUS.RETRAIN_REQ l)) :=
  eventLane d l (by decide) (by decide)

theorem portOf_retrainReq (d : Dev) (l : Nat) : portOf (d.event (LN_STATUS.RETRAIN_REQ l)) l = portOf d l :=
  SameModes.portOf (fun k => (Writes.retrainReq d l).laneMode (by decide) k) l

theorem autoRetrain_retrainReq (d : Dev) (l p : Nat) :
    (d.event (LN_STATUS.RETRAIN_REQ l)).flag (LN_CTL.AUTO_RETRAIN p) = d.flag (LN_CTL.AUTO_RETRAIN p) :=
  (Writes.retrainReq d l).ctl p (by decide)

end Fom

end Sys2Proof.Machine

namespace Sys2Proof.Machine

/-! ### Retraining on request, the checker and LIVE (R179, R188, R189, R208) -/

section Measures
variable {s : State} {l : Fin 1024}

theorem exec_retrainReq_plain (held : s.held = false)
    (asks : 2 ≤ laneState s.dev l ∧ laneState s.dev l ≤ 5 ∧ s.dev.get (LN_FOM.FOM l) < s.dev.get (LN_FOM_CFG.FLOOR l))
    (plain : ∀ p, ¬ (portOf s.dev l = some p ∧ s.dev.flag (LN_CTL.AUTO_RETRAIN p) = true)) :
    exec (.retrainReq l) s = .next { s with dev := s.dev.event (LN_STATUS.RETRAIN_REQ l) } := by
  show execRetrainReq l s = _
  rw [execRetrainReq, State.withDev_live _ held, if_pos asks]
  dsimp only
  rw [portOf_retrainReq]
  cases port : portOf s.dev l with
  | none => rfl
  | some p =>
    dsimp only
    rw [autoRetrain_retrainReq, if_neg fun auto => plain p ⟨port, auto⟩]

theorem exec_retrainReq_auto (held : s.held = false)
    (asks : 2 ≤ laneState s.dev l ∧ laneState s.dev l ≤ 5 ∧ s.dev.get (LN_FOM.FOM l) < s.dev.get (LN_FOM_CFG.FLOOR l))
    {p : Nat} (port : portOf s.dev l = some p) (auto : s.dev.flag (LN_CTL.AUTO_RETRAIN p) = true) :
    exec (.retrainReq l) s = .next { s with dev := retrainPort s.grid (s.dev.event (LN_STATUS.RETRAIN_REQ l)) p l } := by
  show execRetrainReq l s = _
  rw [execRetrainReq, State.withDev_live _ held, if_pos asks]
  dsimp only
  rw [portOf_retrainReq, port]
  dsimp only
  rw [autoRetrain_retrainReq, if_pos auto]

theorem exec_bitslip_moves (held : s.held = false) (test : laneState s.dev l = 6) (manual : s.dev.flag (LN_CTL.MANUAL_ALIGN l) = true) :
    ∃ e, exec (.bitslip l) s = .next { s with dev := e } ∧ Dev.regsOnly [(LN_PRBS_STAT.word l).addr] s.dev e
      ∧ e.get (LN_PRBS_STAT.SLIP_POS l)
        = (s.dev.get (LN_PRBS_STAT.SLIP_POS l) + 1) % (if s.dev.get (LN_STATE.RATE l) = 0 then 128 else 64) := by
  set n := (s.dev.get (LN_PRBS_STAT.SLIP_POS l) + 1) % (if s.dev.get (LN_STATE.RATE l) = 0 then 128 else 64) with hn
  have moves : doBitslip s.dev l = s.dev.put (LN_PRBS_STAT.SLIP_POS l) n := if_pos ⟨test, manual⟩
  have fits : n < 256 := by
    rw [hn]
    split
    · exact Nat.lt_trans (Nat.mod_lt _ (by decide)) (by decide)
    · exact Nat.lt_trans (Nat.mod_lt _ (by decide)) (by decide)
  refine ⟨s.dev.put (LN_PRBS_STAT.SLIP_POS l) n, ?_, Dev.regsOnly_put s.dev (LN_PRBS_STAT.SLIP_POS l) n,
    Dev.get_put_fits s.dev (by decide) (by decide) fits⟩
  show execBitslip l s = _
  rw [execBitslip, State.withDev_live _ held, moves]

theorem exec_bitslip_ignored (held : s.held = false) (no : laneState s.dev l ≠ 6 ∨ s.dev.flag (LN_CTL.MANUAL_ALIGN l) = false) :
    exec (.bitslip l) s = .next { s with dev := s.dev.event (LN_STATUS.CMD_IGNORED l) } := by
  have ignored : doBitslip s.dev l = s.dev.event (LN_STATUS.CMD_IGNORED l) := if_neg (by simp; tauto)
  show execBitslip l s = _
  rw [execBitslip, State.withDev_live _ held, ignored]

theorem exec_eyeStart_ignored (held : s.held = false) (no : s.dev.flag (LN_EYE_STAT.RUNNING l) = true ∨ laneState s.dev l < 3) :
    exec (.eyeStart l) s = .next { s with dev := s.dev.event (LN_STATUS.CMD_IGNORED l) } := by
  have ignored : startEye s.dev l = s.dev.event (LN_STATUS.CMD_IGNORED l) := if_pos no
  show execEyeStart l s = _
  rw [execEyeStart, State.withDev_live _ held, ignored]

theorem exec_eyeStart_starts (held : s.held = false) (idle : s.dev.flag (LN_EYE_STAT.RUNNING l) = false) (locked : 3 ≤ laneState s.dev l) :
    ∃ e, exec (.eyeStart l) s = .next { s with dev := e } ∧ e.get (LN_EYE_STAT.RUNNING l) = 1 ∧ e.get (LN_EYE_STAT.VALID l) = 0
      ∧ laneState e l = laneState s.dev l ∧ (∀ x ∈ e.eye, x.1 / 4096 ≠ l.val) ∧ (laneHid e l).scanAt = s.dev.ticks
      ∧ Dev.regsOnly [(LN_EYE_STAT.word l).addr, (LN_STATE.word l).addr, (LN_CNT_FREEZE l).addr]
          { s.dev with lanes := e.lanes, eye := e.eye, free := s.dev.free + 4096 } e := by
  obtain ⟨running, valid, state, empty, noted, frame⟩ := startEye_spec idle locked
  refine ⟨_, State.withDev_live (fun d => startEye d l) held, running, valid, state, empty, noted, ?_⟩
  have eye : (startEye s.dev l).eye = (mapEmptied s.dev l).eye := by
    obtain ⟨_, _, _, _, same⟩ := frame.frame
    rw [same]
  rw [eye]
  exact frame.regsOnly

theorem exec_checkerSelfAligned (held : s.held = false) (aligns : laneState s.dev l = 6 ∧ s.dev.flag (LN_CTL.MANUAL_ALIGN l) = false
      ∧ s.dev.flag (LN_PRBS_STAT.CHK_RUN l) = true ∧ s.dev.get (LN_TEST_CTL.RX_PAT l) < 9) :
    exec (.checkerSelfAligned l) s = .next { s with dev := s.dev.put (LN_PRBS_STAT.SYNC l) 1 } := by
  show execCheckerSelfAligned l s = _
  rw [execCheckerSelfAligned, State.withDev_live _ held, if_pos aligns]

theorem exec_fomRebase (held : s.held = false) (serves : laneState s.dev l = 4 ∨ laneState s.dev l = 5)
    (froze : s.dev.get (LN_STATE.FREEZE l) = 2) (above : s.dev.get (LN_FOM_CFG.FLOOR l) ≤ s.dev.get (LN_FOM.FOM l)) :
    exec (.fomRebase l) s = .next { s with dev := rebased s.dev l } := by
  show execFomRebase l s = _
  rw [execFomRebase, State.withDev_live _ held, if_pos ⟨serves, froze, above⟩, rebased]

theorem exec_fomWindow_low {w : LaneWindow} (low : laneState s.dev l < 2) : exec (.fomWindow l w) s = .next s := by
  show execFomWindow l w s = _
  rw [execFomWindow]
  exact State.withDev_same (if_pos (by omega))

/-- LIVE_SET acts on an UP port that does not drain, its slice present (R208). -/
theorem exec_liveSet (held : s.held = false) (live : isPort s.dev l = true ∧ s.dev.get (PT_LINK.STATE l) = 1
      ∧ s.dev.flag (PT_CFG.DRAIN l) = false ∧ s.dev.sliceUp (l.val / 32) = true) :
    exec (.liveSet l) s = .next { s with dev := s.dev.put (PT_LINK.LIVE l) 1 } := by
  show execLiveSet l s = _
  rw [execLiveSet, State.withDev_live _ held, if_pos live]

end Measures

/-- Settles O36: each command by its own lemma. What a window's and a scan's measured values are is the model's choice (log entry 158). -/
theorem laneMeasures : Obligations.LaneMeasures := by
  intro l s held st
  refine ⟨?_, ?_, ?_, ?_, exec_eyeStart_starts held, exec_eyeStart_ignored held, ?_, ?_, exec_bitslip_moves held,
    exec_bitslip_ignored held, State.withDev_live (fun d => d.setWord (LN_PRBS_ERR.word l).addr 0) held,
    ⟨?_, ?_⟩, fun w => ⟨?_, ?_⟩, ⟨?_, ?_⟩,
    ⟨exec_retrainReq_plain held, fun asks p auto => exec_retrainReq_auto held asks auto.1 auto.2, ?_⟩,
    ⟨exec_liveSet held, fun no => State.withDev_same (if_neg no)⟩⟩
  · intro down mode
    obtain ⟨state, powered, gen, frame⟩ := enterTest_spec down mode
    exact ⟨_, State.withDev_live (fun d => enterTest d l) held, state, powered, gen, frame.regsOnly⟩
  · exact fun no => State.withDev_same (if_neg (by simp; tauto))
  · intro test mode
    obtain ⟨state, down, checker, gen, scan, frame⟩ := leaveTest_spec test mode
    exact ⟨_, State.withDev_live (fun d => leaveTest d l) held, state, down, checker, gen, scan, frame.regsOnly⟩
  · exact fun no => State.withDev_same (if_neg (by simp; tauto))
  · intro runs pts
    obtain ⟨running, valid, points, done, map, frame⟩ := scanDone_spec s.dev l (pointsFrom l s.dev.eye 0 (pts.take 4096)).1
    have filled : ∀ i v, i < 4096 → pts[i]? = some v → (pointsFrom l s.dev.eye 0 (pts.take 4096)).1.get 0 (l.val * 4096 + i) = v := by
      intro i v small point
      have shown := (pointsFrom_get l (pts.take 4096) s.dev.eye 0).2 i v (by rw [List.getElem?_take_of_lt small, point])
      rwa [Nat.zero_add] at shown
    refine ⟨_, exec_eyeScanDone held runs pts, running, valid, points, done, map.symm ▸ filled, ?_⟩
    rw [map]
    exact frame.regsOnly
  · exact fun idle pts => State.withDev_same (if_neg (by simp [idle]))
  · exact exec_checkerSelfAligned held
  · exact fun no => State.withDev_same (if_neg no)
  · exact fun low => exec_fomWindow_low low
  · intro trains
    obtain ⟨fom, td, state, freeze⟩ := windowed_spec s.dev l w
    exact ⟨_, exec_fomWindow held trains, fom, td, state, freeze, windowed_errs, windowed_frame ..⟩
  · intro ⟨serves, froze, above⟩
    obtain ⟨lock, thawed, counted, frame⟩ := rebased_spec froze
    exact ⟨_, exec_fomRebase held serves froze above, lock, thawed, counted, frame.regsOnly⟩
  · exact fun no => State.withDev_same (if_neg no)
  · exact fun no => State.withDev_same (if_neg no)

end Sys2Proof.Machine

namespace Sys2Proof.Machine

/-! ### DOWN to DETECT (R158, R159, R162) -/

/-- What LANE_DETECT_START asks of a port: its first lane DOWN with ADMIN_UP, a boot state that lets lanes run, its clock, and no
lane asked for or in TEST (R159). -/
def Detects (d : Dev) (p : Nat) : Prop :=
  isPort d p = true ∧ laneState d p = 0 ∧ d.flag (LN_CTL.ADMIN_UP p) = true ∧ lanesMayRun d = true
    ∧ refclkOk d p = true ∧ ∀ l ∈ portLanes d p, d.flag (LN_CTL.TEST_MODE l) = false ∧ laneState d l ≠ 6

/-- The lanes of a list powered, their exit conditions judged afresh. -/
def powered (d : Dev) (ls : List Nat) : Dev := ls.foldl (fun d l => freshLane (d.put (LN_STATE.POWERED l) 1) l) d

/-- The device after the port's entry into DETECT. -/
def detectEntry (d : Dev) (p : Nat) : Dev :=
  anStart ((setLaneStates (powered d (portLanes d p)) (portLanes d p) 1).bump (LN_CNT_DETECT p)) p

theorem detectStart_of {d : Dev} {p : Nat} (h : Detects d p) : detectStart d p = detectEntry d p := by
  obtain ⟨port, down, up, run, clock, calm⟩ := h
  exact if_pos (by simp only [port, down, up, run, clock, Bool.and_eq_true, decide_true, true_and, List.all_eq_true]
                   exact fun l mem => ⟨by simp [(calm l mem).1], decide_eq_true (calm l mem).2⟩)

theorem detectStart_idle {d : Dev} {p : Nat} (h : ¬ Detects d p) : detectStart d p = d := by
  refine if_neg fun asks => h ?_
  simp only [Bool.and_eq_true, decide_eq_true_eq, List.all_eq_true, Bool.not_eq_true'] at asks
  obtain ⟨⟨⟨⟨⟨port, down⟩, up⟩, run⟩, clock⟩, calm⟩ := asks
  exact ⟨port, down, up, run, clock, calm⟩

/-- The octets keep their modes. -/
theorem Keeps.octMode {W : Footprint} {d e : Dev} (h : Keeps W d e) (hs : ∀ w ∈ W, w.1 < 0x10000 ∨ 0x10010 ≤ w.1) (l : Nat) :
    octModeOf e l = octModeOf d l := by
  rw [octModeOf, h.fields _ fun w hw => ?_, octModeOf]
  rw [regKind_octMode]
  have := hs w hw
  omega

theorem Writes.powered (d : Dev) (ls : List Nat) : Writes [(4, 16, 16)] d (powered d ls) :=
  foldl (fun d l => (putLane d l 1 (by decide) (by decide) (by decide)).trans (freshLane ..)) ls d

theorem powered_get (ls : List Nat) (d : Dev) (k : Nat) :
    (powered d ls).get (LN_STATE.POWERED k) = if k ∈ ls then 1 else d.get (LN_STATE.POWERED k) := by
  induction ls generalizing d with
  | nil => simp [powered]
  | cons l ls ih =>
    have step : powered d (l :: ls) = powered (freshLane (d.put (LN_STATE.POWERED l) 1) l) ls := by
      rw [powered, List.foldl_cons, powered]
    rw [step, ih, freshLane, Dev.get_lane]
    by_cases same : k = l
    · subst same
      have one : (d.put (LN_STATE.POWERED k) 1).get (LN_STATE.POWERED k) = 1 := by
        exact Dev.get_put_fits d (by decide) (by decide) (by decide)
      simp [one]
    · have kept : (d.put (LN_STATE.POWERED l) 1).get (LN_STATE.POWERED k) = d.get (LN_STATE.POWERED k) :=
        Dev.get_put_other d (LN_STATE.POWERED l) (LN_STATE.POWERED k) 1 (by simp [LN_STATE.POWERED]) (by simp [LN_STATE.POWERED])
          (.inl fun eq => same (laneBase_inj (Nat.add_right_cancel eq)))
      simp [kept, same]

/-- A lane's counter counts one more (R190). -/
theorem Writes.count (d : Dev) (l : Nat) {o : Nat} (ho : o < 0x800) : Writes [(o, 0, 31)] d (d.bump ⟨laneBase l + o, 31, 0⟩) :=
  putLane d l _ ho (by decide) (by decide)

theorem counted (d : Dev) (l o : Nat) :
    (d.bump ⟨laneBase l + o, 31, 0⟩).get ⟨laneBase l + o, 31, 0⟩ = (d.get ⟨laneBase l + o, 31, 0⟩ + 1) % 2 ^ 32 :=
  Dev.get_bump d ⟨laneBase l + o, 31, 0⟩ (by simp) (by simp)

/-- The lanes of the port go to DETECT, powered; LN_CNT_DETECT counts. -/
theorem detectEntry_spec {d : Dev} {p : Nat} (calm : ∀ l ∈ portLanes d p, laneState d l ≠ 6) :
    (∀ l ∈ portLanes d p, laneState (detectEntry d p) l = 1 ∧ (detectEntry d p).get (LN_STATE.POWERED l) = 1)
      ∧ (detectEntry d p).get (LN_CNT_DETECT p) = (d.get (LN_CNT_DETECT p) + 1) % 2 ^ 32 := by
  set d1 := powered d (portLanes d p) with hd1
  set d2 := setLaneStates d1 (portLanes d p) 1 with hd2
  have power : Writes [(4, 16, 16)] d d1 := Writes.powered ..
  have states : Writes ((4, 0, 2) :: frozenBits) d1 d2 := Writes.setLaneStates ..
  have ends : Writes [(0x40, 0, 31)] d2 (detectEntry d p) := (Writes.count d2 p (by decide)).trans (Writes.anStart ..)
  refine ⟨fun l mem => ⟨?_, ?_⟩, ?_⟩
  · rw [ends.laneState (by decide), setLaneStates_mem (by decide) mem]
    rw [power.laneState (by decide)]
    exact calm l mem
  · have kept : (detectEntry d p).get (LN_STATE.POWERED l) = d1.get (LN_STATE.POWERED l) :=
      (ends.lane l (by decide) (by decide)).trans (states.lane l (by decide) (by decide))
    rw [kept, hd1, powered_get, if_pos mem]
  · have last : (detectEntry d p).get (LN_CNT_DETECT p) = (d2.bump (LN_CNT_DETECT p)).get (LN_CNT_DETECT p) :=
      (Writes.anStart (W := []) ..).lane p (by decide) (by decide)
    have first : d2.get (LN_CNT_DETECT p) = d.get (LN_CNT_DETECT p) :=
      (states.lane p (by decide) (by decide)).trans (power.lane p (by decide) (by decide))
    rw [last, LN_CNT_DETECT, counted, ← LN_CNT_DETECT, first]

theorem exec_laneDetectStart {s : State} {p : Fin 1024} (held : s.held = false) (may : Detects s.dev p) :
    ∃ e, exec (.laneDetectStart p) s = .next { s with dev := e }
      ∧ (∀ l ∈ portLanes s.dev p, laneState e l = 1 ∧ e.get (LN_STATE.POWERED l) = 1)
      ∧ e.get (LN_CNT_DETECT p) = (s.dev.get (LN_CNT_DETECT p) + 1) % 2 ^ 32 := by
  have ⟨_, _, _, _, _, calm⟩ := may
  obtain ⟨lanes, count⟩ := detectEntry_spec fun l mem => (calm l mem).2
  refine ⟨detectEntry s.dev p, ?_, lanes, count⟩
  show execLaneDetectStart p s = _
  rw [execLaneDetectStart, State.withDev_live _ held, detectStart_of may]

/-! ### DETECT (R158, R163) -/

theorem laneHid_emit (d : Dev) (o : Output) (l : Nat) : laneHid (d.emit o) l = laneHid d l := rfl

section Detect
variable {s : State} {l : Fin 1024} {p : Nat}

theorem exec_signalDetected (held : s.held = false) (port : portOf s.dev l = some p) (detect : laneState s.dev l = 1) :
    exec (.signalDetected l) s = .next { s with dev := tryTrain s.grid (s.dev.lane l fun h => { h with sig := true }) p } := by
  show execSignalDetected l s = _
  rw [execSignalDetected, State.withDev_live _ held, port]
  dsimp only
  rw [if_pos detect]

theorem exec_signalDetected_else (port : portOf s.dev l = some p) (no : laneState s.dev l ≠ 1) : exec (.signalDetected l) s = .next s := by
  show execSignalDetected l s = _
  rw [execSignalDetected]
  refine State.withDev_same ?_
  rw [port]
  exact if_neg no

theorem exec_terminationSense (held : s.held = false) (port : portOf s.dev l = some p) (detect : laneState s.dev l = 1)
    (fets : s.dev.flag (LN_CTL.FETS_EN l) = true) (b : Bool) : exec (.terminationSense l b) s
      = .next { s with dev := tryTrain s.grid (s.dev.lane l fun h => { h with term := b }) p } := by
  show execTerminationSense l b s = _
  rw [execTerminationSense, State.withDev_live _ held, port]
  dsimp only
  rw [if_pos ⟨detect, fets⟩]

theorem exec_terminationSense_else (port : portOf s.dev l = some p)
    (no : laneState s.dev l ≠ 1 ∨ s.dev.flag (LN_CTL.FETS_EN l) = false) (b : Bool) : exec (.terminationSense l b) s = .next s := by
  show execTerminationSense l b s = _
  rw [execTerminationSense]
  refine State.withDev_same ?_
  rw [port]
  exact if_neg fun ⟨detect, fets⟩ => by simp [detect, fets] at no

theorem exec_anComplete {r : AnResult} (held : s.held = false) (port : isPort s.dev l = true) (detect : laneState s.dev l = 1)
    (an : s.dev.flag (LN_CTL.AN_EN l) = true) (lanes : r.lanes = (laneMode s.dev l).lanes) (rate : r.rate.val = (laneMode s.dev l).rate) :
    exec (.anComplete l r) s
      = .next { s with dev := tryTrain s.grid (s.dev.lane l fun h => { h with anDone := true, anFec := some r.fec.val }) l } := by
  show execAnComplete l r s = _
  have allowed : anAllowed s.dev l r = true := by simp [anAllowed, lanes, rate]
  rw [execAnComplete, State.withDev_live _ held, if_pos ⟨port, detect, an, allowed⟩]

theorem exec_anComplete_else {r : AnResult} (no : isPort s.dev l = false ∨ laneState s.dev l ≠ 1 ∨ s.dev.flag (LN_CTL.AN_EN l) = false
      ∨ r.lanes ≠ (laneMode s.dev l).lanes ∨ r.rate.val ≠ (laneMode s.dev l).rate) : exec (.anComplete l r) s = .next s := by
  refine State.withDev_same (if_neg fun ⟨port, detect, an, allowed⟩ => ?_)
  simp only [anAllowed, Bool.and_eq_true, decide_eq_true_eq] at allowed
  simp [port, detect, an, allowed] at no

/-- AN_RESTART's effect: the count, and the technology advertised again (R159, R163). -/
theorem exec_anRestart (held : s.held = false) (port : isPort s.dev l = true) (detect : laneState s.dev l = 1)
    (an : s.dev.flag (LN_CTL.AN_EN l) = true) (open_ : (laneHid s.dev l).anDone = false) :
    ∃ e, exec (.anRestart l) s = .next { s with dev := e }
      ∧ e.get (LN_CNT_AN_RESTART l) = (s.dev.get (LN_CNT_AN_RESTART l) + 1) % 2 ^ 32 ∧ (laneHid e l).anFec = none
      ∧ e.out.getLast? = some (.autoneg l (laneMode s.dev l).lanes (laneMode s.dev l).rate (fecAbilities (octModeOf s.dev l)))
      ∧ Dev.regsOnly [(LN_CNT_AN_RESTART l).addr] { s.dev with lanes := e.lanes } e := by
  set d1 := (s.dev.bump (LN_CNT_AN_RESTART l)).lane l fun h => { h with anDone := false, anFec := none } with hd1
  have count : Writes [(0x44, 0, 31)] s.dev d1 := (Writes.count s.dev l (by decide)).trans (Writes.hidden ..)
  have mode : octModeOf d1 l = octModeOf s.dev l := count.octMode (by decide) l
  have restart : anStart (s.dev.bump (LN_CNT_AN_RESTART l)) l
      = d1.emit (.autoneg l (laneMode s.dev l).lanes (laneMode s.dev l).rate (fecAbilities (octModeOf s.dev l))) := by
    rw [← mode, ← count.laneMode (by decide) l]
    exact if_pos ((count.ctl l (by decide)).trans an)
  refine ⟨anStart (s.dev.bump (LN_CNT_AN_RESTART l)) l, ?_, ?_, ?_, ?_, ?_⟩
  · show execAnRestart l s = _
    rw [execAnRestart, State.withDev_live _ held, if_pos ⟨port, detect, an, open_⟩]
  · rw [restart, Dev.get_emit, hd1, Dev.get_lane, LN_CNT_AN_RESTART, counted]
  · rw [restart, laneHid_emit, hd1, laneHid_lane_same]
  · rw [restart, Dev.getLast?_emit]
  · rw [restart]
    exact LaneOnly.regsOnly (((LaneOnly.put s.dev (LN_CNT_AN_RESTART l) _ (by simp)).trans (.lane ..)).trans (.emit ..))

theorem exec_anRestart_else (no : isPort s.dev l = false ∨ laneState s.dev l ≠ 1 ∨ s.dev.flag (LN_CTL.AN_EN l) = false
      ∨ (laneHid s.dev l).anDone = true) : exec (.anRestart l) s = .next s :=
  State.withDev_same (if_neg fun ⟨port, detect, an, open_⟩ => by simp [port, detect, an, open_] at no)

/-- What a port needs to leave DETECT (R158). -/
def DetectMet (d : Dev) (p : Nat) : Prop :=
  (∀ l ∈ portLanes d p, (laneHid d l).sig = true ∧ (d.flag (LN_CTL.FETS_EN l) = true → (laneHid d l).term = true))
    ∧ (d.flag (LN_CTL.AN_EN p) = true → (laneHid d p).anDone = true)

theorem tryTrain_met {g : Grid} {d : Dev} {p : Nat} (detect : laneState d p = 1) (met : DetectMet d p) :
    ∃ e, tryTrain g d p = flushPort g e p drLinkDown ∧ ∀ l ∈ portLanes d p, laneState e l = 2 ∨ laneState d l = 6 := by
  obtain ⟨lanes, an⟩ := met
  refine ⟨_, if_pos ?_, fun l mem => ?_⟩
  · refine ⟨detect, ?_, ?_⟩
    · refine List.all_eq_true.mpr fun l mem => ?_
      obtain ⟨sig, term⟩ := lanes l mem
      cases fets : d.flag (LN_CTL.FETS_EN l) with
      | false => simp [sig]
      | true => simp [sig, term fets]
    · cases enabled : d.flag (LN_CTL.AN_EN p) with
      | false => exact .inl rfl
      | true => exact .inr (an enabled)
  · have adapts (d : Dev) (ls : List Nat) : Writes ((4, 9, 9) :: frozenBits) d (ls.foldl (fun d l => adapt (freshLane d l) l) d) :=
      Writes.foldl (fun d l => (Writes.freshLane d l).trans (Writes.adapt ..)) ls d
    rw [(adapts ..).laneState (by decide)]
    exact setLaneStates_or (by decide) mem

theorem tryTrain_unmet {g : Grid} {d : Dev} {p : Nat} (no : ¬ DetectMet d p) : tryTrain g d p = d := by
  refine if_neg fun ⟨_, lanes, an⟩ => no ⟨fun l mem => ?_, fun enabled => ?_⟩
  · have both := List.all_eq_true.mp lanes l mem
    simp only [Bool.and_eq_true, Bool.or_eq_true, Bool.not_eq_true'] at both
    exact ⟨both.1, fun fets => both.2.resolve_left (by simp [fets])⟩
  · exact an.resolve_left (by simp [enabled])

end Detect

end Sys2Proof.Machine

namespace Sys2Proof.Machine

/-! ### TRAIN (R158, R159, R164-R166) -/

/-- Bits of a trained receiver: the loss, the precoding, and its adaptation. -/
abbrev trainedBits : Footprint := (0x24, 0, 7) :: (4, 10, 11) :: (4, 9, 9) :: frozenBits

/-- A lane whose receiver is ready: the loss, the precoding, the mode it adapts in, and who is ready. -/
def trained (d : Dev) (l : Nat) (train partner tx rx : Bool) (loss : Nat) : Dev :=
  let d := d.put (LN_LOSS.LOSS l) loss
  let d := d.put (LN_STATE.PRECODE_TX l) (if train && tx then 1 else 0)
  let d := d.put (LN_STATE.PRECODE_RX l) (if train && rx && decide (d.get (LN_STATE.RATE l) ≠ 0) then 1 else 0)
  (adapt d l).lane l fun h => { h with ready := true, partnerReady := h.partnerReady || partner }

section Trained
variable (d : Dev) (l : Nat) (train partner tx rx : Bool) (loss : Nat)

theorem trained_eq : ∃ v f, trained d l train partner tx rx loss = (adapt (((d.put (LN_LOSS.LOSS l) loss).put (LN_STATE.PRECODE_TX l)
    (if train && tx then 1 else 0)).put (LN_STATE.PRECODE_RX l) v) l).lane l f := by
  unfold trained
  exact ⟨_, _, rfl⟩

theorem Writes.trained : Writes trainedBits d (trained d l train partner tx rx loss) := by
  have lost (d : Dev) : Writes trainedBits d (d.put (LN_LOSS.LOSS l) loss) :=
    (putLane d l _ (by decide) (by decide) (by decide)).mono (by decide)
  have codesTx (d : Dev) (v : Nat) : Writes trainedBits d (d.put (LN_STATE.PRECODE_TX l) v) :=
    (putLane d l v (by decide) (by decide) (by decide)).mono (by decide)
  have codesRx (d : Dev) (v : Nat) : Writes trainedBits d (d.put (LN_STATE.PRECODE_RX l) v) :=
    (putLane d l v (by decide) (by decide) (by decide)).mono (by decide)
  obtain ⟨v, f, eq⟩ := trained_eq d l train partner tx rx loss
  rw [eq]
  exact ((((lost d).trans (codesTx ..)).trans (codesRx ..)).trans ((adapt ..).mono (by decide))).trans (hidden ..)

theorem trained_get (h : loss < 256) : (trained d l train partner tx rx loss).get (LN_LOSS.LOSS l) = loss
    ∧ (trained d l train partner tx rx loss).get (LN_STATE.PRECODE_TX l) = if train && tx then 1 else 0 := by
  obtain ⟨v, f, eq⟩ := trained_eq d l train partner tx rx loss
  rw [eq]
  set d1 := d.put (LN_LOSS.LOSS l) loss with hd1
  set d2 := d1.put (LN_STATE.PRECODE_TX l) (if train && tx then 1 else 0) with hd2
  have codesTx : Writes [(4, 11, 11)] d1 d2 := Writes.putLane d1 l _ (by decide) (by decide) (by decide)
  have codesRx (d : Dev) (v : Nat) : Writes [(4, 10, 10)] d (d.put (LN_STATE.PRECODE_RX l) v) :=
    Writes.putLane d l v (by decide) (by decide) (by decide)
  have ends : Writes ((4, 10, 10) :: (4, 9, 9) :: frozenBits) d2 ((adapt (d2.put (LN_STATE.PRECODE_RX l) v) l).lane l f) :=
    (((codesRx d2 v).mono (by decide)).trans ((Writes.adapt ..).mono (by decide))).trans (.hidden ..)
  have lost : d1.get (LN_LOSS.LOSS l) = loss := by exact Dev.get_put_fits d (by decide) (by decide) h
  have sent : d2.get (LN_STATE.PRECODE_TX l) = if train && tx then 1 else 0 := by
    refine Dev.get_put_fits d1 (by decide) (by decide) ?_
    split <;> decide
  exact ⟨((ends.lane l (by decide) (by decide)).trans (codesTx.lane l (by decide) (by decide))).trans lost,
    (ends.lane l (by decide) (by decide)).trans sent⟩

theorem trained_ready (k : Nat) : (laneHid (trained d l train partner tx rx loss) k).ready = (decide (k = l) || (laneHid d k).ready)
    ∧ (laneHid (trained d l train partner tx rx loss) k).partnerReady = ((laneHid d k).partnerReady || (decide (k = l) && partner)) := by
  unfold trained
  extract_lets d1 d2 d3
  have times : FreezeTimes d (adapt d3 l) := (((FreezeTimes.put ..).trans (.put ..)).trans (.put ..)).trans (.adapt ..)
  obtain ⟨_, _, hid⟩ := times.hid k
  by_cases same : k = l
  · subst same
    rw [laneHid_lane_same, hid]
    simp
  · rw [laneHid_lane_other _ _ same, hid]
    simp [same]

end Trained

/-- What a port needs to leave TRAIN (R158). -/
def LockMet (d : Dev) (p : Nat) : Prop :=
  ∀ k ∈ portLanes d p, (laneHid d k).ready = true ∧ (d.flag (LN_CTL.TRAIN_EN p) = true → (laneHid d k).partnerReady = true)

theorem tryLock_met {d : Dev} {p : Nat} (train : laneState d p = 2) (met : LockMet d p) :
    tryLock d p = setLaneStates d (portLanes d p) 3 := by
  refine if_pos ⟨train, List.all_eq_true.mpr fun k mem => ?_⟩
  obtain ⟨ready, partner⟩ := met k mem
  cases enabled : d.flag (LN_CTL.TRAIN_EN p) with
  | false => simp [ready]
  | true => simp [ready, partner enabled]

theorem tryLock_unmet {d : Dev} {p : Nat} (no : ¬ LockMet d p) : tryLock d p = d := by
  refine if_neg fun ⟨_, lanes⟩ => no fun k mem => ?_
  have both := List.all_eq_true.mp lanes k mem
  simp only [Bool.and_eq_true, Bool.or_eq_true, Bool.not_eq_true'] at both
  exact ⟨both.1, fun enabled => both.2.resolve_left (by simp [enabled])⟩

section Train
variable {s : State} {l : Fin 1024} {p : Nat}

/-- The port's other lanes, and lane l's partner where training runs, decide whether the port locks. -/
theorem lockMet_trained {d : Dev} {l p : Nat} (mem : l ∈ portLanes d p) (train partner tx rx : Bool) (loss : Nat) :
    LockMet (trained d l train partner tx rx loss) p ↔
      (∀ k ∈ portLanes d p, k ≠ l → (laneHid d k).ready = true ∧ (d.flag (LN_CTL.TRAIN_EN p) = true → (laneHid d k).partnerReady = true))
        ∧ (d.flag (LN_CTL.TRAIN_EN p) = true → partner = true ∨ (laneHid d l).partnerReady = true) := by
  have writes := Writes.trained d l train partner tx rx loss
  have lanes : portLanes (trained d l train partner tx rx loss) p = portLanes d p :=
    SameModes.portLanes (fun k => writes.laneMode (by decide) k) p
  have enabled : (trained d l train partner tx rx loss).flag (LN_CTL.TRAIN_EN p) = d.flag (LN_CTL.TRAIN_EN p) := writes.ctl p (by decide)
  unfold LockMet
  rw [lanes, enabled]
  constructor
  · refine fun met => ⟨fun k hk other => ?_, fun asks => ?_⟩
    · simpa [trained_ready, other] using met k hk
    · have both := (met l mem).2 asks
      simpa [trained_ready, or_comm] using both
  · rintro ⟨others, own⟩ k hk
    by_cases same : k = l
    · subst same
      simpa [trained_ready, or_comm] using own
    · simpa [trained_ready, same] using others k hk same

theorem exec_receiverReady (held : s.held = false) (port : portOf s.dev l = some p) (train : laneState s.dev l = 2)
    (b tx rx : Bool) (loss : BitVec 8) : exec (.receiverReady l b tx rx loss) s
      = .next { s with dev := tryLock (trained s.dev l (s.dev.flag (LN_CTL.TRAIN_EN p)) b tx rx loss.toNat) p } := by
  show execReceiverReady l b tx rx loss s = _
  rw [execReceiverReady, State.withDev_live _ held, port]
  dsimp only
  rw [if_pos train, trained]

theorem exec_receiverReady_else (no : portOf s.dev l = none ∨ laneState s.dev l ≠ 2) (b tx rx : Bool) (loss : BitVec 8) :
    exec (.receiverReady l b tx rx loss) s = .next s := by
  show execReceiverReady l b tx rx loss s = _
  rw [execReceiverReady]
  refine State.withDev_same ?_
  cases port : portOf s.dev l with
  | none => rfl
  | some p => exact if_neg (no.resolve_left (by simp [port]))

theorem receiverReady_spec (held : s.held = false) (port : portOf s.dev l = some p) (train : laneState s.dev l = 2)
    (first : laneState s.dev p = 2) (b tx rx : Bool) (loss : BitVec 8) :
    let train : Prop := s.dev.flag (LN_CTL.TRAIN_EN p) = true
    let all : Prop := (∀ k ∈ portLanes s.dev p, k ≠ l.val →
        (laneHid s.dev k).ready = true ∧ (train → (laneHid s.dev k).partnerReady = true))
      ∧ (train → b = true ∨ (laneHid s.dev l).partnerReady = true)
    ∃ e, exec (.receiverReady l b tx rx loss) s = .next { s with dev := e } ∧ e.get (LN_LOSS.LOSS l) = loss.toNat
      ∧ (train → e.get (LN_STATE.PRECODE_TX l) = (if tx then 1 else 0)) ∧ (¬ train → e.get (LN_STATE.PRECODE_TX l) = 0)
      ∧ (all → ∀ k ∈ portLanes s.dev p, laneState e k = 3 ∨ laneState s.dev k = 6)
      ∧ (¬ all → (∀ k, laneState e k = laneState s.dev k) ∧ (laneHid e l).ready = true) := by
  intro asks all
  set d1 := trained s.dev l (s.dev.flag (LN_CTL.TRAIN_EN p)) b tx rx loss.toNat with hd1
  have writes : Writes trainedBits s.dev d1 := Writes.trained ..
  have lanes : portLanes d1 p = portLanes s.dev p := SameModes.portLanes (fun k => writes.laneMode (by decide) k) p
  obtain ⟨lost, sent⟩ := trained_get s.dev l (s.dev.flag (LN_CTL.TRAIN_EN p)) b tx rx loss.toNat loss.isLt
  have met : LockMet d1 p ↔ all := lockMet_trained (portOf_mem port) ..
  have precodes : ∀ e : Dev, e.get (LN_STATE.PRECODE_TX l) = d1.get (LN_STATE.PRECODE_TX l) →
      (asks → e.get (LN_STATE.PRECODE_TX l) = (if tx then 1 else 0)) ∧ (¬ asks → e.get (LN_STATE.PRECODE_TX l) = 0) := fun e kept =>
    ⟨fun on => by rw [kept, sent, on, Bool.true_and], fun off => by rw [kept, sent, Bool.eq_false_iff.mpr off]; rfl⟩
  have run := exec_receiverReady held port train b tx rx loss
  by_cases locks : all
  · rw [tryLock_met (by rw [writes.laneState (by decide), first]) (met.mpr locks), lanes] at run
    have states : Writes ((4, 0, 2) :: frozenBits) d1 (setLaneStates d1 (portLanes s.dev p) 3) := Writes.setLaneStates ..
    obtain ⟨on, off⟩ := precodes _ (states.lane l (by decide) (by decide))
    refine ⟨_, run, (states.lane l (by decide) (by decide)).trans lost, on, off, fun _ k mem => ?_, fun no => absurd locks no⟩
    rw [← writes.laneState (by decide) k]
    exact setLaneStates_or (by decide) mem
  · rw [tryLock_unmet (mt met.mp locks)] at run
    obtain ⟨on, off⟩ := precodes d1 rfl
    refine ⟨d1, run, lost, on, off, fun yes => absurd yes locks, fun _ => ⟨fun k => writes.laneState (by decide) k, ?_⟩⟩
    rw [hd1, (trained_ready ..).1]
    simp

/-- The port after its training failed. -/
def trainFailed (d : Dev) (l p : Nat) : Dev :=
  ((anStart ((portLanes d p).foldl freshLane (setLaneStates d (portLanes d p) 1)) p).bump (LN_CNT_TRAIN_FAIL l)).event
    (LN_STATUS.TRAIN_FAIL l)

theorem trainFail_of {d : Dev} {l : Nat} (port : portOf d l = some p) (train : laneState d l = 2) : trainFail d l = trainFailed d l p := by
  unfold trainFail
  rw [port]
  exact if_pos train

theorem trainFail_else {d : Dev} {l : Nat} (no : portOf d l = none ∨ laneState d l ≠ 2) : trainFail d l = d := by
  unfold trainFail
  cases port : portOf d l with
  | none => rfl
  | some p => exact if_neg (no.resolve_left (by simp [port]))

theorem trainFailed_spec {d : Dev} {l : Nat} (mem : l ∈ portLanes d p) (train : laneState d l = 2) :
    laneState (trainFailed d l p) l = 1
      ∧ (trainFailed d l p).get (LN_CNT_TRAIN_FAIL l) = (d.get (LN_CNT_TRAIN_FAIL l) + 1) % 2 ^ 32
      ∧ (trainFailed d l p).get (LN_STATUS.TRAIN_FAIL l) = 1
      ∧ ∀ k ∈ portLanes d p, laneState (trainFailed d l p) k = 1 ∨ laneState d k = 6 := by
  set d1 := setLaneStates d (portLanes d p) 1 with hd1
  set d2 := anStart ((portLanes d p).foldl freshLane d1) p with hd2
  have states : Writes ((4, 0, 2) :: frozenBits) d d1 := Writes.setLaneStates ..
  have afresh : Writes [] d1 d2 := (Writes.foldl (fun d l => Writes.freshLane d l) _ d1).trans (Writes.anStart ..)
  have told (d : Dev) : Writes [(0x10, 2, 2), (0x10, 24, 31)] d (d.event (LN_STATUS.TRAIN_FAIL l)) :=
    Writes.eventLane d l (by decide) (by decide)
  have ends : Writes [(0x48, 0, 31), (0x10, 2, 2), (0x10, 24, 31)] d1 (trainFailed d l p) :=
    ((afresh.mono (by decide)).trans ((Writes.count d2 l (by decide)).mono (by decide))).trans ((told _).mono (by decide))
  refine ⟨?_, ?_, ?_, fun k hk => ?_⟩
  · rw [ends.laneState (by decide), setLaneStates_mem (by decide) mem (by omega)]
  · have last : (trainFailed d l p).get (LN_CNT_TRAIN_FAIL l) = (d2.bump (LN_CNT_TRAIN_FAIL l)).get (LN_CNT_TRAIN_FAIL l) :=
      (told _).lane l (by decide) (by decide)
    have was : d2.get (LN_CNT_TRAIN_FAIL l) = d.get (LN_CNT_TRAIN_FAIL l) :=
      (afresh.lane l (by decide) (by decide)).trans (states.lane l (by decide) (by decide))
    rw [last, LN_CNT_TRAIN_FAIL, counted, ← LN_CNT_TRAIN_FAIL, was]
  · exact Dev.event_bit _ (LN_STATUS.TRAIN_FAIL l) (by simp [LN_STATUS.TRAIN_FAIL])
  · rw [ends.laneState (by decide)]
    exact setLaneStates_or (by decide) hk

/-- The timer and the loss of the signal fail the training alike (R159). -/
theorem exec_trainFail {c : Instr} (hc : c = .trainTimeout l ∨ c = .trainSignalLost l) :
    exec c s = s.withDev fun d => trainFail d l := by
  rcases hc with rfl | rfl
  · rfl
  · rfl

theorem exec_trainFail_else {c : Instr} (hc : c = .trainTimeout l ∨ c = .trainSignalLost l)
    (no : portOf s.dev l = none ∨ laneState s.dev l ≠ 2) : exec c s = .next s := by
  rw [exec_trainFail hc]
  exact State.withDev_same (trainFail_else no)

theorem exec_trainFail_counts {c : Instr} (held : s.held = false) (port : portOf s.dev l = some p)
    (hc : c = .trainTimeout l ∨ c = .trainSignalLost l) (train : laneState s.dev l = 2) :
    ∃ e, exec c s = .next { s with dev := e } ∧ laneState e l = 1
      ∧ e.get (LN_CNT_TRAIN_FAIL l) = (s.dev.get (LN_CNT_TRAIN_FAIL l) + 1) % 2 ^ 32
      ∧ e.get (LN_STATUS.TRAIN_FAIL l) = 1 ∧ ∀ k ∈ portLanes s.dev p, laneState e k = 1 ∨ laneState s.dev k = 6 := by
  refine ⟨trainFailed s.dev l p, ?_, trainFailed_spec (portOf_mem port) train⟩
  rw [exec_trainFail hc, State.withDev_live _ held, trainFail_of port train]

/-- A lane that is no port's stays out of the bring-up (R194). -/
theorem exec_bringUp_none (port : portOf s.dev l = none) (b : Bool) (r : AnResult) :
    ∀ c ∈ [Instr.signalDetected l, .terminationSense l b, .trainTimeout l, .trainSignalLost l, .anComplete l r, .anRestart l],
      exec c s = .next s := by
  have signal : exec (.signalDetected l) s = .next s := by
    show execSignalDetected l s = _
    rw [execSignalDetected]
    exact State.withDev_same (by rw [port])
  have termination : exec (.terminationSense l b) s = .next s := by
    show execTerminationSense l b s = _
    rw [execTerminationSense]
    exact State.withDev_same (by rw [port])
  have fails (c : Instr) (hc : c = .trainTimeout l ∨ c = .trainSignalLost l) : exec c s = .next s := exec_trainFail_else hc (.inl port)
  intro c hc
  simp only [List.mem_cons, List.not_mem_nil, or_false] at hc
  rcases hc with rfl | rfl | rfl | rfl | rfl | rfl
  · exact signal
  · exact termination
  · exact fails _ (.inl rfl)
  · exact fails _ (.inr rfl)
  · exact exec_anComplete_else (.inl (portOf_none port))
  · exact exec_anRestart_else (.inl (portOf_none port))

end Train

/-- Settles O33, by a lemma for each command in each state of the bring-up. -/
theorem laneBringUp : Obligations.LaneBringUp := by
  refine ⟨fun p s held => ⟨exec_laneDetectStart held, fun no =>
    State.withDev_same (f := fun d => detectStart d p) (detectStart_idle no)⟩, ?_, ?_, ?_, ?_, ?_⟩
  · intro l p s held port
    refine ⟨exec_signalDetected held port, exec_signalDetected_else port, exec_terminationSense held port,
      exec_terminationSense_else port, ?_, ?_, fun done => exec_anRestart_else (by simp [done])⟩
    · refine fun first detect an => ⟨fun r => exec_anComplete held first detect an, fun r no => exec_anComplete_else (by tauto),
        exec_anRestart held first detect an⟩
    · exact fun no => ⟨fun r => exec_anComplete_else (by tauto), exec_anRestart_else (by tauto)⟩
  · exact fun g d p _ detect => ⟨tryTrain_met detect, tryTrain_unmet⟩
  · exact fun l p b tx rx loss s held port train first => receiverReady_spec held port train first b tx rx loss
  · exact fun l p c s held port hc => ⟨exec_trainFail_counts held port hc, fun no => exec_trainFail_else hc (.inr no)⟩
  · exact fun l b tx rx loss r s => ⟨fun no => exec_receiverReady_else no b tx rx loss, fun port => exec_bringUp_none port b r⟩

end Sys2Proof.Machine

namespace Sys2Proof.Machine

/-! ### Work outside the MAC

The registers of lanes, octets and ports stand in the lowest 128 KiB of each slice's space (R662); the scheduler's and the buffers'
work does not touch them. -/

/-- A register of a slice's lanes, octets or ports. -/
def MacReg (a : Nat) : Prop := 0x4000000 ≤ a ∧ a % 0x100000 < 0x20000

theorem macReg_lane (l : Nat) {o : Nat} (h : o < 0x800) : MacReg (laneBase l + o) := by
  unfold MacReg laneBase sliceBase
  omega

theorem macReg_port (p : Nat) {o : Nat} (h : o < 0x80) : MacReg (portBase p + o) := by
  unfold MacReg portBase sliceBase
  omega

theorem macReg_octMode (l : Nat) : MacReg (PT_OCT_MODE.MODE (l / 32) (l % 32 / 8)).addr := by
  show MacReg (sliceBase (l / 32) + 0x10000 + l % 32 / 8 * 4)
  unfold MacReg sliceBase
  omega

/-- Between d and e no register of a lane, octet or port was written, and no pin changed. -/
structure MacSame (d e : Dev) : Prop where
  words : ∀ a, MacReg a → e.word a = d.word a
  pins : e.pins = d.pins

namespace MacSame

variable {d e f : Dev}

theorem refl (d : Dev) : MacSame d d := ⟨fun _ _ => rfl, rfl⟩

theorem trans (h : MacSame d e) (k : MacSame e f) : MacSame d f :=
  ⟨fun a ha => (k.words a ha).trans (h.words a ha), k.pins.trans h.pins⟩

theorem ite {c : Prop} [Decidable c] (h : MacSame d e) (k : MacSame d f) : MacSame d (if c then e else f) := by
  split
  · exact h
  · exact k

theorem foldl {α : Type} {f : Dev → α → Dev} (h : ∀ d x, MacSame d (f d x)) (l : List α) (d : Dev) : MacSame d (l.foldl f d) :=
  List.foldlRecOn l f (refl d) fun _ k x _ => k.trans (h _ x)

/-- A change of hidden records and counters. -/
theorem of_regs (h : e.regs = d.regs := by rfl) (pins : e.pins = d.pins := by rfl) : MacSame d e :=
  ⟨fun a _ => by rw [Dev.word, h, Dev.word], pins⟩

theorem of_regsOnly {l : List Nat} (h : Dev.regsOnly l d e) (hl : ∀ a ∈ l, ¬ MacReg a) : MacSame d e := by
  obtain ⟨⟨_, _, _, rfl⟩, words⟩ := h
  exact ⟨fun a ha => words a fun mem => hl a mem ha, rfl⟩

theorem put (d : Dev) (f : Fld) (v : Nat) (h : ¬ MacReg f.addr) : MacSame d (d.put f v) :=
  of_regsOnly (Dev.regsOnly_put d f v) (by simpa using h)

theorem event (d : Dev) (f : Fld) (h : ¬ MacReg f.addr) : MacSame d (d.event f) :=
  of_regsOnly (Dev.regsOnly_event d f) (by simpa using h)

theorem get (h : MacSame d e) {f : Fld} (hf : MacReg f.addr) : e.get f = d.get f := get_of_word (h.words _ hf)

theorem modes (h : MacSame d e) : SameModes d e := fun l => by
  rw [laneMode, octModeOf, h.get (macReg_octMode l), laneMode, octModeOf]

theorem laneState (h : MacSame d e) (k : Nat) : laneState e k = laneState d k := h.get (macReg_lane k (by decide))

theorem lane (h : MacSame d e) (l : Nat) {o hi lo : Nat} (ho : o < 0x800) :
    e.get ⟨laneBase l + o, hi, lo⟩ = d.get ⟨laneBase l + o, hi, lo⟩ := h.get (macReg_lane l ho)

theorem port (h : MacSame d e) (p : Nat) {o hi lo : Nat} (ho : o < 0x80) :
    e.get ⟨portBase p + o, hi, lo⟩ = d.get ⟨portBase p + o, hi, lo⟩ := h.get (macReg_port p ho)

/-! #### The check of the promises (R462) -/

theorem not_eq (s o : Nat) (h : o < 0x80000 := by omega) : ¬ MacReg (sliceBase s + 0x60000 + o) := by
  unfold MacReg sliceBase
  omega

theorem not_low {a : Nat} (h : a < 0x4000000) : ¬ MacReg a := fun mac => absurd mac.1 (Nat.not_le_of_lt h)

theorem hostEvent (d : Dev) (kind engine data : Nat) : MacSame d (d.hostEvent kind engine data) := by
  have held (d : Dev) (n : Nat) : MacSame d (d.put HK_EVT_HELD.HELD n) := put _ _ _ (not_low (by decide))
  have lost (d : Dev) : MacSame d (d.event HK_RING_STATUS.EVT_LOST) := event _ _ (not_low (by decide))
  have counted (d : Dev) : MacSame d (d.bump HK_CNT_EVT_LOST) := put _ _ _ (not_low (by decide))
  unfold Dev.hostEvent
  extract_lets e h1 d1 h2 d2
  have taken : MacSame d d1 := of_regs
  have waits : MacSame d1 d2 := of_regs
  exact ite ((taken.trans waits).trans (held ..)) ((taken.trans (lost _)).trans (counted _))

theorem promUpdate (d : Dev) (e : Nat) : MacSame d (promUpdate d e) := by
  have count (d : Dev) (n : Nat) : MacSame d (d.put SCH_RESV_COUNT.COUNT n) := put _ _ _ (not_low (by decide))
  have active (d : Dev) (n : Nat) : MacSame d (d.put SCH_PROM_FLOOR.ACTIVE n) := put _ _ _ (not_low (by decide))
  have point (d : Dev) (n : Nat) : MacSame d (d.put SCH_PROM_FLOOR.POINT n) := put _ _ _ (not_low (by decide))
  have floor (d : Dev) (n : Nat) : MacSame d (d.put PWR_STATE.FLOOR n) := put _ _ _ (not_low (by decide))
  have rate (d : Dev) (n : Nat) : MacSame d (d.put (EQ_PROM_RATE.RATE (e / 32) (e % 32)) n) :=
    put _ _ _ (by rw [EQ_PROM_RATE.RATE, Nat.add_assoc _ 0x108]; exact not_eq (e / 32) (0x108 + e % 32 * 0x10))
  exact ((((count ..).trans (active ..)).trans (point ..)).trans (floor ..)).trans (rate ..)

theorem checkPort (d : Dev) (e : Nat) : MacSame d (checkPort d e) := by
  have mark (d : Dev) (n : Nat) : MacSame d (d.put (EQ_PROM.UNSOUND (e / 32) (e % 32)) n) :=
    put _ _ _ (by rw [EQ_PROM.UNSOUND, Nat.add_assoc _ 0x104]; exact not_eq (e / 32) (0x104 + e % 32 * 0x10))
  have slice (d : Dev) : MacSame d (d.event (EQ_STATUS.UNSOUND (e / 32))) := event _ _ (not_eq _ 0)
  have sched (d : Dev) : MacSame d (d.event SCH_STATUS.UNSOUND) := event _ _ (not_low (by decide))
  exact ite (mark ..) (ite (refl d) (((mark ..).trans (slice _)).trans (sched _)))

theorem dropLostResv (d : Dev) : MacSame d (dropLostResv d) := by
  have lost (d : Dev) : MacSame d (d.event SCH_STATUS.RESV_LOST) := event _ _ (not_low (by decide))
  unfold Machine.dropLostResv
  extract_lets gone d1
  refine ite (refl d) (trans ?_ (lost _))
  refine foldl (fun d x => ?_) _ d
  cases x.2 with
  | none => exact refl d
  | some r => exact ((of_regs (e := { d with resv := d.resv.put none x.1 none })).trans (promUpdate ..)).trans (hostEvent ..)

theorem recheck (d : Dev) (p : Nat) : MacSame d (recheck d p) := (dropLostResv d).trans (foldl checkPort _ _)

end MacSame

end Sys2Proof.Machine

namespace Sys2Proof.Machine

/-! ### From LOCK on (R159, R176, R182, R203-R205) -/

/-- The port's first lane is ACTIVE after the port's entry. -/
theorem enterActive_state {d : Dev} {p : Nat} (port : isPort d p = true) (test : laneState d p ≠ 6) : laneState (enterActive d p) p = 5 := by
  have scans (d : Dev) (ls : List Nat) : Writes scanBits d (ls.foldl scanAbort d) := Writes.foldl Writes.scanAbort ls d
  have active (d : Dev) (l : Nat) : Writes [(0x10, 1, 1), (0x10, 24, 31)] d (d.event (LN_STATUS.ACTIVE l)) :=
    Writes.eventLane d l (by decide) (by decide)
  unfold enterActive
  extract_lets ls d1 d2
  have aborted : Writes scanBits d d1 := .ite (scans ..) (.refl d)
  rw [(Writes.updateLink ..).laneState (by decide), (Writes.foldl active _ d2).laneState (by decide)]
  exact setLaneStates_mem (by decide) (isPort_mem port) (by rwa [aborted.laneState (by decide)])

/-- The port's first lane is in EXCHANGE after the port's entry. -/
theorem enterExchange_state {d : Dev} {p : Nat} (port : isPort d p = true) (test : laneState d p ≠ 6) :
    laneState (updateLink (setLaneStates d (portLanes d p) 4) p) p = 4 := by
  rw [(Writes.updateLink ..).laneState (by decide)]
  exact setLaneStates_mem (by decide) (isPort_mem port) test

theorem Writes.fecAlign (d : Dev) (p v : Nat) : Writes [(0x11004, 4, 4)] d (d.put (PT_LINK.FEC_ALIGN p) v) :=
  (putPort d p v (by decide) (by decide) (by decide)).mono (by decide)

section Lock
variable {s : State} {p : Fin 1024}

/-- The port with its lanes aligned: its FEC alignment and skew shown, the promises that name it checked again. -/
def aligned (d : Dev) (p skew : Nat) : Dev := recheck (takeSkew (d.put (PT_LINK.FEC_ALIGN p) 1) p skew) p

theorem aligned_get (d : Dev) (p : Nat) {skew : Nat} (h : skew ≤ 40) : (aligned d p skew).get (PT_LINK.FEC_ALIGN p) = 1
    ∧ (aligned d p skew).get (PT_LINK.SKEW p) = if (laneMode d p).lanes = 1 then 0 else skew := by
  set d1 := d.put (PT_LINK.FEC_ALIGN p) 1 with hd1
  have align : Writes [(0x11004, 4, 4)] d d1 := Writes.fecAlign ..
  have again : MacSame (takeSkew d1 p skew) (aligned d p skew) := MacSame.recheck ..
  have fec : d1.get (PT_LINK.FEC_ALIGN p) = 1 := by exact Dev.get_put_fits d (by decide) (by decide) (by decide)
  have shown : (takeSkew d1 p skew).get (PT_LINK.SKEW p) = if (laneMode d p).lanes = 1 then 0 else skew := by
    rw [takeSkew, Dev.get_lane, align.laneMode (by decide), Nat.min_eq_left h]
    refine Dev.get_put_fits d1 (by decide) (by decide) ?_
    split
    · decide
    · exact Nat.lt_of_le_of_lt h (by decide)
  exact ⟨(again.port p (by decide)).trans (((Writes.takeSkew ..).port p (by decide) (by decide)).trans fec),
    (again.port p (by decide)).trans shown⟩

/-- What the alignment writes before the promises are checked again. -/
theorem Writes.alignShown (d : Dev) (p skew : Nat) :
    Writes [(0x11004, 4, 4), (0x11004, 8, 15)] d (Machine.takeSkew (d.put (PT_LINK.FEC_ALIGN p) 1) p skew) :=
  ((fecAlign ..).mono (by decide)).trans ((takeSkew ..).mono (by decide))

/-- The alignment writes no register of a lane. -/
theorem aligned_lane (d : Dev) (p skew l : Nat) {o hi lo : Nat} (ho : o < 0x800) :
    (aligned d p skew).get ⟨laneBase l + o, hi, lo⟩ = d.get ⟨laneBase l + o, hi, lo⟩ := by
  refine ((MacSame.recheck ..).lane l ho).trans ((Writes.alignShown d p skew).lane l ho ?_)
  intro w hw
  simp only [List.mem_cons, List.not_mem_nil, or_false] at hw
  rcases hw with rfl | rfl
  · exact .inl (by omega)
  · exact .inl (by omega)

theorem aligned_ctl (d : Dev) (p skew l : Nat) {hi lo : Nat} :
    (aligned d p skew).flag ⟨laneBase l, hi, lo⟩ = d.flag ⟨laneBase l, hi, lo⟩ :=
  flag_of_get (aligned_lane d p skew l (o := 0) (by decide))

theorem aligned_modes (d : Dev) (p skew : Nat) : SameModes d (aligned d p skew) :=
  fun l => ((MacSame.recheck ..).modes l).trans ((Writes.alignShown d p skew).laneMode (by decide) l)

/-- A port that lost lock in EXCHANGE returns there (R182). -/
def exchangeAgain (d : Dev) (p back : Nat) : Dev :=
  let d := (d.bump (LN_CNT_RELOCK back)).lane p fun h => { h with lostIn := 0 }
  updateLink (setLaneStates d (portLanes d p) 4) p

/-- A port enters EXCHANGE with a new Survey (R167), or ACTIVE where it does without (R159). -/
def lockedFirst (d : Dev) (p : Nat) : Dev :=
  let d := takeLockFom d p
  if d.flag (LN_CTL.SURVEY_EN p) then
    let d := d.lane p fun h => { h with txAck := false, ackSent := false, rxAck0 := false }
    updateLink (setLaneStates d (portLanes d p) 4) p
  else enterActive d p

/-- What LOCK_HELD asks of a port (R159). -/
def Locks (d : Dev) (p skew : Nat) : Prop := isPort d p = true ∧ laneState d p = 3 ∧ skew ≤ 40 ∧ (laneHid d p).lostIn ≠ 5

theorem exec_lockHeld {skew : Nat} (held : s.held = false) (locks : Locks s.dev p skew) : exec (.lockHeld p skew) s
    = .next { s with dev := if (laneHid s.dev p).lostIn = 4 then exchangeAgain (aligned s.dev p skew) p (laneHid s.dev p).lostLane
                            else lockedFirst (aligned s.dev p skew) p } := by
  unfold Locks at locks
  show execLockHeld p skew s = _
  rw [execLockHeld, State.withDev_live _ held, if_pos locks]
  rfl

theorem exchangeAgain_spec {d : Dev} {p : Nat} (port : isPort d p = true) (test : laneState d p ≠ 6) (back : Nat) :
    laneState (exchangeAgain d p back) p = 4
      ∧ (exchangeAgain d p back).get (LN_CNT_RELOCK back) = (d.get (LN_CNT_RELOCK back) + 1) % 2 ^ 32
      ∧ Writes ((0x58, 0, 31) :: (4, 0, 2) :: frozenBits ++ linkBits) d (exchangeAgain d p back) := by
  set d1 := (d.bump (LN_CNT_RELOCK back)).lane p fun h => { h with lostIn := 0 } with hd1
  have count : Writes [(0x58, 0, 31)] d d1 := (Writes.count d back (by decide)).trans (.hidden ..)
  have ends : Writes ((4, 0, 2) :: frozenBits ++ linkBits) d1 (exchangeAgain d p back) :=
    ((Writes.setLaneStates ..).mono (by decide)).trans ((Writes.updateLink ..).mono (by decide))
  refine ⟨enterExchange_state ?_ ?_, ?_, (count.mono (by decide)).trans (ends.mono (by decide))⟩
  · rw [SameModes.isPort (fun k => count.laneMode (by decide) k), port]
  · rwa [count.laneState (by decide)]
  · have counts : d1.get (LN_CNT_RELOCK back) = (d.get (LN_CNT_RELOCK back) + 1) % 2 ^ 32 := by
      rw [hd1, Dev.get_lane, LN_CNT_RELOCK, counted]
    exact (ends.lane back (by decide) (by decide)).trans counts

theorem lockedFirst_spec {d : Dev} {p : Nat} (port : isPort d p = true) (test : laneState d p ≠ 6) :
    (d.flag (LN_CTL.SURVEY_EN p) = true → laneState (lockedFirst d p) p = 4)
      ∧ (d.flag (LN_CTL.SURVEY_EN p) = false → laneState (lockedFirst d p) p = 5)
      ∧ Writes ((0x20, 8, 15) :: (4, 0, 2) :: linkBits ++ scanBits) d (lockedFirst d p) := by
  have fom : Writes [(0x20, 8, 15)] d (takeLockFom d p) := Writes.takeLockFom ..
  have survey : (takeLockFom d p).flag (LN_CTL.SURVEY_EN p) = d.flag (LN_CTL.SURVEY_EN p) := fom.ctl p (by decide)
  have port' : isPort (takeLockFom d p) p = true := by rw [SameModes.isPort (fun k => fom.laneMode (by decide) k), port]
  have test' : laneState (takeLockFom d p) p ≠ 6 := by rwa [fom.laneState (by decide)]
  have exchange (d : Dev) (ls : List Nat) : Writes ((0x20, 8, 15) :: (4, 0, 2) :: linkBits ++ scanBits) d (updateLink (setLaneStates d ls 4) p) :=
    ((Writes.setLaneStates ..).mono (by decide)).trans ((Writes.updateLink ..).mono (by decide))
  refine ⟨fun on => ?_, fun off => ?_,
    (fom.mono (by decide)).trans (.ite (.trans (.hidden ..) (exchange ..)) ((Writes.enterActive ..).mono (by decide)))⟩
  · unfold lockedFirst
    extract_lets d1 d2
    rw [if_pos (survey.trans on)]
    exact enterExchange_state port' test'
  · unfold lockedFirst
    extract_lets d1 d2
    rw [if_neg (by rw [survey, off]; decide)]
    exact enterActive_state port' test'

theorem lockHeld_spec {skew : Nat} (held : s.held = false) (locks : Locks s.dev p skew) :
    ∃ e, exec (.lockHeld p skew) s = .next { s with dev := e } ∧ e.get (PT_LINK.FEC_ALIGN p) = 1
      ∧ e.get (PT_LINK.SKEW p) = (if (laneMode s.dev p).lanes = 1 then 0 else skew)
      ∧ ((laneHid s.dev p).lostIn = 4 → laneState e p = 4 ∧ e.get (LN_CNT_RELOCK (laneHid s.dev p).lostLane)
          = (s.dev.get (LN_CNT_RELOCK (laneHid s.dev p).lostLane) + 1) % 2 ^ 32)
      ∧ ((laneHid s.dev p).lostIn ≠ 4 → s.dev.flag (LN_CTL.SURVEY_EN p) = true → laneState e p = 4)
      ∧ ((laneHid s.dev p).lostIn ≠ 4 → s.dev.flag (LN_CTL.SURVEY_EN p) = false → laneState e p = 5) := by
  have run := exec_lockHeld held locks
  obtain ⟨port, lock, small, -⟩ := locks
  obtain ⟨fec, skewed⟩ := aligned_get s.dev p small
  have survey : (aligned s.dev p skew).flag (LN_CTL.SURVEY_EN p) = s.dev.flag (LN_CTL.SURVEY_EN p) := aligned_ctl ..
  have state : laneState (aligned s.dev p skew) p = laneState s.dev p := aligned_lane s.dev p skew p (by decide)
  have port' : isPort (aligned s.dev p skew) p = true := by rw [(aligned_modes s.dev p skew).isPort, port]
  by_cases again : (laneHid s.dev p).lostIn = 4
  · rw [if_pos again] at run
    obtain ⟨exchange, count, writes⟩ := exchangeAgain_spec port' (by omega) (laneHid s.dev p).lostLane
    refine ⟨_, run, (writes.port p (by decide) (by decide)).trans fec, (writes.port p (by decide) (by decide)).trans skewed,
      fun _ => ⟨exchange, ?_⟩, fun no => absurd again no, fun no => absurd again no⟩
    have was : (aligned s.dev p skew).get (LN_CNT_RELOCK (laneHid s.dev p).lostLane) = s.dev.get (LN_CNT_RELOCK (laneHid s.dev p).lostLane) :=
      aligned_lane s.dev p skew _ (by decide)
    rw [count, was]
  · rw [if_neg again] at run
    obtain ⟨exchange, active, writes⟩ := lockedFirst_spec port' (by omega)
    rw [survey] at exchange active
    exact ⟨_, run, (writes.port p (by decide) (by decide)).trans fec, (writes.port p (by decide) (by decide)).trans skewed,
      fun yes => absurd yes again, fun _ => exchange, fun _ => active⟩

/-- RELOCK's effect (R182). -/
def relocked (d : Dev) (p : Nat) : Dev :=
  enterActive (((d.put (PT_LINK.FEC_ALIGN p) 1).bump (LN_CNT_RELOCK (laneHid d p).lostLane)).lane p fun h => { h with lostIn := 0 }) p

theorem relocked_spec {d : Dev} {p : Nat} (port : isPort d p = true) (test : laneState d p ≠ 6) :
    laneState (relocked d p) p = 5 ∧ (relocked d p).get (PT_LINK.FEC_ALIGN p) = 1
      ∧ (relocked d p).get (LN_CNT_RELOCK (laneHid d p).lostLane) = (d.get (LN_CNT_RELOCK (laneHid d p).lostLane) + 1) % 2 ^ 32 := by
  set d1 := d.put (PT_LINK.FEC_ALIGN p) 1 with hd1
  set d2 := (d1.bump (LN_CNT_RELOCK (laneHid d p).lostLane)).lane p fun h => { h with lostIn := 0 } with hd2
  have align : Writes [(0x11004, 4, 4)] d d1 := Writes.fecAlign ..
  have count : Writes [(0x58, 0, 31)] d1 d2 := (Writes.count d1 _ (by decide)).trans (.hidden ..)
  have before : Writes [(0x11004, 4, 4), (0x58, 0, 31)] d d2 := (align.mono (by decide)).trans (count.mono (by decide))
  have ends : Writes ((4, 0, 2) :: linkBits ++ scanBits) d2 (relocked d p) := Writes.enterActive ..
  have fec : d1.get (PT_LINK.FEC_ALIGN p) = 1 := by exact Dev.get_put_fits d (by decide) (by decide) (by decide)
  have counts : d2.get (LN_CNT_RELOCK (laneHid d p).lostLane) = (d.get (LN_CNT_RELOCK (laneHid d p).lostLane) + 1) % 2 ^ 32 := by
    have was : d1.get (LN_CNT_RELOCK (laneHid d p).lostLane) = d.get (LN_CNT_RELOCK (laneHid d p).lostLane) :=
      align.lane _ (by decide) (by decide)
    rw [hd2, Dev.get_lane, ← was, LN_CNT_RELOCK, counted]
  refine ⟨enterActive_state ?_ ?_, ((ends.port p (by decide) (by decide)).trans (count.port p (by decide) (by decide))).trans fec,
    (ends.lane _ (by decide) (by decide)).trans counts⟩
  · rw [SameModes.isPort (fun k => before.laneMode (by decide) k), port]
  · rwa [before.laneState (by decide)]

theorem exec_relock (held : s.held = false) (back : isPort s.dev p = true ∧ laneState s.dev p = 3 ∧ (laneHid s.dev p).lostIn = 5
      ∧ s.dev.flag (LN_CTL.RELOCK_EN p) = true) : exec (.relock p) s = .next { s with dev := relocked s.dev p } := by
  show execRelock p s = _
  rw [execRelock, State.withDev_live _ held, if_pos back]
  rfl

theorem exec_lockHeld_else {skew : Nat} (no : ¬ Locks s.dev p skew) : exec (.lockHeld p skew) s = .next s :=
  State.withDev_same (if_neg no)

theorem exec_relock_else (no : ¬ (isPort s.dev p = true ∧ laneState s.dev p = 3 ∧ (laneHid s.dev p).lostIn = 5
      ∧ s.dev.flag (LN_CTL.RELOCK_EN p) = true)) : exec (.relock p) s = .next s :=
  State.withDev_same (if_neg no)

end Lock

/-! ### LOCK to TRAIN (R159) -/

/-- The device after a port's entry into TRAIN, before its queues are flushed. -/
def trainEntry (d : Dev) (p : Nat) : Dev :=
  let ls := portLanes d p
  let d := setLaneStates d ls 2
  let d := ls.foldl (fun d l => adapt (freshLane d l) l) d
  let d := leaveService (clearSurvey d p) p
  d.lane p fun h => { h with lostIn := 0, txAck := false, ackSent := false, rxAck0 := false }

theorem enterTrain_eq (g : Grid) (d : Dev) (p : Nat) : enterTrain g d p = flushPort g (trainEntry d p) p drLinkDown := rfl

/-- The registers that an entry into TRAIN writes. -/
abbrev trainBits : Footprint := (4, 0, 2) :: (4, 9, 9) :: serviceBits ++ surveyBits

theorem Writes.adapts (d : Dev) (ls : List Nat) :
    Writes ((4, 9, 9) :: frozenBits) d (ls.foldl (fun d l => Machine.adapt (Machine.freshLane d l) l) d) :=
  foldl (fun d l => (freshLane d l).trans (adapt ..)) ls d

/-- What follows the lanes' new state leaves it alone. -/
theorem Writes.trainEntry_rest (d : Dev) (p : Nat) :
    Writes ((4, 9, 9) :: serviceBits ++ surveyBits) (Machine.setLaneStates d (portLanes d p) 2) (trainEntry d p) := by
  unfold Machine.trainEntry
  extract_lets ls d1 d2 d3
  have forgot : Writes ((4, 9, 9) :: serviceBits ++ surveyBits) d1 d3 :=
    (((adapts ..).mono (by decide)).trans ((clearSurvey ..).mono (by decide))).trans ((leaveService ..).mono (by decide))
  exact forgot.trans (hidden ..)

theorem Writes.trainEntry (d : Dev) (p : Nat) : Writes trainBits d (trainEntry d p) :=
  ((setLaneStates ..).mono (by decide)).trans ((trainEntry_rest ..).mono (by decide))

theorem trainEntry_state {d : Dev} {p l : Nat} (mem : l ∈ portLanes d p) (test : laneState d l ≠ 6) : laneState (trainEntry d p) l = 2 := by
  rw [(Writes.trainEntry_rest ..).laneState (by decide)]
  exact setLaneStates_mem (by decide) mem test

/-- A port that left service is pruned (R207). -/
theorem leaveService_live (d : Dev) (p : Nat) : (leaveService d p).get (PT_LINK.LIVE p) = 0 := by
  unfold leaveService prune
  extract_lets d1 d2 d3
  exact Dev.get_put_fits _ (by decide) (by decide) (by decide)

theorem trainEntry_live (d : Dev) (p : Nat) : (trainEntry d p).get (PT_LINK.LIVE p) = 0 := by
  unfold trainEntry
  extract_lets ls d1 d2 d3
  rw [Dev.get_lane]
  exact leaveService_live ..

/-- A failure to lock: TRAIN, counted on the lane. -/
theorem lockFail_spec (g : Grid) {d : Dev} {p l : Nat} (mem : l ∈ portLanes d p) (test : laneState d l ≠ 6) :
    ∃ e, lockFail g d p l = flushPort g e p drLinkDown ∧ laneState e l = 2
      ∧ e.get (LN_CNT_LOCK_FAIL l) = (d.get (LN_CNT_LOCK_FAIL l) + 1) % 2 ^ 32 ∧ e.get (PT_LINK.LIVE p) = 0
      ∧ Writes ((0x4C, 0, 31) :: trainBits) d e := by
  set d1 := d.bump (LN_CNT_LOCK_FAIL l) with hd1
  have count : Writes [(0x4C, 0, 31)] d d1 := Writes.count d l (by decide)
  have lanes : portLanes d1 p = portLanes d p := SameModes.portLanes (fun k => count.laneMode (by decide) k) p
  have entry := Writes.trainEntry d1 p
  have counts : d1.get (LN_CNT_LOCK_FAIL l) = (d.get (LN_CNT_LOCK_FAIL l) + 1) % 2 ^ 32 := by rw [hd1, LN_CNT_LOCK_FAIL, counted]
  refine ⟨trainEntry d1 p, enterTrain_eq g d1 p, trainEntry_state (lanes ▸ mem) ?_, (entry.lane l (by decide) (by decide)).trans counts,
    trainEntry_live .., (count.mono (by decide)).trans (entry.mono (by decide))⟩
  rwa [count.laneState (by decide)]

theorem exec_lockTimeout {s : State} {l : Fin 1024} {p : Nat} (held : s.held = false) (port : portOf s.dev l = some p)
    (lock : laneState s.dev l = 3) : ∃ e, exec (.lockTimeout l) s = .next { s with dev := flushPort s.grid e p drLinkDown }
      ∧ laneState e l = 2 ∧ e.get (LN_CNT_LOCK_FAIL l) = (s.dev.get (LN_CNT_LOCK_FAIL l) + 1) % 2 ^ 32 := by
  obtain ⟨e, flush, train, counts, -, -⟩ := lockFail_spec s.grid (portOf_mem port) (by omega)
  refine ⟨e, ?_, train, counts⟩
  show execLockTimeout l s = _
  rw [execLockTimeout, State.withDev_live _ held, port]
  dsimp only
  rw [if_pos lock, flush]

theorem exec_lockTimeout_else {s : State} {l : Fin 1024} (no : portOf s.dev l = none ∨ laneState s.dev l ≠ 3) :
    exec (.lockTimeout l) s = .next s := by
  show execLockTimeout l s = _
  rw [execLockTimeout]
  refine State.withDev_same ?_
  cases port : portOf s.dev l with
  | none => rfl
  | some p => exact if_neg (no.resolve_left (by simp [port]))

end Sys2Proof.Machine

namespace Sys2Proof.Machine

/-! ### EXCHANGE (R167, R168) -/

theorem ControlSent.txOwnFrame (d : Dev) (p : Nat) (b : List Byte) : ControlSent d (txOwnFrame d p b) := (countFrame ..).trans (txOut ..)

/-- A Survey sent writes no register. -/
theorem Writes.sendSurvey {W : Footprint} (g : Grid) (d : Dev) (p : Nat) : Writes W d (sendSurvey g d p) :=
  ite (refl d) ((of_controlSent (ControlSent.txOwnFrame ..)).trans (hidden ..))

section Exchange
variable {s : State} {p : Fin 1024}

/-- EXCH_TIMEOUT's effect (R168). -/
def exchangeOver (d : Dev) (p : Nat) : Dev :=
  enterActive (((d.put (LN_SURVEY_STATE.KIND p) (if (laneHid d p).rxAck0 then 2 else 0)).bump (LN_CNT_EXCH_TO p)).event
    (LN_STATUS.EXCH_TO p)) p

theorem exchangeOver_spec {d : Dev} {p : Nat} (port : isPort d p = true) (exchange : laneState d p = 4) :
    laneState (exchangeOver d p) p = 5 ∧ (exchangeOver d p).get (LN_CNT_EXCH_TO p) = (d.get (LN_CNT_EXCH_TO p) + 1) % 2 ^ 32
      ∧ (exchangeOver d p).get (LN_SURVEY_STATE.KIND p) = if (laneHid d p).rxAck0 then 2 else 0 := by
  set d1 := d.put (LN_SURVEY_STATE.KIND p) (if (laneHid d p).rxAck0 then 2 else 0) with hd1
  set d2 := d1.bump (LN_CNT_EXCH_TO p) with hd2
  have kind : Writes [(0x80, 0, 1)] d d1 := Writes.putLane d p _ (by decide) (by decide) (by decide)
  have count : Writes [(0x50, 0, 31)] d1 d2 := Writes.count d1 p (by decide)
  have told (d : Dev) : Writes [(0x10, 3, 3), (0x10, 24, 31)] d (d.event (LN_STATUS.EXCH_TO p)) :=
    Writes.eventLane d p (by decide) (by decide)
  have before : Writes [(0x80, 0, 1), (0x50, 0, 31), (0x10, 3, 3), (0x10, 24, 31)] d (d2.event (LN_STATUS.EXCH_TO p)) :=
    ((kind.mono (by decide)).trans (count.mono (by decide))).trans ((told _).mono (by decide))
  have after : Writes ((4, 0, 2) :: linkBits ++ scanBits) d2 (exchangeOver d p) :=
    ((told d2).mono (by decide)).trans (Writes.enterActive ..)
  have shown : d1.get (LN_SURVEY_STATE.KIND p) = if (laneHid d p).rxAck0 then 2 else 0 := by
    refine Dev.get_put_fits d (by decide) (by decide) ?_
    split <;> decide
  have counts : d2.get (LN_CNT_EXCH_TO p) = (d.get (LN_CNT_EXCH_TO p) + 1) % 2 ^ 32 := by
    have was : d1.get (LN_CNT_EXCH_TO p) = d.get (LN_CNT_EXCH_TO p) := kind.lane p (by decide) (by decide)
    rw [hd2, ← was, LN_CNT_EXCH_TO, counted]
  refine ⟨enterActive_state ?_ ?_, (after.lane p (by decide) (by decide)).trans counts,
    ((after.lane p (by decide) (by decide)).trans (count.lane p (by decide) (by decide))).trans shown⟩
  · rw [SameModes.isPort (fun k => before.laneMode (by decide) k), port]
  · rw [before.laneState (by decide), exchange]
    decide

theorem exec_exchTimeout (held : s.held = false) (port : isPort s.dev p = true) (exchange : laneState s.dev p = 4) :
    exec (.exchTimeout p) s = .next { s with dev := exchangeOver s.dev p } := by
  show execExchTimeout p s = _
  rw [execExchTimeout, State.withDev_live _ held, if_pos ⟨port, exchange⟩]
  rfl

theorem exec_exchange_else (no : isPort s.dev p = false ∨ laneState s.dev p ≠ 4) :
    exec (.exchTimeout p) s = .next s ∧ exec (.surveyTx p) s = .next s := by
  have out : ¬ (isPort s.dev p = true ∧ laneState s.dev p = 4) := fun ⟨port, exchange⟩ => by simp [port, exchange] at no
  exact ⟨State.withDev_same (if_neg out), State.withDev_same (if_neg out)⟩

/-- In FAULT a port sends no Survey (R206). -/
theorem exec_surveyTx_fault (port : isPort s.dev p = true) (exchange : laneState s.dev p = 4) (fault : s.dev.get (PT_LINK.STATE p) = 2) :
    exec (.surveyTx p) s = .next s := by
  refine State.withDev_same ((if_pos ⟨port, exchange⟩).trans ?_)
  exact if_pos fault

/-- Counting a frame changes counters alone (R218). -/
theorem countFrame_eq (d : Dev) (p base : Nat) (b : List Byte) : ∃ c, countFrame d p base b = { d with ctr := c } := by
  have counts (d : Dev) (c : SMap (BitVec 64)) (k n : Nat) : ∃ c', Dev.ctrAdd { d with ctr := c } k n = { d with ctr := c' } := ⟨_, rfl⟩
  unfold countFrame
  extract_lets d1 da
  obtain ⟨c, bytes⟩ := counts d d.ctr (ptCtr p base) b.length
  obtain ⟨c1, frames⟩ := counts d c (ptCtr p (base + 1)) 1
  have counted : d1 = { d with ctr := c1 } := (congrArg (Dev.ctrAdd · (ptCtr p (base + 1)) 1) bytes).trans frames
  rw [counted]
  exact counts d c1 _ 1

/-- Outside loopback the Survey frame leaves the device. -/
theorem sendSurvey_out {g : Grid} {d : Dev} {p : Nat} (fault : d.get (PT_LINK.STATE p) ≠ 2) (loop : d.flag (PT_CFG.LOOP p) = false) :
    (sendSurvey g d p).out.getLast? = some (.tx p (withFcs (surveyFrame g d p)) false) := by
  have counts : (countFrame d p 14 (withFcs (surveyFrame g d p))).flag (PT_CFG.LOOP p) = d.flag (PT_CFG.LOOP p) := by
    obtain ⟨c, same⟩ := countFrame_eq d p 14 (withFcs (surveyFrame g d p))
    rw [same]
    rfl
  rw [sendSurvey, if_neg fault, txOwnFrame, txOut, counts, if_neg (by rw [loop]; decide)]
  exact Dev.getLast?_emit ..

theorem exec_surveyTx (held : s.held = false) (port : isPort s.dev p = true) (exchange : laneState s.dev p = 4)
    (fault : s.dev.get (PT_LINK.STATE p) ≠ 2) (loop : s.dev.flag (PT_CFG.LOOP p) = false) :
    ∃ e, exec (.surveyTx p) s = .next { s with dev := e } ∧ laneState e p = 4
      ∧ e.out.getLast? = some (.tx p (withFcs (surveyFrame s.grid s.dev p)) false) := by
  refine ⟨sendSurvey s.grid s.dev p, ?_, ?_, sendSurvey_out fault loop⟩
  · show execSurveyTx p s = _
    rw [execSurveyTx, State.withDev_live _ held, if_pos ⟨port, exchange⟩]
  · rw [(Writes.sendSurvey (W := []) ..).laneState (by decide), exchange]

end Exchange

/-! ### A frame from the partner (R197, R198) -/

theorem beNat_lt (b : List Byte) : beNat b < 256 ^ b.length := by
  induction b using List.reverseRecOn with
  | nil => decide
  | append_singleton b x ih =>
    have step : beNat (b ++ [x]) = beNat b * 256 + x.toNat := by simp [beNat]
    have byte := x.isLt
    rw [step, List.length_append, List.length_singleton, Nat.pow_succ]
    omega

/-- n bytes spell a number below 256^n. -/
theorem beNat_take_lt (b : List Byte) (n : Nat) : beNat (b.take n) < 256 ^ n :=
  Nat.lt_of_lt_of_le (beNat_lt _) (Nat.pow_le_pow_right (by decide) (List.length_take_le ..))

theorem ethFcs_length (b : List Byte) : (ethFcs b).length = 4 := by simp [ethFcs, leBytes, beBytes]

/-- A frame of the least length or more takes no padding. -/
theorem withFcs_long {b : List Byte} (h : 60 ≤ b.length) : withFcs b = b ++ ethFcs b := by
  have none : 60 - b.length = 0 := by omega
  simp [withFcs, none]

/-- An LLDPDU of legal length that a port in EXCHANGE receives reaches the Survey; only counters have changed (R172, R218). -/
theorem rxWhole_survey {g : Grid} {d : Dev} {p now ts : Nat} {bar : Option Nat} {frame : List Byte} (exchange : laneState d p = 4)
    (long : 60 ≤ frame.length) (fits : frame.length + 4 ≤ portMtu d p) (lldp : beNat ((frame.drop 12).take 2) = 0x88CC) :
    ∃ c, rxWhole g d { inPort := p, bytes := withFcs frame, complete := true, bad := false, rxTs := ts } now bar
      = surveyRx g { d with ctr := c } p frame := by
  have length : (withFcs frame).length = frame.length + 4 := by rw [withFcs_long long, List.length_append, ethFcs_length]
  have kind : bytesAt (withFcs frame) 12 2 = (frame.drop 12).take 2 := by
    rw [bytesAt_of_le (by omega), withFcs_long long, List.drop_append_of_le_length (by omega), List.take_append_of_le_length]
    rw [List.length_drop]
    omega
  have control : isControl (withFcs frame) = false := by rw [isControl, kind, lldp]; decide
  have bare : noFcs { inPort := p, bytes := withFcs frame, complete := true, bad := false, rxTs := ts } = frame := by
    show (withFcs frame).take ((withFcs frame).length - 4) = frame
    rw [length, withFcs_long long]
    exact List.take_left' (by omega)
  obtain ⟨c, sized⟩ : ∃ c, countSize d p (withFcs frame).length = { d with ctr := c } := by
    unfold countSize
    split
    · exact ⟨_, rfl⟩
    · exact ⟨_, rfl⟩
  have good : rxFault { d with ctr := c } p (withFcs frame).length true = none := by
    have mtu : portMtu { d with ctr := c } p = portMtu d p := rfl
    rw [rxFault, if_neg (by omega), if_neg (by rw [mtu]; omega), if_pos rfl]
  obtain ⟨c', framed⟩ : ∃ c', countFrame { d with ctr := c } p 0 (withFcs frame) = { d with ctr := c' } := countFrame_eq ..
  refine ⟨c', ?_⟩
  have state : laneState { d with ctr := c' } p = 4 := exchange
  unfold rxWhole
  dsimp only
  rw [sized, Bool.not_false, good]
  dsimp only
  rw [framed, control, kind, lldp, state, bare]
  rfl

end Sys2Proof.Machine

namespace Sys2Proof.Machine

/-! ### The Survey received (R168, R172, R173) -/

/-- Between d and e no register wider than 32 bits was written. -/
structure WideSame (d e : Dev) : Prop where
  kept : e.wide = d.wide

namespace WideSame

variable {d e f : Dev}

theorem refl (d : Dev) : WideSame d d := ⟨rfl⟩

theorem trans (h : WideSame d e) (k : WideSame e f) : WideSame d f := ⟨k.kept.trans h.kept⟩

theorem ite {c : Prop} [Decidable c] (h : WideSame d e) (k : WideSame d f) : WideSame d (if c then e else f) := by
  split
  · exact h
  · exact k

theorem foldl {α : Type} {f : Dev → α → Dev} (h : ∀ d x, WideSame d (f d x)) (l : List α) (d : Dev) : WideSame d (l.foldl f d) :=
  List.foldlRecOn l f (refl d) fun _ k x _ => k.trans (h _ x)

theorem put (d : Dev) (f : Fld) (v : Nat) : WideSame d (d.put f v) := ⟨Dev.put_wide ..⟩

theorem event (d : Dev) (f : Fld) : WideSame d (d.event f) := ⟨Dev.event_wide ..⟩

theorem lane (d : Dev) (l : Nat) (f : LaneHid → LaneHid) : WideSame d (d.lane l f) := ⟨rfl⟩

theorem port (d : Dev) (p : Nat) (f : PortHid → PortHid) : WideSame d (d.port p f) := ⟨rfl⟩

theorem ctrAdd (d : Dev) (k n : Nat) : WideSame d (d.ctrAdd k n) := ⟨rfl⟩

theorem of_laneOnly {A : List Nat} (h : LaneOnly A d e) : WideSame d e := by
  obtain ⟨⟨_, _, _, _, rfl⟩, -⟩ := h
  exact ⟨rfl⟩

theorem of_controlSent (h : ControlSent d e) : WideSame d e := by
  obtain ⟨_, _, _, rfl⟩ := h.frame
  exact ⟨rfl⟩

theorem setLaneStates (d : Dev) (ls : List Nat) (st : Nat) : WideSame d (setLaneStates d ls st) :=
  foldl (fun d l => ite (refl d) ((put d (LN_STATE.STATE l) st).trans (of_laneOnly (LaneOnly.refreeze ..)))) ls d

theorem updateLink (d : Dev) (p : Nat) : WideSame d (updateLink d p) := by
  unfold Machine.updateLink
  extract_lets old new d1 d2
  have left : WideSame d d2 := (put ..).trans (ite ((((put ..).trans (ctrAdd ..)).trans (event ..)).trans (port ..)) (refl _))
  exact ite (refl d) (ite ((left.trans (event ..)).trans (of_controlSent (ControlSent.pauseAgain ..))) (ite (left.trans (event ..)) left))

theorem enterActive (d : Dev) (p : Nat) : WideSame d (enterActive d p) := by
  unfold Machine.enterActive
  extract_lets ls d1 d2
  have scans : WideSame d d1 := ite (foldl (fun d l => of_laneOnly (LaneOnly.scanAbort d l)) _ d) (refl d)
  exact ((scans.trans (setLaneStates ..)).trans (foldl (fun d l => event ..) _ _)).trans (updateLink ..)

theorem sendSurvey (g : Grid) (d : Dev) (p : Nat) : WideSame d (sendSurvey g d p) :=
  ite (refl d) ((of_controlSent (ControlSent.txOwnFrame ..)).trans (lane ..))

end WideSame

section Survey
variable {g : Grid} {d : Dev} {p : Nat}

/-- Bytes o to o + n - 1 of a Survey's information string, as a number. -/
def surveyFld (b : List Byte) (o n : Nat) : Nat := beNat ((b.drop o).take n)

/-- The partner's Survey recorded (R173). -/
def surveyNoted (d : Dev) (p : Nat) (b : List Byte) : Dev :=
  let d := (d.put (LN_SURVEY_STATE.FLAGS p) (surveyFld b 5 1)).put (LN_SURVEY_STATE.VERSION p) (surveyFld b 4 1)
  let d := (d.put (LN_SURVEY_PEER.PART p) (surveyFld b 6 2)).put (LN_SURVEY_PEER.PORT p) (surveyFld b 18 2)
  let d := ((d.put (LN_SURVEY_PEER2.WIDTH p) (surveyFld b 20 1)).put (LN_SURVEY_PEER2.PCP p) (surveyFld b 21 1)).put
    (LN_SURVEY_PEER2.DEADLINE p) (surveyFld b 22 2)
  (d.wput (wkey (mbxLn p) 1) (surveyFld b 10 8)).wput (wkey (mbxLn p) 2) (surveyFld b 24 8)

/-- What a recorded Survey sets off: the acknowledgement, and the exchange's end (R168). -/
def surveyAnswered (g : Grid) (d : Dev) (p : Nat) (ack : Bool) : Dev :=
  let d := if ack then d else d.lane p fun h => { h with rxAck0 := true }
  let d := if (laneHid d p).txAck then d
    else sendSurvey g (d.lane p fun h => { h with txAck := true }) p
  if ack ∧ (laneHid d p).ackSent then enterActive (d.put (LN_SURVEY_STATE.KIND p) 1) p else d

theorem surveyRx_some {frame b : List Byte} (port : isPort d p = true) (exchange : laneState d p = 4)
    (lldp : beNat ((frame.drop 12).take 2) = 0x88CC) (found : findSurvey frame.length (frame.drop 14) = some b) :
    surveyRx g d p frame = surveyAnswered g (surveyNoted d p b) p (decide (surveyFld b 5 1 % 2 = 1)) := by
  rw [surveyRx, if_pos ⟨port, exchange, lldp⟩, found]
  rfl

/-- With no Survey in it an LLDPDU is discarded (R172). -/
theorem surveyRx_none {frame : List Byte} (found : findSurvey frame.length (frame.drop 14) = none) : surveyRx g d p frame = d := by
  rw [surveyRx, found]
  exact ite_self d

theorem Writes.surveyAnswered (g : Grid) (d : Dev) (p : Nat) (ack : Bool) :
    Writes ((0x80, 0, 1) :: (4, 0, 2) :: linkBits ++ scanBits) d (surveyAnswered g d p ack) := by
  have kind (d : Dev) : Writes ((0x80, 0, 1) :: (4, 0, 2) :: linkBits ++ scanBits) d (d.put (LN_SURVEY_STATE.KIND p) 1) :=
    (putLane d p 1 (by decide) (by decide) (by decide)).mono (by decide)
  unfold Machine.surveyAnswered
  extract_lets d1 d2
  have sent : Writes ((0x80, 0, 1) :: (4, 0, 2) :: linkBits ++ scanBits) d d2 :=
    (ite (refl d) (hidden ..)).trans (ite (refl _) ((hidden ..).trans (sendSurvey ..)))
  exact ite (sent.trans ((kind _).trans ((enterActive ..).mono (by decide)))) sent

theorem WideSame.surveyAnswered (g : Grid) (d : Dev) (p : Nat) (ack : Bool) : WideSame d (surveyAnswered g d p ack) := by
  unfold Machine.surveyAnswered
  extract_lets d1 d2
  have sent : WideSame d d2 := (ite (refl d) (lane ..)).trans (ite (refl _) ((lane ..).trans (sendSurvey ..)))
  exact ite (sent.trans ((put ..).trans (enterActive ..))) sent

theorem surveyNoted_spec (d : Dev) (p : Nat) (b : List Byte) :
    (surveyNoted d p b).get (LN_SURVEY_PEER.PORT p) = surveyFld b 18 2
      ∧ (surveyNoted d p b).get (LN_SURVEY_STATE.VERSION p) = surveyFld b 4 1
      ∧ (surveyNoted d p b).wget (wkey (mbxLn p) 1) = surveyFld b 10 8 := by
  set d1 := d.put (LN_SURVEY_STATE.FLAGS p) (surveyFld b 5 1) with hd1
  set d2 := d1.put (LN_SURVEY_STATE.VERSION p) (surveyFld b 4 1) with hd2
  set d3 := d2.put (LN_SURVEY_PEER.PART p) (surveyFld b 6 2) with hd3
  set d4 := d3.put (LN_SURVEY_PEER.PORT p) (surveyFld b 18 2) with hd4
  have part : Writes [(0x84, 16, 31)] d2 d3 := Writes.putLane d2 p _ (by decide) (by decide) (by decide)
  have number : Writes [(0x84, 0, 15)] d3 d4 := Writes.putLane d3 p _ (by decide) (by decide) (by decide)
  have width (d : Dev) (v : Nat) : Writes [(0x88, 0, 31)] d (d.put (LN_SURVEY_PEER2.WIDTH p) v) :=
    (Writes.putLane d p v (by decide) (by decide) (by decide)).mono (by decide)
  have pcp (d : Dev) (v : Nat) : Writes [(0x88, 0, 31)] d (d.put (LN_SURVEY_PEER2.PCP p) v) :=
    (Writes.putLane d p v (by decide) (by decide) (by decide)).mono (by decide)
  have deadline (d : Dev) (v : Nat) : Writes [(0x88, 0, 31)] d (d.put (LN_SURVEY_PEER2.DEADLINE p) v) :=
    (Writes.putLane d p v (by decide) (by decide) (by decide)).mono (by decide)
  have rest : Writes [(0x88, 0, 31)] d4 (surveyNoted d p b) :=
    ((((width ..).trans (pcp ..)).trans (deadline ..)).trans (Writes.wput ..)).trans (Writes.wput ..)
  have ends : Writes [(0x84, 0, 31), (0x88, 0, 31)] d2 (surveyNoted d p b) :=
    ((part.mono (by decide)).trans (number.mono (by decide))).trans (rest.mono (by decide))
  have named : d4.get (LN_SURVEY_PEER.PORT p) = surveyFld b 18 2 := by
    exact Dev.get_put_fits d3 (by decide) (by decide) (beNat_take_lt _ 2)
  have version : d2.get (LN_SURVEY_STATE.VERSION p) = surveyFld b 4 1 := by
    exact Dev.get_put_fits d1 (by decide) (by decide) (beNat_take_lt _ 1)
  refine ⟨(rest.lane p (by decide) (by decide)).trans named, (ends.lane p (by decide) (by decide)).trans version, ?_⟩
  rw [surveyNoted, Dev.wget_wput_other _ _ (by unfold wkey; omega)]
  exact Dev.wget_wput_same _ _ (Nat.lt_trans (beNat_take_lt _ 8) (by decide))

/-- A valid Survey is recorded (R173). -/
theorem surveyRx_records {frame b : List Byte} (port : isPort d p = true) (exchange : laneState d p = 4)
    (lldp : beNat ((frame.drop 12).take 2) = 0x88CC) (found : findSurvey frame.length (frame.drop 14) = some b) :
    (surveyRx g d p frame).get (LN_SURVEY_PEER.PORT p) = surveyFld b 18 2
      ∧ (surveyRx g d p frame).get (LN_SURVEY_STATE.VERSION p) = surveyFld b 4 1
      ∧ (surveyRx g d p frame).wget (wkey (mbxLn p) 1) = surveyFld b 10 8 := by
  obtain ⟨named, version, partner⟩ := surveyNoted_spec d p b
  rw [surveyRx_some port exchange lldp found]
  have writes := Writes.surveyAnswered g (surveyNoted d p b) p (decide (surveyFld b 5 1 % 2 = 1))
  have wide := WideSame.surveyAnswered g (surveyNoted d p b) p (decide (surveyFld b 5 1 % 2 = 1))
  refine ⟨(writes.lane p (by decide) (by decide)).trans named, (writes.lane p (by decide) (by decide)).trans version, ?_⟩
  rw [Dev.wget, wide.kept, ← Dev.wget, partner]

end Survey

section Receive
variable {s : State} {p : Fin 1024} {frame : List Byte}

theorem exec_surveyRx (held : s.held = false) (port : isPort s.dev p = true) (exchange : laneState s.dev p = 4)
    (up : s.dev.sliceUp (p.val / 32) = true) (loop : s.dev.flag (PT_CFG.LOOP p) = false) (half : halfRx s.dev p = none)
    (long : 60 ≤ frame.length) (fits : frame.length + 4 ≤ portMtu s.dev p) (lldp : beNat ((frame.drop 12).take 2) = 0x88CC) :
    ∃ c, exec (.surveyRx p frame) s = .next { s with dev := surveyRx s.grid { s.dev with ctr := c } p frame } := by
  have receive : receives s.dev p = true := by simp [receives, port, exchange]
  obtain ⟨c, whole⟩ := rxWhole_survey (g := s.grid) (now := s.grid.nowQ 0 + wireQ s.dev p (withFcs frame).length)
    (ts := rxStamp s.dev p (s.grid.nowQ 0)) (bar := rxBarred s.dev p false) exchange long fits lldp
  refine ⟨c, ?_⟩
  show execSurveyRx p frame s = _
  rw [execSurveyRx, State.withDev_live _ held]
  dsimp only
  rw [fromPartner, receive, up, loop, half]
  exact congrArg (fun e => Host.Outcome.next { s with dev := e }) whole

/-- A port that does not receive takes no frame (R197). -/
theorem exec_surveyRx_else (no : receives s.dev p = false) : exec (.surveyRx p frame) s = .next s := by
  show execSurveyRx p frame s = _
  rw [execSurveyRx]
  refine State.withDev_same ?_
  dsimp only
  rw [fromPartner, no]
  rfl

end Receive

/-- Settles O34, by a lemma for each command in each state from LOCK on. -/
theorem laneLockAndSurvey : Obligations.LaneLockAndSurvey := by
  refine ⟨fun p skew s held => ⟨lockHeld_spec held, exec_lockHeld_else, fun back => ?_, exec_relock_else⟩, fun p s held =>
    ⟨fun port exchange => ⟨?_, exec_surveyTx_fault port exchange, exec_surveyTx held port exchange, ?_⟩, exec_exchange_else,
      fun no frame => exec_surveyRx_else no⟩,
    fun l s held => ⟨fun p port lock => exec_lockTimeout held port lock, exec_lockTimeout_else⟩⟩
  · have test : laneState s.dev p ≠ 6 := by rw [back.2.1]; decide
    obtain ⟨active, fec, counts⟩ := relocked_spec back.1 test
    exact ⟨_, exec_relock held back, active, fec, counts⟩
  · exact ⟨_, exec_exchTimeout held port exchange, exchangeOver_spec port exchange⟩
  · intro frame up loop half long fits lldp
    obtain ⟨c, run⟩ := exec_surveyRx held port exchange up loop half long fits lldp
    refine ⟨fun b found => ⟨_, run, surveyRx_records port exchange lldp found⟩, fun found => ?_⟩
    rw [surveyRx_none found] at run
    exact ⟨_, run, rfl, rfl, fun _ => rfl, fun _ _ => rfl⟩

end Sys2Proof.Machine

namespace Sys2Proof.Machine

namespace MacSame

variable {d : Dev}

/-! ### What leaving the buffers writes

A flush (R209, R429) writes registers of the halves and of the units below them: the MAC's stay as they are. -/

theorem put_low (d : Dev) (f : Fld) (v : Nat) (h : f.addr < 0x4000000) : MacSame d (d.put f v) := put d f v (not_low h)

theorem bump_low (d : Dev) (f : Fld) (h : f.addr < 0x4000000) : MacSame d (d.bump f) := put_low d f _ h

theorem addTo_low (d : Dev) (f : Fld) (n : Nat) (h : f.addr < 0x4000000) : MacSame d (d.addTo f n) := put_low d f _ h

theorem subFrom_low (d : Dev) (f : Fld) (n : Nat) (h : f.addr < 0x4000000) : MacSame d (d.subFrom f n) := put_low d f _ h

theorem event_low (d : Dev) (f : Fld) (h : f.addr < 0x4000000) : MacSame d (d.event f) := event d f (not_low h)

theorem setWord_low (d : Dev) {a : Nat} (v : Word) (h : a < 0x4000000) : MacSame d (d.setWord a v) :=
  of_regsOnly (Dev.regsOnly_setWord d a v) (by simpa using not_low h)

theorem ctrAdd (d : Dev) (k n : Nat) : MacSame d (d.ctrAdd k n) := of_regs

theorem ctrPut (d : Dev) (k n : Nat) : MacSame d (d.ctrPut k n) := of_regs

theorem wput (d : Dev) (k v : Nat) : MacSame d (d.wput k v) := of_regs

theorem report (d : Dev) (src detail : Nat) : MacSame d (d.report src detail) := of_regs

theorem bpm (d : Dev) (x : BpmHid) : MacSame d { d with bpm := x } := of_regs

theorem tel (d : Dev) (x : TelHid) : MacSame d { d with tel := x } := of_regs

theorem buf (d : Dev) (x : BufHid) : MacSame d { d with buf := x } := of_regs

theorem queue (d : Dev) (n : Nat) (f : Queue → Queue) : MacSame d (d.queue n f) := of_regs

theorem slice (d : Dev) (s : Nat) (f : SliceHid → SliceHid) : MacSame d (d.slice s f) := of_regs

theorem hiddenPort (d : Dev) (p : Nat) (f : PortHid → PortHid) : MacSame d (d.port p f) := of_regs

theorem of_controlSent {e : Dev} (h : ControlSent d e) : MacSame d e := by
  obtain ⟨_, _, _, rfl⟩ := h.frame
  exact of_regs

/-! #### The device's PMU (R511-R514) -/

theorem overflow (d : Dev) (i : Nat) (b : Bool) : MacSame d
    (if b = true then (d.event ⟨(PMU_STATUS.word 0).addr, i, i⟩).put (PMU_CTL.EN 0) 0 else d.event ⟨(PMU_STATUS.word 0).addr, i, i⟩) := by
  have raised : MacSame d (d.event ⟨(PMU_STATUS.word 0).addr, i, i⟩) := event_low _ _ (show pmuBase 0 + 4 < _ by decide)
  exact ite (raised.trans (put_low _ (PMU_CTL.EN 0) 0 (show pmuBase 0 < _ by decide))) raised

theorem pmuAdd (d : Dev) (i n : Nat) : MacSame d (d.pmuAdd 0 i n) := by
  unfold Dev.pmuAdd
  refine ite (ctrPut ..) (ite (ite (ctrPut ..) (ite ?_ ?_)) ?_)
  · exact (ctrPut ..).trans (ctrPut ..)
  · exact ((ctrPut ..).trans (ctrPut ..)).trans (overflow ..)
  · exact (ctrPut ..).trans (overflow ..)

theorem pmuEvent (d : Dev) (code n : Nat) (port : Option Nat) : MacSame d (d.pmuEvent 0 code n port) :=
  ite (foldl (fun d _ => ite (pmuAdd ..) (refl d)) _ _) (refl d)

/-! #### The buffer pool manager (R382-R386) -/

theorem held_low {r p : Nat} (hr : r < 16) (hp : p < 8) : (BPM_HELD.HELD r p).addr < 0x4000000 := by
  show 0x90400 + r * 0x20 + p * 4 < _
  omega

theorem poolFree_low {p : Nat} (hp : p < 8) : (BPM_POOL_FREE.FREE p).addr < 0x4000000 := by
  show 0x9010C + p * 0x20 < _
  omega

theorem bpmLow (d : Dev) (p : Nat) : MacSame d (bpmLow d p) :=
  ite ((bpm ..).trans (event_low _ BPM_STATUS.LOW (by decide))) (ite (bpm ..) (refl d))

theorem allocIn (d : Dev) {r p : Nat} (hr : r < 16) (hp : p < 8) : MacSame d (allocIn d r p).2 := by
  unfold Machine.allocIn
  dsimp only
  split
  · split
    · exact refl d
    · refine MacSame.trans ?_ (bpmLow ..)
      refine MacSame.trans ?_ (subFrom_low _ _ _ (poolFree_low hp))
      exact ((bpm d _).trans (bpm ..)).trans (bump_low _ _ (held_low hr hp))
  · exact refl d

theorem allocFrom (d : Dev) {r : Nat} (hr : r < 16) (grow : Bool) (ps : List Nat) (hps : ∀ p ∈ ps, p < 8) (last : BpmGot) :
    MacSame d (allocFrom d r grow ps last).2 := by
  induction ps generalizing last with
  | nil => exact refl d
  | cons p ps ih =>
    unfold Machine.allocFrom
    dsimp only
    split
    · exact allocIn d hr (hps p (List.mem_cons_self ..))
    · split
      · exact ih (fun q mem => hps q (List.mem_cons_of_mem _ mem)) _
      · exact refl d

theorem eligible_lt {r len p : Nat} {secure : Bool} {force : Option Nat} (h : p ∈ eligible d r len secure force) : p < 8 := by
  unfold eligible at h
  obtain ⟨c, -, mem⟩ := List.mem_flatMap.mp h
  exact List.mem_range.mp (List.mem_filter.mp mem).1

theorem countAlloc (d : Dev) (g : BpmGot) : MacSame d (countAlloc d g) := by
  have counts (k : Nat) (h : k ≤ 4) : MacSame d (d.bump (BPM_CNT_ALLOCS.cnt k)) :=
    bump_low _ _ (show 0x90700 + 4 * k < _ by omega)
  unfold Machine.countAlloc
  extract_lets d1
  have counted : MacSame d d1 := counts _ (by split <;> decide)
  exact ite (counted.trans (pmuEvent ..)) counted

theorem bpmAlloc (d : Dev) {r : Nat} (hr : r < 16) (len : Nat) (secure : Bool) (force : Option Nat) :
    MacSame d (bpmAlloc d r len secure force).2 :=
  (allocFrom d hr _ _ (fun _ mem => eligible_lt mem) _).trans (countAlloc ..)

theorem rejectFree (d : Dev) {r : Nat} (hr : r < 16) (owner kind : Nat) (pool : Option Nat) (index ptr : Nat) :
    MacSame d (rejectFree d r owner kind pool index ptr) := by
  unfold Machine.rejectFree
  extract_lets d1 d2 d3 d4
  have shown : MacSame d d3 := ((setWord_low _ _ (by decide)).trans (put_low _ BPM_ERR_INDEX.INDEX _ (by decide))).trans (wput ..)
  have told : MacSame d3 d4 := (event_low _ BPM_STATUS.FREE_REJECT (by decide)).trans
    (bump_low _ (BPM_CNT_REJECT.COUNT r) (show 0x90680 + r * 4 < _ by omega))
  exact (shown.trans told).trans (report ..)

theorem freeBuf (d : Dev) {p : Nat} (hp : p < 8) (i : Nat) : MacSame d (freeBuf d p i) := by
  unfold Machine.freeBuf
  extract_lets t d1 d2 d3
  have free : MacSame d d2 := (bpm d _).trans (bump_low _ _ (poolFree_low hp))
  have left : MacSame d d3 := ite (free.trans (subFrom_low _ _ _ (held_low (Nat.mod_lt _ (by decide)) hp))) free
  exact left.trans (bpmLow ..)

theorem poolAt_lt {ptr p : Nat} (h : poolAt d ptr = some p) : p < 8 := List.mem_range.mp (List.mem_of_find?_eq_some h)

theorem bpmFree (d : Dev) {r : Nat} (hr : r < 16) (ptr : Nat) : MacSame d (bpmFree d r ptr).2 := by
  unfold Machine.bpmFree
  cases pool : poolAt d ptr with
  | none => exact rejectFree d hr 0xE 1 none 0 ptr
  | some p =>
    dsimp -zeta only
    extract_lets size off i t
    simp only [apply_ite Prod.snd]
    have counts (d : Dev) : MacSame d (d.bump BPM_CNT_FREES) := bump_low _ _ (by decide)
    exact ite (rejectFree d hr ..) (ite (rejectFree d hr ..) (ite (rejectFree d hr ..)
      (((freeBuf d (poolAt_lt pool) i).trans (counts _)).trans (pmuEvent ..))))

/-! #### The end of a copy (R477-R497) -/

theorem exportRecord (d : Dev) (h kind : Nat) (b : List Byte) : MacSame d (exportRecord d h kind b) := by
  have dropped (d : Dev) {r : Nat} (hr : r < 16) : MacSame d (d.bump (TEL_RING_DROP.DROP r)) :=
    bump_low _ _ (show 0xA1020 + r * 0x40 < _ by omega)
  unfold Machine.exportRecord
  extract_lets r
  have ring : r < 16 := Fld.read_lt ..
  refine ite (ite ?_ (dropped d ring)) (refl d)
  have got := bpmAlloc d (r := 4) (by decide) b.length true none
  exact ite (got.trans (tel ..)) (got.trans (dropped _ ring))

theorem setFlow (d : Dev) (k : Nat) (f : Option Flow) : MacSame d (d.setFlow k f) := tel ..

theorem exportFlow (d : Dev) (h : Nat) (f : Flow) (reason : Nat) : MacSame d (exportFlow d h f reason) :=
  (bump_low _ TEL_CNT_FLOWS_EXPORTED (by decide)).trans (exportRecord ..)

theorem updateFlow (d : Dev) (h : Nat) (key : BitVec 128) (c : Copy) (rxTs len : Nat) (e : EndInfo) :
    MacSame d (updateFlow d h key c rxTs len e) := by
  unfold Machine.updateFlow
  extract_lets _ _ _ way found _ d1 _ old d2
  have created : MacSame d d1 := bump_low _ TEL_CNT_FLOWS_CREATED (by decide)
  have evicted : MacSame d d2 := by
    unfold d2
    cases way old with
    | none => exact created
    | some f => exact (created.trans (bump_low _ TEL_CNT_FLOWS_EVICTED (by decide))).trans (exportFlow ..)
  cases found with
  | some w =>
    dsimp only
    cases way w with
    | some f => exact setFlow ..
    | none => exact refl d
  | none =>
    dsimp only
    split
    · exact created.trans (setFlow ..)
    · exact evicted.trans (setFlow ..)

theorem updateHH (g : Grid) (d : Dev) (h : Nat) (key : BitVec 128) (c : Copy) (len : Nat) : MacSame d (updateHH g d h key c len) := by
  have counts (d : Dev) : MacSame d (d.bump TEL_CNT_HH) := bump_low _ _ (by decide)
  have beyond (d : Dev) : MacSame d (d.bump TEL_CNT_HH_OVF) := bump_low _ _ (by decide)
  unfold Machine.updateHH
  refine ite (refl d) (ite (tel ..) ?_)
  refine ite (trans (trans ?_ (tel ..)) (beyond _)) (trans ?_ (tel ..))
  · exact ((tel ..).trans (counts _)).trans (exportRecord ..)
  · exact ((tel ..).trans (counts _)).trans (exportRecord ..)

theorem dropRecord (d : Dev) (c : Copy) (cart : List Byte) (key : Option (BitVec 128)) (frame : List Byte) (e : EndInfo) :
    MacSame d (dropRecord d c cart key frame e) :=
  ite (bump_low _ TEL_CNT_DR_SUPPRESSED (by decide))
    (((tel ..).trans (bump_low _ TEL_CNT_DR_SENT (by decide))).trans (exportRecord ..))

theorem fresh (d : Dev) : MacSame d d.fresh.2 := of_regs

theorem postcard (d : Dev) (e : EndInfo) (cart : List Byte) (key : Option (BitVec 128)) : MacSame d (postcard d e cart key) := by
  have counts (d : Dev) : MacSame d (d.bump (CTH_CNT_POSTCARDS e.slice)) := by
    refine put _ _ _ ?_
    show ¬ MacReg (sliceBase e.slice + 0x90000 + 0x24)
    unfold MacReg sliceBase
    omega
  unfold Machine.postcard
  refine ite ?_ (refl d)
  extract_lets n
  cases (d.sl e.slice).cardLeft with
  | some k => exact ite ((((fresh d).trans (slice ..)).trans (counts _)).trans (exportRecord ..)) (slice ..)
  | none => exact ite (((((fresh d).trans (fresh _)).trans (slice ..)).trans (counts _)).trans (exportRecord ..)) ((fresh d).trans (slice ..))

theorem complete (g : Grid) (d : Dev) (c : Copy) (e : EndInfo) : MacSame d (complete g d c e) := by
  unfold Machine.complete
  extract_lets fr len key useFlow d1
  have dropped : MacSame d d1 := ite (ctrAdd ..) (refl d)
  have ends : ∀ cart bytes d2, MacSame d1 d2 →
      MacSame d (Machine.postcard (if e.reason ≠ 0 then Machine.dropRecord d2 c cart key bytes e else d2) e cart key) :=
    fun cart bytes d2 h2 => ((dropped.trans h2).trans (ite (dropRecord ..) (refl _))).trans (postcard ..)
  have flow : ∀ rxTs k, MacSame d1
      (Machine.updateHH g (if useFlow then Machine.updateFlow d1 e.half k c rxTs len e else d1) e.half k c len) :=
    fun rxTs k => (ite (updateFlow ..) (refl _)).trans (updateHH ..)
  clear_value fr key
  cases fr with
  | none => cases key with
    | none => exact ends _ _ _ (refl _)
    | some k => exact ends _ _ _ (flow _ k)
  | some f => cases key with
    | none => exact ends _ _ _ (refl _)
    | some k => exact ends _ _ _ (flow _ k)

theorem dropFrame (d : Dev) (fid : Nat) : MacSame d (dropFrame d fid) := by
  unfold Machine.dropFrame
  refine ite (refl d) ?_
  split
  · exact ite of_regs (refl d)
  · exact refl d

/-! #### A queue's cells leave (R402, R409, R421, R425) -/

section Queue
variable {n : Nat}

/-- A register of a half. -/
theorem half_low {h : Nat} (hh : h < 2) {o : Nat} (ho : o < 0x1000000) : halfBase h + o < 0x4000000 := by
  unfold halfBase
  omega

theorem bufFree_low {h : Nat} (hh : h < 2) : (BUF_FREE.FREE h).addr < 0x4000000 := half_low hh (o := 0x200018) (by decide)

theorem qHalf_lt (hn : n < 8192) : qHalf n < 2 := by
  unfold qHalf
  omega

theorem qdepth_low (hn : n < 8192) : halfBase (qHalf n) + 0x200000 + 0x6000 + lq n * 4 < 0x4000000 := by
  unfold halfBase qHalf lq
  omega

theorem dropFrameCell (d : Dev) {h : Nat} (hh : h < 2) (fid i : Nat) : MacSame d (dropFrameCell d h fid i) :=
  ite (refl d) (ite ((buf ..).trans (bump_low _ _ (bufFree_low hh))) (buf ..))

theorem poolGive (d : Dev) {h : Nat} (hh : h < 2) (c : Copy) (r : Run) : MacSame d (poolGive d h c r) :=
  foldl (fun d _ => ite (bump_low _ _ (bufFree_low hh)) (dropFrameCell d hh ..)) _ d

theorem uncharge (d : Dev) (hn : n < 8192) (k : Nat) (c : Copy) : MacSame d (uncharge d n k c) := by
  have half := qHalf_lt hn
  unfold Machine.uncharge
  extract_lets h cls q a b e d1 d2 d3 d4 d5 d6 d7
  have h1 : MacSame d d1 := subFrom_low _ (BUF_QDEPTH.ON_CHIP (qHalf n) (lq n)) _ (qdepth_low hn)
  have h2 : MacSame d1 d2 := subFrom_low _ (BUF_PORT_USED.USED (qHalf n) (lq n / 8)) _ (by
    show halfBase (qHalf n) + 0x200000 + 0xC00 + lq n / 8 * 4 < _
    unfold halfBase qHalf lq
    omega)
  have h3 : MacSame d2 d3 := subFrom_low _ (BUF_CLASS_USED.USED (qHalf n) (n % 8)) _ (by
    show halfBase (qHalf n) + 0x200000 + 0x80 + n % 8 * 4 < _
    unfold halfBase qHalf
    omega)
  have h4 : MacSame d3 d4 := buf ..
  have h5 : MacSame d4 d5 := subFrom_low _ (BUF_HEADROOM_USED.USED (qHalf n)) _ (half_low half (o := 0x200020) (by decide))
  have h6 : MacSame d5 d6 := subFrom_low _ (BUF_SHARED_USED.USED (qHalf n)) _ (half_low half (o := 0x20001C) (by decide))
  have h7 : MacSame d6 d7 := buf ..
  exact ((((((h1.trans h2).trans h3).trans h4).trans h5).trans h6).trans h7).trans (queue ..)

theorem sendPause (d : Dev) (p prio quanta : Nat) : MacSame d (sendPause d p prio quanta) := by
  unfold Machine.sendPause
  split
  · exact of_controlSent (ControlSent.queueControl ..)
  · exact of_controlSent (ControlSent.queueControl ..)
  · exact refl d

theorem checkPause (d : Dev) (p prio : Nat) : MacSame d (checkPause d p prio) := by
  unfold Machine.checkPause
  refine ite ?_ (ite ?_ (refl d))
  · exact (hiddenPort ..).trans (of_controlSent (ControlSent.pauseOn ..))
  · exact (hiddenPort ..).trans (ite (refl _) (sendPause ..))

theorem releaseRuns (d : Dev) (hn : n < 8192) (c : Copy) (rs : List Run) : MacSame d (releaseRuns d n c rs) :=
  ((uncharge d hn ..).trans (foldl (fun d r => poolGive d (qHalf_lt hn) c r) _ _)).trans (checkPause ..)

theorem forgetDowns (d : Dev) (n : Nat) : MacSame d (forgetDowns d n) := buf ..

theorem cancelDowns (d : Dev) (hn : n < 8192) : MacSame d (cancelDowns d n) := by
  have freed (d : Dev) (ws : List WriteDown) : MacSame d (ws.foldl (fun d w => (Machine.bpmFree d (qHalf n) w.ptr).2) d) :=
    foldl (fun d (w : WriteDown) => bpmFree d (Nat.lt_trans (qHalf_lt hn) (by decide)) w.ptr) _ _
  unfold Machine.cancelDowns
  extract_lets d1
  have pages : MacSame d d1 := freed ..
  exact (pages.trans (forgetDowns ..)).trans (queue ..)

/-- The queue leaves spill: the half's count of such queues, and the queue's mark. -/
theorem leaveSpill (d : Dev) (hn : n < 8192) :
    MacSame d ((d.subFrom (SPL_QUEUES.COUNT (qHalf n)) 1).put (BUF_QDEPTH.SPILLED (qHalf n) (lq n)) 0) :=
  (subFrom_low _ _ _ (half_low (qHalf_lt hn) (o := 0x100018) (by decide))).trans (put_low _ _ _ (qdepth_low hn))

theorem settleSpill (d : Dev) (hn : n < 8192) : MacSame d (settleSpill d n) := by
  have cancelled (d : Dev) (k : Nat) : MacSame d (d.addTo (SPL_CNT_CANCELLED (qHalf n)) k) :=
    addTo_low _ _ _ (half_low (qHalf_lt hn) (o := 0x10004C) (by decide))
  unfold Machine.settleSpill
  extract_lets q h d1 d2 d3
  have h1 : MacSame d d1 := (cancelDowns d hn).trans (cancelled ..)
  have h2 : MacSame d d2 := ite (h1.trans (queue ..)) (refl d)
  have h3 : MacSame d d3 := h2.trans (leaveSpill _ hn)
  exact ite (refl d) (ite (h3.trans (queue ..)) h2)

theorem releaseCopy (d : Dev) (hn : n < 8192) (c : Copy) : MacSame d (releaseCopy d n c) :=
  ((releaseRuns d hn ..).trans (queue ..)).trans (settleSpill _ hn)

theorem dropQueued (g : Grid) (d : Dev) (hn : n < 8192) (c : Copy) (reason : Nat) : MacSame d (dropQueued g d n c reason) := by
  unfold Machine.dropQueued
  extract_lets d1 d2 d3 d4
  have left : MacSame d d2 := (releaseCopy d hn c).trans (queue ..)
  have counted : MacSame d2 d3 := ctrAdd ..
  exact ((left.trans counted).trans (complete ..)).trans (dropFrame ..)

/-! #### A flush (R209, R429) -/

theorem orphanPage (d : Dev) (h ptr : Nat) : MacSame d (orphanPage d h ptr) := buf ..

theorem dropMiddle (d : Dev) (hn : n < 8192) : MacSame d (dropMiddle d n) := by
  have pages (d : Dev) (k : Nat) : MacSame d (d.subFrom (SPL_PAGES.COUNT (qHalf n)) k) :=
    subFrom_low _ _ _ (half_low (qHalf_lt hn) (o := 0x10001C) (by decide))
  unfold Machine.dropMiddle
  extract_lets h q d1 d2 d3 d4
  have h1 : MacSame d d1 := foldl (fun d p => orphanPage ..) _ _
  have h2 : MacSame d1 d2 := foldl (fun d w => orphanPage ..) _ _
  have h3 : MacSame d2 d3 := (pages ..).trans (forgetDowns ..)
  have h4 : MacSame d3 d4 := ite (leaveSpill _ hn) (refl _)
  exact (((h1.trans h2).trans h3).trans h4).trans (queue ..)

theorem flushQueue (g : Grid) (d : Dev) (hn : n < 8192) (reason : Nat) : MacSame d (flushQueue g d n reason) := by
  unfold Machine.flushQueue
  extract_lets ps d1 d2
  have dropped : MacSame d1 d2 := foldl (fun d c => dropQueued g d hn c reason) _ _
  exact ((dropMiddle d hn).trans dropped).trans (queue ..)

theorem flushPort (g : Grid) (d : Dev) {p : Nat} (hp : p < 1024) (reason : Nat) : MacSame d (flushPort g d p reason) := by
  refine List.foldlRecOn _ _ (refl d) fun e done q mem => done.trans ?_
  have class8 := List.mem_range.mp mem
  exact ite (refl e) (flushQueue g e (by unfold qid; omega) reason)

end Queue

end MacSame

end Sys2Proof.Machine

namespace Sys2Proof.Machine

/-- One report between changes that report nothing. -/
theorem reported_between {W V : Footprint} {d e f : Dev} {src detail : Nat} (h : Writes W d e) (k : Writes V (e.report src detail) f) :
    Dev.reported [(src, detail)] d f := by
  obtain ⟨r, reports, shown⟩ := Dev.reported_report e src detail
  exact ⟨r, by rw [k.reports, reports, h.reports], shown⟩

/-! ### Loss of lock (R181, R182, R207) -/

section LossOfLock
variable {d : Dev} {l p : Nat}

/-- A port that lost lock: in LOCK, out of service, knowing where it was and which lane it was (R181, R182). -/
def lockLost (d : Dev) (l p : Nat) : Dev :=
  let d' := ((d.bump (LN_CNT_LOL l)).event (LN_STATUS.LOL l)).report (srcLane l) 0
  (leaveService (setLaneStates d' (portLanes d' p) 3) p).lane p fun h => { h with lostIn := laneState d l, lostLane := l }

/-- Before the report, LN_CNT_LOL and LN_STATUS are written. -/
theorem Writes.lolTold (d : Dev) (l : Nat) :
    Writes [(0x54, 0, 31), (0x10, 4, 4), (0x10, 24, 31)] d ((d.bump (LN_CNT_LOL l)).event (LN_STATUS.LOL l)) := by
  have told (d : Dev) : Writes [(0x10, 4, 4), (0x10, 24, 31)] d (d.event (LN_STATUS.LOL l)) :=
    eventLane d l (by decide) (by decide)
  exact ((count d l (by decide)).mono (by decide)).trans ((told _).mono (by decide))

/-- After the report, the lanes' states and what leaves service. -/
theorem Writes.lockLost_rest (d : Dev) (l p : Nat) : Writes ((4, 0, 2) :: serviceBits)
    (((d.bump (LN_CNT_LOL l)).event (LN_STATUS.LOL l)).report (srcLane l) 0) (lockLost d l p) := by
  unfold lockLost
  extract_lets d1
  exact (((setLaneStates ..).mono (by decide)).trans ((leaveService ..).mono (by decide))).trans (hidden ..)

theorem lockLost_state (mem : l ∈ portLanes d p) (test : laneState d l ≠ 6) : laneState (lockLost d l p) l = 3 := by
  have told := Writes.lolTold d l
  unfold lockLost
  extract_lets d1
  have lanes : portLanes d1 p = portLanes d p := SameModes.portLanes (fun k => (told.toKeeps.report ..).laneMode (by decide) k) p
  have state : laneState d1 l = laneState d l := (told.toKeeps.report ..).laneState (by decide) l
  have rest : Writes serviceBits (setLaneStates d1 (portLanes d1 p) 3) ((leaveService (setLaneStates d1 (portLanes d1 p) 3) p).lane p
      fun h => { h with lostIn := laneState d l, lostLane := l }) := (Writes.leaveService ..).trans (.hidden ..)
  rw [rest.laneState (by decide)]
  exact setLaneStates_mem (by decide) (lanes ▸ mem) (by rwa [state])

theorem lockLost_count (d : Dev) (l p : Nat) : (lockLost d l p).get (LN_CNT_LOL l) = (d.get (LN_CNT_LOL l) + 1) % 2 ^ 32 := by
  have told (d : Dev) : Writes [(0x10, 4, 4), (0x10, 24, 31)] d (d.event (LN_STATUS.LOL l)) :=
    Writes.eventLane d l (by decide) (by decide)
  have kept : (lockLost d l p).get (LN_CNT_LOL l) = (d.bump (LN_CNT_LOL l)).get (LN_CNT_LOL l) :=
    ((Writes.lockLost_rest d l p).lane l (by decide) (by decide)).trans (((told _).toKeeps.report ..).lane l (by decide) (by decide))
  rw [kept, LN_CNT_LOL, counted]

theorem lockLost_live (d : Dev) (l p : Nat) : (lockLost d l p).get (PT_LINK.LIVE p) = 0 := by
  unfold lockLost
  extract_lets d1
  rw [Dev.get_lane]
  exact leaveService_live ..

theorem lockLost_relock (d : Dev) (l p : Nat) : (lockLost d l p).flag (LN_CTL.RELOCK_EN p) = d.flag (LN_CTL.RELOCK_EN p) :=
  ((Writes.lockLost_rest d l p).ctl p (by decide)).trans (((Writes.lolTold d l).toKeeps.report ..).ctl p (by decide))

end LossOfLock

section Lossy
variable {s : State} {l : Fin 1024} {p : Nat}

theorem exec_lossOfLock (held : s.held = false) (port : portOf s.dev l = some p) (locked : laneState s.dev l = 4 ∨ laneState s.dev l = 5) :
    exec (.lossOfLock l) s = .next { s with dev := if s.dev.flag (LN_CTL.RELOCK_EN p) = true then lockLost s.dev l p
                                                   else lockFail s.grid (lockLost s.dev l p) p l } := by
  show execLossOfLock l s = _
  rw [execLossOfLock, State.withDev_live _ held, port]
  dsimp only
  rw [if_pos locked, ← lockLost_relock s.dev l p]
  rfl

theorem exec_lossOfLock_else (no : portOf s.dev l = none ∨ (laneState s.dev l ≠ 4 ∧ laneState s.dev l ≠ 5)) :
    exec (.lossOfLock l) s = .next s := by
  show execLossOfLock l s = _
  rw [execLossOfLock]
  refine State.withDev_same ?_
  cases port : portOf s.dev l with
  | none => rfl
  | some p =>
    obtain ⟨exchange, active⟩ := no.resolve_left (by simp [port])
    exact if_neg (not_or.mpr ⟨exchange, active⟩)

/-- What a loss of lock shows: the lane's count, the port pruned, the lane's fault source (R181, R207). -/
def LossShown (d : Dev) (l p : Nat) (e : Dev) : Prop :=
  e.get (LN_CNT_LOL l) = (d.get (LN_CNT_LOL l) + 1) % 2 ^ 32 ∧ e.get (PT_LINK.LIVE p) = 0 ∧ Dev.reported [(srcLane l, 0)] d e

theorem lockLost_shown (d : Dev) (l p : Nat) : LossShown d l p (lockLost d l p) :=
  ⟨lockLost_count .., lockLost_live .., reported_between (Writes.lolTold d l) (Writes.lockLost_rest d l p)⟩

theorem lossOfLock_relocks (held : s.held = false) (port : portOf s.dev l = some p)
    (locked : laneState s.dev l = 4 ∨ laneState s.dev l = 5) (relock : s.dev.flag (LN_CTL.RELOCK_EN p) = true) :
    ∃ e, exec (.lossOfLock l) s = .next { s with dev := e } ∧ laneState e l = 3 ∧ LossShown s.dev l p e
      ∧ (laneHid e p).lostIn = laneState s.dev l := by
  have run := exec_lossOfLock held port locked
  rw [if_pos relock] at run
  refine ⟨_, run, lockLost_state (portOf_mem port) (by omega), lockLost_shown .., ?_⟩
  rw [lockLost, laneHid_lane_same]

theorem lossOfLock_trains (held : s.held = false) (port : portOf s.dev l = some p)
    (locked : laneState s.dev l = 4 ∨ laneState s.dev l = 5) (relock : s.dev.flag (LN_CTL.RELOCK_EN p) = false) :
    ∃ e, exec (.lossOfLock l) s = .next { s with dev := flushPort s.grid e p drLinkDown } ∧ laneState e l = 2
      ∧ LossShown s.dev l p e ∧ e.get (LN_CNT_LOCK_FAIL l) = (s.dev.get (LN_CNT_LOCK_FAIL l) + 1) % 2 ^ 32 := by
  have run := exec_lossOfLock held port locked
  rw [if_neg (by rw [relock]; decide)] at run
  have told := Writes.lolTold s.dev l
  have rest := Writes.lockLost_rest s.dev l p
  have modes : SameModes s.dev (lockLost s.dev l p) := fun k => (rest.laneMode (by decide) k).trans ((told.toKeeps.report ..).laneMode (by decide) k)
  have lock : laneState (lockLost s.dev l p) l = 3 := lockLost_state (portOf_mem port) (by omega)
  obtain ⟨e, fail, train, counts, live, writes⟩ :=
    lockFail_spec s.grid (d := lockLost s.dev l p) (modes.portLanes p ▸ portOf_mem port) (by omega)
  rw [fail] at run
  have was : (lockLost s.dev l p).get (LN_CNT_LOCK_FAIL l) = s.dev.get (LN_CNT_LOCK_FAIL l) :=
    (rest.lane l (by decide) (by decide)).trans ((told.toKeeps.report ..).lane l (by decide) (by decide))
  have lost : e.get (LN_CNT_LOL l) = (lockLost s.dev l p).get (LN_CNT_LOL l) := writes.lane l (by decide) (by decide)
  refine ⟨e, run, train, ⟨lost.trans (lockLost_count ..), live, ?_⟩, by rw [counts, was]⟩
  exact reported_between told ((rest.mono (by decide)).trans (writes.mono (by decide)) : Writes ((0x4C, 0, 31) :: trainBits) _ e)

end Lossy

/-! ### Link faults (R205, R206) -/

section Faults
variable {d e : Dev} {p : Nat}

/-- The port reports its link state and answers what it receives (R205, R206). -/
def answered (d : Dev) (p : Nat) : Dev := (updateLink d p).emit (.ordered p (faultSignal (updateLink d p) p))

theorem Writes.answered (d : Dev) (p : Nat) : Writes linkBits d (answered d p) := (updateLink ..).trans (emit ..)

/-- The flags of the link: FEC_ALIGN, LF, RF. -/
theorem faultSignal_congr {W : Footprint} (h : Writes W d e) (hs : W.spares 0x11004 4 6) : faultSignal e p = faultSignal d p := by
  have bits (lo hi : Nat) (low : 4 ≤ lo) (high : hi ≤ 6) : e.flag ⟨portBase p + 4, hi, lo⟩ = d.flag ⟨portBase p + 4, hi, lo⟩ := by
    refine flag_of_get (h.port p (by decide) fun w hw => ?_)
    have := hs w hw
    omega
  rw [faultSignal, PT_LINK.LF, PT_LINK.FEC_ALIGN, PT_LINK.RF, bits 5 5 (by decide) (by decide), bits 4 4 (by decide) (by decide),
    bits 6 6 (by decide) (by decide)]
  rfl

/-- What was answered. -/
theorem answered_spec (d : Dev) (p : Nat) : laneState (answered d p) p = laneState d p
    ∧ (answered d p).out.getLast? = some (.ordered p (faultSignal (answered d p) p)) ∧ faultSignal (answered d p) p = faultSignal d p := by
  have sent : faultSignal (answered d p) p = faultSignal (updateLink d p) p := faultSignal_congr (Writes.emit (W := []) ..) (by decide)
  refine ⟨(Writes.answered d p).laneState (by decide) p, ?_, faultSignal_congr (Writes.answered d p) (by decide)⟩
  rw [sent]
  exact Dev.getLast?_emit ..

theorem Dev.flag_of_one {f : Fld} (h : d.get f = 1) : d.flag f = true := by simp [Dev.flag, h]

theorem faultSignal_local (h : d.get (PT_LINK.LF p) = 1) : faultSignal d p = .remoteFault := by
  rw [faultSignal, Dev.flag_of_one h]
  rfl

theorem faultSignal_unaligned (h : d.get (PT_LINK.FEC_ALIGN p) = 0) : faultSignal d p = .remoteFault := by
  rw [faultSignal, Dev.flag_false.mpr h, Bool.not_false, Bool.or_true]
  rfl

theorem faultSignal_remote (align : d.flag (PT_LINK.FEC_ALIGN p) = true) (here : d.flag (PT_LINK.LF p) = false)
    (there : d.get (PT_LINK.RF p) = 1) : faultSignal d p = .idle := by
  rw [faultSignal, align, here, Dev.flag_of_one there]
  rfl

theorem Writes.localFault (d : Dev) (p v : Nat) : Writes [(0x11004, 5, 5)] d (d.put (PT_LINK.LF p) v) :=
  (putPort d p v (by decide) (by decide) (by decide)).mono (by decide)

theorem Writes.remoteFault (d : Dev) (p v : Nat) : Writes [(0x11004, 6, 6)] d (d.put (PT_LINK.RF p) v) :=
  (putPort d p v (by decide) (by decide) (by decide)).mono (by decide)

end Faults

section Ordered
variable {s : State} {p : Fin 1024}

/-- What every link-fault command shows: the lane state stays, and the port's answer is sent last (R206). -/
def Answers (d : Dev) (p : Nat) (e : Dev) : Prop :=
  laneState e p = laneState d p ∧ e.out.getLast? = some (.ordered p (faultSignal e p))

theorem answers_of {W : Footprint} {d e : Dev} {p : Nat} (h : Writes W d e) (hs : W.spares 4 0 2) : Answers d p (answered e p) := by
  obtain ⟨state, sent, -⟩ := answered_spec e p
  exact ⟨state.trans (h.laneState hs p), sent⟩

/-- The alignment lost, and reported. -/
def alignLost (d : Dev) (p : Nat) : Dev := ((d.put (PT_LINK.FEC_ALIGN p) 0).event (PT_STATUS.FEC_LOSS p)).report (srcOctet p) 0

theorem Writes.alignTold (d : Dev) (p : Nat) :
    Writes [(0x11004, 4, 4), (0x11008, 0, 31)] d ((d.put (PT_LINK.FEC_ALIGN p) 0).event (PT_STATUS.FEC_LOSS p)) := by
  have told (d : Dev) : Writes [(0x11008, 0, 31)] d (d.event (PT_STATUS.FEC_LOSS p)) :=
    (eventPort d p (by decide) (by decide)).mono (by decide)
  exact ((fecAlign ..).mono (by decide)).trans ((told _).mono (by decide))

theorem alignLost_get (d : Dev) (p : Nat) : (alignLost d p).get (PT_LINK.FEC_ALIGN p) = 0 := by
  have told (d : Dev) : Writes [(0x11008, 0, 31)] d (d.event (PT_STATUS.FEC_LOSS p)) :=
    (Writes.eventPort d p (by decide) (by decide)).mono (by decide)
  have zero : (d.put (PT_LINK.FEC_ALIGN p) 0).get (PT_LINK.FEC_ALIGN p) = 0 := by exact Dev.get_put_fits d (by decide) (by decide) (by decide)
  rw [alignLost, Dev.get_report]
  exact ((told _).port p (by decide) (by decide)).trans zero

theorem exec_fecAlignLoss (held : s.held = false) (port : isPort s.dev p = true) (serves : laneState s.dev p = 4 ∨ laneState s.dev p = 5)
    (align : s.dev.flag (PT_LINK.FEC_ALIGN p) = true) :
    ∃ e, exec (.fecAlignLoss p) s = .next { s with dev := e } ∧ e.get (PT_LINK.FEC_ALIGN p) = 0
      ∧ Dev.reported [(srcOctet p, 0)] s.dev e ∧ Answers s.dev p e ∧ faultSignal e p = .remoteFault := by
  have ends := Writes.answered (alignLost s.dev p) p
  have state : laneState (alignLost s.dev p) p = laneState s.dev p :=
    ((Writes.alignTold s.dev p).toKeeps.report ..).laneState (by decide) p
  have zero : (answered (alignLost s.dev p) p).get (PT_LINK.FEC_ALIGN p) = 0 := (ends.port p (by decide) (by decide)).trans (alignLost_get ..)
  obtain ⟨same, sent, -⟩ := answered_spec (alignLost s.dev p) p
  refine ⟨answered (alignLost s.dev p) p, ?_, zero, reported_between (Writes.alignTold s.dev p) ends, ⟨same.trans state, sent⟩,
    faultSignal_unaligned zero⟩
  show execFecAlignLoss p s = _
  rw [execFecAlignLoss, State.withDev_live _ held, if_pos ⟨port, serves, align⟩]
  rfl

theorem exec_fecAlignRegained (held : s.held = false) (port : isPort s.dev p = true)
    (serves : laneState s.dev p = 4 ∨ laneState s.dev p = 5) : ∃ e, exec (.fecAlignRegained p) s = .next { s with dev := e }
      ∧ e.get (PT_LINK.FEC_ALIGN p) = 1 ∧ Answers s.dev p e := by
  set d1 := s.dev.put (PT_LINK.FEC_ALIGN p) 1 with hd1
  have align : Writes [(0x11004, 4, 4)] s.dev d1 := Writes.fecAlign ..
  have one : d1.get (PT_LINK.FEC_ALIGN p) = 1 := by exact Dev.get_put_fits s.dev (by decide) (by decide) (by decide)
  refine ⟨answered d1 p, ?_, ((Writes.answered d1 p).port p (by decide) (by decide)).trans one, answers_of align (by decide)⟩
  show execFecAlignRegained p s = _
  rw [execFecAlignRegained, State.withDev_live _ held, if_pos ⟨port, serves⟩]
  rfl

theorem exec_remoteFaultRx (held : s.held = false) (port : isPort s.dev p = true)
    (serves : laneState s.dev p = 4 ∨ laneState s.dev p = 5) : ∃ e, exec (.faultOrderedSetRx p true) s = .next { s with dev := e }
      ∧ e.get (PT_LINK.RF p) = 1 ∧ Answers s.dev p e
      ∧ (s.dev.flag (PT_LINK.FEC_ALIGN p) = true → s.dev.flag (PT_LINK.LF p) = false → faultSignal e p = .idle) := by
  set d1 := s.dev.put (PT_LINK.RF p) 1 with hd1
  have fault : Writes [(0x11004, 6, 6)] s.dev d1 := Writes.remoteFault ..
  have one : d1.get (PT_LINK.RF p) = 1 := by exact Dev.get_put_fits s.dev (by decide) (by decide) (by decide)
  have ends := Writes.answered d1 p
  refine ⟨answered d1 p, ?_, (ends.port p (by decide) (by decide)).trans one, answers_of fault (by decide), fun align here => ?_⟩
  · show execFaultOrderedSetRx p true s = _
    rw [execFaultOrderedSetRx, State.withDev_live _ held, if_pos ⟨port, serves⟩]
    rfl
  · obtain ⟨-, -, signal⟩ := answered_spec d1 p
    rw [signal]
    exact faultSignal_remote ((flag_of_get (fault.port p (by decide) (by decide))).trans align)
      ((flag_of_get (fault.port p (by decide) (by decide))).trans here) one

theorem exec_localFaultRx (held : s.held = false) (port : isPort s.dev p = true)
    (serves : laneState s.dev p = 4 ∨ laneState s.dev p = 5) : ∃ e, exec (.faultOrderedSetRx p false) s = .next { s with dev := e }
      ∧ e.get (PT_LINK.LF p) = 1 ∧ Answers s.dev p e ∧ faultSignal e p = .remoteFault := by
  set d1 := s.dev.put (PT_LINK.LF p) 1 with hd1
  have fault : Writes [(0x11004, 5, 5)] s.dev d1 := Writes.localFault ..
  have one : d1.get (PT_LINK.LF p) = 1 := by exact Dev.get_put_fits s.dev (by decide) (by decide) (by decide)
  obtain ⟨-, -, signal⟩ := answered_spec d1 p
  refine ⟨answered d1 p, ?_, ((Writes.answered d1 p).port p (by decide) (by decide)).trans one, answers_of fault (by decide),
    signal.trans (faultSignal_local one)⟩
  show execFaultOrderedSetRx p false s = _
  rw [execFaultOrderedSetRx, State.withDev_live _ held, if_pos ⟨port, serves⟩]
  rfl

theorem exec_linkFaultCleared (held : s.held = false) (port : isPort s.dev p = true)
    (fault : s.dev.flag (PT_LINK.LF p) = true ∨ s.dev.flag (PT_LINK.RF p) = true) :
    ∃ e, exec (.linkFaultCleared p) s = .next { s with dev := e } ∧ e.get (PT_LINK.LF p) = 0 ∧ e.get (PT_LINK.RF p) = 0
      ∧ Answers s.dev p e := by
  set d1 := s.dev.put (PT_LINK.LF p) 0 with hd1
  set d2 := d1.put (PT_LINK.RF p) 0 with hd2
  have here : Writes [(0x11004, 5, 5)] s.dev d1 := Writes.localFault ..
  have there : Writes [(0x11004, 6, 6)] d1 d2 := Writes.remoteFault ..
  have both : Writes [(0x11004, 5, 5), (0x11004, 6, 6)] s.dev d2 := (here.mono (by decide)).trans (there.mono (by decide))
  have noLocal : d1.get (PT_LINK.LF p) = 0 := by exact Dev.get_put_fits s.dev (by decide) (by decide) (by decide)
  have noRemote : d2.get (PT_LINK.RF p) = 0 := by exact Dev.get_put_fits d1 (by decide) (by decide) (by decide)
  have ends := Writes.answered d2 p
  refine ⟨answered d2 p, ?_, ((ends.port p (by decide) (by decide)).trans (there.port p (by decide) (by decide))).trans noLocal,
    (ends.port p (by decide) (by decide)).trans noRemote, answers_of both (by decide)⟩
  show execLinkFaultCleared p s = _
  rw [execLinkFaultCleared, State.withDev_live _ held, if_pos ⟨port, fault⟩]
  rfl

theorem exec_fecAlignLoss_else (no : isPort s.dev p = false ∨ (laneState s.dev p ≠ 4 ∧ laneState s.dev p ≠ 5)
      ∨ s.dev.flag (PT_LINK.FEC_ALIGN p) = false) : exec (.fecAlignLoss p) s = .next s := by
  show execFecAlignLoss p s = _
  rw [execFecAlignLoss]
  refine State.withDev_same (if_neg fun ⟨port, serves, align⟩ => ?_)
  rcases no with no | ⟨exchange, active⟩ | no
  · simp [port] at no
  · omega
  · simp [align] at no

theorem exec_fecAlignRegained_else (no : isPort s.dev p = false ∨ (laneState s.dev p ≠ 4 ∧ laneState s.dev p ≠ 5)) :
    exec (.fecAlignRegained p) s = .next s := by
  show execFecAlignRegained p s = _
  rw [execFecAlignRegained]
  refine State.withDev_same (if_neg fun ⟨port, serves⟩ => ?_)
  rcases no with no | ⟨exchange, active⟩
  · simp [port] at no
  · omega

theorem exec_faultOrderedSetRx_else (remote : Bool) (no : isPort s.dev p = false ∨ (laneState s.dev p ≠ 4 ∧ laneState s.dev p ≠ 5)) :
    exec (.faultOrderedSetRx p remote) s = .next s := by
  show execFaultOrderedSetRx p remote s = _
  rw [execFaultOrderedSetRx]
  refine State.withDev_same (if_neg fun ⟨port, serves⟩ => ?_)
  rcases no with no | ⟨exchange, active⟩
  · simp [port] at no
  · omega

theorem exec_linkFaultCleared_else (no : isPort s.dev p = false ∨ (s.dev.flag (PT_LINK.LF p) = false ∧ s.dev.flag (PT_LINK.RF p) = false)) :
    exec (.linkFaultCleared p) s = .next s := by
  show execLinkFaultCleared p s = _
  rw [execLinkFaultCleared]
  refine State.withDev_same (if_neg fun ⟨port, fault⟩ => ?_)
  rcases no with no | ⟨here, there⟩
  · simp [port] at no
  · simp [here, there] at fault

/-- Outside EXCHANGE and ACTIVE, and on a lane that is no port, neither the alignment nor an ordered set changes anything. -/
theorem exec_orderedSets_else (no : isPort s.dev p = false ∨ (laneState s.dev p ≠ 4 ∧ laneState s.dev p ≠ 5)) :
    ∀ c ∈ [Instr.fecAlignLoss p, .fecAlignRegained p, .faultOrderedSetRx p true, .faultOrderedSetRx p false], exec c s = .next s := by
  intro c hc
  simp only [List.mem_cons, List.not_mem_nil, or_false] at hc
  rcases hc with rfl | rfl | rfl | rfl
  · exact exec_fecAlignLoss_else (no.imp_right .inl)
  · exact exec_fecAlignRegained_else no
  · exact exec_faultOrderedSetRx_else true no
  · exact exec_faultOrderedSetRx_else false no

end Ordered

end Sys2Proof.Machine

namespace Sys2Proof.Machine

/-! ### Retraining and lane resets (R159, R615, R622) -/

/-- A port's first lane is one of its lanes. -/
theorem portOf_self_mem {d : Dev} {l p : Nat} (h : portOf d l = some p) : p ∈ portLanes d p := by
  have mem := mem_portLanes.mp (portOf_mem h)
  exact mem_portLanes.mpr ⟨Nat.le_refl p, by omega⟩

/-- The shadow of a port writes no register. -/
theorem Writes.shadowPort {W : Footprint} (d : Dev) (p : Nat) : Writes W d (d.shadow 1 p) := ite (refl d) of_regs

section Retrain
variable {s : State} {l : Fin 1024} {p : Nat}

/-- ACTIVE to TRAIN, before the flush. -/
def retrainEntry (d : Dev) (p l : Nat) : Dev := trainEntry ((d.bump (LN_CNT_RETRAIN l)).shadow 1 p) p

theorem retrainPort_active {g : Grid} {d : Dev} {p l : Nat} (active : laneState d p = 5) :
    retrainPort g d p l = flushPort g (retrainEntry d p l) p drLinkDown := by
  rw [retrainPort, if_pos active, enterTrain_eq, retrainEntry]

theorem retrainEntry_spec {d : Dev} {p l : Nat} (mem : p ∈ portLanes d p) (active : laneState d p = 5) :
    laneState (retrainEntry d p l) p = 2 ∧ (retrainEntry d p l).get (LN_CNT_RETRAIN l) = (d.get (LN_CNT_RETRAIN l) + 1) % 2 ^ 32 := by
  have shadows (d : Dev) : Writes [] d (d.shadow 1 p) := Writes.shadowPort ..
  have count : Writes [(0x5C, 0, 31)] d ((d.bump (LN_CNT_RETRAIN l)).shadow 1 p) :=
    (Writes.count d l (by decide)).trans ((shadows _).mono (by decide))
  have lanes : portLanes ((d.bump (LN_CNT_RETRAIN l)).shadow 1 p) p = portLanes d p :=
    SameModes.portLanes (fun k => count.laneMode (by decide) k) p
  have counts : ((d.bump (LN_CNT_RETRAIN l)).shadow 1 p).get (LN_CNT_RETRAIN l) = (d.get (LN_CNT_RETRAIN l) + 1) % 2 ^ 32 := by
    have kept : ((d.bump (LN_CNT_RETRAIN l)).shadow 1 p).get (LN_CNT_RETRAIN l) = (d.bump (LN_CNT_RETRAIN l)).get (LN_CNT_RETRAIN l) :=
      (shadows _).lane l (by decide) (by decide)
    rw [kept, LN_CNT_RETRAIN, counted]
  refine ⟨trainEntry_state (lanes ▸ mem) ?_, ((Writes.trainEntry ..).lane l (by decide) (by decide)).trans counts⟩
  rw [count.laneState (by decide), active]
  decide

/-- The host and the partner retrain a port alike (R159). -/
theorem exec_retrains {c : Instr} (hc : c = .retrain l ∨ c = .partnerRetrain l) : exec c s = execRetrain l s := by
  rcases hc with rfl | rfl
  · rfl
  · rfl

theorem exec_retrain_active {c : Instr} (hc : c = .retrain l ∨ c = .partnerRetrain l) (held : s.held = false)
    (port : portOf s.dev l = some p) (active : laneState s.dev p = 5) :
    ∃ e, exec c s = .next { s with dev := flushPort s.grid e p drLinkDown } ∧ laneState e p = 2
      ∧ e.get (LN_CNT_RETRAIN l) = (s.dev.get (LN_CNT_RETRAIN l) + 1) % 2 ^ 32 := by
  refine ⟨retrainEntry s.dev p l, ?_, retrainEntry_spec (portOf_self_mem port) active⟩
  rw [exec_retrains hc, execRetrain, State.withDev_live _ held, port]
  dsimp only
  rw [retrainPort_active active]

theorem exec_retrain_else {c : Instr} (hc : c = .retrain l ∨ c = .partnerRetrain l)
    (no : ∀ p, portOf s.dev l = some p → laneState s.dev p ≠ 5) : exec c s = .next s := by
  rw [exec_retrains hc, execRetrain]
  refine State.withDev_same ?_
  cases port : portOf s.dev l with
  | none => rfl
  | some p => exact if_neg (no p port)

end Retrain

/-- DOWN from service, before the flush (R159, R207). -/
def downEntry (d : Dev) (p : Nat) : Dev :=
  (leaveService (clearSurvey ((portLanes d p).foldl laneDown d) p) p).lane p
    fun h => { h with lostIn := 0, txAck := false, ackSent := false, rxAck0 := false }

theorem portDown_eq (g : Grid) (d : Dev) (p : Nat) : portDown g d p = flushPort g (downEntry d p) p drLinkDown := rfl

theorem downEntry_live (d : Dev) (p : Nat) : (downEntry d p).get (PT_LINK.LIVE p) = 0 := by
  rw [downEntry, Dev.get_lane]
  exact leaveService_live ..

theorem downEntry_state (d : Dev) (p k : Nat) :
    laneState (downEntry d p) k = if k ∈ portLanes d p ∧ laneState d k ≠ 6 then 0 else laneState d k := by
  have rest (d : Dev) (f : LaneHid → LaneHid) : Writes (serviceBits ++ surveyBits) d ((leaveService (clearSurvey d p) p).lane p f) :=
    (((Writes.clearSurvey ..).mono (by decide)).trans ((Writes.leaveService ..).mono (by decide))).trans (.hidden ..)
  rw [downEntry, (rest ..).laneState (by decide), foldl_laneDown_state]

theorem Writes.downEntry (d : Dev) (p : Nat) : Writes ((4, 0, 2) :: serviceBits ++ surveyBits) d (downEntry d p) := by
  have fall (d : Dev) (ls : List Nat) : Writes ((4, 0, 2) :: scanBits) d (ls.foldl Machine.laneDown d) := foldl Writes.laneDown ls d
  exact ((((fall ..).mono (by decide)).trans ((clearSurvey ..).mono (by decide))).trans ((leaveService ..).mono (by decide))).trans (hidden ..)

section Reset
variable {s : State} {l : Fin 1024} {p : Nat}

theorem exec_laneReset (held : s.held = false) (port : portOf s.dev l = some p) :
    ∃ e, exec (.laneReset l) s = .next { s with dev := flushPort s.grid e p drLinkDown } ∧ e.get (PT_LINK.LIVE p) = 0
      ∧ ∀ k ∈ portLanes s.dev p, laneState e k = 0 ∨ laneState s.dev k = 6 := by
  have shadow : Writes [] s.dev (s.dev.shadow 1 p) := Writes.shadowPort ..
  have modes : SameModes s.dev (s.dev.shadow 1 p) := fun k => shadow.laneMode (by decide) k
  refine ⟨downEntry (s.dev.shadow 1 p) p, ?_, downEntry_live .., fun k mem => ?_⟩
  · show execLaneReset l s = _
    rw [execLaneReset, State.withDev_live _ held, laneReset, port]
    dsimp only
    rw [laneToDown, modes.portOf, port]
    dsimp only
    rw [portDown_eq]
  · rw [downEntry_state, modes.portLanes, shadow.laneState (by decide)]
    by_cases test : laneState s.dev k = 6
    · exact .inr test
    · exact .inl (if_pos ⟨mem, test⟩)

/-- A lane that is no port's goes to DOWN alone (R159). -/
theorem exec_laneReset_none (held : s.held = false) (port : portOf s.dev l = none) :
    ∃ e, exec (.laneReset l) s = .next { s with dev := e } ∧ (laneState e l = 0 ∨ laneState s.dev l = 6) := by
  refine ⟨laneDown s.dev l, ?_, ?_⟩
  · show execLaneReset l s = _
    rw [execLaneReset, State.withDev_live _ held, laneReset, port]
    dsimp only
    rw [laneToDown, port]
  · rw [laneDown_state]
    by_cases test : laneState s.dev l = 6
    · exact .inr test
    · exact .inl (if_pos ⟨rfl, test⟩)

end Reset

/-! ### The reference clock (R183) -/

/-- A fold reaches what one of its steps establishes from an invariant of all, where no later step undoes it. -/
theorem foldl_reaches {f : Dev → Nat → Dev} {I G : Dev → Prop} {x : Nat} (l : List Nat) (inv : ∀ d, ∀ y ∈ l, I d → I (f d y))
    (reach : ∀ d, I d → G (f d x)) (keep : ∀ d, ∀ y ∈ l, I d → G d → G (f d y)) (d : Dev) (first : I d) :
    I (l.foldl f d) ∧ (x ∈ l ∨ G d → G (l.foldl f d)) := by
  induction l generalizing d with
  | nil => exact ⟨first, fun h => h.resolve_left List.not_mem_nil⟩
  | cons y l ih =>
    have head := List.mem_cons_self (a := y) (l := l)
    obtain ⟨last, reached⟩ := ih (fun d z mem => inv d z (List.mem_cons_of_mem _ mem))
      (fun d z mem => keep d z (List.mem_cons_of_mem _ mem)) (f d y) (inv d y head first)
    refine ⟨last, fun h => reached ?_⟩
    rcases h with mem | done
    · rcases List.mem_cons.mp mem with rfl | mem
      · exact .inr (reach d first)
      · exact .inl mem
    · exact .inr (keep d y head first done)

/-- Between d and e lanes went to DOWN or stayed, and no pin changed. -/
structure Falls (d e : Dev) : Prop where
  states : ∀ k, laneState e k = laneState d k ∨ laneState e k = 0
  pins : e.pins = d.pins

theorem Falls.trans {d e f : Dev} (h : Falls d e) (k : Falls e f) : Falls d f := by
  refine ⟨fun i => ?_, k.pins.trans h.pins⟩
  rcases k.states i with same | zero
  · rw [same]
    exact h.states i
  · exact .inr zero

/-- One lane's part in the loss of its die's clock: its port goes to DOWN, or the lane alone. -/
def clockless (g : Grid) (d : Dev) (l : Nat) : Dev := if isPort d l then portDown g d l else laneDown d l

theorem clockless_falls (g : Grid) (d : Dev) (l : Nat) : Falls d (clockless g d l) ∧ (laneState (clockless g d l) l = 0 ∨ laneState d l = 6) := by
  unfold clockless
  split
  · next port =>
    have flushed : MacSame (downEntry d l) (portDown g d l) := MacSame.flushPort g _ (isPort_iff.mp port).1 _
    have state (k : Nat) : laneState (portDown g d l) k = if k ∈ portLanes d l ∧ laneState d k ≠ 6 then 0 else laneState d k :=
      (flushed.laneState k).trans (downEntry_state ..)
    refine ⟨⟨fun k => ?_, flushed.pins.trans (Writes.downEntry d l).pins⟩, ?_⟩
    · rw [state]
      split
      · exact .inr rfl
      · exact .inl rfl
    · by_cases test : laneState d l = 6
      · exact .inr test
      · exact .inl ((state l).trans (if_pos ⟨isPort_mem port, test⟩))
  · refine ⟨⟨fun k => ?_, (Writes.laneDown d l).pins⟩, ?_⟩
    · rw [laneDown_state]
      split
      · exact .inr rfl
      · exact .inl rfl
    · by_cases test : laneState d l = 6
      · exact .inr test
      · exact .inl ((laneDown_state ..).trans (if_pos ⟨rfl, test⟩))

/-- After a fold over its lanes a die's lanes are DOWN or in TEST. -/
theorem clockless_foldl (g : Grid) (ls : List Nat) (d : Dev) :
    (ls.foldl (clockless g) d).pins = d.pins ∧ ∀ l ∈ ls, laneState (ls.foldl (clockless g) d) l = 0 ∨ laneState d l = 6 := by
  have fall (l : Nat) := foldl_reaches (f := clockless g) (I := Falls d) (G := fun e => laneState e l = 0 ∨ laneState d l = 6) (x := l) ls
    (fun e y _ sofar => sofar.trans (clockless_falls g e y).1)
    (fun e sofar => by
      rcases (clockless_falls g e l).2 with zero | test
      · exact .inl zero
      · rcases sofar.states l with same | zero
        · exact .inr (same ▸ test)
        · omega)
    (fun e y _ _ done => by
      rcases (clockless_falls g e y).1.states l with same | zero
      · rwa [same]
      · exact .inl zero) d ⟨fun _ => .inl rfl, rfl⟩
  exact ⟨(fall 0).1.pins, fun l mem => (fall l).2 (.inl mem)⟩

/-- Reports change neither a lane's state nor a pin. -/
theorem reports_foldl (ls : List Nat) (first : Nat) (d : Dev) :
    (ls.foldl (fun d l => if l = first then d.report (srcLane l) 0 else d.reportConseq (srcLane l) 0) d).pins = d.pins
      ∧ ∀ k, laneState (ls.foldl (fun d l => if l = first then d.report (srcLane l) 0 else d.reportConseq (srcLane l) 0) d) k
        = laneState d k := by
  refine List.foldlRecOn ls _ (motive := fun e => e.pins = d.pins ∧ ∀ k, laneState e k = laneState d k) ⟨rfl, fun _ => rfl⟩ ?_
  intro e ⟨pins, states⟩ l _
  split
  · exact ⟨pins, states⟩
  · exact ⟨pins, states⟩

section Clock
variable {s : State} {die : Fin 16}

/-- The lanes of a die. -/
def dieLanes (die : Nat) : List Nat := (List.range 64).map (64 * die + ·)

theorem mem_dieLanes {die l : Nat} (lo : 64 * die ≤ l) (hi : l < 64 * die + 64) : l ∈ dieLanes die :=
  List.mem_map.mpr ⟨l - 64 * die, List.mem_range.mpr (by omega), by omega⟩

/-- The device with a die's clock lost, its lanes not yet down. -/
def clockLost (d : Dev) (die : Nat) : Dev := { d with pins := { d.pins with refclkLost := die :: d.pins.refclkLost } }

/-- Each lane of the die with its event and its report, the first the fault, the others its consequences (R609). -/
def clockTold (d : Dev) (die : Nat) : Dev :=
  (dieLanes die).foldl (fun d l => if l = 64 * die then d.report (srcLane l) 0 else d.reportConseq (srcLane l) 0)
    ((dieLanes die).foldl (fun d l => d.event (LN_STATUS.REFCLK_LOSS l)) d)

theorem clockTold_spec (d : Dev) (die : Nat) : (clockTold d die).pins = d.pins ∧ ∀ k, laneState (clockTold d die) k = laneState d k := by
  have told (d : Dev) (l : Nat) : Writes [(0x10, 9, 9), (0x10, 24, 31)] d (d.event (LN_STATUS.REFCLK_LOSS l)) :=
    Writes.eventLane d l (by decide) (by decide)
  have events := Writes.foldl told (dieLanes die) d
  obtain ⟨pins, states⟩ := reports_foldl (dieLanes die) (64 * die) ((dieLanes die).foldl (fun d l => d.event (LN_STATUS.REFCLK_LOSS l)) d)
  exact ⟨pins.trans events.pins, fun k => (states k).trans (events.laneState (by decide) k)⟩

theorem exec_refclkLoss (held : s.held = false) (runs : die.val ∉ s.dev.pins.refclkLost) : exec (.refclkLoss die) s
    = .next { s with dev := clockTold ((dieLanes die).foldl (clockless s.grid) (clockLost s.dev die)) die } := by
  show execRefclkLoss die s = _
  rw [execRefclkLoss, State.withDev_live _ held, if_neg (by simpa using runs)]
  rfl

theorem refclkLoss_spec (held : s.held = false) (runs : die.val ∉ s.dev.pins.refclkLost) :
    ∃ e, exec (.refclkLoss die) s = .next { s with dev := e } ∧ e.pins.refclkLost = die.val :: s.dev.pins.refclkLost
      ∧ ∀ l, 64 * die.val ≤ l → l < 64 * die.val + 64 → laneState e l = 0 ∨ laneState s.dev l = 6 := by
  obtain ⟨pins, states⟩ := clockless_foldl s.grid (dieLanes die) (clockLost s.dev die)
  obtain ⟨pins', states'⟩ := clockTold_spec ((dieLanes die).foldl (clockless s.grid) (clockLost s.dev die)) die
  refine ⟨_, exec_refclkLoss held runs, by rw [pins', pins]; rfl, fun l lo hi => ?_⟩
  rw [states']
  exact states l (mem_dieLanes lo hi)

theorem exec_refclkLoss_again (lost : die.val ∈ s.dev.pins.refclkLost) : exec (.refclkLoss die) s = .next s := by
  show execRefclkLoss die s = _
  rw [execRefclkLoss]
  exact State.withDev_same (if_pos (by simpa using lost))

theorem exec_refclkReturn_none (runs : die.val ∉ s.dev.pins.refclkLost) : exec (.refclkReturn die) s = .next s := by
  show execRefclkReturn die s = _
  rw [execRefclkReturn]
  exact State.withDev_same (if_neg (by simpa using runs))

/-! #### The clock's return -/

theorem Writes.detectEntry (d : Dev) (p : Nat) :
    Writes ((4, 16, 16) :: (0x40, 0, 31) :: (4, 0, 2) :: frozenBits) d (detectEntry d p) :=
  ((((powered ..).mono (by decide)).trans ((setLaneStates ..).mono (by decide))).trans ((count _ p (by decide)).mono (by decide))).trans
    (anStart ..)

theorem detectEntry_state (d : Dev) (p k : Nat) : laneState (detectEntry d p) k = laneState d k ∨ laneState (detectEntry d p) k = 1 := by
  have ends (d : Dev) : Writes [(0x40, 0, 31)] d (anStart (d.bump (LN_CNT_DETECT p)) p) := (Writes.count d p (by decide)).trans (.anStart ..)
  rw [detectEntry, (ends _).laneState (by decide), setLaneStates_state _ _ (by decide), (Writes.powered ..).laneState (by decide)]
  split
  · exact .inr rfl
  · exact .inl rfl

/-- A start of detection: what it may write, and where lanes may go. -/
theorem detectStart_moves (d : Dev) (p : Nat) : Writes ((4, 16, 16) :: (0x40, 0, 31) :: (4, 0, 2) :: frozenBits) d (detectStart d p)
    ∧ ∀ k, laneState (detectStart d p) k = laneState d k ∨ laneState (detectStart d p) k = 1 := by
  by_cases may : Detects d p
  · rw [detectStart_of may]
    exact ⟨Writes.detectEntry .., detectEntry_state d p⟩
  · rw [detectStart_idle may]
    exact ⟨.refl d, fun _ => .inl rfl⟩

/-- Port p may go to DETECT, or has gone. -/
structure MayDetect (p : Nat) (d : Dev) : Prop where
  port : isPort d p = true
  up : d.flag (LN_CTL.ADMIN_UP p) = true
  run : lanesMayRun d = true
  clock : refclkOk d p = true
  calm : ∀ l ∈ portLanes d p, d.flag (LN_CTL.TEST_MODE l) = false ∧ laneState d l ≠ 6
  state : laneState d p = 0 ∨ laneState d p = 1

theorem MayDetect.step {p : Nat} {d : Dev} (h : MayDetect p d) (q : Nat) : MayDetect p (detectStart d q) := by
  obtain ⟨writes, states⟩ := detectStart_moves d q
  have modes : SameModes d (detectStart d q) := fun k => writes.laneMode (by decide) k
  refine ⟨by rw [modes.isPort, h.port], (writes.ctl p (by decide)).trans h.up, ?_, ?_, fun l mem => ⟨?_, ?_⟩, ?_⟩
  · have boot : (detectStart d q).get BOOT_STATE.STATE = d.get BOOT_STATE.STATE := (LowSame.detectStart d q).get (by decide)
    rw [lanesMayRun, boot, writes.silent, ← lanesMayRun, h.run]
  · rw [refclkOk, writes.pins, ← refclkOk, h.clock]
  · exact (writes.ctl l (by decide)).trans (h.calm l (modes.portLanes p ▸ mem)).1
  · have test := (h.calm l (modes.portLanes p ▸ mem)).2
    rcases states l with same | one
    · rwa [same]
    · omega
  · rcases states p with same | one
    · rw [same]
      exact h.state
    · exact .inr one

theorem MayDetect.reached {p : Nat} {d : Dev} (h : MayDetect p d) : laneState (detectStart d p) p = 1 := by
  rcases h.state with down | one
  · rw [detectStart_of ⟨h.port, down, h.up, h.run, h.clock, h.calm⟩]
    exact ((detectEntry_spec fun l mem => (h.calm l mem).2).1 p (isPort_mem h.port)).1
  · rcases (detectStart_moves d p).2 p with same | one
    · rwa [same]
    · exact one

/-- The device with a die's clock back, its ports not yet started. -/
def clockBack (d : Dev) (die : Nat) : Dev :=
  { d with pins := { d.pins with refclkLost := d.pins.refclkLost.filter (· ≠ die) } }

theorem exec_refclkReturn (held : s.held = false) (lost : die.val ∈ s.dev.pins.refclkLost) :
    exec (.refclkReturn die) s = .next { s with dev := (dieLanes die).foldl detectStart (clockBack s.dev die) } := by
  show execRefclkReturn die s = _
  rw [execRefclkReturn, State.withDev_live _ held, if_pos (by simpa using lost)]
  rfl

theorem refclkReturn_spec (held : s.held = false) (lost : die.val ∈ s.dev.pins.refclkLost) :
    ∃ e, exec (.refclkReturn die) s = .next { s with dev := e } ∧ die.val ∉ e.pins.refclkLost
      ∧ ∀ p, 64 * die.val ≤ p → p < 64 * die.val + 64 → isPort s.dev p = true → laneState s.dev p = 0 →
          s.dev.flag (LN_CTL.ADMIN_UP p) = true → lanesMayRun s.dev = true →
          (∀ l ∈ portLanes s.dev p, s.dev.flag (LN_CTL.TEST_MODE l) = false ∧ laneState s.dev l ≠ 6) → laneState e p = 1 := by
  have pins : ((dieLanes die).foldl detectStart (clockBack s.dev die)).pins = (clockBack s.dev die).pins :=
    (Writes.foldl (fun d q => (detectStart_moves d q).1) _ _).pins
  have gone : die.val ∉ (clockBack s.dev die).pins.refclkLost := by simp [clockBack]
  refine ⟨_, exec_refclkReturn held lost, by rw [pins]; exact gone, fun p lo hi port down up run calm => ?_⟩
  have clock : refclkOk (clockBack s.dev die) p = true := by
    have here : p / 64 = die.val := by omega
    rw [refclkOk, here]
    simpa using gone
  have reached := foldl_reaches (f := detectStart) (I := MayDetect p) (G := fun e => laneState e p = 1) (x := p) (dieLanes die)
    (fun d q _ may => may.step q) (fun d may => may.reached)
    (fun d q _ _ one => by
      rcases (detectStart_moves d q).2 p with same | one'
      · rwa [same]
      · exact one') (clockBack s.dev die) ⟨port, up, run, clock, calm, .inl down⟩
  exact reached.2 (.inl (mem_dieLanes lo hi))

end Clock

/-- Settles O35, by a lemma for each fault and each reset. -/
theorem laneFaults : Obligations.LaneFaults := by
  refine ⟨fun l s held => ⟨fun p port locked => ⟨lossOfLock_relocks held port locked, lossOfLock_trains held port locked⟩,
      exec_lossOfLock_else⟩, fun p s held port => ⟨fun serves => ⟨exec_fecAlignLoss held port serves, fun off => ?_,
        exec_fecAlignRegained held port serves, exec_remoteFaultRx held port serves, exec_localFaultRx held port serves⟩, ?_,
      exec_linkFaultCleared held port, ?_⟩, fun p s no c hc => ?_,
    fun l p s held port => ⟨fun c hc => ⟨exec_retrain_active hc held port, fun no => ?_⟩, exec_laneReset held port⟩,
    fun l s held port => ⟨?_, ?_, exec_laneReset_none held port⟩,
    fun die s held => ⟨fun runs => ⟨refclkLoss_spec held runs, exec_refclkReturn_none runs⟩,
      fun lost => ⟨exec_refclkLoss_again lost, refclkReturn_spec held lost⟩⟩⟩
  · exact exec_fecAlignLoss_else (.inr (.inr off))
  · exact fun exchange active => exec_orderedSets_else (.inr ⟨exchange, active⟩)
  · exact fun here there => exec_linkFaultCleared_else (.inr ⟨here, there⟩)
  · have sets := exec_orderedSets_else (.inl no)
    simp only [List.mem_cons, List.not_mem_nil, or_false] at hc sets
    rcases hc with h | h | h | h | rfl
    · exact sets c (.inl h)
    · exact sets c (.inr (.inl h))
    · exact sets c (.inr (.inr (.inl h)))
    · exact sets c (.inr (.inr (.inr h)))
    · exact exec_linkFaultCleared_else (.inl no)
  · exact exec_retrain_else hc fun q other => by rwa [← Option.some.inj (port.symm.trans other)]
  · exact exec_retrain_else (.inl rfl) (by simp [port])
  · exact exec_retrain_else (.inr rfl) (by simp [port])

end Sys2Proof.Machine
